-- ==== Sys2Proof/Word.lean ====
section
/-! DEFINITION. The word types of the Tabryn TB8: the 32-bit word in which messages, plan images, descriptors and
records are laid out (R9), and the byte. -/

namespace Sys2Proof

/-- A 32-bit word of a message, an image, a descriptor, a record or a register (R9). -/
abbrev Word := BitVec 32

/-- A byte (R5). -/
abbrev Byte := BitVec 8

end Sys2Proof
end

