-- ==== Sys2Proof/Syntax.lean ====
section
/-! DEFINITION. The commands of the block: one constructor of `Instr` per row of the table of operations and events,
with the row's operands. A row that runs a host command names the command by `id`, its place in the order in which
Welmus took commands (R88); what the environment decides (a frame, a measured value, the verdict of a cryptographic
check, coded data) comes as operands. -/

namespace Sys2Proof

/-! ### Frames as they stand on the wire, with their header fields read (R132, R171, R174, R182, R198, R204) -/

/-- One VLAN tag (R132). -/
structure VlanTag where
  tpid : Nat
  pcp : Nat
  vid : Nat
  deriving DecidableEq, Repr, Inhabited

/-- An IPv4 or IPv6 header. -/
structure IpHdr where
  v6 : Bool := false
  headerLen : Nat := 20
  mf : Bool := false
  frag : Nat := 0
  csumOk : Bool := true
  lenOk : Bool := true
  proto : Nat := 17
  src : Nat := 0
  dst : Nat := 0
  dscp : Nat := 0
  ecn : Nat := 0
  ident : Nat := 0
  df : Bool := false
  ttl : Nat := 64
  flow : Nat := 0
  deriving DecidableEq, Repr, Inhabited

/-- A UDP header; `csumOk` is false for a wrong checksum and for an IPv6 checksum of zero (R171). -/
structure UdpHdr where
  sport : Nat := 0
  dport : Nat := 0
  lenOk : Bool := true
  csumOk : Bool := true
  deriving DecidableEq, Repr, Inhabited

/-- One template of an AV1 template dependency structure, with its decode target indications (R185). -/
structure DdTemplate where
  s : Nat
  t : Nat
  dtis : List Nat
  deriving DecidableEq, Repr, Inhabited

/-- An AV1 template dependency structure: template_id_offset, the highest layer of each decode target, the
templates, and its size in bytes (R185). -/
structure DdStructure where
  idOffset : Nat
  targets : List (Nat × Nat)
  templates : List DdTemplate
  size : Nat
  deriving DecidableEq, Repr, Inhabited

/-- What a dependency descriptor element carries (R184). -/
structure DdInfo where
  startOfFrame : Bool
  templateId : Nat
  struct? : Option DdStructure
  deriving DecidableEq, Repr, Inhabited

/-- One element of a header extension block; `endOff` is the offset in the block of the byte after it (R174). -/
structure ExtElem where
  id : Nat
  data : List Nat
  endOff : Nat
  dd : Option DdInfo := none
  deriving DecidableEq, Repr, Inhabited

/-- An RTP packet. `extForm` is the profile word of the extension, 0 for none; `extLen` the bytes of the extension
with its 4-byte header; `truncated` says that the CSRC list or the extension runs beyond the packet (R174);
`payload` holds the payload bytes without padding, `pad` the padding, and `padCount` is the padding count, 0 where the packet has no
padding. -/
structure RtpPacket where
  version : Nat := 2
  csrc : List Nat := []
  truncated : Bool := false
  pad : List Nat := []
  padCount : Nat := 0
  marker : Bool := false
  pt : Nat := 0
  seq : Nat := 0
  ts : Nat := 0
  ssrc : Nat := 0
  extForm : Nat := 0
  extLen : Nat := 0
  ext : List ExtElem := []
  payload : List Nat := []
  deriving DecidableEq, Repr, Inhabited

/-- One report block of an SR or RR. -/
structure RrBlock where
  ssrc : Nat
  fractionLost : Nat := 0
  cumulativeLost : Nat := 0
  extHighest : Nat := 0
  jitter : Nat := 0
  lsr : Nat := 0
  dlsr : Nat := 0
  deriving DecidableEq, Repr, Inhabited

/-- One packet report of an RFC 8888 block: received, and the arrival time offset (13 bits). -/
structure CcfbReport where
  received : Bool
  ato : Nat
  deriving DecidableEq, Repr, Inhabited

/-- One RFC 8888 block: the media SSRC, the first sequence number and the reports from it on. -/
structure CcfbBlock where
  ssrc : Nat
  beginSeq : Nat
  reports : List CcfbReport
  deriving DecidableEq, Repr, Inhabited

/-- One part of an RTCP compound (R198); a part that the device hands to Welmus as it came is its bytes. -/
inductive RtcpPart where
  | sr (ssrc ntp rtpTs packets octets : Nat) (blocks : List RrBlock)
  | rr (ssrc : Nat) (blocks : List RrBlock)
  | sdes (ssrc : Nat) (cname : Option (List Nat))
  | bye (bytes : List Nat)
  | app (bytes : List Nat)
  | xr (bytes : List Nat)
  | nack (media : Nat) (fci : List (Nat × Nat))
  | pli (media : Nat)
  | fir (media : Nat)
  | ccfb (reportUs : Nat) (blocks : List CcfbBlock)
  | rtpfb (fmt : Nat) (bytes : List Nat)
  | psfb (fmt : Nat) (bytes : List Nat)
  deriving DecidableEq, Repr, Inhabited

/-- An RTCP compound with its SRTCP index and E flag: its bytes in plaintext form, with the parts that they read as. -/
structure Rtcp where
  sender : Nat := 0
  parts : List RtcpPart := []
  e : Bool := true
  index : Nat := 0
  bytes : List Nat := []
  deriving DecidableEq, Repr, Inhabited

/-- The inner packet of a Zwiva datagram (R204). -/
inductive Inner where
  | rtp (p : RtpPacket)
  | rtcp (c : Rtcp)
  deriving DecidableEq, Repr, Inhabited

/-- A Zwiva datagram (R204). -/
structure Zwiva where
  magic : Nat := 0x5A
  version : Nat := 1
  rtcp : Bool := false
  simul : Bool := false
  stream : Nat := 0
  s : Nat := 0
  t : Nat := 0
  key : Bool := false
  sw : Bool := false
  sof : Bool := false
  v : Bool := false
  level : Nat := 0
  sourceIndex : Nat := 0
  format : Nat := 0
  streamSsrc : Nat := 0
  trunkIndex : Nat := 0
  inner : Inner := .rtp {}
  deriving DecidableEq, Repr, Inhabited

/-- The messages of the Precision Time Protocol (R152). -/
inductive PtpKind where
  | sync | followUp | delayReq | delayResp | pdelayReq | pdelayResp | pdelayRespFollowUp | announce | other
  deriving DecidableEq, Repr, Inhabited

/-- A message of the Precision Time Protocol (R152), with the fields of IEEE 1588-2019 that a slave-only ordinary clock reads:
`source` and `requester` are port identities; `logInterval` is logMessageInterval; `correction` is in units of 2^-16 ns; `time` is
the timestamp that the message carries, in ns; `gm` is an Announce message's priority1, clock class, accuracy, variance, priority2
and grandmaster identity, and `steps` its stepsRemoved. -/
structure PtpMsg where
  kind : PtpKind := .sync
  domain : Nat := 0
  seq : Nat := 0
  source : Nat := 0
  twoStep : Bool := false
  logInterval : Int := 0
  correction : Int := 0
  time : Nat := 0
  requester : Nat := 0
  gm : List Nat := []
  steps : Nat := 0
  deriving DecidableEq, Repr, Inhabited

/-- What a frame holds behind its headers: a UDP payload, or a PTP message in UDP or in the frame itself. -/
inductive App where
  | rtp (p : RtpPacket)
  | rtcp (c : Rtcp)
  | zwiva (z : Zwiva)
  | stun (bindingRequest : Bool)
  | ptp (m : PtpMsg)
  | raw (len : Nat)
  deriving DecidableEq, Repr, Inhabited

/-- A MAC control frame that carries pause or PFC (R133 step 4, R136). -/
inductive MacCtl where
  | none
  | pause (quanta : Nat)
  | pfc (enable : Nat) (quanta : List Nat)
  deriving DecidableEq, Repr, Inhabited

/-- An Ethernet frame; `length` counts from destination address to FCS (R133). `wire` holds the bytes of the UDP payload as they
stand on the wire; `app` is what they read as, in plaintext form (R171, R173, R217 to R220). -/
structure Frame where
  da : Nat := 0
  sa : Nat := 0
  tags : List VlanTag := []
  etype : Nat := 0x0800
  length : Nat := 64
  fcsOk : Bool := true
  ctl : MacCtl := .none
  ip : Option IpHdr := none
  udp : Option UdpHdr := none
  wire : List Nat := []
  app : App := .raw 0
  deriving DecidableEq, Repr, Inhabited

/-- The first byte of a frame's UDP payload (R171). -/
def Frame.firstByte (f : Frame) : Nat := f.wire.getD 0 0

/-- The second byte of a frame's UDP payload (R173). -/
def Frame.secondByte (f : Frame) : Nat := f.wire.getD 1 0

/-! ### Other operands -/

/-- How the fetch of a plan image ended: the image's words, or a bus error or poisoned read (R109, R446). -/
inductive Fetch where
  | image (words : List Word)
  | failed
  deriving DecidableEq, Repr, Inhabited

/-- The header of a boot image (R56): words 0 to 4, and whether every reserved field of words 1, 2 and 41 to 1023 is
zero. -/
structure BootHeader where
  magic : Word
  word1 : Word
  word2 : Word
  bodyLength : Nat
  fwVersion : Word
  reservedZero : Bool
  deriving DecidableEq, Repr, Inhabited

/-- What a read of a boot source shows (R52, R57). -/
inductive BootRead where
  | header (h : BootHeader)
  | noImage
  | flashError
  deriving DecidableEq, Repr, Inhabited

/-- The outcome of one calibration or resume step (R61, R62). -/
inductive CalStep where
  | c1 (ok : Bool)
  | c2 (ok : Bool)
  | c3 (failedPchs : List Nat)
  | c4 (failedLanes : List Nat)
  | c5 (means : List Nat) (excluded : List (Nat × Nat)) (flashBaseline : Option (List Nat)) (flashWritable : Bool)
  | c6 (ok : Bool)
  | hbmResume
  deriving DecidableEq, Repr, Inhabited

/-- The references that the frequency monitor counts (R487). -/
inductive Ref where
  | sysclk
  | sdref (q : Nat)
  | pcie
  | ref10m
  deriving DecidableEq, Repr, Inhabited

/-- The outcome of an instance's test (R460): passed, or the DETAIL code of its failure. -/
structure TestResult where
  pass : Bool
  detail : Nat
  deriving DecidableEq, Repr, Inhabited

/-- An eye scan's measurements (R461): heights (mV) and widths (10^-3 UI) of the lower, middle and upper eye, the
signal-to-noise ratio in 0.1 dB, and whether signal was present at the end. -/
structure EyeScan where
  heights : List Nat
  widths : List Nat
  snr : Nat
  signal : Bool
  deriving DecidableEq, Repr, Inhabited

/-- A DMA descriptor read from host memory: its eight words (R435). -/
abbrev Descriptor := List Word

/-- How the reading of a descriptor's source went: the bytes read, in address order, and the failure that ended it,
if any (R437, R439). -/
inductive SrcEnd where
  | complete | busError | poisoned
  deriving DecidableEq, Repr, Inhabited

/-- A picture's samples: width, height, whether 10-bit, and the Y, Cb and Cr planes row by row. -/
structure Picture where
  w : Nat := 0
  h : Nat := 0
  deep : Bool := false
  y : List Nat := []
  cb : List Nat := []
  cr : List Nat := []
  deriving DecidableEq, Repr, Inhabited

/-- What the decoding of one access unit showed, by the codec's own rules (R340 to R348): `refsRead` are the counts of the
pictures that the bitstream names as references and `refsMissing` how many it names that no picture ever filled; `outputs` are the
pictures output now, by count; `refs` the counts of the pictures that the session's reference list, those still to be output among
them, holds afterwards. -/
structure DecodeResult where
  pic : Picture
  key : Bool := false
  regionConcealed : Bool := false
  boundsAt : Option Nat := none
  rejected : Bool := false
  noHeader : Bool := false
  refsRead : List Nat := []
  refsMissing : Nat := 0
  outputs : List Nat := []
  refs : List Nat := []
  deriving DecidableEq, Repr, Inhabited

/-- What the coding of one band gave, by the codec's own rules (R388, R390): the coded bytes at the band QP (or skipped), the NAL
unit or OBU lengths, the coded bytes of the skip band that replaces it if one must, its units, the reconstruction of the coded
bytes, and which of its 16 x 16 blocks, in raster order, are intra blocks. -/
structure BandCode where
  data : List Nat
  units : List Nat
  skipData : List Nat := []
  skipUnits : List Nat := []
  recon : Picture := {}
  intra : List Bool := []
  deriving DecidableEq, Repr, Inhabited

/-- Comparison and branch targets of a DSP branch (R283). -/
inductive BranchKind where
  | static
  | register
  deriving DecidableEq, Repr, Inhabited

/-- The access of a DSP load/store slot (R280, R281). -/
structure DspAccess where
  store : Bool
  size : Nat
  ptr : Nat
  dreg : Nat
  step : Option Int
  useM : Bool
  offset : Int
  deriving DecidableEq, Repr, Inhabited

/-- What a MAC slot does: two products into one accumulator (R280). -/
structure DspMac where
  acc : Nat
  a0 : Nat
  b0 : Nat
  a1 : Nat
  b1 : Nat
  deriving DecidableEq, Repr, Inhabited

/-- A register that a move names (R279, R280). -/
inductive DspReg where
  | d (i : Nat)
  | a (i : Nat)
  | p (i : Nat)
  | m (i : Nat)
  | b (i : Nat)
  | l (i : Nat)
  | am (i : Nat)
  | sv
  | sx
  | sc
  deriving DecidableEq, Repr, Inhabited

/-- A move of the control slot: from a register, or an immediate (R280). -/
structure DspMove where
  dst : DspReg
  src : Option DspReg
  imm : Int := 0
  deriving DecidableEq, Repr, Inhabited

/-- What the other slots of a bundle do beside the operation that the command names (R280): MAC slots that accumulate or clear,
loads or a store (`uncorrectable`: one of them meets an uncorrectable word), and a move where the control slot is free. -/
structure DspBeside where
  macs : List DspMac := []
  clears : List Nat := []
  mem : List DspAccess := []
  uncorrectable : Bool := false
  move : Option DspMove := none
  deriving DecidableEq, Repr, Inhabited

/-- The bundle of a core in which an operation stands, but for the operation (R280). -/
structure DspBundle where
  core : Nat
  beside : DspBeside := {}
  deriving DecidableEq, Repr, Inhabited

/-- What the end of LOAD shows: whether the regulator acknowledged the first voltage target (R488), and the secret in the boot
window where the image that ran is the provisioning image (R212). -/
structure LoadEnd where
  avsAck : Bool
  provision : Option (List Nat) := none
  deriving DecidableEq, Repr, Inhabited

/-- The flush of measurements of one training pause pair (R422, R423): whether the margins of each of the channel's
two pseudo-channels passed the floor. -/
structure BurstResult where
  ok0 : Bool
  ok1 : Bool
  values0 : Nat := 0
  values1 : Nat := 0
  deriving DecidableEq, Repr, Inhabited

/-- Who reads a line of HBM as to panic (R416): no real-time port; the Sump fetch of a launch unit; the audio engine's input with
the bytes buffered ahead of its mix; the reference fetch of an encoder core with the rows ahead of its search position. -/
inductive RtPort where
  | none
  | sump (unit : Nat)
  | audio (ahead : Nat)
  | encoder (core ahead : Nat)
  deriving DecidableEq, Repr, Inhabited

/-- One command of the block: one constructor per row of the table. -/
inductive Instr where
  -- Welmus commands, by the place `id` in the order in which Welmus took them
  | deviceIdentify (id : Nat)
  | deviceModeSet (id : Nat)
  | tenantGrant (id : Nat)
  | planLoad (id : Nat)
  | planLoadFetchDone (id : Nat) (fetch : Fetch)
  | planCommit (id : Nat)
  | legOpen (id : Nat) (stun : Bool)
  | legBind (id : Nat)
  | legClose (id : Nat)
  | keyImport (id : Nat) (dropped : Bool)
  | keyErase (id : Nat)
  | portConfig (id : Nat)
  | timeConfig (id : Nat)
  | timeOffsetStep (id : Nat)
  | timeOffsetServo (id : Nat)
  | shaperSet (id : Nat)
  | routeSetAudio (id : Nat)
  | routeSetLayout (id : Nat)
  | gainSet (id : Nat)
  | statsRead (id : Nat)
  | logRead (id : Nat)
  | auditRead (id : Nat)
  | surveyRead (id : Nat)
  | selftestInstance (id : Nat)
  | selftestEyeScan (id : Nat)
  | selftestDevice (id : Nat)
  | selftestDone (id : Nat) (result : TestResult) (eye : EyeScan) (failures : List (Nat × Nat))
  | memRetrainPch (id : Nat)
  | memRetrainStack (id : Nat)
  | memRetrainDone (id : Nat) (pass : Bool) (values : List Nat)
  | unknownOpcode (id : Nat)
  | malformedMessage (id : Nat)
  -- mailbox registers and queues
  | cmdReserveRead (fn n : Nat)
  | cmdRingWrite (fn off : Nat) (value : Word) (poison : Bool)
  | commandTake (parityBad : List Nat)
  | cmdAbandoned (fn : Nat)
  | evqDataRead (fn : Nat) (parityBad : Bool)
  | evqStatusWrite (fn : Nat) (value : Word)
  | msixHoldoffExpiry (fn : Nat)
  -- modes and resets
  | modeArbiterTake
  | modeTransitionDone
  | drainDeadlineExpiry
  | quarantineEntry
  | powerOn (smbAddr : Nat)
  | mainPowerLoss (sramKept : Bool)
  | pinWarmReset (lowNs : Nat) (taken : Bool)
  | railOutOfWindow (rail : Nat) (lowNs : Nat)
  | mainResetRelease (bootSrc : Nat) (railsOk sysclkOk : Bool) (heldNs : Nat)
  | perst
  | pf0Flr
  | vfFlr (fn : Nat)
  | testReset
  | jtagInstruction (code : Nat)
  | watchdogExpiry
  | fwRestartDone
  -- boot
  | bootImageCheck (read : BootRead)
  | imageAuthenticated (digestOk signatureOk bodyRead : Bool)
  | bootWindowWrite (off : Nat) (value : Byte)
  | bootDoorbell (length : Word)
  | loadComplete (load : LoadEnd)
  | calibrationStepDone (step : CalStep)
  | resetMarkWrite
  | resetCauseWrite (fn : Nat) (value : Word)
  -- management
  | getIdentity
  | getStatus
  | getTemperature
  | getPower (deciwatts : Nat)
  | smbusSdaStuck (clocks : Nat) (recovered : Bool)
  | smbusSclStuck (recovered : Bool)
  | smbusRetry (clocks : Nat) (recovered : Bool)
  | freqMonitorWindow (ref : Ref) (permille : Nat)
  -- time unit
  | tclkSourceChange
  | tclkSourceChangeDone
  | ref10mReturnTimer
  | timeLatch (fn : Nat)
  | ptpMessage (tb : Nat) (ask : Bool) (origin : Nat)
  | ppsInputEdge
  | ppsInputAbsent (tb : Nat)
  | holdoverTimeout (tb : Nat)
  | ppsOutputRise
  | ppsOutputFall
  -- plans
  | mediaTick (conf : Nat)
  | planBankRetired (conf : Nat)
  | planRetireTimeout (conf : Nat)
  -- ports and MAC
  | portSignalDetect (port lane : Nat) (signal : Bool)
  | waitSignalTimeout (port : Nat)
  | trainDone (port : Nat) (inverted : Nat)
  | trainTimeout (port : Nat)
  | alignDone (port order skewPs : Nat)
  | alignTimeout (port : Nat)
  | bringupRetryExpiry (port : Nat)
  | linkLoss (port : Nat) (lanesLost : List Nat)
  | laneShorted (lane : Nat)
  | frameReceive (port : Nat) (frame : Frame) (fecCorrected fecBad : Nat) (symbols : List Nat)
  | pauseHoldExpiry (port which : Nat)
  | pauseWatchdogInterval (port : Nat)
  | pauseTxRepeat (port : Nat)
  -- leg pipeline
  | ingressTakeFrame (p : Nat)
  | localInject (p : Nat)
  | localStarved (task : Nat)
  | cipherTake (group unit victim : Nat)
  | decryptComplete (group unit : Nat)
  | reassemblyTimeout (conf session : Nat)
  | stunRequest
  | consentExpiry (leg : Nat)
  | keyReqIntervalEnd (leg : Nat)
  | rrSend (leg : Nat)
  | upstreamNackSend (leg : Nat)
  | replicatorWalk (p : Nat)
  | egressAssemble (p : Nat)
  | egressCharge (p : Nat)
  | sumpSpill (copy : Nat)
  | sumpFetch (copy : Nat) (poisoned : Bool)
  | launchHandoff (port cls : Nat)
  | macFrameStart (port : Nat)
  | probeSelWrite (fn : Nat) (value : Word)
  -- task scheduler
  | graphRelease
  | schedulerTick
  | instanceDeadline
  | taskDispatch (kind : Nat)
  | preempt (core : Nat)
  | resume (core : Nat)
  | taskCompletion (task owner gen : Nat) (records : List (List Word)) (cycles : Nat)
  | taskBudgetExpiry
  | abortAck (task : Nat)
  | abortTimeout (task : Nat)
  | decoderOverrun (task : Nat)
  | drainTimeout (id : Nat)
  | fencedInstanceRelease (kind inst : Nat) (result : TestResult)
  | schedTickWrite (fn : Nat) (value : Word)
  | lanternCtrlWrite (fn : Nat) (value : Word)
  | lanternSync
  -- DSP cores
  | pmForcedUnmask (core : Nat)
  | rep (bundle : DspBundle) (count : Nat) (fromD : Option Nat) (endAt : Nat)
  | brk (bundle : DspBundle)
  | dspBranch (bundle : DspBundle) (kind : BranchKind) (target : Nat) (legal : Bool)
  | dspLoadStore (bundle : DspBundle) (acc : DspAccess) (uncorrectable : Bool)
  | dspMac (bundle : DspBundle) (acc : Nat) (a0 b0 a1 b1 : Nat)
  | sinit (bundle : DspBundle) (isMax : Bool)
  | max (bundle : DspBundle) (dreg : Nat)
  | min (bundle : DspBundle) (dreg : Nat)
  | nrw (bundle : DspBundle) (acc s w dreg : Nat)
  | pmsk (bundle : DspBundle)
  | punm (bundle : DspBundle)
  | dmaq (bundle : DspBundle) (channel : Nat) (dregs : List Nat)
  | dmaw (bundle : DspBundle) (channel : Nat)
  | dspDmaComplete (core slot channel : Nat) (windowData : List Word)
  | dspEnd (bundle : DspBundle) (status : Nat)
  -- media engines
  | mixBusFrame (task : Nat)
  | gainStepTimeout (conf bus col : Nat)
  | decodePictureDone (task : Nat) (result : DecodeResult)
  | composeRowDone (task : Nat)
  | coarseSearchDone (task : Nat)
  | encodeRowDone (task : Nat) (code : BandCode)
  | encSelWrite (fn : Nat) (value : Word)
  -- HBM
  | hbmRead (pch addr cls : Nat) (port : RtPort) (hostDma : Bool) (flips : List Nat)
  | hbmWrite (pch addr cls : Nat) (mask data : Nat) (poison : Bool) (flips : List Nat)
  | patrolScrubRow (pch : Nat) (flips : List (Nat × List Nat))
  | refreshDue (pch bank : Nat) (postpone pullIn : Bool)
  | hbmSensorRead (stack : Nat) (eighths : Int)
  | activateTableClear (pch : Nat)
  | neighbourRngReseed (words : List Word)
  | trainingBurst (stack channel : Nat) (result : BurstResult)
  | setPointChange
  -- host DMA
  | dmaDescriptorTake (fn ring : Nat) (desc : Descriptor) (data : List Nat) (srcEnd : SrcEnd) (frame : Frame)
  | dmaWriteBack (fn ring : Nat) (linkFailedAt : Option Nat)
  | ringTailWrite (fn ring : Nat) (value : Word)
  | ringCtrlWrite (fn ring : Nat) (value : Word)
  | ringStatusWrite (fn ring : Nat) (value : Word)
  | msixUnmask (fn vector : Nat)
  | busMasterChange (fn : Nat) (bme d3hot : Bool)
  | exceptionDelivery (port : Nat)
  -- logs, Survey, heat
  | faultRecordWrite (fail : Option Nat)
  | lgStatusWrite (fn : Nat) (value : Word)
  | sramSweep (array corrected : Nat) (uncorrectable : Option Nat) (object : Nat)
  | surveySample (values : List Nat) (railMv : Nat)
  | guardReplan (ack : Bool)
  | avsRetry (ack : Bool)
  | hbmMarginReplan
  | thermalSensorRead (sensors : List Int) (caseSide : Int)
  | junctionFatal
  | throttleStepTest
  | thermalExit
  | alarmShort (output : Nat) (readsHigh : Bool)
  | alarmRetry (output : Nat) (readsHigh : Bool)
  | registerWrite (fn off size : Nat) (value : Word)
  | auxPowerLoss
  | perstRelease (pcieRef : Bool)
  | hostLinkDown
  | hostLinkUp
  | setPointChangeDone
  | trainingBurstEnd (stack : Nat)
  | selftestTimeout (id : Nat)
  | memRetrainStartTimeout (id : Nat)
  deriving DecidableEq, Repr, Inhabited

end Sys2Proof
end

