-- ==== Sys2Proof/WellFormed.lean ====
section
/-! DEFINITION. Well-formed commands: operands within the ranges that the spec gives the numbers they name (R16, R18, R251, R398,
R432, R453, R465, R473). Every command has a meaning on every operand; one that is not well formed names nothing. -/

namespace Sys2Proof

/-- A function, a port, a DMA ring, a pseudo-channel, a DSP core (R16, R279, R432). -/
def fnOk (fn : Nat) : Bool := decide (fn < 64)
def portOk (p : Nat) : Bool := decide (p < 128)
def ringOk (r : Nat) : Bool := decide (r < 4)
def pchOk (n : Nat) : Bool := decide (n < 192)
def dspOk (c : Nat) : Bool := decide (c < 144)
def rtPortOk : RtPort → Bool
  | .none => true
  | .sump u => decide (u < 8)
  | .audio a => decide (a ≤ 65536)
  | .encoder c _ => decide (c < 32)

/-- A bundle has two MAC slots, one load/store slot of two loads or one store of up to 8 bytes with offsets from -512 to 511, and
one control slot (R280, R281). -/
def bundleOk (macs : Nat) (mem : List DspAccess) (control : Bool) (b : DspBeside) : Bool :=
  let m := mem ++ b.mem
  decide (macs + b.macs.length + b.clears.length ≤ 2)
    && (decide (m.length ≤ 1) || (decide (m.length = 2) && m.all fun a => !a.store))
    && (m.all fun a => decide (a.size ≤ 8) && decide (-512 ≤ a.offset) && decide (a.offset ≤ 511)) && (!control || b.move.isNone)

/-- A leg, a conference, a live task, a time base (R16). -/
def legOk (l : Nat) : Bool := decide (l < 1048576)
def confOk (c : Nat) : Bool := decide (c < 65536)
def taskOk (t : Nat) : Bool := decide (t < 262144)
def baseOk (b : Nat) : Bool := decide (b < 8)

/-- Every operand of the command lies in its range. -/
def Instr.wf : Instr → Bool
  | .cmdReserveRead fn n => fnOk fn && decide (1 ≤ n) && decide (n ≤ 1024)
  | .cmdRingWrite fn off _ _ => fnOk fn && decide (off < 16384)
  | .cmdAbandoned fn | .evqDataRead fn _ | .evqStatusWrite fn _ | .msixHoldoffExpiry fn | .resetCauseWrite fn _
  | .timeLatch fn | .probeSelWrite fn _ | .schedTickWrite fn _ | .lanternCtrlWrite fn _ | .encSelWrite fn _
  | .busMasterChange fn _ _ | .lgStatusWrite fn _ => fnOk fn
  | .vfFlr fn => fnOk fn && decide (1 ≤ fn)
  | .registerWrite fn off size _ => fnOk fn && decide (off < 16777216) && (size == 1 || size == 2 || size == 4 || size == 8)
  | .powerOn addr => decide (addr < 4)
  | .railOutOfWindow rail _ => decide (rail < 7)
  | .mainResetRelease src _ _ _ => decide (src < 4)
  | .bootWindowWrite off _ => decide (off < 12587008)
  | .freqMonitorWindow (.sdref q) _ => decide (q < 8)
  | .ptpMessage tb _ _ | .ppsInputAbsent tb | .holdoverTimeout tb => baseOk tb
  | .mediaTick c | .planBankRetired c | .planRetireTimeout c => confOk c
  | .portSignalDetect p lane _ => portOk p && decide (lane < 4)
  | .waitSignalTimeout p | .trainTimeout p | .alignTimeout p | .bringupRetryExpiry p | .pauseWatchdogInterval p
  | .pauseTxRepeat p | .macFrameStart p | .exceptionDelivery p => portOk p
  | .trainDone p _ | .alignDone p _ _ | .linkLoss p _ | .frameReceive p _ _ _ _ => portOk p
  | .pauseHoldExpiry p which => portOk p && decide (which ≤ 8)
  | .laneShorted lane => portOk lane
  | .ingressTakeFrame p | .localInject p | .replicatorWalk p | .egressAssemble p | .egressCharge p => decide (p < 8)
  | .localStarved t | .abortAck t | .abortTimeout t | .decoderOverrun t | .composeRowDone t | .coarseSearchDone t
  | .mixBusFrame t => taskOk t
  | .taskCompletion t owner gen _ _ => taskOk t && decide (owner < 65536) && decide (gen < 256)
  | .decodePictureDone t _ | .encodeRowDone t _ => taskOk t
  | .cipherTake g u _ | .decryptComplete g u => decide (g < 8) && decide (u < 5)
  | .reassemblyTimeout c session => confOk c && decide (session < 65536)
  | .consentExpiry l | .keyReqIntervalEnd l | .rrSend l | .upstreamNackSend l => legOk l
  | .launchHandoff p cls => portOk p && decide (cls < 8)
  | .taskDispatch kind => decide (kind < 5)
  | .preempt c | .resume c | .pmForcedUnmask c | .dspDmaComplete c _ _ _ => dspOk c
  | .rep b _ _ _ | .brk b | .dspBranch b _ _ _ | .sinit b _ | .max b _ | .min b _ | .nrw b _ _ _ _ | .pmsk b | .punm b
  | .dmaq b _ _ | .dmaw b _ | .dspEnd b _ => dspOk b.core && bundleOk 0 [] true b.beside
  | .dspLoadStore b a _ => dspOk b.core && bundleOk 0 [a] false b.beside
  | .dspMac b _ _ _ _ _ => dspOk b.core && bundleOk 1 [] false b.beside
  | .fencedInstanceRelease kind _ _ => decide (kind ≤ 5)
  | .gainStepTimeout c bus _ => confOk c && decide (bus < 65536)
  | .hbmRead n addr cls port _ _ => pchOk n && decide (addr < 805306368) && decide (cls ≤ 9) && rtPortOk port
  | .hbmWrite n addr cls _ _ _ _ => pchOk n && decide (addr < 805306368) && decide (cls ≤ 9)
  | .patrolScrubRow n _ | .activateTableClear n => pchOk n
  | .refreshDue n bank _ _ => pchOk n && decide (bank < 48)
  | .hbmSensorRead k _ | .trainingBurstEnd k => decide (k < 6)
  | .trainingBurst k channel _ => decide (k < 6) && decide (channel < 16)
  | .neighbourRngReseed ws => decide (ws.length = 192)
  | .dmaDescriptorTake fn ring desc _ _ _ => fnOk fn && ringOk ring && decide (desc.length = 8)
  | .dmaWriteBack fn ring _ | .ringTailWrite fn ring _ | .ringCtrlWrite fn ring _ | .ringStatusWrite fn ring _ =>
    fnOk fn && ringOk ring
  | .msixUnmask fn vector => fnOk fn && decide (vector < 5)
  | .sramSweep array _ _ _ => decide (array ≤ 12)
  | .surveySample values _ => decide (values.length = 64)
  | .thermalSensorRead sensors _ => decide (sensors.length = 24)
  | .alarmShort k _ | .alarmRetry k _ => decide (k < 3)
  | _ => true

end Sys2Proof
end

