-- ==== Sys2Proof/Decode.lean ====
section
/-! DEFINITION. The decoder of table words. The table of operations and events gives no row any bits (its "fields" are empty): a
command of this block comes as an operation or event with operands, never as a word, so no word spells one. -/

namespace Sys2Proof

/-- The command that a word of `nbits` bits spells by the table's bits: none, because no row has bits. -/
def decodeTableWord (_nbits _w : Nat) : Option Instr := none

end Sys2Proof
end

