-- ==== Sys2Proof/Config.lean ====
section
/-! DEFINITION. What the spec fixes once for a device without giving its value: free values (constants with no body,
so that no proof can see what they are) and the contents of ROMs. Every one has a row in the assumption log. -/

namespace Sys2Proof.Config

/-- The n-th free 32-bit value that the device draws: TS_BASE of taps and of encode sessions (R304, R392), and
words of the storage key (R209). Free: log entry 3. -/
opaque freeWord : Nat → Word

/-- Which of four entries gives way at a displacement in the lookup table, for the table's entries, the bucket and the displacements
left: the spec names no rule. Free: log entry 113. -/
opaque displaced (entries bucket left : Nat) : Nat

/-- The pseudo-channel on which the fetch of a Sump copy begins, by the copy's charge number: the spec does not say which cells a
copy takes. Free: log entry 117. -/
opaque sumpPch (copy : Nat) : Nat

/-- What the estimator's fixed point holds for a number beyond its 32 bits: the spec gives none. Free: log entry 124. -/
opaque wideFix : Int → Int

/-- The command sequence number of a FIR that the device sends to a leg: the spec gives none. Free: log entry 7. -/
opaque firSeq (leg media : Nat) : Nat

/-- Coefficient `i` (Q1.23) of the first half of the symmetric filter from rate code `a` to rate code `b`, its middle tap the last
(R301): the spec gives the filters by their bands and not by numbers. Free: log entry 5. -/
opaque firRom (a b i : Nat) : BitVec 24

/-- Coefficient `j` (Q1.8) of the scaler's filter with `taps` taps at phase `p` of 64 (R362), as ROM holds it. Free: log entry 5. -/
opaque scaleRom (taps p j : Nat) : BitVec 9

/-- A luma sample between whole samples by the interpolation of a FORMAT's codec: from the fraction in quarter samples and the 8 x 8
samples around it, row by row (R383). Free: log entry 131. -/
opaque subSample (format : Nat) (deep : Bool) (fx fy : Nat) (around : List Nat) : Nat

/-- Lambda of a block's QP in units of 1/256 (R383). Free: log entry 131. -/
opaque motionLambda (format qp : Nat) : Nat

/-- The bits of a vector difference in quarter samples, in the code of a FORMAT (R383). Free: log entry 131. -/
opaque vectorBits (format : Nat) (dx dy : Int) : Nat

/-- The SAD that stands in a statistics entry for an intra block, which has no vector (R394). Free: log entry 131. -/
opaque intraSad (session picture block : Nat) : Nat

/-- The value a monitor's raw sample takes when normalised to 70 degrees C and the rail at target (R466): fused
coefficients the spec does not give. Arguments: monitor, raw value, junction temperature in 0.125 degrees C, rail in
mV. Free: log entry 6. -/
opaque normalise : Nat → Nat → Int → Nat → Nat

/-- The 32-bit word that a generator of R419 holds after the draw from the word before it. Free: log entry 3. -/
opaque neighbourDraw : Word → Word

/-- LEVEL of a frame of samples, 0 to 127 (R299), as RFC 6464 gives it: the spec states no arithmetic. Free: log entry 5. -/
opaque audioLevel : List Int → BitVec 7

/-- The IEEE 1588 clock identity of the device: the spec gives none. Free: log entry 111. -/
opaque clockIdentity : Nat

/-- The IPv4 or IPv6 address from which Welmus sends PTP messages: the spec gives none. Free: log entry 111. -/
opaque ptpAddress (v6 : Bool) : Nat

/-- The length in bytes of the application part of a STUN reply to an IPv4 (false) or IPv6 (true) leg: the spec gives
no layout. Free: log entry 7. -/
opaque stunReplyLength (v6 : Bool) : Nat

/-- The sender SSRC of the RTCP that the device originates for a leg: the spec gives none. Free: log entry 7. -/
opaque ownSsrc (leg : Nat) : Nat

/-- STATE_BYTES of a resident kernel in units of 64 bytes: the spec gives none. Free: log entry 28. -/
opaque residentState (kernel : Nat) : Nat

/-- LDM_FOOTPRINT of a resident kernel in units of 4,096 bytes: the spec gives none. Free: log entry 28. -/
opaque residentFootprint (kernel : Nat) : Nat

/-- ENTRY of a resident kernel, the address of its first bundle: the spec gives none. Free: log entry 28. -/
opaque residentEntry (kernel : Nat) : Nat

/-- Length in bytes of window 2 of a task of conference and REF: the spec does not say which buffer it is. Free: log
entry 28. -/
opaque auxWindow (conf ref : Nat) : Nat

/-- The device flow number that stands for a flow of an image in Lantern records: the spec gives no rule. Free: log
entry 26. -/
opaque deviceFlow (key : Nat) : Nat

/-- Chooses the FORMAT of the packets of a locally originated source that no session or resident encoder gives one: the spec
gives no rule. Free: log entry 34. -/
opaque localFormat (conf source : Nat) : Nat

/-- The sum over a band's blocks that rate control takes where the band has no vector field yet: the spec gives none.
Free: log entry 31. -/
opaque absentCost (session band : Nat) : Nat

/-- Sample `i` of plane `plane` of the rows that a band copies from a last completed picture that does not exist: the spec
gives none. Free: log entry 36. -/
opaque noPicture (output plane i : Nat) : Nat

/-- Field `k` of a report block that the device sends about stream `idx` of a leg (0 fraction lost, 1 jitter, 2 LSR,
3 DLSR): the receive state of R179 does not hold it. Free: log entry 39. -/
opaque rrField (leg idx k : Nat) : Nat

/-- Whether the code of a plan kernel holds no reserved encoding, no static branch target or REP end outside the code and no
static branch that breaks R283: the spec does not give the encodings of bundles. Free: log entry 44. -/
opaque codeLegal : List Word → Bool

/-- Whether the code of a plan kernel writes packet records: the spec does not give the encodings of bundles. Free: log entry 44. -/
opaque codePacketises : List Word → Bool

/-- Byte `i` of the 16 before the payload of an entry of an audio session's input ring, for the entry's sequence number and
timestamp: the spec gives no layout. Free: log entry 35. -/
opaque ringHeader (seq ts i : Nat) : Nat

/-- The data that a read of a pseudo-channel retired in service delivers with its poison tag: the spec gives none. Free: log
entry 47. -/
opaque retiredLine (pch line : Nat) : Nat

/-- The conference and the row of R117's table of the plan table entry that lies on a line of a vault pseudo-channel: the
device chooses the extents. Free: log entry 47. -/
opaque planEntryAt (pch line : Nat) : Nat × Nat

/-- What lies on a line of the placement pool, as three numbers that the class of the data interprets: the device chooses the
extents. Free: log entry 47. -/
opaque poolOwner (pch line : Nat) : Nat × Nat × Nat

/-- The clock of Survey region 6 (SerDes) or 7 (HBM PHY) in MHz: the spec gives none. Free: log entry 48. -/
opaque regionMHz (region : Nat) : Nat

/-- The drift of a ring oscillator whose baseline is 0: the quotient of R465 has no value. Free: log entry 48. -/
opaque zeroBaseDrift (monitor present : Nat) : Int

end Sys2Proof.Config
end

