-- ==== Sys2Proof/Machine/Bits.lean ====
section
/-! DEFINITION. Bit fields, complement pairs, time values and multi-word numbers, as R8 to R12, R77 and R105 lay them
out; CRC-32C of R99. -/

namespace Sys2Proof.Machine

/-- A 32-bit word from a number. -/
def w32 (n : Nat) : Word := BitVec.ofNat 32 n

/-- Bits [hi:lo] of a word as a number (R8). -/
def fld (w : Word) (hi lo : Nat) : Nat := (w.toNat / 2 ^ lo) % 2 ^ (hi + 1 - lo)

/-- Bit `i` of a word (R8). -/
def bitAt (w : Word) (i : Nat) : Bool := w.toNat.testBit i

/-- A flag as a number, 0 or 1. -/
def b2n (b : Bool) : Nat := if b then 1 else 0

/-- Word `i` of a list; zero beyond its end. -/
def wordAt (ws : List Word) (i : Nat) : Word := ws.getD i 0

/-- Bits [31:`from`] of the word are zero (R11). -/
def zeroFrom (w : Word) (start : Nat) : Bool := w.toNat < 2 ^ start

/-- Bits [hi:lo] of the word are zero (R11). -/
def zeroIn (w : Word) (hi lo : Nat) : Bool := fld w hi lo == 0

/-- A value and its bitwise complement over all 32 bits in the next word (R27, R77, R105). -/
def pairOk (v c : Word) : Bool := decide (c = ~~~v)

/-- A value of up to 16 bits in [15:0] with its complement in [31:16] (R105). -/
def pair16Ok (w : Word) : Bool := fld w 31 16 == 0xFFFF - fld w 15 0

/-- The one-word form of a value of up to 16 bits with its complement (R105). -/
def pair16 (v : Nat) : Word := w32 (v % 65536 + 65536 * (0xFFFF - v % 65536))

/-- Two words, least significant first, as a number (R9). -/
def num64 (lo hi : Word) : Nat := lo.toNat + 2 ^ 32 * hi.toNat

/-- Two words, least significant first, as a two's complement number (R9, R10). -/
def int64 (lo hi : Word) : Int :=
  let n := num64 lo hi
  if n < 2 ^ 63 then (n : Int) else (n : Int) - 2 ^ 64

/-- A word as a two's complement number (R10). -/
def int32 (w : Word) : Int := w.toInt

/-- A two's complement word from an integer (R10). -/
def wInt (i : Int) : Word := BitVec.ofInt 32 i

/-- The low and high words of a 64-bit number (R9). -/
def words64 (n : Nat) : List Word := [w32 n, w32 (n / 2 ^ 32)]

/-- A counter plus `k`, held at 2^64 - 1 (R15). -/
def satAdd (c k : Nat) : Nat := min (c + k) (2 ^ 64 - 1)

/-- Adds `k` to counter `i` of a set (R15). -/
def bump (cs : List Nat) (i k : Nat) : List Nat := cs.modify i fun c => satAdd c k

/-- The bytes of a word, least significant first (R9). -/
def bytesOf (w : Word) : List Nat := [fld w 7 0, fld w 15 8, fld w 23 16, fld w 31 24]

/-- The bytes of a list of words, in order (R9). -/
def bytesOfWords (ws : List Word) : List Nat := ws.flatMap bytesOf

/-- A word from its bytes, least significant first (R9). -/
def wordOfBytes (a b c d : Nat) : Word := w32 (a % 256 + 256 * (b % 256) + 65536 * (c % 256) + 16777216 * (d % 256))

/-- The words that bytes fill, least significant byte first, the last word filled with zeros (R9). -/
def wordsOfBytes : List Nat → List Word
  | [] => []
  | [a] => [wordOfBytes a 0 0 0]
  | [a, b] => [wordOfBytes a b 0 0]
  | [a, b, c] => [wordOfBytes a b c 0]
  | a :: b :: c :: d :: r => wordOfBytes a b c d :: wordsOfBytes r

/-- A number from bytes in network order, first byte most significant (R9). -/
def netNum (bs : List Nat) : Nat := bs.foldl (fun a b => a * 256 + b % 256) 0

/-- The low `n` bytes of a number in network order (R9). -/
def netBytes : Nat → Nat → List Nat
  | 0, _ => []
  | n + 1, v => netBytes n (v / 256) ++ [v % 256]

/-- The ASCII code of the order code, NUL-padded to 16 bytes (R51). -/
def orderCode (es : Bool) : List Nat :=
  [0x4B, 0x56, 0x2D, 0x54, 0x42, 0x38, 0x2D, 0x31, 0x30, 0x32, 0x34] ++
    (if es then [0x2D, 0x45, 0x53, 0, 0] else [0, 0, 0, 0, 0])

/-- The three words of a time value (R12) from a time base's value in units of 2^-40 ns (R143). -/
def timeWords (v : Nat) : List Word :=
  let ns := v / 2 ^ 40
  let n := (ns / 1000000000) * 2 ^ 48 + (ns % 1000000000) * 2 ^ 16 + (v / 2 ^ 24) % 2 ^ 16
  [w32 n, w32 (n / 2 ^ 32), w32 (n / 2 ^ 64)]

/-- One step of CRC-32C over a bit (reflected, polynomial 0x82F63B78). -/
def crcBit (c : Nat) : Nat := if c % 2 = 1 then (c / 2) ^^^ 0x82F63B78 else c / 2

/-- One byte of CRC-32C. -/
def crcByte (c b : Nat) : Nat :=
  crcBit (crcBit (crcBit (crcBit (crcBit (crcBit (crcBit (crcBit (c ^^^ b))))))))

/-- CRC-32C of bytes (R99). -/
def crc32c (bs : List Nat) : Nat := (bs.foldl crcByte 0xFFFFFFFF) ^^^ 0xFFFFFFFF

/-- Round a quotient up. -/
def ceilDiv (a b : Nat) : Nat := (a + b - 1) / b

/-- One's count of a number below 2^`n`. -/
def popCount : Nat → Nat → Nat
  | 0, _ => 0
  | n + 1, v => v % 2 + popCount n (v / 2)

/-- The first code whose check fails, in order (R76). -/
def firstFail : List (Bool × Nat) → Option Nat
  | [] => none
  | (bad, code) :: r => if bad then some code else firstFail r

end Sys2Proof.Machine
end

