-- ==== Sys2Proof/Machine/FMap.lean ====
section
/-! DEFINITION. Finite tables as plain data: lists of (key, value) pairs with keys strictly rising.
`put`, `del` and `find?` serve tables of objects that may be absent; `setD` and `getD` serve tables and RAMs in
which every address holds a value, and keep the one canonical form in which no pair equal to the default is listed. -/

namespace Sys2Proof.Machine

/-- A finite table: (key, value) pairs, keys strictly rising in the canonical form. -/
abbrev FMap (α : Type) := List (Nat × α)

/-- The value listed at key `k`, if any. -/
def FMap.find? {α : Type} : FMap α → Nat → Option α
  | [], _ => none
  | (j, v) :: m, k => if j = k then some v else FMap.find? m k

/-- The value listed at key `k`, or `d` where none is. -/
def FMap.getD {α : Type} (m : FMap α) (d : α) (k : Nat) : α := (m.find? k).getD d

/-- Whether key `k` is listed. -/
def FMap.has {α : Type} (m : FMap α) (k : Nat) : Bool := (m.find? k).isSome

/-- Lists `v` at key `k`, in key order, in place of the value there. -/
def FMap.put {α : Type} : FMap α → Nat → α → FMap α
  | [], k, v => [(k, v)]
  | (j, u) :: m, k, v =>
    if j = k then (k, v) :: m
    else if k < j then (k, v) :: (j, u) :: m
    else (j, u) :: FMap.put m k v

/-- Removes key `k`. -/
def FMap.del {α : Type} : FMap α → Nat → FMap α
  | [], _ => []
  | (j, u) :: m, k => if j = k then FMap.del m k else (j, u) :: FMap.del m k

/-- Writes `v` at key `k` of a table whose unlisted keys read as `d`: a value equal to `d` is not listed. -/
def FMap.setD {α : Type} [DecidableEq α] (m : FMap α) (d : α) (k : Nat) (v : α) : FMap α :=
  if v = d then m.del k else m.put k v

/-- Applies `f` to the value listed at `k`; a key not listed stays so. -/
def FMap.upd {α : Type} (m : FMap α) (k : Nat) (f : α → α) : FMap α :=
  match m.find? k with
  | none => m
  | some v => m.put k (f v)

/-- The keys listed, in order. -/
def FMap.keys {α : Type} (m : FMap α) : List Nat := m.map Prod.fst

/-- The values listed, in key order. -/
def FMap.vals {α : Type} (m : FMap α) : List α := m.map Prod.snd

/-- The keys rise strictly. -/
def FMap.sorted {α : Type} : FMap α → Bool
  | [] => true
  | [_] => true
  | (j, _) :: (k, v) :: m => decide (j < k) && FMap.sorted ((k, v) :: m)

/-- The canonical form of a table whose unlisted keys read as `d`: keys strictly rising, no value equal to `d`. -/
def FMap.wf {α : Type} [DecidableEq α] (m : FMap α) (d : α) : Bool :=
  FMap.sorted m && m.all fun p => decide (p.2 ≠ d)

end Sys2Proof.Machine
end

