-- ==== Sys2Proof/Machine/PartsHost.lean ====
section
/-! DEFINITION. The pieces of State that the modes, the mailboxes, the logs, the host interface, the ageing monitors
and the package give the device (02, 03, 17, 18, 19). The default of every field is its value at reset. -/

namespace Sys2Proof.Machine

/-- The twelve operating modes (R33). -/
inductive Mode where
  | reset | identify | load | calibrate | ready | service | degraded | drain | maintenance | throttle | retain
  | quarantine
  deriving DecidableEq, Repr, Inhabited

/-- A request for a mode transition that waits at the mode arbiter (R43), or the one in progress (R44). `trigger` is
the code of R95; `cmd` the DEVICE_MODE_SET that asked; `cause` and `detail` those of a fatal condition (R42). -/
structure ModeReq where
  target : Mode
  trigger : Nat
  cmd : Option Nat := none
  deadline : Nat := 0
  cause : Nat := 0
  detail : Word := 0
  deriving DecidableEq, Repr, Inhabited

/-- Modes and control-cluster state (R33 to R48). Times are readings of the free-running oscillator in ns. -/
structure Modes where
  mode : Mode := .reset
  returnMode : Mode := .reset
  arb : List ModeReq := []
  transition : Option ModeReq := none
  bootCount : Nat := 0
  drainDeadline : Option Nat := none
  resuming : Bool := false
  resumeCmd : Option Nat := none
  fwRestart : Bool := false
  watchdogs : List Nat := []
  deriving DecidableEq, Repr, Inhabited

/-- An alarm output: whether a short made the device stop driving it, and when it last tried (R473). -/
structure Alarm where
  stopped : Bool := false
  lastTry : Nat := 0
  deriving DecidableEq, Repr, Inhabited

/-- The pins and straps the logic sees (R49, R50, R54, R473, R483). -/
structure Pins where
  pwrgoodAux : Bool := true
  pwrgoodMain : Bool := false
  sysResetN : Bool := false
  perstN : Bool := false
  pcieRef : Bool := false
  linkUp : Bool := false
  bootSrc : Nat := 0
  smbAddr : Nat := 0
  alarms : List Alarm := [{}, {}, {}]
  deriving DecidableEq, Repr, Inhabited

/-- The boot ROM's progress and the boot registers (R51 to R61). Sources: 1 slot A, 2 slot B, 3 pushed image. -/
structure Boot where
  pushReady : Bool := false
  source : Nat := 0
  resultA : Nat := 0
  resultB : Nat := 0
  resultPush : Nat := 0
  resetCause : Word := 1
  fwVersion : Word := 0
  toTry : List Nat := []
  checking : Option (Nat × BootHeader) := none
  image : Option BootHeader := none
  readyUnderImage : Bool := false
  window : FMap Byte := []
  pushLength : Nat := 0
  pushed : Bool := false
  calDone : List Nat := []
  deriving DecidableEq, Repr, Inhabited

/-- Fused values (R51, R58, R212, R428, R470, R488). -/
structure Fuses where
  serial : Nat := 0
  es : Bool := false
  rev : Nat := 0
  svnMin : Nat := 0
  revoked0 : Bool := false
  revoked1 : Bool := false
  importSet : Bool := false
  importSecret : List Nat := List.replicate 32 0
  subsystem : Nat := 0
  baseMv : Nat := 700
  marginFloor : Nat := 100
  deriving DecidableEq, Repr, Inhabited

/-- A reservation of `n` words of a command ring from offset `off`; `written` once word 0 is written (R65, R66). -/
structure Resv where
  off : Nat
  n : Nat
  written : Bool := false
  deriving DecidableEq, Repr, Inhabited

/-- A function's mailbox (R64 to R74): its command ring (word and poison tag per offset), its reservations in order,
its event queue (readable words with poison tags), the words reserved for responses, and its registers. -/
structure Mailbox where
  ring : FMap (Word × Bool) := []
  resv : List Resv := []
  nextOff : Nat := 0
  headSince : Option Nat := none
  evq : List (Word × Bool) := []
  evReserved : Nat := 0
  lastRead : Word := 0
  underrun : Bool := false
  poison : Bool := false
  discarded : Bool := false
  mask : Nat := 0
  holdoff : Nat := 100
  threshold : Nat := 1
  evSeq : Word := 0
  signalRef : Nat := 0
  counters : List Nat := [0, 0, 0, 0, 0, 0, 0]
  deriving DecidableEq, Repr, Inhabited

/-- A record on its way to ring 1 or 2: an exception record's header with its frame, or a statistics record (R394,
R443). -/
inductive DmaRecord where
  | exc (header : List Word) (frame : Frame)
  | stats (words : List Word)
  deriving DecidableEq, Repr, Inhabited

/-- A DMA descriptor in progress: its words and index, the bytes it delivers and the RESULT it ends with (R435, R438);
the bytes or the record to be written to the host; `waits` while its frame waits for room in a transmit queue (R232,
R445); the host address of the descriptor; `past` where its ring has been started again since. -/
structure DmaWork where
  words : List Word
  idx : Nat := 0
  bytes : Nat := 0
  result : Nat := 0
  data : List Nat := []
  record : Option DmaRecord := none
  waits : Bool := false
  addr : Nat := 0
  past : Bool := false
  deriving DecidableEq, Repr, Inhabited

/-- A DMA ring (R433, R434): registers, the descriptor in progress, the records that wait for the descriptors posted for
them, the records discarded since the last one delivered, and when the ring last wrote a fault record (R439, R443). -/
structure Ring where
  baseLo : Word := 0
  baseHi : Word := 0
  size : Nat := 0
  tail : Nat := 0
  head : Nat := 0
  enable : Bool := false
  lost : Bool := false
  badConfig : Bool := false
  work : Option DmaWork := none
  records : List DmaRecord := []
  dropped : Nat := 0
  lastFault : Option Nat := none
  deriving DecidableEq, Repr, Inhabited

/-- A PCIe function: MSI-X mask and pending bits of five vectors (R431), Bus Master Enable and D3hot (R440), and its
four rings (R432); `msixWords` holds the address and data words of the MSI-X table by vector * 4 + word. -/
structure Func where
  msixMask : List Bool := [true, true, true, true, true]
  msixPending : List Bool := [false, false, false, false, false]
  bme : Bool := true
  d3hot : Bool := false
  rings : List Ring := [{}, {}, {}, {}]
  msixWords : FMap Word := []
  deriving DecidableEq, Repr, Inhabited

/-- A command that Welmus (or the hardware responder) has taken and not completed (R88). `words` are as read from the
ring; `poison` says some word came with its poison tag; `reserved` is the length of the response reserved; `orphan`
that its function was reset meanwhile (R47). -/
structure Taken where
  fn : Nat
  words : List Word
  poison : Bool := false
  poison0 : Bool := false
  poison1 : Bool := false
  poison2 : Bool := false
  reserved : Nat := 4
  committed : Bool := false
  orphan : Bool := false
  deriving DecidableEq, Repr, Inhabited

/-- Command intake (R88): commands in progress by the order in which they were taken, the last function served by
the round robin, and whether PF0 has the next turn. -/
structure Welmus where
  taken : FMap Taken := []
  nextId : Nat := 0
  lastFn : Nat := 0
  pf0Turn : Bool := true
  deriving DecidableEq, Repr, Inhabited

/-- A VF's grant (R84). -/
structure Grant where
  confBase : Nat := 0
  confCount : Nat := 0
  slotBase : Nat := 0
  slotCount : Nat := 0
  legQuota : Nat := 0
  deriving DecidableEq, Repr, Inhabited

/-- A record kept in a log: its eight words (word 3, SEQ, follows from its place), the words whose SRAM word is
uncorrectable, and when it was written. -/
structure LogRec where
  words : List Word
  poison : List Nat := []
  at_ : Nat := 0
  deriving DecidableEq, Repr, Inhabited

/-- A log of at most 65,536 records, newest first, and the sequence number of the next record (R94, R449). -/
structure Log where
  recs : List LogRec := []
  next : Word := 0
  deriving DecidableEq, Repr, Inhabited

/-- A fault record submitted to the writer port (R447, R448). `fn` is FUNCTION where FN_VALID is 1. -/
structure FaultRec where
  time : List Word
  cls : Nat
  sev : Nat
  fn : Option Nat
  objKind : Nat
  objId : Nat
  d0 : Word
  d1 : Word
  deriving DecidableEq, Repr, Inhabited

/-- The fault log's writer, the last-gasp bank and the RESET_MARK that waits (R447 to R456). -/
structure Faults where
  log : Log := {}
  queue : List FaultRec := []
  lost : Nat := 0
  resetMark : Option FaultRec := some { time := [0, 0, 0], cls := 1, sev := 0, fn := none, objKind := 0, objId := 0, d0 := 1, d1 := 0 }
  lgRecord : List Word := [0, 0, 0, 0, 0, 0, 0, 0]
  lgValid : Bool := false
  logDown : Bool := false
  lgMore : Nat := 0
  deriving DecidableEq, Repr, Inhabited

/-- A fenced or otherwise unavailable instance (R40, R458): since when, and whether its reset is still held (R458). -/
structure Fence where
  since : Nat := 0
  held : Bool := false
  deriving DecidableEq, Repr, Inhabited

/-- An instance lent to a SELFTEST (R459, R460): the command, when it was lent, whether it has drained, when its test
started, and its test time in ns. -/
structure Lent where
  cmd : Nat
  since : Nat
  started : Option Nat := none
  testNs : Nat := 0
  deriving DecidableEq, Repr, Inhabited

/-- Availability of instances, keyed kind * 65536 + index by the kinds of R453 (kind 12: a port at reduced width,
R131). -/
structure Avail where
  down : FMap Fence := []
  fences : FMap (List Nat) := []
  lent : FMap Lent := []
  deriving DecidableEq, Repr, Inhabited

/-- A Survey monitor (R465 to R468): baseline, C5 mean, service samples newest first, flags, the multiple of 50 last
raised, and the DRIFT last computed. -/
structure Monitor where
  baseline : Nat := 0
  c5 : Nat := 0
  samples : List Nat := []
  excluded : Bool := false
  volatile : Bool := false
  raised : Int := 0
  deriving DecidableEq, Repr, Inhabited

/-- The adaptive core voltage (R469, R488): the target last acknowledged and in force, the guard, a command that waits
for its acknowledge (target, tries made, time of the last), and times of the hourly plan and of SURVEY_LIMIT. -/
structure Vdd where
  acked : Nat := 780
  guard : Nat := 0
  command : Option (Nat × Nat × Nat) := none
  lastPlan : Option Nat := none
  lastLimit : Option Nat := none
  deriving DecidableEq, Repr, Inhabited

/-- Temperatures in units of 0.125 degrees C and the reductions of THROTTLE (R471, R472). -/
structure Thermal where
  sensors : List Int := List.replicate 24 0
  caseSide : Int := 0
  fatalSince : Option Nat := none
  step : Nat := 0
  lastTest : Nat := 0
  coldSince : Option Nat := none
  deriving DecidableEq, Repr, Inhabited

/-- The SMBus interface's recovery (R495): a stuck episode, when it last tried, and a record that waits for the fault
log. -/
structure Smbus where
  stuck : Bool := false
  recorded : Bool := false
  lastTry : Nat := 0
  deriving DecidableEq, Repr, Inhabited

/-- The frequency monitor's view of one reference (R487). -/
structure RefState where
  missing : Bool := false
  goodWindows : Nat := 0
  deriving DecidableEq, Repr, Inhabited

/-- The frequency monitor (R487). -/
structure FreqMon where
  sysclk : RefState := {}
  sdref : List RefState := [{}, {}, {}, {}, {}, {}, {}, {}]
  pcie : RefState := {}
  ref10m : RefState := { missing := true }
  deriving DecidableEq, Repr, Inhabited

/-- What a swept SRAM array has shown (R454): the time of its last storm record. -/
structure SramState where
  lastStorm : Option Nat := none
  deriving DecidableEq, Repr, Inhabited

/-- What the latest command sent out of the device. -/
inductive Out where
  /-- Data returned by a register read, with the EP bit (R64, R69). -/
  | readData (value : Word) (poison : Bool)
  /-- MSI-X message of a function's vector (R431). -/
  | msix (fn vector : Nat)
  /-- Bytes written to host memory by a function's channel (R437, R443). -/
  | hostWrite (fn addr : Nat) (data : List Nat)
  /-- An exception record written to host memory: its header and the first `length - 32` bytes of its frame (R443). -/
  | hostRecord (fn addr length : Nat) (header : List Word) (frame : Frame)
  /-- MCTP response data (R53). -/
  | mctp (words : List Word)
  /-- An AVSBus voltage target in mV (R488). -/
  | avs (mv : Nat)
  /-- SCL recovery pulses and a STOP, or both lines released (R495). -/
  | sclPulses (n : Nat)
  | smbusReset
  /-- The PPS output's level (R158). -/
  | pps (level : Bool)
  /-- A JTAG data register's content: IDCODE, or BYPASS's zero (R485). -/
  | jtag (value : Word)
  /-- A frame on a port's wire: the frame, and whether its FCS is inverted (R140). -/
  | wire (port : Nat) (frame : Frame) (badFcs : Bool)
  /-- A pause or PFC frame on a port's wire (R139). -/
  | pause (port : Nat) (pfc : Bool) (prio quanta : Nat)
  /-- A line read from HBM: data, and whether it carries the poison mark (R407). -/
  | line (data : Nat) (poison : Bool)
  /-- A line read from HBM for a request that waited in the read queue of a pseudo-channel (R412, R422). -/
  | queuedLine (pch line data : Nat) (poison : Bool)
  deriving DecidableEq, Repr, Inhabited

end Sys2Proof.Machine
end

