-- ==== Sys2Proof/Machine/PartsMem.lean ====
section
/-! DEFINITION. The pieces of State of the HBM controllers (16): lines, queues, activate tables, refresh, training and
set points. The default of every field is its value at reset. -/

namespace Sys2Proof.Machine

/-- A line of a pseudo-channel (R406, R408): 512 data bits, its poison mark and the CLASS of its last writer. -/
structure Line where
  data : Nat := 0
  poison : Bool := false
  cls : Nat := 0
  deriving DecidableEq, Repr, Inhabited

/-- A write that waits in a write queue (R412, R415): its line number, the line it will store, and when it came; a read-modify-write
that came while its pseudo-channel was held has in `merge` its byte mask and what its read of the stack will show. -/
structure QWrite where
  line : Nat
  value : Line
  at_ : Nat := 0
  merge : Option (Nat × List Nat) := none
  deriving DecidableEq, Repr, Inhabited

/-- A read that waits in a read queue (R412, R414, R422): its line number, CLASS, whether it carries panic, what its read of the
stack will show, and when it came. -/
structure QRead where
  line : Nat
  cls : Nat
  panic : Bool
  flips : List Nat
  at_ : Nat
  deriving DecidableEq, Repr, Inhabited

/-- A pseudo-channel (R398 to R427). `st`: 0 in service, 1 retired in CALIBRATE, 2 retired in service. `lines` lists
the lines by number; `rows` the open rows by bank with the time of the last access; `table` the counted rows by
bank * 16,384 + row (R420); `credit` the refreshes postponed (positive) or pulled in (negative) by bank (R418);
`trained` the values per set point (R421); `quietSince` the time since which no correction was seen, `lastCe` the corrections
since the last re-plan (R470). -/
structure Pch where
  st : Nat := 0
  failRun : Nat := 0
  k : Nat := 10
  threshold : Nat := 4096
  lines : FMap Line := []
  writes : List QWrite := []
  reads : List QRead := []
  rows : FMap (Nat × Nat) := []
  table : FMap Nat := []
  rng : Word := 0
  credit : FMap Int := []
  patrol : Nat := 0
  trained : List Nat := [0, 0, 0]
  quietSince : Nat := 0
  lastCe : Nat := 0
  counters : List Nat := List.replicate 18 0
  deriving DecidableEq, Repr, Inhabited

/-- A training burst (R422): its channel within the stack, when it started, and the set point it started at. -/
structure Burst where
  channel : Nat
  since : Nat
  setPoint : Nat := 0
  result : BurstResult
  deriving DecidableEq, Repr, Inhabited

/-- A MEM_RETRAIN in progress (R425): the command, its scope and index, when it was taken and when its first pause
began. -/
structure Retrain where
  cmd : Nat
  whole : Bool
  index : Nat
  since : Nat
  started : Option Nat := none
  deriving DecidableEq, Repr, Inhabited

/-- A stack (R418, R422): its sensor in 0.125 degrees C, its burst, its MEM_RETRAIN, and the sensor reading and time of
each channel's last burst; the channels whose due burst is counted as delayed (R427). -/
structure Stack where
  eighths : Int := 0
  burst : Option Burst := none
  retrain : Option Retrain := none
  lastBurst : FMap (Int × Nat) := []
  deferred : List Nat := []
  deriving DecidableEq, Repr, Inhabited

/-- The set-point machinery (R424, R426): the set point in force and the one requested, the target and start of a change in
progress, the Sump's cells after CALIBRATE (R403), and the margin floor in force in per cent of the fused one (R470). -/
structure Hbm where
  setPoint : Nat := 0
  request : Nat := 0
  changing : Option (Nat × Nat) := none
  sumpCells : Nat := 67108864
  marginFloor : Nat := 100
  deriving DecidableEq, Repr, Inhabited

/-- The real-time ports in panic (R416): the launch units' Sump fetches, the audio engine's input, whose buffer is empty at reset,
and the encoder cores' reference fetches. -/
structure Panic where
  sump : List Nat := []
  audio : Bool := true
  enc : List Nat := []
  deriving DecidableEq, Repr, Inhabited

end Sys2Proof.Machine
end

