-- ==== Sys2Proof/Machine/PartsNet.lean ====
section
/-! DEFINITION. The pieces of State of the ports, the time unit, the legs, the key store, the cipher array and the
egress scheduler (05 to 09). The default of every field is its value at reset. -/

namespace Sys2Proof.Machine

/-! ### Ports (05) -/

/-- A STEER entry (R125, R134). -/
structure Steer where
  etype : Nat
  etypeMask : Nat
  vid : Nat
  vidMatch : Bool
  pcpMask : Nat
  action : Nat
  deriving DecidableEq, Repr, Inhabited

/-- The configuration that a PORT_CONFIG sets (R123, R125). `gateBase` is in units of 2^-16 ns. -/
structure PortCfg where
  speed : Nat := 0
  pauseRx : Bool := false
  pauseTx : Bool := false
  pfc : Nat := 0
  gates : Bool := false
  addrs : List (Nat × Nat) := []
  vlans : List (Nat × Nat) := []
  steers : List Steer := []
  gateList : List (Nat × Nat) := []
  gateBase : Nat := 0
  txInvert : Nat := 0
  degradeOk : Bool := true
  dropUntagged : Bool := false
  defaultPcp : Nat := 0
  maxFrame : Nat := 1526
  deriving DecidableEq, Repr, Inhabited

/-- A frame in a receive queue with its receive stamps on the eight time bases (R150), in units of 2^-40 ns, and the elapsed
device time of their TCLK edge (R154). -/
structure RxFrame where
  frame : Frame
  stamps : List Nat := []
  at_ : Nat := 0
  deriving DecidableEq, Repr, Inhabited

/-- A frame in a host exception queue: its reason, the leg found with its conference, and its stamp on TB0 (R442, R443). -/
structure ExcFrame where
  frame : Frame
  reason : Nat
  leg : Option Nat := none
  conf : Option Nat := none
  stamp : Nat := 0
  deriving DecidableEq, Repr, Inhabited

/-- A frame in a MAC transmit queue. `launch` is on the launch clock in units of 2^-16 ns (R162); `asap` marks a
launch time of zero; `bad` a frame to be sent with an inverted FCS (R455); `leg` a copy to a leg; `stamp` a frame whose transmit
stamp Welmus asked for, with its number (R150). -/
structure TxFrame where
  frame : Frame
  length : Nat
  launch : Int := 0
  asap : Bool := false
  immediate : Bool := false
  late : Bool := false
  deferred : Bool := false
  tested : Bool := false
  bad : Bool := false
  leg : Bool := false
  stamp : Option Nat := none
  deriving DecidableEq, Repr, Inhabited

/-- A pause hold (R136, R137): it runs from `from_` to `until_`, in ps of the free-running oscillator. -/
structure Hold where
  from_ : Nat
  until_ : Nat
  deriving DecidableEq, Repr, Inhabited

/-- A pause watchdog (R138): held microseconds of the past intervals, newest first, held ps of the current interval,
and whether the watchdog is tripped. -/
structure Watch where
  past : List Nat := []
  held : Nat := 0
  tripped : Bool := false
  deriving DecidableEq, Repr, Inhabited

/-- A network port (R126 to R142). States: 0 DOWN, 1 WAIT_SIGNAL, 2 TRAIN, 3 ALIGN, 4 UP, 5 HELD. Lane bits are
relative to the port's first lane. `watchAt` counts the 1 ms boundaries up to the last one that the pause watchdogs took (R138). -/
structure Port where
  cfg : PortCfg := {}
  st : Nat := 0
  stSince : Nat := 0
  retryAt : Option Nat := none
  speedRun : Nat := 0
  reduced : Bool := false
  reducedUp : Bool := false
  refHeld : Bool := false
  order : Nat := 0
  fecLock : Bool := false
  openLanes : Nat := 0
  rxInverted : Nat := 0
  active : Nat := 0
  signal : Nat := 0
  signalSince : Option Nat := none
  pipeQ : List RxFrame := []
  timeQ : List RxFrame := []
  excQ : List ExcFrame := []
  ctlQ : List Frame := []
  pauseHold : Option Hold := none
  pfcHold : FMap Hold := []
  watch : List Watch := List.replicate 9 {}
  watchAt : Nat := 0
  pausedPs : Nat := 0
  txPaused : Bool := false
  lastPauseTx : Nat := 0
  txq : List (List TxFrame) := [[], [], [], [], [], [], [], []]
  busyUntil : Nat := 0
  gapUntil : Nat := 0
  counters : List Nat := List.replicate 34 0
  deriving DecidableEq, Repr, Inhabited

/-! ### The time unit (06) -/

/-- Servo parameters of TIME_CONFIG with the defaults of R151. -/
structure ServoCfg where
  ptpPort : Nat := 0
  ptpEn : Bool := false
  domain : Nat := 0
  transport : Nat := 0
  peerDelay : Bool := false
  kp : Nat := 0x8000
  ki : Nat := 0x1000
  stepThreshold : Nat := 1000000
  rateLimit : Nat := 500000
  holdoverTimeout : Nat := 3000
  lockWindow : Nat := 100
  delayCorr : Int := 0
  deriving DecidableEq, Repr, Inhabited

/-- The states of a servo (R155). -/
inductive ServoState where
  | free | acquire | locked | holdover
  deriving DecidableEq, Repr, Inhabited

/-- A master that a PTP stack hears (R152): its identity, the data set that its Announce messages give, the elapsed instants of
the last two, and when it counts as silent. -/
structure PtpMaster where
  id : Nat
  rank : List Nat
  last : Nat
  before : Option Nat := none
  interval : Nat
  deriving DecidableEq, Repr, Inhabited

/-- The Sync message that an offset is made of (R152): its sequence number, its receive stamp on the time base (2^-40 ns) with the
elapsed device time, its correction (2^-16 ns), and once known the master's time (ns). -/
structure PtpSync where
  seq : Nat
  stamp : Nat
  at_ : Nat
  correction : Int
  sent : Option Nat := none
  deriving DecidableEq, Repr, Inhabited

/-- The firmware PTP stack of a time base (R152): the masters it hears, the Sync in hand, the request sent with its transmit stamp
(2^-40 ns), a peer's two-step response as (time of receipt in ns, receive stamp, correction), the sequence number of the next
request, and the peers' requests answered as (sequence number, requester), whose Follow_Up waits for its transmit stamp. -/
structure PtpState where
  masters : List PtpMaster := []
  sync : Option PtpSync := none
  req : Option (Nat × Option Nat) := none
  resp : Option (Nat × Nat × Int) := none
  nextSeq : Nat := 0
  answers : List (Nat × Nat) := []
  deriving DecidableEq, Repr, Inhabited

/-- A time base and its servo (R143, R154 to R156). `value` is in units of 2^-40 ns, `rate` in units of 2^-40,
`theta` in ns; instants are elapsed device time. `causes` are the causes of holdover that still hold: bit 0 the
timeout, bit 1 the PPS input, bit 2 the TCLK source change. -/
structure TimeBase where
  value : Nat := 0
  rate : Int := 0
  source : Nat := 0
  cfg : ServoCfg := {}
  freq : Rat := 0
  samples : Nat := 0
  thetaPrev : Rat := 0
  tPrev : Int := 0
  lastStep : Int := 0
  state : ServoState := .free
  runIn : Nat := 0
  runOut : Nat := 0
  lastOffset : Nat := 0
  causes : Nat := 0
  cause : Nat := 0
  ptp : PtpState := {}
  deriving DecidableEq, Repr, Inhabited

/-- The time unit (R143 to R158). `stepSum` totals the steps of TB0 in units of 2^-40 ns (R162). -/
structure TimeUnit where
  running : Bool := false
  bases : List TimeBase := [{}, {}, {}, {}, {}, {}, {}, {}]
  elapsed : Nat := 0
  stepSum : Int := 0
  latchTimes : List Nat := [0, 0, 0, 0, 0, 0, 0, 0]
  latchRates : List Int := [0, 0, 0, 0, 0, 0, 0, 0]
  latchSteps : Int := 0
  tclkRef10 : Bool := false
  changing : Option (Bool × Nat) := none
  refSince : Option Nat := none
  ppsOutEn : Bool := false
  ppsOutTb : Nat := 0
  ppsLevel : Bool := false
  ppsLastRise : Option Nat := none
  ppsNext : Nat := 0
  ppsInLast : Option Nat := none
  deriving DecidableEq, Repr, Inhabited

/-! ### Legs (07) -/

/-- Receive state of one SSRC index (R179, R229): `started` once a packet was authenticated; `window` marks the
indices received, bit `i` for the index `i` below the highest; `seqHighest` is highest[k] of R186, `keyTs` the timestamp of
the last frame that carried a template structure (R184). -/
structure SsrcState where
  started : Bool := false
  highest : Nat := 0
  roc : Nat := 0
  lastTs : Nat := 0
  lastArrival : Nat := 0
  window : Nat := 0
  received : Nat := 0
  lastRtp : Option Nat := none
  base : Nat := 0
  seqStarted : Bool := false
  seqHighest : Nat := 0
  ssrc : Nat := 0
  keyTs : Option Nat := none
  deriving DecidableEq, Repr, Inhabited

/-- A track (R192); `outSsrc` is the out SSRC, which stays for the life of the track (R194). -/
structure Track where
  key : Nat := 0
  bySource : Bool := false
  ssrcIdx : Nat := 0
  cutS : Nat := 0
  cutT : Nat := 0
  valid : Bool := false
  wait : Bool := false
  pend : Bool := false
  seqDelta : Nat := 0
  lastOut : Nat := 0
  tsDelta : Nat := 0
  roc : Nat := 0
  outSsrc : Nat := 0
  deriving DecidableEq, Repr, Inhabited

/-- The classification of a packet (R184): media kind, layer, flags, level, FORMAT, and its stream (0 audio, 1 to 3
video). -/
structure Class where
  audio : Bool := false
  stream : Nat := 0
  s : Nat := 0
  t : Nat := 0
  key : Bool := false
  sw : Bool := false
  sof : Bool := false
  level : Nat := 127
  v : Bool := false
  format : Nat := 0
  simul : Bool := false
  deriving DecidableEq, Repr, Inhabited

/-- An entry of a history (R187): a stored packet or a placeholder. -/
structure HistEntry where
  inSeq : Nat
  cls : Class := {}
  arrival : Nat := 0
  cutseq : List Nat := []
  placeholder : Bool := false
  pkt : RtpPacket := {}
  deriving DecidableEq, Repr, Inhabited

/-- A send-log entry (R187, R202). -/
structure SendEntry where
  outSeq : Nat
  launchUs : Nat
  length : Nat
  deriving DecidableEq, Repr, Inhabited

/-- A trunk source record (R206): receive state per STREAM, cut counters, identity SSRC, and whether its sender is a simulcast
sender. -/
structure TrunkSrc where
  streams : List SsrcState := [{}, {}, {}, {}]
  cuts : List Nat := List.replicate 9 0
  ssrc : Nat := 0
  simul : Bool := false
  deriving DecidableEq, Repr, Inhabited

/-- A history block (R187): packet slots by stream * 65,536 + slot, cut maps by cut * 65,536 + position, send log by
track * 256 + out sequence mod 256, trunk sources by index. -/
structure History where
  depth : Nat := 0
  slots : FMap HistEntry := []
  cutMap : FMap Nat := []
  sendLog : FMap SendEntry := []
  sources : FMap TrunkSrc := []
  deriving DecidableEq, Repr, Inhabited

/-- Estimator state (R179, R203): rate and times in the 32-bit fixed point with 16 fraction bits of R202 where R203
multiplies; bytes acknowledged with their times. -/
structure Est where
  cls : Nat := 0
  rate : Int := 0
  g : Int := 0
  overUse : Int := 0
  groupStart : Int := 0
  sendPrev : Int := 0
  arrPrev : Int := 0
  sendLast : Int := 0
  arrLast : Int := 0
  started : Bool := false
  acked : List (Nat × Nat) := []
  held : Int := 0
  lastReport : Option Nat := none
  lastDecrease : Option Nat := none
  deriving DecidableEq, Repr, Inhabited

/-- A key request interval (R195): when it began and whether a request was absorbed. -/
structure KeyReq where
  since : Nat
  interval : Nat
  absorbed : Bool := false
  deriving DecidableEq, Repr, Inhabited

/-- The statistics that the RRs a leg sent carried (R198). -/
structure RxReport where
  ssrc : Nat
  fractionLost : Nat
  cumulativeLost : Nat
  extHighest : Nat
  jitter : Nat
  deriving DecidableEq, Repr, Inhabited

/-- A leg (R179): binding, receive state, estimator, tracks, history, consent (R172), counters (R207, R247).
`templates` is the map of R185 (template id to (s, t, switch)), `ddOff` the streams whose last structure was not recorded. `since`
numbers the first lookup under the present binding, `past` the earlier bindings as (slot, first lookup, first lookup no longer
under it) (R92); `shaperOv` marks a level-0 override (R119); `stun` that Welmus has a STUN template of the leg (R171); `resume`
numbers the first lookup after the answer that last restored consent (R172); `histAt` and `prevHistAt` are the offsets of the
history blocks in their regions (R188). -/
structure Leg where
  serial : Nat := 0
  conf : Nat := 0
  kind : Nat := 0
  port : Nat := 0
  v6 : Bool := false
  lUdp : Nat := 0
  rUdp : Nat := 0
  lAddr : Nat := 0
  rAddr : Nat := 0
  vlan : Nat := 0
  vlanValid : Bool := false
  ssrcValid : Nat := 0
  ssrcs : List Nat := [0, 0, 0, 0]
  rxSlot : Word := 0
  rxSlotC : Word := 0
  txSlot : Word := 0
  txSlotC : Word := 0
  rxGen : Nat := 0
  txGen : Nat := 0
  slot : Option Nat := none
  since : Nat := 0
  past : List (Nat × Nat × Nat) := []
  everBound : Bool := false
  shaperOv : Bool := false
  fenced : Bool := false
  rx : List SsrcState := [{}, {}, {}, {}]
  rtcpHighest : Nat := 0
  rtcpStarted : Bool := false
  rtcpWindow : Nat := 0
  trunkRx : SsrcState := {}
  cuts : List Nat := List.replicate 9 0
  templates : FMap (Nat × Nat × Bool) := []
  ddOff : List Nat := []
  nextHop : Option Nat := none
  level : Nat := 127
  vbit : Bool := false
  est : Est := {}
  tracks : List Track := List.replicate 12 {}
  recency : List Nat := [0, 1, 2, 3, 4, 5, 6, 7, 8, 9, 10, 11]
  lastRr : Option Nat := none
  lastRtpIn : Option Nat := none
  nacks : List (Nat × Nat) := []
  hist : History := {}
  prevHist : Option History := none
  histAt : Option Nat := none
  prevHistAt : Option Nat := none
  reports : List RxReport := []
  consent : Option Nat := none
  consentLost : Bool := false
  stun : Bool := false
  resume : Nat := 0
  lastLaunch : Int := 0
  keyReq : Option KeyReq := none
  counters : List Nat := List.replicate 40 0
  deriving DecidableEq, Repr, Inhabited

/-- A leg that closed while packets looked up before were on their way (R92): its number and context, and the number of the first
lookup after the close. -/
structure Gone where
  num : Nat
  leg : Leg
  look : Nat
  deriving DecidableEq, Repr, Inhabited

/-- A lookup entry (R175): the key and its leg, `ssrc` none for a wildcard entry; the bucket that holds it, or none in the
stash. -/
structure Lookup where
  v6 : Bool
  rAddr : Nat
  lAddr : Nat
  rUdp : Nat
  lUdp : Nat
  ssrc : Option Nat
  leg : Nat
  bucket : Option Nat := none
  deriving DecidableEq, Repr, Inhabited

/-! ### Keys and ciphers (08) -/

/-- The session keys and salts of R218, bytes first to last: encryption key, authentication key and salt of SRTP, then of SRTCP. -/
structure SessionKeys where
  rtpKey : List Nat
  rtpAuth : List Nat
  rtpSalt : List Nat
  rtcpKey : List Nat
  rtcpAuth : List Nat
  rtcpSalt : List Nat
  deriving DecidableEq, Repr, Inhabited

/-- A key slot record (R210); `keys` holds the session keys and salts of R218, none when zeroised. -/
structure Slot where
  loaded : Bool := false
  exhausted : Bool := false
  rtcpExhausted : Bool := false
  rekeyRaised : Bool := false
  rtcpRekeyRaised : Bool := false
  profile : Nat := 0
  generation : Nat := 0
  kcvValid : Bool := false
  kcv : Nat := 0
  index : Nat := 0
  rtcpIndex : Nat := 0
  holder : Nat := 0
  held : Bool := false
  role : Bool := false
  keys : Option SessionKeys := none
  deriving DecidableEq, Repr, Inhabited

/-- What an egress pipeline reads of a leg: which opening of the leg number, its addresses, its send slot and the
generation expected, its next hop and whether consent is lost (R172, R179, R196, R228). -/
structure TxCtx where
  serial : Nat := 0
  kind : Nat := 0
  v6 : Bool := false
  lUdp : Nat := 0
  rUdp : Nat := 0
  lAddr : Nat := 0
  rAddr : Nat := 0
  vlan : Option Nat := none
  slot : Nat := 0
  gen : Nat := 0
  nextHop : Option Nat := none
  lost : Bool := false
  resume : Nat := 0
  deriving DecidableEq, Repr, Inhabited

/-- A packet on its way to one receiver (R191, R196, R199, R200, R201, R205). `ctx` is the receiver's context as it was
when the copy passed the ladder test, and then as stage 9 read it. -/
structure Copy where
  leg : Nat
  conf : Nat
  bank : Nat
  body : App
  audio : Bool := false
  rtcp : Bool := false
  rtx : Bool := false
  format : Nat := 0
  index : Nat := 0
  srcLeg : Option Nat := none
  srcIds : List Nat := []
  track : Option Nat := none
  rslot : Nat := 0
  ctx : TxCtx := {}
  port : Nat := 0
  tReq : Option Int := none
  cls : Nat := 0
  frame : Frame := {}
  credit : Option Nat := none
  look : Nat := 0
  deriving DecidableEq, Repr, Inhabited

/-- A job at the cipher array (R221, R227, R228). -/
inductive Job where
  /-- A received packet: its leg and which opening of it, the latched bank and roster slot, the port of arrival, frame and
  stamp, the generation expected and the number of the lookup. -/
  | rx (leg serial conf bank slot port : Nat) (frame : Frame) (app : App) (stamp gen look : Nat)
  | tx (copy : Copy)
  deriving DecidableEq, Repr, Inhabited

/-- A job that a core has taken (R221, R227): the order of its take, its private key register, the slot's profile, the packet's
index, and the instant of its result in ps. -/
structure CoreJob where
  job : Job
  takeNo : Nat
  keyReg : Option SessionKeys
  profile : Nat
  index : Nat
  readyAt : Nat
  deriving DecidableEq, Repr, Inhabited

/-- A cipher core (R221, R230): the jobs in it, oldest first, and when it is free for the next, in ps. -/
structure Core where
  jobs : List CoreJob := []
  freeAt : Nat := 0
  counters : List Nat := List.replicate 9 0
  deriving DecidableEq, Repr, Inhabited

/-- The HMAC unit of a group (R222): when each of its four interleaved places is free, and when the jobs that wait in its queue
start, in ps. -/
structure HmacUnit where
  places : List Nat := [0, 0, 0, 0]
  starts : List Nat := []
  deriving DecidableEq, Repr, Inhabited

/-- A packet at the replicator (R190, R191): its source, classification and cut numbers. `srcLeg` is none for a
locally originated source; `source` is the descriptor's number in the latched bank. -/
structure ReplPacket where
  conf : Nat
  bank : Nat
  source : Nat
  srcLeg : Option Nat := none
  srcSerial : Nat := 0
  trunk : Option (Nat × Nat) := none
  app : App
  cls : Class := {}
  cutseq : List Nat := []
  index : Nat := 0
  arrival : Nat := 0
  tReq : Option Int := none
  credit : Option Nat := none
  look : Nat := 0
  srcIds : List Nat := []
  joinFir : Bool := false
  deriving DecidableEq, Repr, Inhabited

/-- A packet record of a locally originated source in a task output buffer (R22, R290, R464). -/
structure LocalRec where
  task : Nat
  credit : Option Nat := none
  conf : Nat
  bank : Nat
  source : Nat
  format : Nat
  audio : Bool
  key : Bool := false
  sof : Bool := false
  sw : Bool := false
  s : Nat := 0
  t : Nat := 0
  level : Nat := 127
  v : Bool := false
  seq : Nat := 0
  ts : Nat := 0
  ssrc : Nat := 0
  marker : Bool := false
  launch : Nat := 0
  payload : List Nat := []
  at_ : Nat := 0
  deriving DecidableEq, Repr, Inhabited

/-! ### Egress (09) -/

/-- A token bucket (R234): rate with its complement, ceiling in bytes, virtual time in units of 2^-16 ns of the launch
clock. Rate 0 is unlimited. -/
structure Bucket where
  rate : Word := 0
  rateC : Word := 0xFFFFFFFF
  ceil : Nat := 65536
  vt : Int := 0
  deriving DecidableEq, Repr, Inhabited

/-- A copy in the Grotto or the Sump (R243, R244): launch time on the launch clock in ns, cells, and the descriptor's
marks; `stays` marks one whose spill found the Sump full. -/
structure Stored where
  copy : Copy
  port : Nat
  cls : Nat
  leg : Nat
  length : Nat
  cells : Nat
  launch : Int
  immediate : Bool := false
  sump : Bool := false
  stays : Bool := false
  chargedAt : Nat := 0
  deriving DecidableEq, Repr, Inhabited

/-- The probe registers (R248). -/
structure Probe where
  sel : Word := 0
  valid : Bool := false
  absent : Bool := false
  compFault : Bool := false
  rate : Word := 0
  ceiling : Word := 0
  lead : Word := 0
  depth : Word := 0
  headLate : Word := 0
  time : Word := 0
  grottoFree : Word := 0
  sumpFree : Word := 0
  sumpCells : Word := 0
  deriving DecidableEq, Repr, Inhabited

/-- A frame that Welmus or a host function sends in class 0 and that waits for room in its port's queue (R232). -/
structure WaitFrame where
  port : Nat
  tx : TxFrame
  ring : Option (Nat × Nat) := none
  deriving DecidableEq, Repr, Inhabited

end Sys2Proof.Machine
end

