-- ==== Sys2Proof/Machine/PartsMedia.lean ====
section
/-! DEFINITION. The media half of a plan as its image carries it: MIX, ROUTE, LAYOUT, TASKGRAPH, KERNEL and SESSION
(10 to 15). Critical values keep their complement (R105). -/

namespace Sys2Proof.Machine

/-- A column record of a bus (R308); `source` is 0xFFFF for none. -/
structure Column where
  srcRate : Nat := 0
  dcEn : Bool := false
  select : Bool := false
  rank : Option Nat := none
  source : Nat := 0xFFFF
  deriving DecidableEq, Repr, Inhabited

/-- A tap record of a bus (R308); `minus` is 0x1FF for none. -/
structure Tap where
  minus : Nat := 0x1FF
  outRate : Nat := 0
  clock : Nat := 0
  deriving DecidableEq, Repr, Inhabited

/-- A bus record (R308); `words` is the record as the image carries it. -/
structure BusRec where
  bus : Nat
  rate : Nat
  route : Word
  columns : List Column
  taps : List Tap
  words : List Word
  deriving DecidableEq, Repr, Inhabited

/-- The MIX section (R307): the selection record, the scaling table and the buses. Without the section, K is 0. -/
structure Mix where
  k : Nat := 0
  hyst : Nat := 0
  release : Nat := 0
  pins : List Nat := []
  rankSessions : List Nat := []
  scaling : List Nat := []
  buses : List BusRec := []
  deriving DecidableEq, Repr, Inhabited

/-- An audio route (R319): triples (INPUT, COEFF, complement). -/
structure AudioRoute where
  ref : Nat
  bus : Nat
  coeffs : List (Nat × Word × Word)
  deriving DecidableEq, Repr, Inhabited

/-- A layout selection (R359). -/
structure LayoutSel where
  ref : Nat
  output : Nat
  layout : Word
  deriving DecidableEq, Repr, Inhabited

/-- An output record (R353). -/
structure OutputRec where
  output : Nat
  deep : Bool
  dual : Bool
  colour : Nat
  w : Nat
  h : Nat
  bandFbs : Nat
  region : Nat
  layout : Word
  deriving DecidableEq, Repr, Inhabited

/-- A layer record (R357); `fill` is laid out as BACKGROUND. -/
structure Layer where
  source : Nat
  blend : Nat
  colour : Nat
  alpha : Nat
  arg : Nat
  border : Nat
  x : Nat
  y : Nat
  w : Nat
  h : Nat
  cropX : Nat
  cropY : Nat
  cropW : Nat
  cropH : Nat
  fill : Nat
  deriving DecidableEq, Repr, Inhabited

/-- A layout record with its layers and its order list, if it has one (R356). -/
structure Layout where
  layout : Nat
  output : Nat
  background : Nat
  layers : List Layer
  order : Option (List Nat)
  deriving DecidableEq, Repr, Inhabited

/-- A task record with its successor entries (R250, R252). -/
structure TaskRec where
  index : Nat
  op : Nat
  prio : Nat
  dep : Nat
  flowValid : Bool
  sessionFlow : Bool
  flow : Nat
  session : Nat
  ref : Nat
  budget : Nat
  outBlocks : Nat
  fbWrite : Nat
  param : Word
  succ : List (Word × Word)
  deriving DecidableEq, Repr, Inhabited

/-- A graph descriptor with its tasks (R249). -/
structure GraphRec where
  graph : Nat
  arrival : Bool
  list : Nat
  maxInst : Nat
  num : Nat
  den : Nat
  session : Nat
  phase : Nat
  deadlineUs : Nat
  tasks : List TaskRec
  deriving DecidableEq, Repr, Inhabited

/-- A plan kernel (R294): its descriptor, code and constants. -/
structure KernelRec where
  kernel : Nat
  code : List Word
  consts : List Word
  footprint : Nat
  stateBytes : Nat
  entry : Nat
  budget : Nat
  deriving DecidableEq, Repr, Inhabited

/-- A SESSION entry (R330 to R332, R375). `typ`: 0 audio decode, 1 audio encode, 2 video decode, 3 video encode. The
fields of another TYPE are zero; `words` is the entry as the image carries it. -/
structure SessionRec where
  session : Nat
  typ : Nat
  words : List Word
  kernel : Nat := 0
  stateBytes : Nat := 0
  stateRegion : Nat := 0
  ringKib : Nat := 0
  format : Nat := 0
  profile : Nat := 0
  deep : Bool := false
  maxW : Nat := 0
  maxH : Nat := 0
  stream : Nat := 0
  sDec : Nat := 0
  tDec : Nat := 0
  reassMs : Nat := 0
  fbCount : Nat := 0
  fbRegion : Nat := 0
  pixelRate : Nat := 0
  scale : Nat := 0
  lead : Bool := false
  output : Nat := 0
  tLayers : Nat := 0
  statsEn : Bool := false
  source : Nat := 0
  rung : Nat := 0
  keyInterval : Nat := 0
  qpBase : Nat := 0
  qpMin : Nat := 0
  qpMax : Nat := 0
  keyQp : Nat := 0
  cap : Nat := 0
  windowMs : Nat := 0
  refreshMs : Nat := 0
  ssrc : Nat := 0
  regions : List Word := []
  deriving DecidableEq, Repr, Inhabited

end Sys2Proof.Machine
end

