-- ==== Sys2Proof/Machine/PartsRun.lean ====
section
/-! DEFINITION. The state of the media engines and of the task scheduler at run time (10 to 15). The default of every
field is its value at reset. Instants on the launch clock are in ns from its zero (R254). -/

namespace Sys2Proof.Machine

/-! ### Frame buffers (R339, R354, R377) -/

/-- The states of a frame buffer (R339). -/
inductive FbState where
  | free | writing | valid | suspect
  deriving DecidableEq, Repr, Inhabited

/-- A frame buffer (R339): its picture with timestamp, arrival and count; its marks; its FB_READ leases. A pyramid
buffer (R377) holds levels 1 to 3 of a band in `levels` and the vector field in `field`: (x, y, SAD, ACT) for each
level-2 block. -/
structure Fb where
  st : FbState := .free
  concealed : Bool := false
  pic : Picture := {}
  ts : Nat := 0
  arrival : Nat := 0
  count : Nat := 0
  ref : Bool := false
  out : Bool := false
  conceal : Bool := false
  reads : Nat := 0
  levels : List Picture := []
  field : List (Int × Int × Nat × Nat) := []
  deriving DecidableEq, Repr, Inhabited

/-- Which set of frame buffers a lease names: those of a device session, of a device output, or the pyramid buffers of a
LEAD session. -/
inductive FbOwner where
  | session (id : Nat)
  | output (id : Nat)
  | pyramid (id : Nat)
  deriving DecidableEq, Repr, Inhabited

/-! ### Sessions (R335 to R349, R286, R289, R384 to R397) -/

/-- One entry of a session's input ring (R335): a payload, or a marker for one not passed. -/
structure RingEntry where
  seq : Nat
  ts : Nat
  marker : Bool := false
  m : Bool := false
  s : Nat := 0
  t : Nat := 0
  key : Bool := false
  arrival : Nat := 0
  data : List Nat := []
  deriving DecidableEq, Repr, Inhabited

/-- An access unit (R337): its payloads and markers by extended sequence number, from its first number on. -/
structure Au where
  ts : Nat
  first : Nat
  entries : List (Nat × RingEntry) := []
  arrival : Nat := 0
  damaged : Bool := false
  deriving DecidableEq, Repr, Inhabited

/-- The rate-control state of the picture in progress of an encode session (R385 to R389). -/
structure EncPic where
  inst : Nat
  release : Nat
  key : Bool := false
  forced : Bool := false
  dropped : Bool := false
  failed : Bool := false
  stats : Bool := false
  spent : Nat := 0
  budget : Nat := 0
  used : Nat := 0
  qp : Nat := 0
  squeeze : Option Nat := none
  skip : Option Nat := none
  bandsDone : Nat := 0
  fb : Option Nat := none
  sumA : Nat := 0
  sumE : Nat := 0
  qpSum : Nat := 0
  qpCount : Nat := 0
  blocks : List (Word × Word) := []
  ts : Nat := 0
  layer : Nat := 0
  refFb : Option Nat := none
  regions : List (Nat × Nat × Nat × Nat × Int) := []
  band : Nat := 0
  bandSkip : Bool := false
  deriving DecidableEq, Repr, Inhabited

/-- The encoder's part of a session (R384 to R392): position since the last key picture, models K (Q8.24), coded bytes
of pictures with their release instants, newest first, and what the probe shows of the last picture. -/
structure EncState where
  tsBase : Nat := 0
  k0 : Option Nat := none
  q : Nat := 0
  sinceKey : Nat := 0
  started : Bool := false
  noRef : Bool := false
  refresh : Bool := false
  lastForced : Option Nat := none
  firstAt : Option Nat := none
  kKey : Nat := 0
  kInter : Nat := 0
  history : List (Nat × Nat) := []
  pictures : Nat := 0
  nextSeq : Nat := 0
  t0 : Option Nat := none
  prev : Option Nat := none
  pic : Option EncPic := none
  last : EncPic := { inst := 0, release := 0 }
  deriving DecidableEq, Repr, Inhabited

/-- A media session as the device holds it (R114): its rings, its assembler, its frame buffers, its decoder state and its two
copies of kernel state with the select bit. `era` counts the restarts of its codec state (R318). `refs` and `source` name pictures
by count. -/
structure Sess where
  conf : Nat := 0
  session : Nat := 0
  typ : Nat := 0
  fresh : Bool := true
  ring : List RingEntry := []
  ringBytes : Nat := 0
  aus : List Au := []
  highest : Option Nat := none
  nextFirst : Option Nat := none
  fbs : List Fb := []
  pyramid : List Fb := []
  latest : Option Nat := none
  prevOut : Option Nat := none
  source : Option Nat := none
  refs : List Nat := []
  count : Nat := 0
  lastSize : Option (Nat × Nat) := none
  copyA : FMap Word := []
  copyB : FMap Word := []
  sel : Bool := false
  era : Nat := 0
  enc : EncState := {}
  deriving DecidableEq, Repr, Inhabited

/-! ### Buses (R301 to R326) -/

/-- A column of a bus (R303, R305, R317): converter history and delay line, newest sample first; DC estimate in units
of 2^-39; whether it was gated, its rank's holder and its last aligned sample. -/
structure ColState where
  hist : List Int := []
  delay : List Int := []
  dc : Option Int := none
  gated : Bool := true
  holder : Option Nat := none
  lastX : Int := 0
  deriving DecidableEq, Repr, Inhabited

/-- A tap of a bus (R304, R312): converter history, the scale of the last frame, TS_BASE. -/
structure TapState where
  hist : List Int := []
  scale : Option Nat := none
  scaleOld : Option Nat := none
  tsBase : Nat := 0
  deriving DecidableEq, Repr, Inhabited

/-- A route as resolved for a frame: coefficients of the columns it lists (R321). -/
structure Resolved where
  ref : Nat := 0
  coeffs : List (Nat × Word × Word) := []
  deriving DecidableEq, Repr, Inhabited

/-- A crossfade (R321): its length in samples, the samples done, its two routes, and the launch-clock instant in ns at which the
last of its samples has passed, once all of them are done. -/
structure Xfade where
  m : Nat
  n : Nat := 0
  ends : Option Nat := none
  old : Resolved
  new : Resolved
  deriving DecidableEq, Repr, Inhabited

/-- A bus as the device holds it (R326): its conference, the releases counted since that of its first frame (R304), and in `asked` a
crossfade that waits for the first frame released after an instant. -/
structure BusState where
  conf : Nat := 0
  started : Bool := false
  rel : Option Nat := none
  cols : List ColState := []
  taps : List TapState := []
  route : Resolved := {}
  xfade : Option Xfade := none
  asked : Option (Nat × Nat × Bool) := none
  deriving DecidableEq, Repr, Inhabited

/-! ### Composed outputs (R354, R360) -/

/-- A composed output as the device holds it (R354): band buffers, per band the CONCEAL buffers (with the 8-bit copy under DUAL8),
the buffers of the last completed picture by band with the instance that made it, and per band the pyramid buffer searched last.
-/
structure OutState where
  fbs : List Fb := []
  conceal : FMap (List Nat) := []
  last : List (List Nat) := []
  lastRun : Option Nat := none
  pyr : FMap Nat := []
  deriving DecidableEq, Repr, Inhabited

/-- What one layer draws under a latch (R358, R360): a picture of a session by its buffer and count, or the buffers of an output's
picture with the instance that made it. -/
inductive Drawn where
  | fill
  | picture (session buf count : Nat)
  | output (bufs : List (List Nat)) (id run : Nat)
  | nothing
  deriving DecidableEq, Repr, Inhabited

/-- The latch of an output for one graph instance (R360): what each layer draws, and in `bands` what it draws in a band
whose latched buffers were replaced; `done` lists the buffers of the bands completed. -/
structure Latch where
  layout : Option Layout := none
  drawn : List Drawn := []
  holders : List (Option Nat) := []
  last : List (List Nat) := []
  bands : FMap (List Drawn) := []
  done : FMap (List Nat) := []
  bad : Bool := false
  deriving DecidableEq, Repr, Inhabited

/-! ### The task scheduler (R255 to R273) -/

/-- A graph (R255): conference, bank and load number, its release number and instant, the selected set and rank holders its bus
frames use (R316), the count of its bus frames by bus (R304), the access unit of an ARRIVAL release, the latches of its outputs,
and the pyramid buffers it wrote by output * 64 + band. -/
structure GraphRun where
  conf : Nat
  bank : Nat
  loadNo : Nat
  graph : Nat
  k : Nat := 0
  release : Nat := 0
  tasks : List Nat := []
  au : Option Au := none
  selected : List Nat := []
  ranks : FMap Nat := []
  busK : FMap Nat := []
  latches : FMap Latch := []
  pyr : FMap Nat := []
  deriving DecidableEq, Repr, Inhabited

/-- Where a live task stands (R255 to R262). -/
inductive TaskSt where
  | waiting | ready | flowWait | dispatched | completed
  deriving DecidableEq, Repr, Inhabited

/-- A live task. `inputs` maps an input to (status, predecessor, block); `out` is its window 1 by word; `bufs` are its FB_WRITE
buffers and `held` its FB_READ buffers; `reported` the status its engine has reported; `abortAt` when an abort was requested;
`left` the ns of BUDGET left while suspended; `ringAt` the entries its input ring held at dispatch and `era` the session's codec
state then; `damaged` that its engine met an uncorrectable word (R455). -/
structure Live where
  run : Nat
  task : TaskRec
  st : TaskSt := .waiting
  counter : Nat := 0
  inputs : FMap (Nat × Nat × Nat) := []
  status : Nat := 0
  kind : Nat := 0
  eng : Nat := 0
  lease : Option Nat := none
  orderNo : Nat := 0
  skips : Nat := 0
  blocks : Nat := 0
  bufs : List (FbOwner × Nat) := []
  held : List (FbOwner × Nat) := []
  out : FMap Word := []
  reported : Option Nat := none
  abortAt : Option Nat := none
  budgetHit : Bool := false
  suspended : Bool := false
  due : Option Nat := none
  left : Nat := 0
  budgetNs : Nat := 0
  revoking : Bool := false
  ringAt : Nat := 0
  era : Nat := 0
  damaged : Bool := false
  deriving DecidableEq, Repr, Inhabited

/-- A lease record (R270); `pool` is the bank (conference * 2 + bank) whose output pool a CREDIT lease draws on. -/
structure Lease where
  ownerKind : Nat
  ownerInst : Nat
  kind : Nat
  gen : Nat
  object : Nat
  task : Nat
  pool : Nat := 0
  deriving DecidableEq, Repr, Inhabited

/-- A due entry of a delay list (R263). -/
inductive Due where
  | release (conf bank loadNo graph k : Nat)
  | deadline (run : Nat)
  | budget (task : Nat)
  | abort (task : Nat)
  deriving DecidableEq, Repr, Inhabited

/-- The Lantern trace (R274 to R277); `syncSec` is the second of TB0 whose SYNC was written last. -/
structure Lantern where
  ctrl : Word := 0x8000FFFF
  matchReg : Word := 0x7F800000
  frozen : Bool := false
  wrapped : Bool := false
  head : Nat := 0
  run : Nat := 0
  ring : FMap (List Word) := []
  lost : Nat := 0
  syncSec : Option Nat := none
  deriving DecidableEq, Repr, Inhabited

/-- The task scheduler (R255 to R278): `tickAt` the instant of the next tick, delay lists as (due instant, entry) sorted, entries
taken and not yet acted on with the list of each, ready lists by kind * 8 + priority, the task that holds each flow, the tasks
that wait on it, the kind and task pinned for credit, the engine that last ran a session's task by kind * 2^20 + session. -/
structure Sched where
  tickUs : Nat := 10
  tickAt : Nat := 0
  lists : List (List (Nat × Due)) := [[], [], [], []]
  dueQ : List (Nat × Due) := []
  ready : FMap (List Nat) := []
  flows : FMap Nat := []
  waits : FMap (List Nat) := []
  pinned : FMap Nat := []
  lastEng : FMap Nat := []
  runs : FMap GraphRun := []
  nextRun : Nat := 0
  lives : FMap Live := []
  leases : FMap Lease := []
  gens : FMap Nat := []
  orderNo : Nat := 0
  counters : List Nat := List.replicate 18 0
  lantern : Lantern := {}
  deriving DecidableEq, Repr, Inhabited

/-! ### DSP cores (R279 to R292) -/

/-- A DMA descriptor queued by DMAQ (R286). -/
structure DspDesc where
  window : Nat
  toWindow : Bool
  rows : Nat
  winOffset : Nat
  ldmAddr : Nat
  rowBytes : Nat
  stride : Nat
  deriving DecidableEq, Repr, Inhabited

/-- A context slot (R279, R287): its task, registers, repeat stack (innermost first: count left, start, end), local
memory by 32-bit word, DMA channels, next bundle address, when PM was set, whether a kernel fault or END stopped it,
and the status of an END whose epilogue waits for DMA. -/
structure DspSlot where
  task : Option Nat := none
  d : List (BitVec 32) := List.replicate 32 0
  a : List (BitVec 72) := List.replicate 8 0
  p : List (BitVec 17) := List.replicate 16 0
  m : List (BitVec 17) := List.replicate 16 0
  b : List (BitVec 17) := List.replicate 16 0
  l : List (BitVec 17) := List.replicate 16 0
  am : List (BitVec 2) := List.replicate 16 0
  loops : List (BitVec 16 × BitVec 17 × BitVec 17) := []
  sv : BitVec 32 := 0
  sx : BitVec 32 := 0
  sc : BitVec 32 := 0
  sat : Bool := false
  ovf : Bool := false
  pm : Bool := false
  pmForced : Bool := false
  pmSince : Nat := 0
  pc : Nat := 0
  ldm : FMap (BitVec 32) := []
  chans : List (List DspDesc) := [[], [], [], []]
  stall : Option (Nat × DspDesc) := none
  waitOn : Option Nat := none
  stopped : Bool := false
  ending : Option Nat := none
  kernel : Nat := 0
  stateBytes : Nat := 0
  footprint : Nat := 131072
  windows : List Nat := [0, 0, 0, 0]
  deriving DecidableEq, Repr, Inhabited

/-- A DSP core (R279, R287, R295): its slots, the running one, the suspended ones (latest first), and the plan kernels of its
store as (load, kernel), latest used first. -/
structure DspCore where
  slots : List DspSlot := [{}, {}, {}]
  running : Option Nat := none
  suspended : List Nat := []
  store : List (Nat × Nat × Nat) := []
  deriving DecidableEq, Repr, Inhabited

/-! ### The encoder probe (R397) -/

/-- The encoder probe registers (R397). -/
structure EncProbe where
  sel : Word := 0
  status : Word := 0x00FFF000
  picture : Word := 0
  spent : Word := 0
  cap : Word := 0
  lastBytes : Word := 0
  kKey : Word := 0
  kInter : Word := 0
  deriving DecidableEq, Repr, Inhabited

end Sys2Proof.Machine
end

