-- ==== Sys2Proof/Machine/PartsPlan.lean ====
section
/-! DEFINITION. A plan as its image carries it (04, with the sections of 07 and 09), the plan banks of a conference
and its overrides. Critical values keep their complement: the one-word form as the word, the two-word form as a pair
of words (R105). -/

namespace Sys2Proof.Machine

/-- A ROSTER entry (R102); `ref` is SOURCE_REF with its complement. -/
structure RosterSlot where
  slot : Nat
  kind : Nat
  spare : Bool
  ladder : Nat
  estClass : Nat
  rateInit : Nat
  session : Nat
  aux : Nat
  ref : Word
  deriving DecidableEq, Repr, Inhabited

/-- A source descriptor (R103). -/
structure SourceDesc where
  home : Nat
  audioList : Word
  layers : List Word
  deriving DecidableEq, Repr, Inhabited

/-- A layer ladder (R189). -/
structure Ladder where
  idx : Nat
  audioAll : Bool
  rungs : List Nat
  deriving DecidableEq, Repr, Inhabited

/-- A class record (R182); `ptMap` holds the valid entries as (PT, FORMAT). -/
structure ClassRec where
  cls : Nat := 0
  estEn : Bool := false
  upstreamNack : Bool := false
  joinFir : Bool := false
  replayWindow : Nat := 64
  histDepth : Nat := 0
  histAge : Nat := 0
  keyReqInterval : Nat := 100
  idLevel : Nat := 0
  idFrameMark : Nat := 0
  idDd : Nat := 0
  ptMap : List (Nat × Nat) := []
  alpha : Nat := 0
  gamma : Nat := 0
  overuseMs : Nat := 0
  holdUpMs : Nat := 0
  beta : Nat := 0
  eta : Nat := 0
  groupUs : Nat := 1000
  lossHigh : Nat := 0
  rMin : Nat := 0
  rMax : Nat := 0
  classRate : List Nat := []
  deriving DecidableEq, Repr, Inhabited

/-- A SHAPER slot entry (R241); the conference record is one with SLOT 0 and no classes. -/
structure ShaperRec where
  slot : Nat := 0
  audioClass : Nat := 1
  videoClass : Nat := 1
  rtxClass : Nat := 1
  legMask : Nat := 0
  rate : Word := 0
  rateC : Word := 0xFFFFFFFF
  burst : Nat := 0
  deriving DecidableEq, Repr, Inhabited

/-- A PLACEMENT entry (R106). -/
structure Region where
  cls : Nat
  grain : Nat
  region : Nat
  size : Nat
  pchMask : Nat
  deriving DecidableEq, Repr, Inhabited

/-- A plan (R99 to R106): `length` is its IMAGE_LENGTH, `loadNo` numbers its load; the PCH_MASK of an installed region
is its channel set (R405). -/
structure Plan where
  conf : Nat
  epoch : Nat
  tickPhase : Nat
  resetOverrides : Bool := false
  tasks : Nat := 0
  frameBuffers : Nat := 0
  flows : Nat := 0
  length : Nat := 0
  loadNo : Nat := 0
  roster : List RosterSlot := []
  sources : List SourceDesc := []
  lists : List (List Nat) := []
  ladders : List Ladder := []
  classes : List ClassRec := []
  confShaper : ShaperRec := {}
  shaper : List ShaperRec := []
  regions : List Region := []
  mix : Mix := {}
  routes : List AudioRoute := []
  layoutSels : List LayoutSel := []
  outputs : List OutputRec := []
  layouts : List Layout := []
  graphs : List GraphRec := []
  kernels : List KernelRec := []
  sessions : List SessionRec := []
  deriving DecidableEq, Repr, Inhabited

/-- The states of a plan bank (R96). -/
inductive BankState where
  | empty | loading | standby | pending | active | retiring
  deriving DecidableEq, Repr, Inhabited

/-- A plan bank (R96): its state, the state before LOADING, its plan, the TB0 value of the commit that waits, and when
it left ACTIVE; the device's sessions, buses and outputs that its numbers stand for while it runs (R114, R326, R354). -/
structure Bank where
  st : BankState := .empty
  prev : BankState := .empty
  plan : Option Plan := none
  commitAt : Nat := 0
  leftActive : Option Nat := none
  sess : FMap Nat := []
  buses : FMap Nat := []
  outs : FMap Nat := []
  deriving DecidableEq, Repr, Inhabited

/-- A PLAN_LOAD in progress (R107): its conference, bank, function, host address and length, and whether it lost its
fetch (R440, R441). -/
structure Load where
  conf : Nat
  bank : Nat
  fn : Nat
  addr : Nat
  length : Nat
  aborted : Bool := false
  deriving DecidableEq, Repr, Inhabited

end Sys2Proof.Machine
end

