-- ==== Sys2Proof/Machine/State.lean ====
section
/-! DEFINITION. The state of the block: everything the spec gives the machine, the queue of waiting commands, and the
model's own fields. `State.reset` is the device right after a power-on reset. -/

namespace Sys2Proof.Machine

/-- A conference (R96, R118, R119): its two banks; the load number reached when it was fenced; overrides of audio routes and
layouts by output, of gains by bus * 65,536 + input (with its time), of the shaper; the selected set, the candidates' scores, the
holders of the ranks and the level table by source as (LEVEL, V, arrival in us) (R314 to R318), with the set and holders computed
at the last tick and not yet published (instant of `now`, set, ranks), those in force before the last publication, and the look-up
number and launch-clock instant of that publication (R316); gains that wait for a crossing as (value, deadline, commit) (R324);
the stream state of locally originated sources by source (R22, R186); set-2 counters. -/
structure Conf where
  banks : List Bank := [{}, {}]
  fenced : Option Nat := none
  routeOv : FMap Nat := []
  layoutOv : FMap Nat := []
  gainOv : FMap Word := []
  shaperOv : Bool := false
  selected : List Nat := []
  scores : FMap Nat := []
  ranks : FMap Nat := []
  nextSel : Option (Nat × List Nat × FMap Nat) := none
  prevSel : List Nat × FMap Nat := ([], [])
  pubLook : Nat := 0
  pubAt : Nat := 0
  levels : FMap (Nat × Bool × Nat) := []
  gainPend : FMap (Word × Nat × Nat) := []
  locals : FMap TrunkSrc := []
  lastTick : Option Nat := none
  counters : List Nat := List.replicate 29 0
  deriving DecidableEq, Repr, Inhabited

/-- A STUN packet that waits for Welmus (R171). -/
structure Stun where
  frame : Frame
  port : Nat
  request : Bool
  stamp : Nat := 0
  deriving DecidableEq, Repr, Inhabited

/-- The state of the block. -/
structure State where
  pending : List Instr := []
  out : List Out := []
  now : Nat := 0
  fresh : Nat := 0
  modes : Modes := {}
  pins : Pins := {}
  boot : Boot := {}
  fuses : Fuses := {}
  mbx : FMap Mailbox := []
  funcs : FMap Func := []
  welmus : Welmus := {}
  grants : FMap Grant := []
  audit : Log := {}
  faults : Faults := {}
  avail : Avail := {}
  survey : FMap Monitor := []
  vdd : Vdd := {}
  thermal : Thermal := {}
  smbus : Smbus := {}
  freq : FreqMon := {}
  sram : FMap SramState := []
  jtag : Nat := 1
  loads : FMap Load := []
  loadSeq : Nat := 0
  confs : FMap Conf := []
  ports : FMap Port := []
  shorted : List Nat := []
  turns : FMap Nat := []
  excLast : Nat := 127
  time : TimeUnit := {}
  legs : FMap Leg := []
  legSerial : Nat := 0
  gone : FMap Gone := []
  lookups : List Lookup := []
  slots : FMap Slot := []
  keyCache : List Nat := []
  storageKey : List Word := []
  kik : List Nat := []
  cores : FMap Core := []
  hmacs : FMap HmacUnit := []
  takeNo : Nat := 0
  rxJobs : FMap (List Job) := []
  txJobs : FMap (List Job) := []
  replQ : FMap (List ReplPacket) := []
  egressQ : FMap (List Copy) := []
  localQ : FMap (List LocalRec) := []
  stunQ : List Stun := []
  buckets : FMap Bucket := []
  store : FMap Stored := []
  chargeNo : Nat := 0
  lookNo : Nat := 0
  pchs : FMap Pch := []
  towers : FMap Stack := []
  hbm : Hbm := {}
  panic : Panic := {}
  waitQ : List WaitFrame := []
  sched : Sched := {}
  sess : FMap Sess := []
  buses : FMap BusState := []
  outs : FMap OutState := []
  dsps : FMap DspCore := []
  mediaSerial : Nat := 0
  encProbe : EncProbe := {}
  probe : Probe := {}
  deriving DecidableEq, Repr, Inhabited

/-- Why the machine stops with a fault: never in this model, every row of the table has an effect (safe: the type has
no value). -/
inductive Fault where
  deriving DecidableEq, Repr

/-- Why a command is refused. -/
inductive Refusal where
  /-- Raised by `exec` for a command whose meaning is not written: safe, the model stops. -/
  | notModelled (mnemonic : String)
  deriving DecidableEq, Repr

/-- The machine right after a power-on reset (R46, R51): every field at the value the spec gives, else at the value
that the assumption log names. -/
def State.reset : State := {}

end Sys2Proof.Machine
end

