-- ==== Sys2Proof/Machine/Flags.lean ====
section
/-! DEFINITION. The status words and flags that the state shows in registers: mode codes, identity words, STATUS0,
BOOT_STATUS, SVN_STATE, CMDQ_STATUS, EVQ_STATUS, TIME_STATUS, PORT_STATUS, RING_STATUS (R33, R51, R58, R64, R141, R148,
R433). -/

namespace Sys2Proof.Machine

/-- Mode codes (R33). -/
def Mode.code : Mode → Nat
  | .reset => 0 | .identify => 1 | .load => 2 | .calibrate => 3 | .ready => 4 | .service => 5 | .degraded => 6
  | .drain => 7 | .maintenance => 8 | .throttle => 9 | .retain => 10 | .quarantine => 11

/-- Working modes: MAINTENANCE runs as SERVICE does (R37, R78). -/
def Mode.working : Mode → Bool
  | .ready | .service | .degraded | .drain | .maintenance | .throttle => true
  | _ => false

/-- Status modes (R78). -/
def Mode.status (m : Mode) : Bool := m.working || m == .calibrate || m == .retain

/-- The modes in which the hardware responder answers instead of Welmus (R34). -/
def Mode.responder : Mode → Bool
  | .reset | .identify | .load | .quarantine => true
  | _ => false

/-- The mode in force, or in THROTTLE the return mode (R41). -/
def State.effMode (s : State) : Mode := if s.modes.mode = .throttle then s.modes.returnMode else s.modes.mode

/-- The requests for QUARANTINE: the one that the arbiter has taken, and those that wait (R43, R474). -/
def Modes.quarantines (m : Modes) : List ModeReq :=
  (m.transition.toList ++ m.arb).filter fun r => r.target == .quarantine

/-- A request for RESET waits at the arbiter (R43). -/
def Modes.resetAsked (m : Modes) : Bool := m.arb.any fun r => r.target == .reset

/-- The boot and calibration steps change the mode no more: a request for RESET or QUARANTINE comes first (R43, R44). -/
def Modes.ending (m : Modes) : Bool := m.resetAsked || !m.quarantines.isEmpty

/-- Modes in which leg traffic runs (R33). -/
def Mode.carries : Mode → Bool
  | .service | .degraded | .drain | .maintenance => true
  | _ => false

/-- Modes in which leg traffic runs, in THROTTLE by the return mode (R33, R35, R41): its packets move, and media are made. -/
def State.moves (s : State) : Bool := s.effMode.carries

/-- Leg traffic is taken in: in a mode in which it runs, while no transition to one without leg traffic is in progress (R35, R44;
log entry 106). -/
def State.carries (s : State) : Bool :=
  s.moves && s.modes.transition.all fun r => r.target.carries

/-- Modes in which ports run: the working modes, in THROTTLE by the return mode (R33, R35, R38, R39, R41). PCLK, MCLK and DCLK run
in the same modes, and the blocks on them work. -/
def State.portsRun (s : State) : Bool := s.effMode.working

/-- Whether the control cluster runs Welmus (R33, R34, R38, R48). -/
def State.welmusRuns (s : State) : Bool := s.modes.mode.status && !s.modes.fwRestart

/-- Whether the main domain is out of reset. -/
def State.mainUp (s : State) : Bool := s.modes.mode != .reset

/-- Whether the host interface is out of reset (R50). -/
def State.ifUp (s : State) : Bool := s.pins.pwrgoodAux && s.pins.perstN && s.pins.pcieRef

/-- Whether the host reaches the host interface: it is out of reset and its link is up (R28, R50). -/
def State.hostUp (s : State) : Bool := s.ifUp && s.pins.linkUp

/-- Whether the writer of the fault log accepts records: from CALIBRATE on, and in QUARANTINE (R449, R495). -/
def State.logAccepts (s : State) : Bool :=
  match s.modes.mode with
  | .reset | .identify | .load => false
  | _ => true

/-- At least one instance is unavailable (R40). -/
def State.instDown (s : State) : Bool := !s.avail.down.isEmpty

/-- Time base `n`. -/
def State.tb (s : State) (n : Nat) : TimeBase := s.time.bases.getD n {}

/-- TB0's value in units of 2^-40 ns (R143). -/
def State.tb0 (s : State) : Nat := (s.tb 0).value

/-- TB0 in whole nanoseconds. -/
def State.tb0Ns (s : State) : Nat := s.tb0 / 2 ^ 40

/-- TB0 in microseconds, as send logs and arrivals hold it (R179, R187). -/
def State.tb0Us (s : State) : Nat := s.tb0Ns / 1000

/-- The time words of TB0 (R12). -/
def State.stamp (s : State) : List Word := timeWords s.tb0

/-- The launch clock in units of 2^-16 ns (R162, R234). -/
def State.launchClock (s : State) : Int := ((s.tb0 : Int) - s.time.stepSum) / 2 ^ 24

/-- Whether time base `n` is in holdover (R148, R156). -/
def TimeBase.inHoldover (b : TimeBase) : Bool := b.state == .holdover

/-- The highest junction sensor (R471). -/
def State.hottest (s : State) : Int := s.thermal.sensors.foldl max (s.thermal.sensors.headD 0)

/-- Bits set in a list of flags, first flag at bit 0. -/
def flagBits : List Bool → Nat
  | [] => 0
  | b :: r => b2n b + 2 * flagBits r

/-- IDENT0 (R51). -/
def ident0 : Word := 0x4B560B08

/-- IDENT1 (R51). -/
def State.ident1 (s : State) : Word := w32 (s.fuses.rev % 256 + 256 * b2n s.fuses.es)

/-- SVN_STATE (R58). -/
def State.svnState (s : State) : Word :=
  w32 (s.fuses.svnMin % 256 + 256 * b2n s.fuses.revoked0 + 512 * b2n s.fuses.revoked1)

/-- STATUS0 (R51). -/
def State.status0 (s : State) : Word :=
  w32 (s.modes.mode.code + 16 * s.modes.returnMode.code + 256 * b2n s.modes.transition.isSome
    + 512 * b2n s.modes.fwRestart + 1024 * b2n s.instDown + 2048 * b2n (s.time.bases.any TimeBase.inHoldover)
    + 4096 * b2n (decide (s.hottest ≥ 800)) + 65536 * s.modes.bootCount)

/-- BOOT_STATUS (R51). -/
def State.bootStatus (s : State) : Word :=
  w32 (s.boot.resultPush + 16 * s.boot.resultA + 256 * s.boot.resultB + 8192 * s.boot.source
    + 32768 * b2n s.boot.pushReady)

/-- The identity words of DEVICE_IDENTIFY and GET_IDENTITY, as BAR0 shows them (R4, R53, R80). -/
def State.identityWords (s : State) : List Word :=
  [ident0, s.ident1] ++ wordsOfBytes (orderCode s.fuses.es) ++ words64 s.fuses.serial ++ [s.boot.fwVersion]

/-- The mailbox of a function. -/
def State.mb (s : State) (fn : Nat) : Mailbox := s.mbx.getD {} fn

/-- The PCIe function `fn`. -/
def State.func (s : State) (fn : Nat) : Func := s.funcs.getD {} fn

/-- Ring words reserved and not freed (R65). -/
def Mailbox.used (m : Mailbox) : Nat := (m.resv.map Resv.n).sum

/-- FREE (R64). -/
def Mailbox.free (m : Mailbox) : Nat := 16384 - m.used

/-- HEAD (R64). -/
def Mailbox.head (m : Mailbox) : Nat :=
  match m.resv with
  | [] => m.nextOff
  | r :: _ => r.off

/-- STALLED (R64, R68): the head message is reserved and its word 0 unwritten. -/
def Mailbox.stalled (m : Mailbox) : Bool :=
  match m.resv with
  | [] => false
  | r :: _ => !r.written

/-- CMDQ_STATUS (R64). -/
def Mailbox.cmdqStatus (m : Mailbox) : Word := w32 (m.free + 65536 * m.head + 2 ^ 30 * b2n m.stalled)

/-- EVQ_STATUS (R64). -/
def Mailbox.evqStatus (m : Mailbox) : Word :=
  w32 (m.evq.length + 2 ^ 29 * b2n m.discarded + 2 ^ 30 * b2n m.poison + 2 ^ 31 * b2n m.underrun)

/-- THRESHOLD in force: 0 is taken as 1 (R64). -/
def Mailbox.threshold1 (m : Mailbox) : Nat := if m.threshold = 0 then 1 else m.threshold

/-- Whether the PPS input showed an accepted edge within the last 1.5 s (R148). -/
def State.ppsPresent (s : State) : Bool :=
  match s.time.ppsInLast with
  | none => false
  | some t => decide (s.time.elapsed < t + 1500000000)

/-- TIME_STATUS (R148). -/
def State.timeStatus (s : State) : Word :=
  w32 (flagBits (s.time.bases.map TimeBase.inHoldover)
    + 256 * flagBits (s.time.bases.map fun b => b.state == .locked)
    + 2 ^ 20 * s.time.ppsOutTb + 2 ^ 23 * b2n s.time.ppsOutEn + 2 ^ 24 * b2n s.time.tclkRef10
    + 2 ^ 25 * b2n (!s.freq.ref10m.missing) + 2 ^ 26 * b2n s.ppsPresent)

/-- The port `p`, where it exists (R123). -/
def State.port? (s : State) (p : Nat) : Option Port := s.ports.find? p

/-- Port `p` exists and is UP. -/
def State.portUp (s : State) (p : Nat) : Bool := (s.port? p).any fun q => q.st == 4

/-- Lanes of a SPEED code (R120). -/
def lanesOf : Nat → Nat
  | 3 => 2
  | 4 => 4
  | 0 => 0
  | _ => 1

/-- The lanes of port `p` that are shorted, as bits relative to its first lane (R129). -/
def State.shortBits (s : State) (p : Nat) (cfg : PortCfg) : Nat :=
  flagBits ((List.range (lanesOf cfg.speed)).map fun i => s.shorted.contains (p + i))

/-- PORT_STATUS of a port that exists (R141). -/
def State.portStatus (s : State) (p : Nat) (q : Port) : Word :=
  w32 (flagBits ((q.watch.take 8).map Watch.tripped) + 256 * q.active + 4096 * q.rxInverted
    + 65536 * (q.openLanes ||| s.shortBits p q.cfg)
    + 2 ^ 20 * b2n (q.pauseHold.any fun h => decide (h.from_ ≤ s.now * 1000 ∧ s.now * 1000 < h.until_))
    + 2 ^ 21 * b2n ((q.watch.getD 8 {}).tripped) + 2 ^ 22 * b2n q.fecLock + 2 ^ 23 * q.order
    + 2 ^ 25 * b2n q.reduced + 2 ^ 26 * q.speedRun + 2 ^ 29 * q.st)

/-- Whether a function's rings are held (R440). -/
def Func.held (f : Func) : Bool := !f.bme || f.d3hot

/-- RING_STATUS (R433). -/
def Func.ringStatus (f : Func) (r : Ring) : Word :=
  w32 (2 ^ 28 * b2n f.held + 2 ^ 29 * b2n r.work.isNone + 2 ^ 30 * b2n r.badConfig + 2 ^ 31 * b2n r.lost)

end Sys2Proof.Machine
end

