-- ==== Sys2Proof/Machine/Ops.lean ====
section
/-! DEFINITION. The operations that many commands share: writing parts of the state, events and responses, the audit
and fault logs, instance availability, fences, and the mode changes. -/

namespace Sys2Proof.Machine

/-- What every meaning answers with. -/
abbrev Res := Host.Outcome State Fault Refusal

/-! ### Parts of the state -/

/-- The state at the start of a command: nothing sent out yet. -/
def State.begin (s : State) : State := { s with out := [] }

/-- Sends something out of the device. -/
def State.emit (s : State) (o : Out) : State := { s with out := s.out ++ [o] }

/-- Writes the mailbox of a function. -/
def State.setMb (s : State) (fn : Nat) (m : Mailbox) : State := { s with mbx := s.mbx.put fn m }

/-- Changes the mailbox of a function. -/
def State.updMb (s : State) (fn : Nat) (f : Mailbox → Mailbox) : State := s.setMb fn (f (s.mb fn))

/-- Writes a PCIe function's state. -/
def State.setFunc (s : State) (fn : Nat) (g : Func) : State := { s with funcs := s.funcs.put fn g }

/-- Changes the modes. -/
def State.setModes (s : State) (m : Modes) : State := { s with modes := m }

/-- Changes the boot registers. -/
def State.setBoot (s : State) (b : Boot) : State := { s with boot := b }

/-- Changes the port `p`, where it exists. -/
def State.updPort (s : State) (p : Nat) (f : Port → Port) : State := { s with ports := s.ports.upd p f }

/-- Adds to counter `i` of port `p` (R142). -/
def State.countPort (s : State) (p i k : Nat) : State :=
  s.updPort p fun q => { q with counters := bump q.counters i k }

/-- Changes the leg `l`, where it is open. -/
def State.updLeg (s : State) (l : Nat) (f : Leg → Leg) : State := { s with legs := s.legs.upd l f }

/-- Adds to counter `i` of leg `l` (R207, R247). -/
def State.countLeg (s : State) (l i k : Nat) : State :=
  s.updLeg l fun g => { g with counters := bump g.counters i k }

/-- The conference `c`. -/
def State.conf (s : State) (c : Nat) : Conf := s.confs.getD {} c

/-- Changes the conference `c`. -/
def State.updConf (s : State) (c : Nat) (f : Conf → Conf) : State := { s with confs := s.confs.put c (f (s.conf c)) }

/-- Adds to counter `i` of conference `c` (R327, R352, R374). -/
def State.countConf (s : State) (c i k : Nat) : State :=
  s.updConf c fun g => { g with counters := bump g.counters i k }

/-- Adds to counter `i` of a function (set 3, R80). -/
def State.countFn (s : State) (fn i k : Nat) : State :=
  s.updMb fn fun m => { m with counters := bump m.counters i k }

/-- The cipher core `c`. -/
def State.core (s : State) (c : Nat) : Core := s.cores.getD {} c

/-- Changes the cipher core `c`. -/
def State.updCore (s : State) (c : Nat) (f : Core → Core) : State := { s with cores := s.cores.put c (f (s.core c)) }

/-- The key slot record `k`. -/
def State.slot (s : State) (k : Nat) : Slot := s.slots.getD {} k

/-- Changes the key slot record `k`. -/
def State.updSlot (s : State) (k : Nat) (f : Slot → Slot) : State := { s with slots := s.slots.put k (f (s.slot k)) }

/-- Takes the next free value (log entry 3). -/
def State.draw (s : State) : Word × State := (Config.freeWord s.fresh, { s with fresh := s.fresh + 1 })

/-! ### Plans (R96) -/

/-- The number of the ACTIVE bank of a conference, if any. -/
def Conf.activeNo (c : Conf) : Option Nat :=
  if (c.banks.getD 0 {}).st = .active then some 0
  else if (c.banks.getD 1 {}).st = .active then some 1
  else none

/-- The bank `b` of a conference. -/
def Conf.bank (c : Conf) (b : Nat) : Bank := c.banks.getD b {}

/-- The plan in the ACTIVE bank. -/
def Conf.active (c : Conf) : Option Plan := c.activeNo.bind fun b => (c.bank b).plan

/-- The bank that PLAN_LOAD targets and PLAN_COMMIT commits: the one that is not ACTIVE, bank 0 when neither is
(R96). -/
def Conf.standbyNo (c : Conf) : Nat := if c.activeNo = some 0 then 1 else 0

/-- A conference exists while a bank holds an image (R97). -/
def Conf.exists_ (c : Conf) : Bool := c.banks.any fun b => b.plan.isSome

/-- Changes the bank `b` of a conference. -/
def Conf.setBank (c : Conf) (b : Nat) (f : Bank → Bank) : Conf := { c with banks := c.banks.modify b f }

/-- The roster entry of slot `k` of a plan. -/
def Plan.rosterSlot (p : Plan) (k : Nat) : Option RosterSlot := p.roster.find? fun r => r.slot == k

/-- The source number of a roster slot; none where SOURCE_REF fails its pair, which stands for an absent entry (R27, R102,
R117). -/
def RosterSlot.source (r : RosterSlot) : Option Nat := if pair16Ok r.ref then some (fld r.ref 15 0) else none

/-- The source descriptors that a roster slot names (R102). -/
def RosterSlot.sources (r : RosterSlot) : List Nat :=
  match r.source with
  | none => []
  | some n => if n = 0xFFFF then [] else (List.range (if r.kind = 2 then r.aux else 1)).map fun i => n + i

/-- The plan of bank `b` of conference `c`. -/
def State.planOf (s : State) (c b : Nat) : Option Plan := ((s.conf c).bank b).plan

/-! ### Holders and grants (R81, R84) -/

/-- Whether a grant covers conference `c`. -/
def Grant.coversConf (g : Grant) (c : Nat) : Bool := decide (g.confBase ≤ c) && decide (c < g.confBase + g.confCount)

/-- Whether a grant covers key slot `k`. -/
def Grant.coversSlot (g : Grant) (k : Nat) : Bool := decide (g.slotBase ≤ k) && decide (k < g.slotBase + g.slotCount)

/-- The holder of conference `c`: the VF whose grant covers it, else PF0 (R81). -/
def State.confHolder (s : State) (c : Nat) : Nat :=
  match List.find? (fun p : Nat × Grant => p.2.coversConf c) s.grants with
  | some p => p.1
  | none => 0

/-- The holder of key slot `k` (R81). -/
def State.slotHolder (s : State) (k : Nat) : Nat :=
  match List.find? (fun p : Nat × Grant => p.2.coversSlot k) s.grants with
  | some p => p.1
  | none => 0

/-- The holder of leg `l`: that of its conference (R81). -/
def State.legHolder (s : State) (l : Nat) : Nat :=
  match s.legs.find? l with
  | some g => s.confHolder g.conf
  | none => 0

/-! ### MSI-X, messages and events (R70, R71, R74, R82, R83, R431) -/

/-- Signals an MSI-X vector of a function, or sets its pending bit where it is masked (R431). While the host link is down no
message leaves the device, and none is kept for later (R28; DESIGN CHOICE, log entry 107). -/
def State.signal (s : State) (fn vec : Nat) : State :=
  let g := s.func fn
  if g.msixMask.getD vec false then s.setFunc fn { g with msixPending := g.msixPending.set vec true }
  else if s.hostUp then s.emit (.msix fn vec)
  else s

/-- Makes a message readable in a function's event queue and signals vector 0 at the threshold (R70, R71). -/
def State.pushMessage (s : State) (fn : Nat) (ws : List Word) : State :=
  let m := s.mb fn
  let before := m.evq.length
  let after := before + ws.length
  let hit := decide (before < m.threshold1) && decide (m.threshold1 ≤ after)
  let m' := { m with
    evq := m.evq ++ ws.map fun w => (w, false)
    signalRef := if before = 0 || hit then s.now else m.signalRef }
  let s := s.setMb fn m'
  if hit then s.signal fn 0 else s

/-- The length word (R67). -/
def lengthWord (n : Nat) : Word := w32 (n + 65536 * 0x574C)

/-- Raises an event to a function: the code, and its payload from word 6 on (R74, R82, R83, R47). -/
def State.raiseEvent (s : State) (fn code : Nat) (payload : List Word) : State :=
  let m := s.mb fn
  let bit := code - 0x100
  if bit ≠ 0 ∧ bit ≠ 8 ∧ m.mask.testBit bit then s
  else if !s.ifUp then (s.countFn fn 4 1).countFn fn 5 1
  else
    let n := payload.length + 6
    let s := s.countFn fn 4 1
    let m := s.mb fn
    let s := s.setMb fn { m with evSeq := m.evSeq + 1 }
    if m.evq.length + m.evReserved + n ≤ 16384 then
      s.pushMessage fn ([lengthWord n, w32 (code + 4096), m.evSeq] ++ s.stamp ++ payload)
    else (s.updMb fn fun m => { m with discarded := true }).countFn fn 5 1

/-- Raises EV_LEG_STATE to function `fn` (R81). -/
def State.legStateTo (s : State) (fn leg st cause : Nat) : State :=
  s.raiseEvent fn 0x101 [w32 leg, w32 (st + 256 * cause)]

/-- STATE of a leg in EV_LEG_STATE (R81): 3 fenced, 2 bound, 1 open. -/
def Leg.stateCode (g : Leg) : Nat := if g.fenced then 3 else if g.slot.isSome then 2 else 1

/-- Raises EV_LEG_STATE to the holder of the leg's conference (R81). -/
def State.legState (s : State) (leg st cause : Nat) : State := s.legStateTo (s.legHolder leg) leg st cause

/-! ### Logs (R93, R94, R447 to R452) -/

/-- Adds a record to a log: the oldest of 65,536 is overwritten (R94, R447). -/
def Log.push (l : Log) (r : LogRec) : Log := { recs := (r :: l.recs).take 65536, next := l.next + 1 }

/-- The words of the record `i` places before the next one, with its SEQ (R93, R448). -/
def Log.record (l : Log) (i : Nat) (r : LogRec) : List (Word × Bool) :=
  let seq := l.next - w32 1 - w32 i
  (r.words.set 3 seq).zipIdx.map fun p => (p.1, r.poison.contains p.2)

/-- Reads up to `count` records from sequence number `start`: FIRST, NEXT, LOST and the records in order (R80, R94,
R449). A start less than 2^31 numbers before the oldest record kept names overwritten entries (log entry 14). -/
def Log.read (l : Log) (start : Word) (count : Nat) : Word × Word × Word × List (List (Word × Bool)) :=
  let len := l.recs.length
  let oldest := l.next - w32 len
  let d := (start - oldest).toNat
  let behind := (oldest - start).toNat
  if d < len then
    let k := min count (len - d)
    let rs := (List.range k).map fun j =>
      let i := len - 1 - d - j
      l.record i (l.recs.getD i default)
    (start, start + w32 k, 0, rs)
  else if behind < 2 ^ 31 ∧ 0 < behind ∧ 0 < len then
    let k := min count len
    let rs := (List.range k).map fun j =>
      let i := len - 1 - j
      l.record i (l.recs.getD i default)
    (oldest, oldest + w32 k, w32 behind, rs)
  else (start, start, 0, [])

/-- Writes an audit entry; the writer's port always takes it (R93, R457). -/
def State.auditEntry (s : State) (fn origin op result phase : Nat) (tag : Word) (kind id : Nat) (detail : Word) :
    State :=
  let w4 := w32 (fn + 64 * origin + 256 * op + 2 ^ 20 * result + 2 ^ 24 * phase)
  let w6 := w32 (id % 2 ^ 21 + 2 ^ 29 * kind)
  { s with audit := s.audit.push { words := s.stamp ++ [0, w4, tag, w6, detail], at_ := s.now } }

/-- Writes an automatic entry (R94). -/
def State.auditAuto (s : State) (op kind id : Nat) (tag : Word) : State := s.auditEntry 0 1 op 0 0 tag kind id 0

/-- Writes a mode-arbiter entry (R93, R95). -/
def State.auditMode (s : State) (target : Mode) (trigger : Nat) (ret : Bool) : State :=
  s.auditEntry 0 2 0 0 0 0 0 0 (w32 (target.code + 256 * trigger + 4096 * b2n ret))

/-- SEVERITY, whether EV_FAULT is raised, and whether records are coalesced, by class (R452). -/
def faultClass : Nat → Nat × Bool × Bool
  | 0x01 => (0, false, false) | 0x08 => (0, true, false) | 0x09 => (1, true, false) | 0x0A => (2, true, false)
  | 0x0B => (1, true, false) | 0x0C => (2, true, false) | 0x10 => (0, false, false) | 0x11 => (0, false, true)
  | 0x12 => (0, false, false) | 0x18 => (1, true, false) | 0x19 => (1, true, false) | 0x20 => (1, true, true)
  | 0x21 => (1, true, false) | 0x22 => (0, false, true) | 0x28 => (2, true, false) | 0x29 => (1, false, true)
  | 0x2A => (1, false, true) | 0x2B => (2, true, false) | 0x2C => (0, true, false) | 0x30 => (1, true, true)
  | 0x31 => (1, false, true) | 0x32 => (1, false, true) | 0x33 => (1, true, false) | 0x34 => (2, true, false)
  | 0x38 => (1, true, false) | 0x39 => (1, true, true) | 0x40 => (1, false, false) | 0x48 => (0, false, false)
  | 0x49 => (1, true, false) | 0x4A => (1, true, false) | 0x50 => (1, true, false) | 0x51 => (1, true, false)
  | 0x58 => (1, true, false) | 0x60 => (3, false, false) | 0x61 => (2, false, false)
  | _ => (1, false, false)

/-- FUNCTION of a record, where FN_VALID is 1 (R448): the holder of a conference, leg or key slot, or the function
named. -/
def State.faultFn (s : State) (kind id : Nat) : Option Nat :=
  if kind = 1 then some (s.confHolder id)
  else if kind = 2 then some (s.legHolder id)
  else if kind = 3 then some (s.slotHolder id)
  else if kind = 6 then some id
  else none

/-- A fault record as a block submits it, stamped now (R448). -/
def State.faultRec (s : State) (cls kind id : Nat) (d0 d1 : Word) : FaultRec :=
  { time := s.stamp, cls := cls, sev := (faultClass cls).1, fn := s.faultFn kind id, objKind := kind, objId := id,
    d0 := d0, d1 := d1 }

/-- Submits a fault record to the writer port: lost and counted when the queue of 256 is full (R447). -/
def State.fault (s : State) (cls kind id : Nat) (d0 d1 : Word) : State :=
  if s.faults.queue.length < 256 then
    { s with faults := { s.faults with queue := s.faults.queue ++ [s.faultRec cls kind id d0 d1] } }
  else { s with faults := { s.faults with lost := s.faults.lost + 1 } }

/-- OBJ_ID of an instance (R453). -/
def instId (kind idx : Nat) : Nat := kind * 65536 + idx

/-- Test time in ns of an instance of a kind of R453 that a SELFTEST lends (R459). -/
def kindTestNs : Nat → Nat
  | 0 => 20000000 | 2 => 30000000 | 3 => 10000000 | 4 => 30000000 | _ => 2000000

/-- The key under which the test of SCOPE 0 stands among the lent instances. -/
def wholeTest : Nat := 2 ^ 21

/-- The test of the whole device has instance `i` of a kind just now: it takes the instances of a kind in turn, each for its test
time (R37, R462). DESIGN CHOICE (log entry 112): in the order of their numbers. -/
def State.underWholeTest (s : State) (kind i : Nat) : Bool :=
  match s.avail.lent.find? wholeTest with
  | none => false
  | some x => kind != 1 && decide (kind < 6) && x.started.any fun t => decide ((s.now - t) / kindTestNs kind = i)

/-- The words of a fault record with its SEQ and LOST (R448). -/
def FaultRec.words (r : FaultRec) (seq : Word) (lost : Nat) : List Word :=
  r.time ++ [seq,
    w32 (r.cls + 256 * r.sev + 1024 * r.fn.getD 0 + 65536 * b2n r.fn.isSome + 2 ^ 29 * r.objKind),
    w32 (r.objId % 2 ^ 21 + 2 ^ 21 * min lost 2047), r.d0, r.d1]

/-! ### Mode changes (R40 to R44) -/

/-- The mode's entry as an audit entry, with the signal of an automatic transition to PF0 (R44, R95). -/
def State.setMode (s : State) (target : Mode) (trigger : Nat) : State :=
  let s := s.setModes { s.modes with
    mode := target
    drainDeadline := if target = .drain ∨ target = .throttle then s.modes.drainDeadline else none }
  let s := s.auditMode target trigger false
  if trigger = 0 then s else s.signal 0 0

/-- SERVICE or DEGRADED by instance availability (R40). -/
def State.serviceMode (s : State) : Mode := if s.instDown then .degraded else .service

/-- No leg traffic that the device took in before is left: no frame in a pipeline queue, no job or copy on its way, no copy to a
leg in a MAC queue, no task at work (R35, R44; log entry 106). -/
def State.trafficGone (s : State) : Bool :=
  s.ports.all (fun p => p.2.pipeQ.isEmpty && p.2.txq.all fun q => q.all fun f => !f.leg)
    && s.rxJobs.all (fun p => p.2.isEmpty) && s.txJobs.all (fun p => p.2.isEmpty) && s.cores.all (fun p => p.2.jobs.isEmpty)
    && s.replQ.all (fun p => p.2.isEmpty) && s.egressQ.all (fun p => p.2.isEmpty) && s.localQ.all (fun p => p.2.isEmpty)
    && s.store.isEmpty && s.sched.runs.isEmpty

/-- THROTTLE's return mode changes by itself (R41). -/
def State.autoReturn (s : State) (target : Mode) (trigger : Nat) : State :=
  (s.setModes { s.modes with returnMode := target }).auditMode target trigger true

/-- An automatic transition of R40 (triggers 5 to 7) as it takes place: THROTTLE's return mode changes (R41), or MODE. One to a mode
without leg traffic is in progress until the traffic is gone (R44; log entry 106). -/
def State.autoNow (s : State) (source target : Mode) (trigger : Nat) : State :=
  if s.effMode ≠ source then s
  else if !(target.carries || s.trafficGone) then
    let r : ModeReq := { target := target, trigger := trigger }
    if s.modes.transition.isNone then s.setModes { s.modes with transition := some r }
    else s.setModes { s.modes with arb := s.modes.arb ++ [r] }
  else if s.modes.mode = .throttle then s.autoReturn target trigger
  else s.setMode target trigger

/-- The trigger of an automatic transition: it takes place at once where no transition is in progress and, outside THROTTLE, whose
mode it keeps, where the arbiter holds no request; else it waits there (R41, R43). -/
def State.autoMode (s : State) (source target : Mode) (trigger : Nat) : State :=
  if (s.modes.mode = source ∧ s.modes.arb ≠ []) ∨ (s.effMode = source ∧ s.modes.transition.isSome = true) then
    s.setModes { s.modes with arb := s.modes.arb ++ [{ target := target, trigger := trigger }] }
  else s.autoNow source target trigger

/-- Takes an instance of a kind of R453 out of service (R40): SERVICE becomes DEGRADED. -/
def State.instanceDown (s : State) (kind idx : Nat) (held : Bool) : State :=
  let s := { s with avail := { s.avail with
    down := s.avail.down.put (instId kind idx) { since := s.now, held := held } } }
  s.autoMode .service .degraded 5

/-- Returns an instance to service (R40, R458): the last one to return turns DEGRADED into SERVICE. -/
def State.instanceUp (s : State) (kind idx : Nat) : State :=
  let s := { s with avail := { s.avail with down := s.avail.down.del (instId kind idx) } }
  if s.instDown then s else s.autoMode .degraded .service 6

/-- When no leg is open in DRAIN, the device enters READY (R36, R40). -/
def State.drainCheck (s : State) : State := if s.legs.isEmpty then s.autoMode .drain .ready 7 else s

/-- A fatal condition of R42 asks the arbiter for QUARANTINE, with the row of R42's list and a detail; the arbiter
keeps one such request (R474). -/
def State.fatal (s : State) (cause : Nat) (detail : Word) : State :=
  if s.modes.mode = .quarantine ∨ s.modes.mode = .reset then s
  else if s.modes.quarantines.any fun r => r.trigger == 10 then
    s.fault 0x60 0 0 (w32 cause) detail
  else s.setModes { s.modes with arb := s.modes.arb ++
    [{ target := .quarantine, trigger := 10, cause := cause, detail := detail }] }

/-! ### Fences of legs and conferences (R94, R117, R118) -/

/-- Fences a leg: its entry, the record of its cause, and EV_LEG_STATE (R81, R94, R118). -/
def State.fenceLeg (s : State) (leg cls : Nat) (d0 d1 : Word) : State :=
  match s.legs.find? leg with
  | none => s
  | some g =>
    let s := s.fault cls 2 leg d0 d1
    if g.fenced then s
    else
      let s := s.updLeg leg fun g => { g with fenced := true }
      (s.auditAuto 0 2 leg 0).legState leg 3 2

/-- Fences a conference after a complement mismatch of the value in row `row` of R117's table. -/
def State.fenceConf (s : State) (c row off : Nat) : State :=
  let s := s.fault 0x20 1 c (w32 row) (w32 off)
  if (s.conf c).fenced.isSome then s
  else (s.updConf c fun g => { g with fenced := some s.loadSeq }).auditAuto 0 1 c 0

/-- Fences a leg after a complement mismatch (R117). -/
def State.fenceLegPair (s : State) (leg row : Nat) : State := s.fenceLeg leg 0x20 (w32 row) 0

/-- A block that reads the SOURCE_REFs of roster slots checks their pairs: one that fails fences the conference (R27, R117). -/
def State.fenceRefs (s : State) (c : Nat) (rs : List RosterSlot) : State :=
  if rs.all fun r => r.source.isSome then s else s.fenceConf c 1 0

/-- The check of every SOURCE_REF of a plan (R27, R117). -/
def State.checkRefs (s : State) (c : Nat) (p : Plan) : State := s.fenceRefs c p.roster

/-! ### Legs and key slots (R177, R211, R216) -/

/-- Releases the hold on a key slot (R211). -/
def State.releaseSlot (s : State) (k : Nat) : State := s.updSlot k fun r => { r with held := false }

/-- A slot whose leg leaves it: its sources lose their scores (R315). -/
def State.dropScores (s : State) (c k : Nat) : State :=
  match ((s.conf c).active).bind fun p => p.rosterSlot k with
  | none => s
  | some r => s.updConf c fun g => { g with scores := g.scores.filter fun x => !r.sources.contains x.1 }

/-- A packet looked up before number `look` is still on its way to stage 8 (R92). -/
def State.lookedBefore (s : State) (look : Nat) : Bool :=
  let early := fun (j : Job) => match j with | .rx _ _ _ _ _ _ _ _ _ _ n => decide (n < look) | .tx _ => false
  (s.rxJobs.any fun p => p.2.any early) || (s.cores.any fun p => p.2.jobs.any fun x => early x.job)
    || s.replQ.any fun p => p.2.any fun k => decide (k.look < look)

/-- The contexts of closed legs that packets on their way still go by, with that of leg `n`, which closes (R92). -/
def State.goneAfter (s : State) (n : Nat) (g : Leg) : FMap Gone :=
  let kept : FMap Gone := s.gone.filter fun p => s.lookedBefore p.2.look
  if s.lookedBefore s.lookNo then kept.put g.serial { num := n, leg := g, look := s.lookNo } else kept

/-- Leg number `n` is open, in the opening `serial`. -/
def State.isOpen (s : State) (n serial : Nat) : Bool := (s.legs.find? n).any fun g => g.serial == serial

/-- Adds `k` to counter `i` of leg `n`, where it is still the opening `serial`: a closed leg's counters are gone (R92, R207). -/
def State.countTo (s : State) (n serial i k : Nat) : State := if s.isOpen n serial then s.countLeg n i k else s

/-- Runs `f` while the context of a closed leg stands under its number again, and keeps what becomes of it (R92). -/
def State.asClosed (s : State) (n serial : Nat) (f : State → State) : State :=
  match s.gone.find? serial with
  | none => s
  | some x =>
    let t := f { s with legs := s.legs.put n x.leg }
    { t with
      gone := match t.legs.find? n with | some g => t.gone.put serial { x with leg := g } | none => t.gone
      legs := match s.legs.find? n with | some g => t.legs.put n g | none => t.legs.del n }

/-- Runs `f` for a packet of leg `n` as it was open when the packet was looked up: a close meanwhile does not concern the packet
(R92). -/
def State.asOpened (s : State) (n serial : Nat) (f : State → State) : State :=
  if s.isOpen n serial then f s else s.asClosed n serial f

/-- Removes a leg with its lookup entries, its hold on its key slots and its bucket; the leg count may reach zero in
DRAIN (R36, R177, R211). -/
def State.removeLeg (s : State) (leg : Nat) : State :=
  match s.legs.find? leg with
  | none => s
  | some g =>
    let s := (s.releaseSlot (fld g.rxSlot 20 0)).releaseSlot (fld g.txSlot 20 0)
    let s := match g.slot with | some k => s.dropScores g.conf k | none => s
    { s with
      gone := s.goneAfter leg g
      legs := s.legs.del leg
      lookups := s.lookups.filter fun e => e.leg != leg
      buckets := s.buckets.del leg }

/-- Closes a leg and raises EV_LEG_STATE with the cause to function `fn` (R81, R177). -/
def State.closeLeg (s : State) (leg cause fn : Nat) : State :=
  match s.legs.find? leg with
  | none => s
  | some _ => ((s.removeLeg leg).legStateTo fn leg 0 cause).drainCheck

/-- Zeroises a slot's session keys (R216). -/
def Slot.erase (r : Slot) : Slot :=
  { r with
    loaded := false, keys := none, generation := (r.generation + 1) % 256, index := 0, rtcpIndex := 0,
    exhausted := false, rtcpExhausted := false, rekeyRaised := false, rtcpRekeyRaised := false }

end Sys2Proof.Machine
end

