-- ==== Sys2Proof/Machine/LanternOps.lean ====
section
/-! DEFINITION. The Lantern trace and the scheduler's registers (R274 to R277). -/

namespace Sys2Proof.Machine

/-- Changes the scheduler. -/
def State.updSched (s : State) (f : Sched → Sched) : State := { s with sched := f s.sched }

/-- Adds to counter `i` of set 6 (R278). -/
def State.countSched (s : State) (i k : Nat) : State := s.updSched fun x => { x with counters := bump x.counters i k }

/-- Writes one record at HEAD: under STOP writing ends after 65,536 records (R274). -/
def Lantern.put (l : Lantern) (ws : List Word) : Lantern :=
  let run := l.run + 1
  { l with
    ring := l.ring.put l.head ws
    head := (l.head + 1) % 65536
    wrapped := l.wrapped || l.head + 1 == 65536
    run := run
    frozen := bitAt l.ctrl 30 && decide (65536 ≤ run) }

/-- The words of a record (R275). -/
def lanternWords (ns kind prio engKind engInst status task conf arg : Nat) : List Word :=
  [w32 (ns % 1000000000), w32 (kind + 16 * prio + 256 * engKind + 2048 * (engInst % 256) + 2 ^ 19 * status), w32 task,
   w32 (conf + 65536 * min arg 65535)]

/-- Whether a record passes the filters: KIND 0, 11, 12 and 14 pass every filter, and a record of no engine the engine
filter (R274, R276). -/
def Lantern.passes (l : Lantern) (kind prio engKind conf : Nat) : Bool :=
  [0, 11, 12, 14].contains kind ||
    (l.ctrl.toNat.testBit kind && (!bitAt l.matchReg 31 || fld l.matchReg 15 0 == conf)
      && decide (prio ≤ fld l.matchReg 30 28) && (engKind == 7 || (fld l.matchReg 27 23).testBit engKind))

/-- Writes a record that has passed, preceded by a LOST record where records were lost; a record that finds the ring
FROZEN is lost and counted (R277). The queue of 64 never fills: a record is written in the cycle it comes (log entry
26). -/
def State.lanternPut (s : State) (ws : List Word) : State :=
  let l := s.sched.lantern
  if l.frozen then (s.updSched fun x => { x with lantern := { l with lost := l.lost + 1 } }).countSched 16 1
  else
    let l := if l.lost = 0 then l
      else { l.put (lanternWords s.tb0Ns 14 0 7 0 0 0x3FFFF 0xFFFF l.lost) with lost := 0 }
    if l.frozen then (s.updSched fun x => { x with lantern := { l with lost := l.lost + 1 } }).countSched 16 1
    else s.updSched fun x => { x with lantern := l.put ws }

/-- Takes one trace record (R275 to R277). -/
def State.trace (s : State) (kind prio engKind engInst status task conf arg : Nat) : State :=
  let l := s.sched.lantern
  if bitAt l.ctrl 31 && l.passes kind prio engKind conf then
    s.lanternPut (lanternWords s.tb0Ns kind prio engKind engInst status task conf arg)
  else s

/-- A SYNC record (R276). -/
def State.traceSync (s : State) : State :=
  if bitAt s.sched.lantern.ctrl 31 then
    let sec := s.tb0Ns / 1000000000
    s.lanternPut [w32 (s.tb0Ns % 1000000000), w32 (256 * 7), w32 sec, w32 (sec / 2 ^ 32 % 65536)]
  else s

/-- TB0 has just come to a whole second, for which no SYNC was written yet: the cycle of TCLK in which it passes it (R143, R276). -/
def State.syncDue (s : State) : Bool :=
  decide (((s.tb0 % (10 ^ 9 * 2 ^ 40) : Nat) : Int) < 2 ^ 40 + (s.time.bases.headD {}).rate)
    && s.sched.lantern.syncSec != some (s.tb0Ns / 1000000000)

/-- LANTERN_SYNC: at each whole second of TB0 (R276). -/
def lanternSync (s : State) : State :=
  let s := s.begin
  if !s.syncDue then s
  else (s.updSched fun x => { x with lantern := { x.lantern with syncSec := some (s.tb0Ns / 1000000000) } }).traceSync

def execLanternSync (s : State) : Res := .next (lanternSync s)

/-- LANTERN_CTRL_WRITE by PF0: a write with ENABLE 1 clears FROZEN, restarts the STOP count and writes SYNC (R274, R276). -/
def lanternCtrlWrite (fn : Nat) (value : Word) (s : State) : State :=
  let s := s.begin
  if fn ≠ 0 then s
  else
    let v := value &&& 0xC000FFFF
    let on := bitAt value 31
    let s := s.updSched fun x =>
      { x with lantern := { x.lantern with
          ctrl := v
          frozen := x.lantern.frozen && !on
          wrapped := x.lantern.wrapped && !on
          run := if on then 0 else x.lantern.run } }
    if on then s.traceSync else s

def execLanternCtrlWrite (fn : Nat) (value : Word) (s : State) : Res := .next (lanternCtrlWrite fn value s)

/-- SCHED_TICK_WRITE by PF0 in READY or MAINTENANCE: 1 to 1,000 us (R274). -/
def schedTickWrite (fn : Nat) (value : Word) (s : State) : State :=
  let s := s.begin
  let ok := s.modes.mode == .ready || s.modes.mode == .maintenance
  if fn ≠ 0 ∨ !ok ∨ fld value 9 0 = 0 ∨ 1000 < fld value 9 0 then s
  else s.updSched fun x => { x with tickUs := fld value 9 0 }

def execSchedTickWrite (fn : Nat) (value : Word) (s : State) : Res := .next (schedTickWrite fn value s)

/-- LANTERN_CTRL as read (R274). -/
def Lantern.ctrlRead (l : Lantern) : Word := w32 (fld l.ctrl 15 0 + 2 ^ 29 * b2n l.frozen + 2 ^ 30 * fld l.ctrl 31 30)

/-- LANTERN_HEAD (R274). -/
def Lantern.headRead (l : Lantern) : Word := w32 (l.head + 65536 * b2n l.wrapped)

end Sys2Proof.Machine
end

