-- ==== Sys2Proof/Machine/Crypto.lean ====
section
/-! DEFINITION. The cryptographic functions that the spec names: AES (FIPS 197), GCM and counter mode (SP 800-38D, SP 800-38A), SHA-1
and SHA-256 (FIPS 180-4), HMAC (RFC 2104), AES key wrap with padding (RFC 5649), over lists of bytes, first byte first. PRESUMED from
those standards, which the spec names and does not repeat (log entry 4). -/

namespace Sys2Proof.Machine

/-! ### Bytes and tables -/

/-- A number from bytes, the first the most significant. -/
def beNum (bs : List Nat) : Nat := bs.foldl (fun a b => a * 256 + b % 256) 0

/-- The low `n` bytes of a number, the most significant first. -/
def beBytes : Nat → Nat → List Nat
  | 0, _ => []
  | n + 1, v => beBytes n (v / 256) ++ [v % 256]

/-- A number's low `n` bytes, least significant first (R9). -/
def leBytes : Nat → Nat → List Nat
  | 0, _ => []
  | n + 1, v => v % 256 :: leBytes n (v / 256)

/-- Byte by byte exclusive or, as long as the shorter list. -/
def xorBytes (a b : List Nat) : List Nat := List.zipWith (fun x y => x ^^^ y) a b

/-- `f` of a number, which is worked out first. -/
def force {α : Type} (n : Nat) (f : Nat → α) : α :=
  match n with
  | 0 => f 0
  | m + 1 => f (m + 1)

/-- A long number from parts of 448 bits, the least significant first. -/
def joinParts (ps : List Nat) : Nat := ps.foldr (fun p n => p + n * 2 ^ 448) 0

/-- Entry `i` of a table of entries `w` bits wide. -/
def entryOf (table w i : Nat) : Nat := (table >>> (w * i)) % 2 ^ w

/-- The blocks of `n` bytes of a list, the last one short. -/
def blocksOf (n : Nat) : Nat → List Nat → List (List Nat)
  | 0, _ => []
  | k + 1, bs => if bs.isEmpty then [] else bs.take n :: blocksOf n k (bs.drop n)

/-! ### AES (FIPS 197) -/

/-- The S-box, a byte per entry. -/
def aesSbox : Nat := joinParts [
  0x9a059618c323c7041531d871f1e5a534ccf73f362693fdb7c072a49cafa2d4adf04759fa7dc982ca76abd7fe2b670130c56f6bf27b777c63,
  0xa89f3c507f02f94585334d43fbaaefd0cf584c4a39becb6a5bb1fc20ed00d153842fe329b3d63b52a05a6e1b1a2c830975b227ebe2801207,
  0x5c2406490a3a32e0db0b5ede14b8ee4688902a22dc4f816073195d643d7ea7c41744975fec130ccdd2f3ff1021dab6bcf5389d928f40a351,
  0x9e1dc186b95735610ef6034866b53e708a8bbd4b1f74dde8c6b4a61c2e2578ba08ae7a65eaf4566ca94ed58d6d37c8e779e4959162acd3c2,
  0x16bb54b00f2d99416842e6bf0d89a18cdf2855cee9871e9b948ed9691198f8e1]

/-- The inverse S-box. -/
def aesInvSbox : Nat := joinParts [
  0xb224d92866a12e084ec3fa420b954cee3d23c2a632947b54cbe9dec444438e3487ff2f9b8239e37cfbd7f3819ea340bf38a53630d56a0952,
  0x0645b3b80558e4f70ad3bc8c00abd890849d8da75746155edab9edfd5048706c92b6655dcc5ca4d41698688664f6f87225d18b6d49a25b76,
  0x89c5291d711af1476edf751ce837f9e28535ade72274ac9673e6b4f0cecff297eadc674f4111913a6b8a130103bdafc1020f3fca8f1e2cd0,
  0xef9cc9939f7ae52d0d4ab519a97f51605fec8027591012b131c7078833a8dd1ff45acd78fec0db9a2079d2c64b3e56fc1bbe18aa0e62b76f,
  0x7d0c2155631469e126d677ba7e042b17619953833cbbebc8b0f52aae4d3be0a0]

/-- For each byte, the column that SubBytes and MixColumns make of it in row 0. -/
def aesEnc : Nat := joinParts [
  0xb5d7d762e7fefe19562b2b7dce6767a9020101036030305091c5c554de6f6fb1d66b6bbdfff2f20df67b7b8dee777799f87c7c84c66363a5,
  0x45afafea5fa2a2fdb3d4d46741adadecfbf0f00b8e4747c9b25959ebeffafa15fa7d7d8789c9c9401f82829d8fcaca45ec76769a4dababe6,
  0x51a5a5f46834345c83cccc4ff5f7f7027e3f3f416c36365a4c26266a3d9393aee1fdfd1c75b7b7c29bc0c05be472729653a4a4f7239c9cbf,
  0x2f9a9ab50a05050f379696a1301818289dc3c35e4623236595c7c7520804040c2a15153f62313153abd8d873e2717193f9f1f108d1e5e534,
  0xdc6e6eb2361b1b2d341a1a2e582c2c741d83839e1209091bea75759f7fb2b2cd4e272769cdebeb26dfe2e23d1b80809b241212360e070709,
  0xc1eded2c00000000b9d1d168a65353f5138484975e2f2f71dde3e33e5229297b7db3b3ceb7d6d661763b3b4da45252f65ba0a0fbb45a5aee,
  0xc5efef2abbd0d06b85cfcf4ab05858e8984c4cd4944a4ade7239394b67bebed98dcbcb46d46a6abeb65b5bed79b1b1c8e3fcfc1f40202060,
  0x4ba8a8e3259f9fba783c3c44a05050f0fe7f7f8104020206e9f9f9108a4545cf11858594663333559a4d4dd7864343c5edfbfb164faaaae5,
  0xe5ffff1a2010103042212163afdada7577b6b6c163bcbcdff1f5f50470383848219d9dbc3f9292ad058f8f8a804040c05da3a3fea25151f3,
  0x7a3d3d47fc7e7e8255a7a7f293c4c4572e171739884444cc359797a2be5f5fe1c3ecec2f26131335180c0c1481cdcd4cbfd2d26dfdf3f30e,
  0xc7eeee298c4646ca0b8888833b9090ab542a2a7e44222266a3dcdc7f9e4f4fd119818198c06060a0e67373953219192bba5d5de7c86464ac,
  0xb85c5ce44824246c0c06060a924949db140a0a1e743a3a4e64323256dbe0e03baddbdb76160b0b1dbc5e5ee2a7dede792814143c6bb8b8d3,
  0xb1d5d564018d8d8cda6d6db76e3737598bc8c843d5e7e732f279798bd3e4e437319595a4399191a8c46262a643acacefbdd3d36e9fc2c25d,
  0x5c2e2e724a25256ff07878886fbabad51008081847aeaee9f47a7a8eca6565afcfeaea25f3f4f407ac5656fad86c6cb449a9a9e09c4e4ed2,
  0x7c3e3e42e07070900f8a8a850d8b8b8661bdbddc964b4bdd3e1f1f21e874749ca1dddd7ccbe8e82397c6c65173b4b4c757a6a6f1381c1c24,
  0x279e9eb93a1d1d2799c1c1581786869169b9b9d0ae5757f96a35355fc26161a31c0e0e12f7f6f60106030305904848d8cc6666aa71b5b5c4,
  0xaa5555ff87cece49c9e9e920158787923c1e1e222d9b9bb6339494a7078e8e89a9d9d970d26969bb221111332b9898b3ebf8f813d9e1e138,
  0x1e0f0f115a2d2d77299999b0824141c3d06868b8844242c6d7e6e63165bfbfda1a0d0d170989898059a1a1f8038c8c8fa5dfdf7a50282878,
  0x2c16163a6dbbbbd6a85454fc7bb0b0cb]

/-- For each byte, the column that InvSubBytes and InvMixColumns make of it in row 0. -/
def aesDec : Nat := joinParts [
  0xc52acbd74fe5d7fcf5024c2588cc7691ad766df62030fa554be30393acfa58ab1f9d45f13bab6bcb3a275e961a17a4c37e41655351f4a750,
  0x955259dabf6d7aeb15929c95038f5fe76bd3f9c68d4697a3814cf012c32f75025dfec0e145ea0e9825ba1b67deb15a49b562a38f26354480,
  0xe51a318263df4a187dce3ab4c920ac66f088ad17bee14fb627b971dd99583e6bf48e797875c2896a8ec9c84449e06929587421d3d4be832d,
  0x6655ab2ae31f8f57724b02e2ab73d323527bf8b794de6c878f45fd1970486858f9082b94fe81a01cbb6bae84b16477e062537f4597513360,
  0x0605bed565daf4cd4e69e2a1f307f2f0a779b4928acf1c2bed16825c02036aba23bfa5b2302887f2d33708a586c57b9a2fb5c203b2eb2807,
  0x4de6bd46dd3e05ae96dd063d3e218af9bd6e10515e719f064060efaa0b83ec39a4f6eb75058ae132a2f355a0342e539dc4a6fe8ad134621f,
  0x7c420fe9a17c0a4779c8eedbe7195b3807898b88b0e842bd67d99e77894043ccd6bde9971998fb24605015ff0406d46f71c45d0591548db5,
  0x24362e3a9b5b54d1685ca6210a0fd964362d39273daed51e0f853856fd0efffb6c5a724e1e1170ac322bed480980868300000000f8841ec9,
  0xf28bc7ad0e090d0b121b171d3c22e043c0a02ae5e293ba0a1c121a165a774b6961dc20a280c0c54f1b9b919eb4ee96d29357e70f0c0a67b1,
  0xb8e4f163b6edfc68cb23c6dc8b4329765bfb7e3444663bc55c72f5bcf701269fa37f60fdee99ddbbaf75074c57f11985141ea9c82db6a8b9,
  0xa970b9992bb3166c77c1e3d00d8652ecdcb230f31d9e2f4bc729a16daef93211d2bb3df8854a247d84c611201397224042638510d731dcca,
  0x3fadbfa4dab78e26a57ade28a6f581cf98d40b368ccaa2fed938d1c187494ec7223390ef567d2cd8a0f03f1aa8fc8cc447e96422119448fa,
  0x10187da7c8ac993bcf2512b36fd52da969d0937c9f5d80be82c3aff52e39f75e90d8b8e8f68d13c2547e46626a5fcc9b5078920d2c3a9de4,
  0x29b07cd6ea9f09d44a6f36cebae79bd9ef15e8e621bccf08aaffe67ee6956e65834f9aa8ec9ab7016e5918f4cd267809db3bbb7be89c636e,
  0x43efb04d764dd68d1791f62f7fcd500e41ecdaf7f104984a33a7d815e090d0b0fc82caa6744ebc3735a266c0c6a594302a3f233131a4b2af,
  0x6dd64713e910563392dbd252b3671d5afb0b412efa877473018c355d9d5eea044665517fc12c1fb84c6a881b9ed1b5e3e49604dfccaa4d54,
  0x5ffdaa5b53f7cdea73c737bf1814ce7955f2733f9cd2df597a47b13ce11ce5edb761c935cea927eeeb133c8959f8148e37a10c7a9ad7618c,
  0x6456c190d8b4e49c080cb3de39a80171ff0d9541283c498bbce2250c161dc372c2a3405f3824342cb968c43ecaaff3817844db86df3d6f14,
  0xd0b85742486c5c74d532b6707bcb8461]

/-- Byte `k` of a column, byte 0 the most significant. -/
def colByte (w k : Nat) : Nat := (w >>> (8 * (3 - k))) % 256

/-- A column rotated right by `k` bytes. -/
def rotBytes (w k : Nat) : Nat := (w >>> (8 * k)) ||| ((w <<< (32 - 8 * k)) % 2 ^ 32)

/-- SubWord. -/
def subWord (table w : Nat) : Nat :=
  (entryOf table 8 (colByte w 0) <<< 24) ||| (entryOf table 8 (colByte w 1) <<< 16) ||| (entryOf table 8 (colByte w 2) <<< 8)
    ||| entryOf table 8 (colByte w 3)

/-- The round constants, in the top byte. -/
def rcon (i : Nat) : Nat := [1, 2, 4, 8, 16, 32, 64, 128, 27, 54].getD (i - 1) 0 <<< 24

/-- The key schedule, the last word first: `n` more words after `w`, for a key of `nk` words. -/
def expandKey (nk : Nat) : Nat → Nat → List Nat → List Nat
  | 0, _, w => w
  | n + 1, i, w =>
    let t := w.headD 0
    let u :=
      if i % nk = 0 then subWord aesSbox (rotBytes t 3) ^^^ rcon (i / nk)
      else if nk = 8 ∧ i % 8 = 4 then subWord aesSbox t
      else t
    force (w.getD (nk - 1) 0 ^^^ u) fun x => expandKey nk n (i + 1) (x :: w)

/-- Four words by four. -/
def quads : List Nat → List (Nat × Nat × Nat × Nat)
  | a :: b :: c :: d :: r => (a, b, c, d) :: quads r
  | _ => []

/-- The round keys of a key of 16 or 32 bytes. -/
def roundKeys (key : List Nat) : List (Nat × Nat × Nat × Nat) :=
  let nk := key.length / 4
  let w := ((blocksOf 4 8 key).map beNum).reverse
  quads (expandKey nk (4 * (nk + 7) - nk) nk w).reverse

/-- One column of a round: the table's columns of four bytes, and the round key. -/
def aesCol (table a b c d k : Nat) : Nat :=
  entryOf table 32 (colByte a 0) ^^^ rotBytes (entryOf table 32 (colByte b 1)) 1
    ^^^ rotBytes (entryOf table 32 (colByte c 2)) 2 ^^^ rotBytes (entryOf table 32 (colByte d 3)) 3 ^^^ k

/-- One column of the last round: four bytes through an S-box, and the round key. -/
def aesLast (table a b c d k : Nat) : Nat :=
  ((entryOf table 8 (colByte a 0) <<< 24) ||| (entryOf table 8 (colByte b 1) <<< 16)
    ||| (entryOf table 8 (colByte c 2) <<< 8) ||| entryOf table 8 (colByte d 3)) ^^^ k

/-- The rounds of the cipher after the first key addition. -/
def encRounds : List (Nat × Nat × Nat × Nat) → Nat → Nat → Nat → Nat → Nat
  | [], a, b, c, d => ((a * 2 ^ 32 + b) * 2 ^ 32 + c) * 2 ^ 32 + d
  | [k], a, b, c, d =>
    let f := aesLast aesSbox
    ((f a b c d k.1 * 2 ^ 32 + f b c d a k.2.1) * 2 ^ 32 + f c d a b k.2.2.1) * 2 ^ 32 + f d a b c k.2.2.2
  | k :: r, a, b, c, d =>
    let f := aesCol aesEnc
    force (f a b c d k.1) fun a' => force (f b c d a k.2.1) fun b' =>
      force (f c d a b k.2.2.1) fun c' => force (f d a b c k.2.2.2) fun d' => encRounds r a' b' c' d'

/-- The rounds of the inverse cipher after the first key addition, with its round keys. -/
def decRounds : List (Nat × Nat × Nat × Nat) → Nat → Nat → Nat → Nat → Nat
  | [], a, b, c, d => ((a * 2 ^ 32 + b) * 2 ^ 32 + c) * 2 ^ 32 + d
  | [k], a, b, c, d =>
    let f := aesLast aesInvSbox
    ((f a d c b k.1 * 2 ^ 32 + f b a d c k.2.1) * 2 ^ 32 + f c b a d k.2.2.1) * 2 ^ 32 + f d c b a k.2.2.2
  | k :: r, a, b, c, d =>
    let f := aesCol aesDec
    force (f a d c b k.1) fun a' => force (f b a d c k.2.1) fun b' =>
      force (f c b a d k.2.2.1) fun c' => force (f d c b a k.2.2.2) fun d' => decRounds r a' b' c' d'

/-- Adds a round key to a block and runs `f` on its four columns. -/
def withKey (k : Nat × Nat × Nat × Nat) (x : Nat) (f : Nat → Nat → Nat → Nat → Nat) : Nat :=
  force ((x >>> 96) ^^^ k.1) fun a => force ((x >>> 64) % 2 ^ 32 ^^^ k.2.1) fun b =>
    force ((x >>> 32) % 2 ^ 32 ^^^ k.2.2.1) fun c => force (x % 2 ^ 32 ^^^ k.2.2.2) fun d => f a b c d

/-- The cipher on a block of 128 bits, with the round keys. -/
def aesBlock (ks : List (Nat × Nat × Nat × Nat)) (x : Nat) : Nat :=
  match ks with
  | [] => x
  | k :: r => withKey k x (encRounds r)

/-- InvMixColumns of a round key's word. -/
def invMixWord (w : Nat) : Nat := aesCol aesDec (subWord aesSbox w) (subWord aesSbox w) (subWord aesSbox w) (subWord aesSbox w) 0

/-- The round keys of the inverse cipher. -/
def invKeys (ks : List (Nat × Nat × Nat × Nat)) : List (Nat × Nat × Nat × Nat) :=
  ks.reverse.zipIdx.map fun q =>
    if q.2 = 0 ∨ q.2 + 1 = ks.length then q.1
    else (invMixWord q.1.1, invMixWord q.1.2.1, invMixWord q.1.2.2.1, invMixWord q.1.2.2.2)

/-- The inverse cipher on a block, with its round keys. -/
def aesUnblock (ks : List (Nat × Nat × Nat × Nat)) (x : Nat) : Nat :=
  match ks with
  | [] => x
  | k :: r => withKey k x (decRounds r)

/-- `n` bytes of the key stream of counter mode from a first counter block, whose low `bits` bits count. -/
def ctrStream (ks : List (Nat × Nat × Nat × Nat)) (first bits n : Nat) : List Nat :=
  ((List.range ((n + 15) / 16)).flatMap fun i =>
    force (aesBlock ks (first / 2 ^ bits * 2 ^ bits + (first % 2 ^ bits + i) % 2 ^ bits)) (beBytes 16)).take n

/-! ### GCM (SP 800-38D) -/

/-- The steps of a product in the field of GCM. -/
def gmulSteps : Nat → Nat → Nat → Nat → Nat
  | 0, _, _, z => z
  | n + 1, y, v, z =>
    force (if y.testBit n then z ^^^ v else z) fun z =>
      force (if v % 2 = 1 then (v >>> 1) ^^^ (0xE1 <<< 120) else v >>> 1) fun v => gmulSteps n y v z

/-- GHASH of blocks under `h`. -/
def ghash (h : Nat) : List (List Nat) → Nat → Nat
  | [], y => y
  | b :: r, y => force (gmulSteps 128 (y ^^^ beNum (b ++ List.replicate (16 - b.length) 0)) h 0) fun y => ghash h r y

/-- The ciphertext of GCM with an IV of 12 bytes, followed by the tag of 16 bytes. -/
def gcmSeal (key iv aad plain : List Nat) : List Nat :=
  let ks := roundKeys key
  let j := beNum iv * 2 ^ 32 + 1
  let c := xorBytes plain (ctrStream ks (j + 1) 32 plain.length)
  let blocks := blocksOf 16 (aad.length + 1) aad ++ blocksOf 16 (c.length + 1) c
    ++ [beBytes 8 (8 * aad.length) ++ beBytes 8 (8 * c.length)]
  let tag := force (aesBlock ks 0) fun h => ghash h blocks 0 ^^^ aesBlock ks j
  c ++ beBytes 16 tag

/-! ### SHA-256, SHA-1 and HMAC (FIPS 180-4, RFC 2104) -/

/-- A message with the padding of both hashes. -/
def shaPad (bs : List Nat) : List Nat :=
  bs ++ [0x80] ++ List.replicate ((119 - bs.length % 64) % 64) 0 ++ beBytes 8 (8 * bs.length)

/-- A word of 32 bits rotated right. -/
def ror (w k : Nat) : Nat := (w >>> k) ||| ((w <<< (32 - k)) % 2 ^ 32)

/-- The constants of SHA-256, the first in the low word. -/
def sha256K : Nat := joinParts [
  0x80deb1fe72be5d74550c7dc3243185be12835b01d807aa98ab1c5ed5923f82a459f111f13956c25be9b5dba5b5c0fbcf71374491428a2f98,
  0xbf597fc7b00327c8a831c66d983e515276f988da5cb0a9dc4a7484aa2de92c6f240ca1cc0fc19dc6efbe4786e49b69c1c19bf1749bdc06a7,
  0xa81a664ba2bfe8a192722c8581c2c92e766a0abb650a735453380d134d2c6dfc2e1b213827b70a851429296706ca6351d5a79147c6e00bf3,
  0x682e6ff35b9cca4f4ed8aa4a391c0cb334b0bcb52748774c1e376c0819a4c116106aa070f40e3585d6990624d192e819c76c51a3c24b8b70,
  0xc67178f2bef9a3f7a4506ceb90befffa8cc7020884c8781478a5636f748f82ee]

/-- The message schedule of SHA-256, the last word first: `n` words more. -/
def sha256Words : Nat → List Nat → List Nat
  | 0, w => w
  | n + 1, w =>
    let x := w.getD 14 0
    let y := w.getD 1 0
    let s0 := ror x 7 ^^^ ror x 18 ^^^ (x >>> 3)
    let s1 := ror y 17 ^^^ ror y 19 ^^^ (y >>> 10)
    force ((w.getD 15 0 + s0 + w.getD 6 0 + s1) % 2 ^ 32) fun t => sha256Words n (t :: w)

/-- The 64 steps of SHA-256. -/
def sha256Steps : List Nat → Nat → List Nat → List Nat
  | w :: r, i, [a, b, c, d, e, f, g, h] =>
    let t1 := h + (ror e 6 ^^^ ror e 11 ^^^ ror e 25) + ((e &&& f) ^^^ ((e ^^^ 0xFFFFFFFF) &&& g)) + entryOf sha256K 32 i + w
    let t2 := (ror a 2 ^^^ ror a 13 ^^^ ror a 22) + ((a &&& b) ^^^ (a &&& c) ^^^ (b &&& c))
    force (t1 % 2 ^ 32) fun t1 => force ((t1 + t2) % 2 ^ 32) fun a' => force ((d + t1) % 2 ^ 32) fun e' =>
      sha256Steps r (i + 1) [a', a, b, c, e', e, f, g]
  | _, _, s => s

/-- The words of a state, worked out one by one. -/
def forceWords {α : Type} : List Nat → (List Nat → α) → α
  | [], f => f []
  | w :: r, f => force w fun w => forceWords r fun r => f (w :: r)

/-- SHA-256 over blocks of 64 bytes. -/
def sha256Blocks : List (List Nat) → List Nat → List Nat
  | [], s => s
  | b :: r, s =>
    let w := (sha256Words 48 ((blocksOf 4 16 b).map beNum).reverse).reverse
    forceWords (List.zipWith (fun x y => (x + y) % 2 ^ 32) s (sha256Steps w 0 s)) fun s => sha256Blocks r s

/-- SHA-256. -/
def sha256 (bs : List Nat) : List Nat :=
  (sha256Blocks (blocksOf 64 (bs.length + 2) (shaPad bs))
    [0x6A09E667, 0xBB67AE85, 0x3C6EF372, 0xA54FF53A, 0x510E527F, 0x9B05688C, 0x1F83D9AB, 0x5BE0CD19]).flatMap (beBytes 4)

/-- The message schedule of SHA-1, the last word first: `n` words more. -/
def sha1Words : Nat → List Nat → List Nat
  | 0, w => w
  | n + 1, w => force (ror (w.getD 2 0 ^^^ w.getD 7 0 ^^^ w.getD 13 0 ^^^ w.getD 15 0) 31) fun t => sha1Words n (t :: w)

/-- The 80 steps of SHA-1. -/
def sha1Steps : List Nat → Nat → List Nat → List Nat
  | w :: r, i, [a, b, c, d, e] =>
    let f :=
      if i < 20 then ((b &&& c) ||| ((b ^^^ 0xFFFFFFFF) &&& d)) + 0x5A827999
      else if i < 40 then (b ^^^ c ^^^ d) + 0x6ED9EBA1
      else if i < 60 then ((b &&& c) ||| (b &&& d) ||| (c &&& d)) + 0x8F1BBCDC
      else (b ^^^ c ^^^ d) + 0xCA62C1D6
    force ((ror a 27 + f + e + w) % 2 ^ 32) fun t => force (ror b 2) fun b' => sha1Steps r (i + 1) [t, a, b', c, d]
  | _, _, s => s

/-- SHA-1 over blocks of 64 bytes. -/
def sha1Blocks : List (List Nat) → List Nat → List Nat
  | [], s => s
  | b :: r, s =>
    let w := (sha1Words 64 ((blocksOf 4 16 b).map beNum).reverse).reverse
    forceWords (List.zipWith (fun x y => (x + y) % 2 ^ 32) s (sha1Steps w 0 s)) fun s => sha1Blocks r s

/-- SHA-1. -/
def sha1 (bs : List Nat) : List Nat :=
  (sha1Blocks (blocksOf 64 (bs.length + 2) (shaPad bs))
    [0x67452301, 0xEFCDAB89, 0x98BADCFE, 0x10325476, 0xC3D2E1F0]).flatMap (beBytes 4)

/-- HMAC over a hash with blocks of 64 bytes, for a key of at most 64 bytes. -/
def hmac (hash : List Nat → List Nat) (key msg : List Nat) : List Nat :=
  let pad := fun v => xorBytes (key ++ List.replicate (64 - key.length) 0) (List.replicate 64 v)
  hash (pad 0x5C ++ hash (pad 0x36 ++ msg))

/-! ### AES key wrap with padding (RFC 5649) -/

/-- The steps of the unwrapping process, the last first: `a` the integrity word, `r` the blocks. -/
def unwrapSteps (ks : List (Nat × Nat × Nat × Nat)) (n : Nat) : Nat → Nat → List Nat → Nat × List Nat
  | 0, a, r => (a, r)
  | t + 1, a, r =>
    let i := t % n
    force (aesUnblock ks ((a ^^^ (t + 1)) * 2 ^ 64 + r.getD i 0)) fun b =>
      unwrapSteps ks n t (b >>> 64) (r.set i (b % 2 ^ 64))

/-- The plaintext of `len` bytes that a wrapped key of more than 16 bytes holds under a key; none where its integrity check fails or
its message length indicator is another. -/
def keyUnwrap (kek : List Nat) (len : Nat) (wrapped : List Nat) : Option (List Nat) :=
  let ks := invKeys (roundKeys kek)
  let blocks := (blocksOf 8 (wrapped.length + 1) wrapped).map beNum
  match blocks with
  | [] => none
  | a :: r =>
    let n := r.length
    let u := unwrapSteps ks n (6 * n) a r
    let bytes := u.2.flatMap (beBytes 8)
    if u.1 = 0xA65959A6 * 2 ^ 32 + len ∧ len ≤ bytes.length ∧ bytes.length < len + 8 ∧ (bytes.drop len).all fun b => b == 0 then
      some (bytes.take len)
    else none

end Sys2Proof.Machine
end

