-- ==== Sys2Proof/Machine/LegTable.lean ====
section
/-! DEFINITION. The lookup table: the hashes of a key, its two buckets, the stash, and the placing of entries (R175 to R177). -/

namespace Sys2Proof.Machine

/-! ### Hashes (R175) -/

/-- The bytes of a lookup key, in the order in which R175 names its fields: the IP version (4 or 6), the addresses in fields of 16
B, the ports, the SSRC field, and WILDCARD. DESIGN CHOICE (log entry 113): the rule gives the fields and not their places. -/
def Lookup.keyBytes (e : Lookup) : List Nat :=
  [if e.v6 then 6 else 4] ++ leBytes 16 e.rAddr ++ leBytes 16 e.lAddr ++ leBytes 2 e.rUdp ++ leBytes 2 e.lUdp
    ++ leBytes 4 (e.ssrc.getD 0) ++ [b2n e.ssrc.isNone]

/-- `h`, the CRC-32C of the key, and the signature, bits [27:0] of the CRC-32C from the initial value 0x4B56A5A5 (R175). -/
def Lookup.hash (e : Lookup) : Nat := crc32c e.keyBytes
def Lookup.signature (e : Lookup) : Nat := ((e.keyBytes.foldl crcByte 0x4B56A5A5) ^^^ 0xFFFFFFFF) % 2 ^ 28

/-- The two buckets of a key, of 1,048,576 (R175). -/
def Lookup.b1 (e : Lookup) : Nat := e.hash % 2 ^ 20
def Lookup.b2 (e : Lookup) : Nat := e.b1 ^^^ (e.hash / 2 ^ 12 ||| 1)

/-- The other bucket of an entry that lies in bucket `b`. -/
def Lookup.other (e : Lookup) (b : Nat) : Nat := if b = e.b1 then e.b2 else e.b1

/-- Two entries with one key (R175, R177). -/
def Lookup.sameKey (a b : Lookup) : Bool :=
  a.v6 == b.v6 && a.rAddr == b.rAddr && a.lAddr == b.lAddr && a.rUdp == b.rUdp && a.lUdp == b.lUdp && a.ssrc == b.ssrc

/-- A search for the entry's key comes upon the entry: it lies in the stash or in one of the key's buckets (R176). -/
def Lookup.reachable (e : Lookup) : Bool := e.bucket.all fun b => b == e.b1 || b == e.b2

/-! ### Placing entries (R177) -/

/-- The entries of a bucket, by their places in the table; of the stash, for none. -/
def waysOf (t : List Lookup) (b : Option Nat) : List Nat := (List.range t.length).filter fun i => (t[i]?).any fun e => e.bucket == b

/-- Moves the entry at place `i` to a bucket, or to the stash. -/
def moveTo (t : List Lookup) (i : Nat) (b : Option Nat) : List Lookup := t.modify i fun e => { e with bucket := b }

/-- Displaces entries from bucket `b`, to which the entry at place `new` came, until no bucket holds more than four; what the
displacements leave over goes to the stash. The entry that gives way is a free value (log entry 113). -/
def displace : Nat → List Lookup → Nat → Nat → Option (List Lookup)
  | n, t, b, new =>
    let ways := (waysOf t (some b)).filter fun i => i != new
    if ways.length < 4 then some t
    else
      let i := ways.getD (Config.displaced t.length b n % 4) 0
      match n with
      | 0 => if (waysOf t none).length < 256 then some (moveTo t i none) else none
      | m + 1 =>
        let c := ((t[i]?).map fun e => e.other b).getD b
        displace m (moveTo t i (some c)) c i

/-- An entry with its place: in the first of its buckets that has room, else by up to 64 displacements, else in the stash; none
where there is no room (R175, R177). -/
def placeEntryIn (t : List Lookup) (e : Lookup) : Option (List Lookup) :=
  if (waysOf t (some e.b1)).length < 4 then some (t ++ [{ e with bucket := some e.b1 }])
  else if (waysOf t (some e.b2)).length < 4 then some (t ++ [{ e with bucket := some e.b2 }])
  else displace 64 (t ++ [{ e with bucket := some e.b1 }]) e.b1 t.length

/-- The table with more entries, none where one of them finds no room or the table would pass 3,145,728 entries (R177). -/
def placeKeys (t : List Lookup) : List Lookup → Option (List Lookup)
  | [] => some t
  | e :: r => if 3145728 ≤ t.length then none else (placeEntryIn t e).bind fun u => placeKeys u r

end Sys2Proof.Machine
end

