-- ==== Sys2Proof/Machine/MemOps.lean ====
section
/-! DEFINITION. Where things live in HBM and the counters of pseudo-channels (R398 to R403, R427). -/

namespace Sys2Proof.Machine

/-- The pseudo-channel `n`. -/
def State.pch (s : State) (n : Nat) : Pch := s.pchs.getD {} n

/-- Changes the pseudo-channel `n`. -/
def State.updPch (s : State) (n : Nat) (f : Pch → Pch) : State := { s with pchs := s.pchs.put n (f (s.pch n)) }

/-- Adds to counter `i` of pseudo-channel `n` (R427). -/
def State.countPch (s : State) (n i k : Nat) : State := s.updPch n fun c => { c with counters := bump c.counters i k }

/-- Whether pseudo-channel `n` is in service (R426). -/
def State.pchIn (s : State) (n : Nat) : Bool := decide (n < 192) && (s.pch n).st == 0

/-- A vault pseudo-channel (R400). -/
def isVault (n : Nat) : Bool := n % 16 == 0

/-- The common pseudo-channel with list index `i` (R400). -/
def commonPch (i : Nat) : Nat := 32 * (i / 30) + (if i % 30 < 15 then i % 30 + 1 else i % 30 + 2)

/-- The list index of a common pseudo-channel (R400). -/
def commonIndex (n : Nat) : Nat := 30 * (n / 32) + (if n % 32 < 16 then n % 32 - 1 else n % 32 - 2)

/-- The pseudo-channel that holds the context of leg `n` (R401). -/
def legPch (n : Nat) : Nat := commonPch (n % 180)

/-- The pseudo-channel that holds the record of key slot `k` (R402). -/
def slotPch (k : Nat) : Nat := 16 * (k % 12)

/-- The stack `k`. -/
def State.stack (s : State) (k : Nat) : Stack := s.towers.getD {} k

/-- Changes the stack `k`. -/
def State.updStack (s : State) (k : Nat) (f : Stack → Stack) : State :=
  { s with towers := s.towers.put k (f (s.stack k)) }

/-- A leg number that LEG_OPEN may assign: not open, and its context on a pseudo-channel in service (R401). -/
def State.legAssignable (s : State) (n : Nat) : Bool := !(s.legs.has n) && s.pchIn (legPch n)

/-- The lowest assignable leg number from `n` on; the first argument bounds the search (DESIGN CHOICE, log entry 18:
the spec does not say which free number is assigned). -/
def State.lowestLeg (s : State) : Nat → Nat → Option Nat
  | 0, _ => none
  | k + 1, n => if s.legAssignable n then some n else s.lowestLeg k (n + 1)

end Sys2Proof.Machine
end

