-- ==== Sys2Proof/Machine/Operands.lean ====
section
/-! DEFINITION. The operands of host commands: header and payload fields of a message, the command catalogue (rights,
modes, objects), the order of the checks of R76, commit entries and responses (R67 to R94). -/

namespace Sys2Proof.Machine

/-! ### Result codes (R75) -/

def rOk : Nat := 0
def rBusy : Nat := 1
def rDenied : Nat := 2
def rBadArg : Nat := 3
def rNoResource : Nat := 4
def rWrongMode : Nat := 5
def rDeferred : Nat := 6
def rIntegrity : Nat := 7
def rNotFound : Nat := 8
def rExhausted : Nat := 9
def rKeyAbsent : Nat := 10
def rFailed : Nat := 11

/-! ### Fields of a message (R67, R69, R72) -/

/-- Word `i` of the command. -/
def Taken.w (c : Taken) (i : Nat) : Word := wordAt c.words i

/-- OPCODE, 0xFFF where word 1 is poisoned (R69, R72). -/
def Taken.op (c : Taken) : Nat := if c.poison1 then 0xFFF else fld (c.w 1) 11 0

/-- TAG, all ones where word 2 is poisoned (R69, R72). -/
def Taken.tag (c : Taken) : Word := if c.poison2 then 0xFFFFFFFF else c.w 2

/-- FENCE (R72). -/
def Taken.fence (c : Taken) : Bool := !c.poison1 && bitAt (c.w 1) 12

/-- A message whose word 0 is not poisoned is malformed if MARK is wrong or LENGTH differs from the reservation
(R67). -/
def Taken.malformed (c : Taken) : Bool :=
  !c.poison0 && (fld (c.w 0) 31 16 != 0x574C || fld (c.w 0) 15 0 != c.words.length)

/-- LENGTH is `n` and the reserved bits of word 1 are zero (R72, R80). -/
def Taken.lenIs (c : Taken) (n : Nat) : Bool := c.words.length == n && zeroFrom (c.w 1) 13

/-! ### The catalogue (R78) -/

/-- The opcodes of the catalogue. -/
def catalogue : List Nat :=
  [0x010, 0x011, 0x012, 0x020, 0x021, 0x030, 0x031, 0x032, 0x040, 0x041, 0x050, 0x051, 0x052, 0x060, 0x061, 0x062,
    0x070, 0x071, 0x072, 0x073, 0x080, 0x081]

/-- Words of the largest response of an opcode (R73, R80, R88, R207, R461). -/
def largestResponse : Nat → Nat
  | 0x010 => 16 | 0x011 => 5 | 0x020 => 6 | 0x021 => 5 | 0x030 => 5 | 0x031 => 5 | 0x040 => 6
  | 0x070 => 85 | 0x071 => 1023 | 0x072 => 1023 | 0x073 => 132 | 0x080 => 9
  | _ => 4

/-- Whether the mode in force serves the opcode, in THROTTLE the return mode (R33, R34, R41, R78). -/
def State.serves (s : State) (op : Nat) : Bool :=
  let m := s.effMode
  match op with
  | 0x010 => true
  | 0x011 => m.working || m == .retain
  | 0x030 | 0x031 => m.working && m != .drain
  | 0x070 | 0x073 => m.status
  | 0x071 | 0x072 => m.status || m == .quarantine
  | _ => m.working

/-- Whether function `fn` has rights to conference `c` (R84). -/
def State.hasConf (s : State) (fn c : Nat) : Bool := fn == 0 || ((s.grants.getD {} fn).coversConf c)

/-- Whether function `fn` has rights to leg `l`: a leg that is not open is covered by no grant (R84). -/
def State.hasLeg (s : State) (fn l : Nat) : Bool :=
  fn == 0 ||
    match s.legs.find? l with
    | none => false
    | some g => s.hasConf fn g.conf

/-- Whether function `fn` has rights to key slot `k` (R84). -/
def State.hasSlot (s : State) (fn k : Nat) : Bool := fn == 0 || ((s.grants.getD {} fn).coversSlot k)

/-- The conference of leg `l` as an object. -/
def State.legConfObj (s : State) (l : Nat) : List (Nat × Nat) :=
  match s.legs.find? l with
  | none => []
  | some g => [(1, g.conf)]

/-- The objects a command names, as (OBJ_KIND, number), for the order of R89: the object of R78's table, and the
conference for the leg family. -/
def State.objects (s : State) (c : Taken) : List (Nat × Nat) :=
  match c.op with
  | 0x011 => [(0, 0)]
  | 0x012 => [(6, fld (c.w 3) 5 0)]
  | 0x020 | 0x021 | 0x030 | 0x061 | 0x062 => [(1, fld (c.w 3) 15 0)]
  | 0x031 | 0x032 => (2, fld (c.w 3) 19 0) :: s.legConfObj (fld (c.w 3) 19 0)
  | 0x040 | 0x041 => [(3, fld (c.w 3) 20 0)]
  | 0x050 => [(4, fld (c.w 3) 6 0)]
  | 0x051 | 0x052 => [(5, fld (c.w 3) 2 0)]
  | 0x060 =>
    match fld (c.w 3) 1 0 with
    | 0 => [(2, fld (c.w 3) 23 4)]
    | 1 => [(1, fld (c.w 3) 23 4)]
    | 2 => [(4, fld (c.w 3) 23 4 / 8)]
    | _ => [(4, fld (c.w 3) 23 4)]
  | 0x080 | 0x081 => [(7, fld (c.w 3) 20 0)]
  | _ => []

/-- Whether the command may commit now: no earlier command that names one of its objects waits to commit (R89), and
with FENCE no earlier command of its function is in progress (R90). -/
def State.eligible (s : State) (id : Nat) (c : Taken) : Bool :=
  let objs := s.objects c
  s.welmus.taken.all fun p =>
    decide (id ≤ p.1) ||
      (!(c.fence && p.2.fn == c.fn) &&
        (p.2.committed || (s.objects p.2).all fun o => !objs.contains o))

/-! ### Responses and commits (R73, R91, R94) -/

/-- Removes a command from those in progress and, unless its function was reset meanwhile, writes its response into
the event queue in the room reserved for it (R47, R73, R88, R91). -/
def State.complete (s : State) (id result : Nat) (seq : Word) (payload : List (Word × Bool)) : State :=
  match s.welmus.taken.find? id with
  | none => s
  | some c =>
    let s := { s with welmus := { s.welmus with taken := s.welmus.taken.del id } }
    if c.orphan then s
    else
      let s := s.updMb c.fn fun m => { m with evReserved := m.evReserved - c.reserved }
      let head := [lengthWord (payload.length + 4), w32 (c.op + 65536 * result), c.tag, seq]
      let s := s.pushMessage c.fn (head ++ payload.map Prod.fst)
      let n := payload.length
      s.updMb c.fn fun m => { m with
        evq := m.evq.zipIdx.map fun p =>
          let i := p.2 + n - m.evq.length
          if m.evq.length ≤ p.2 + n && ((payload.getD i (0, false)).2) then (p.1.1, true) else p.1 }

/-- A response without audit entry (R73, R94). -/
def State.reject (s : State) (id result : Nat) : State := s.complete id result 0xFFFFFFFF []

/-- A plain payload. -/
def plain (ws : List Word) : List (Word × Bool) := ws.map fun w => (w, false)

/-- The PHASE 0 entry of a command at its commit point, RESULT `result` and DETAIL `detail` (R93, R94). -/
def State.commitEntry (s : State) (c : Taken) (result kind id : Nat) (detail : Word) : State :=
  s.auditEntry c.fn 0 c.op result 0 c.tag kind id detail

/-- The PHASE 1 entry of a command that writes two entries (R94). -/
def State.doneEntry (s : State) (c : Taken) (result kind id : Nat) (detail : Word) : State :=
  s.auditEntry c.fn 0 c.op result 1 c.tag kind id detail

/-- Commit and completion with OK of a command that writes one entry: the entry, then the response; word 4 of the
response stands in DETAIL (R73, R93, R94). -/
def State.commitOk (s : State) (id : Nat) (c : Taken) (kind obj : Nat) (payload : List Word) : State :=
  let seq := s.audit.next
  (s.commitEntry c 0 kind obj (payload.headD 0)).complete id 0 seq (plain payload)

/-- Marks a command as committed (R45, R89). -/
def State.markCommitted (s : State) (id : Nat) : State :=
  { s with welmus := { s.welmus with taken := s.welmus.taken.upd id fun c => { c with committed := true } } }

/-- The PHASE 1 entry and the response of a command with two entries (R94). -/
def State.finish (s : State) (id : Nat) (c : Taken) (result kind obj : Nat) (payload : List Word) : State :=
  let seq := s.audit.next
  (s.doneEntry c result kind obj (payload.headD 0)).complete id result seq (plain payload)

/-- Runs a host command's meaning: nothing happens unless command `id` waits, carries the row's opcode, may commit now
and is well formed; a poisoned word completes it with INTEGRITY (R69, R76, R89, R90). -/
def State.command (s : State) (id op : Nat) (body : Taken → State → State) : State :=
  let s := s.begin
  match s.welmus.taken.find? id with
  | none => s
  | some c =>
    if c.op != op || c.committed || c.malformed || !s.eligible id c then s
    else if c.poison then s.reject id rIntegrity
    else body c s

/-- Applies checks in the order of R76; the first that fails completes the command with its code. -/
def State.checked (s : State) (id : Nat) (checks : List (Bool × Nat)) (ok : State → State) : State :=
  match firstFail checks with
  | some code => s.reject id code
  | none => ok s

/-! ### History and replay blocks (R187, R188) -/

/-- Whether a slot's block lies before that of slot `k` in the region: history blocks first, then replay blocks, each in ascending
slot order (R188). -/
def RosterSlot.blockBefore (q k : RosterSlot) : Bool :=
  if (q.kind == 1) == (k.kind == 1) then decide (q.slot < k.slot) else q.kind != 1

/-- Bytes of the history block of a slot, or of its replay block; zero where it has neither (R187, R188). -/
def Plan.blockBytes (p : Plan) (r : RosterSlot) : Nat :=
  match p.classes.find? fun c => c.cls == r.estClass with
  | none => 0
  | some c =>
    if r.kind = 1 then (if 64 < c.replayWindow then 512 else 0)
    else
      let d := c.histDepth
      ceilDiv (6144 * d + 18 * d + 24576 + 512 + (if r.kind = 2 then 64 * r.aux else 0)) 65536 * 65536

/-- The offset of a slot's block in the history region; none where it has neither block (R188). -/
def Plan.blockOffset (p : Plan) (r : RosterSlot) : Option Nat :=
  if p.blockBytes r = 0 then none else some ((p.roster.filter fun q => q.blockBefore r).map p.blockBytes).sum

end Sys2Proof.Machine
end

