-- ==== Sys2Proof/Machine/Shaping.lean ====
section
/-! DEFINITION. Token buckets: their arithmetic, their changes of rate, and the values that plans and bindings give them
(R233 to R242). Times are in units of 2^-16 ns of the launch clock. -/

namespace Sys2Proof.Machine

/-- The key of a bucket: level 0 leg, 1 conference, 2 port * 8 + class, 3 port. -/
def bucketKey (level idx : Nat) : Nat := level * 2 ^ 20 + idx

/-- The bucket of a level. -/
def State.bucket (s : State) (level idx : Nat) : Bucket := s.buckets.getD {} (bucketKey level idx)

/-- Writes a bucket. -/
def State.setBucket (s : State) (level idx : Nat) (b : Bucket) : State :=
  { s with buckets := s.buckets.put (bucketKey level idx) b }

/-- A quotient rounded up, for a non-negative divisor. -/
def ceilDivI (a : Int) (b : Nat) : Int := if b = 0 then 0 else -((-a) / (b : Int))

/-- The time that `n` bytes take at `rate` kb/s, rounded up (R234). -/
def bytesTime (n rate : Nat) : Int := ceilDivI ((n : Int) * 8000000 * 65536) rate

/-- Payload rate of a SPEED code in kb/s (R120). -/
def speedKbps : Nat → Nat
  | 1 => 100000000 | 2 => 200000000 | 3 => 400000000 | 4 => 800000000 | _ => 0

/-- Whether a bucket limits: its rate is not zero and its complement matches (R233, R240). -/
def Bucket.limits (b : Bucket) : Bool := b.rate != 0 && pairOk b.rate b.rateC

/-- The rate that a bucket of rate `r` has in force: at port level no more than the payload rate at which the port runs (R242), or
is to run while its SPEED_RUN is 0 (log entry 118). -/
def State.effRate (s : State) (level idx r : Nat) : Nat :=
  if level = 3 then
    match s.port? idx with
    | some q => min r (speedKbps (if q.speedRun = 0 then q.cfg.speed else q.speedRun))
    | none => r
  else r

/-- The rate in force of a bucket (R242). -/
def State.rateOf (s : State) (level idx : Nat) : Nat := s.effRate level idx (s.bucket level idx).rate.toNat

/-- A bucket that starts full at instant `t` under a rate in force of `new` (R238, R239). -/
def Bucket.full (new : Nat) (rate rateC : Word) (ceil : Nat) (t : Int) : Bucket :=
  { rate := rate, rateC := rateC, ceil := ceil, vt := t - bytesTime ceil new }

/-- A change of rate and ceiling at instant `t`, where `old` and `new` are the rates in force before and after it (R238). A debt in
bytes is kept exactly: it is the time owed times the old rate. -/
def Bucket.change (b : Bucket) (old new : Nat) (rate rateC : Word) (ceil : Nat) (t : Int) : Bucket :=
  if rate = 0 then { rate := rate, rateC := rateC, ceil := ceil, vt := 0 }
  else if b.rate = 0 ∨ old = 0 then Bucket.full new rate rateC ceil t
  else
    let den : Int := 8000000 * 65536
    let tokens := min (min ((t - b.vt) * old) (b.ceil * den)) (ceil * den)
    { rate := rate, rateC := rateC, ceil := ceil, vt := t - ceilDivI tokens new }

/-- Applies a change to the bucket of a level at the present instant (R238). -/
def State.shape (s : State) (level idx : Nat) (rate rateC : Word) (ceil : Nat) : State :=
  s.setBucket level idx ((s.bucket level idx).change (s.rateOf level idx) (s.effRate level idx rate.toNat) rate rateC ceil
    s.launchClock)

/-- Changes a port; where that changes the rate in force of its bucket, the bucket keeps its debt (R238, R242). -/
def State.reSpeed (s : State) (p : Nat) (f : Port → Port) : State :=
  let b := s.bucket 3 p
  let t := s.updPort p f
  if !b.limits || t.rateOf 3 p == s.rateOf 3 p then t
  else t.setBucket 3 p (b.change (s.rateOf 3 p) (t.rateOf 3 p) b.rate b.rateC b.ceil s.launchClock)

/-- Whether a SHAPER record's values differ from a bucket's (R239). -/
def Bucket.differs (b : Bucket) (r : ShaperRec) : Bool := b.rate != r.rate || (r.rate != 0 && b.ceil != r.burst)

/-- The SHAPER entry of a roster slot (R241). -/
def Plan.shaperOf (p : Plan) (slot : Nat) : ShaperRec := (p.shaper.find? fun r => r.slot == slot).getD {}

/-- The class record of a slot in a plan (R182). -/
def Plan.classOf (p : Plan) (slot : Nat) : ClassRec :=
  match p.rosterSlot slot with
  | none => {}
  | some r => (p.classes.find? fun c => c.cls == r.estClass).getD {}

/-- The bucket of a leg when it binds to a slot (R239): full at the slot's values at the first binding, changed at a
later one, unless a level-0 override holds. -/
def State.bindBucket (s : State) (leg : Nat) (first ov : Bool) (r : ShaperRec) : State :=
  if ov then s
  else if first then s.setBucket 0 leg (Bucket.full r.rate.toNat r.rate r.rateC (if r.rate = 0 then 65536 else r.burst) s.launchClock)
  else if (s.bucket 0 leg).differs r then s.shape 0 leg r.rate r.rateC r.burst
  else s

/-- Cells that copies hold in the Grotto and the Sump, by a choice of copies (R243, R248). -/
def State.cellsOf (s : State) (f : Stored → Bool) : Nat := ((s.store.filter fun p => f p.2).map fun p => p.2.cells).sum

/-- Free Grotto cells, the reserve among them (R243). -/
def State.grottoFree (s : State) : Nat := 786432 - s.cellsOf fun c => !c.sump

/-- Free Sump cells: the cells of retired pseudo-channels have left the free list (R243, R423). -/
def State.sumpFree (s : State) : Nat :=
  let gone := (s.pchs.filter fun p => p.2.st == 2).length
  let n := 192 - (s.pchs.filter fun p => p.2.st == 1).length
  s.hbm.sumpCells - (if n = 0 then 0 else s.hbm.sumpCells * gone / n) - s.cellsOf fun c => c.sump

/-- The head of a launch queue: earliest launch time, ties in charge order (R245). -/
def State.launchHead (s : State) (port cls : Nat) : Option (Nat × Stored) :=
  (s.store.filter fun p => p.2.port == port && p.2.cls == cls).foldl (fun best p =>
    match best with
    | none => some p
    | some b => if p.2.launch < b.2.launch then some p else some b) none

end Sys2Proof.Machine
end

