-- ==== Sys2Proof/Machine/PortOps.lean ====
section
/-! DEFINITION. Operations on ports that several families share: leaving UP and the counters that go with it (R124,
R126, R136, R140). -/

namespace Sys2Proof.Machine

/-- The PORT_STATUS of port `p` as a fault record's DETAIL0 (R452). -/
def State.portStatusOf (s : State) (p : Nat) : Word :=
  match s.port? p with
  | none => 0
  | some q => s.portStatus p q

/-- Frames in a port's transmit queues. -/
def Port.txCount (q : Port) : Nat := (q.txq.map List.length).sum

/-- Held time of a hold up to instant `t` in ps. -/
def Hold.heldTo (h : Hold) (t : Nat) : Nat := min t h.until_ - h.from_

/-- The hold of a priority, or of Annex 31B for 8. -/
def Port.hold (q : Port) (which : Nat) : Option Hold := if which = 8 then q.pauseHold else q.pfcHold.find? which

/-- Sets or removes a hold. -/
def Port.setHold (q : Port) (which : Nat) (h : Option Hold) : Port :=
  if which = 8 then { q with pauseHold := h }
  else
    match h with
    | none => { q with pfcHold := q.pfcHold.del which }
    | some h => { q with pfcHold := q.pfcHold.put which h }

/-- Accounts held time of one hold up to `t` ps: to its watchdog, and to TX_PAUSED_US for Annex 31B (R138, R142). -/
def Port.settle (q : Port) (which t : Nat) : Port :=
  match q.hold which with
  | none => q
  | some h =>
    let d := h.heldTo t
    let q := q.setHold which (some { h with from_ := max h.from_ (min t h.until_) })
    let w := q.watch.getD which {}
    let q := { q with watch := q.watch.set which { w with held := w.held + d } }
    if which = 8 then
      let ps := q.pausedPs + d
      { q with pausedPs := ps % 1000000, counters := bump q.counters 22 (ps / 1000000) }
    else q

/-- Accounts every hold up to `t` ps. -/
def Port.settleAll (q : Port) (t : Nat) : Port := (List.range 9).foldl (fun q k => q.settle k t) q

/-- A port in state `st` with its transmit queues discarded and its holds accounted and ended (R124, R136, R138,
R140, R142). DESIGN CHOICE (log entry 98): the windows of its pause watchdogs, and whether they are tripped, stay. -/
def Port.restart (q : Port) (st now : Nat) : Port :=
  let q := q.settleAll (now * 1000)
  { q with
    st := st, stSince := now, retryAt := none, txq := [[], [], [], [], [], [], [], []],
    pauseHold := none, pfcHold := [], fecLock := false,
    signalSince := if st = 1 ∧ q.signal ≠ 0 then some now else none,
    active := if q.reduced || st == 2 || st == 3 then q.active else 0,
    speedRun := if q.reduced || st == 2 || st == 3 then q.speedRun else 0,
    counters := bump q.counters 21 q.txCount }

/-- What the receivers show now; the 100 ms of WAIT_SIGNAL run while some lane of the port shows signal (R126). -/
def Port.sees (q : Port) (sig now : Nat) : Port :=
  { q with signal := sig, signalSince := if sig = 0 then none else some (q.signalSince.getD now) }

/-! ### Transmit queues (R140, R161, R232) -/

/-- Room of a transmit queue (R140, R245). -/
def Port.txRoom (q : Port) (cls n : Nat) : Bool :=
  decide (((q.txq.getD cls []).map fun f => f.length).sum + n ≤ 16384)

/-- Whether a frame is past its launch time as it comes to the head of its queue (R161). -/
def TxFrame.isLate (f : TxFrame) (clock : Int) : Bool :=
  !f.tested && !f.asap && !f.immediate && decide (f.launch < clock)

/-- Marks each queue's head frame as it comes to stand there: one past its launch time counts in TX_LATE once (R161). -/
def Port.markHeads (q : Port) (clock : Int) : Port :=
  let n := (q.txq.filter fun l => l.head?.any fun f => f.isLate clock).length
  { q with
    txq := q.txq.map fun l => match l with
      | [] => []
      | f :: r => { f with late := f.late || f.isLate clock, tested := true } :: r
    counters := bump q.counters 23 n }

/-- Puts a frame at the end of a transmit queue. -/
def State.pushTx (s : State) (port cls : Nat) (f : TxFrame) : State :=
  s.updPort port fun q =>
    let q : Port := { q with txq := q.txq.modify cls fun l => l ++ [f] }
    q.markHeads s.launchClock

/-- A frame that waited for room waits no more: a host frame's descriptor may then be written back (R232, R445). -/
def State.endWait (s : State) (w : WaitFrame) : State :=
  let s := { s with waitQ := s.waitQ.erase w }
  match w.ring with
  | none => s
  | some r =>
    let g := s.func r.1
    s.setFunc r.1 { g with rings := g.rings.modify r.2 fun (x : Ring) =>
      { x with work := x.work.map fun (d : DmaWork) => { d with waits := false } } }

/-- Moves the first frame that waits for a port's class-0 queue into it, where there is room (R232). -/
def State.admitOne (s : State) (port : Nat) : State :=
  match s.port? port, s.waitQ.find? fun w => w.port == port with
  | some q, some w => if q.txRoom 0 w.tx.length then (s.endWait w).pushTx port 0 w.tx else s
  | _, _ => s

/-- Moves the frames that wait for a port's class-0 queue into it, in order, while there is room (R232). -/
def State.admitWaiting (s : State) (port : Nat) : State := s.waitQ.foldl (fun s _ => s.admitOne port) s

/-- Takes port `p` to state `st`: leaving UP counts in LINK_DOWN and writes PORT_DOWN; the queues emptied have room for the frames
that waited for it (R126, R142, R232, R452). -/
def State.portTo (s : State) (p st : Nat) : State :=
  match s.port? p with
  | none => s
  | some q =>
    let q' := q.restart st s.now
    let s :=
      if q.st = 4 ∧ st ≠ 4 then
        let s := s.reSpeed p fun _ => { q' with counters := bump q'.counters 32 1 }
        s.fault 0x09 4 p (s.portStatusOf p) 0
      else s.reSpeed p fun _ => q'
    s.admitWaiting p

/-- Takes port `p` to WAIT_SIGNAL with its receivers showing nothing: they have no power or no reference (R38, R126, R487). -/
def State.portDark (s : State) (p : Nat) : State := (s.portTo p 1).updPort p fun q => q.sees 0 s.now

/-- Clears the width reduction of a port: it stops counting as an unavailable instance (R131). Kind 12 is the model's
own number for ports among the instance kinds of R453 (log entry 17). -/
def State.portWhole (s : State) (p : Nat) : State :=
  match s.port? p with
  | none => s
  | some q =>
    let s := s.updPort p fun q => { q with reduced := false, reducedUp := false, openLanes := 0 }
    if q.reducedUp then s.instanceUp 12 p else s

end Sys2Proof.Machine
end

