-- ==== Sys2Proof/Machine/Wire.lean ====
section
/-! DEFINITION. UDP payloads as they stand on the wire: RTP packets, RTCP parts and Zwiva datagrams in plaintext form, and their
protection under session keys (R168, R173, R174, R197, R204, R217 to R220). The layouts that the spec names and does not repeat are
PRESUMED from RFC 3550, RFC 4585, RFC 5104 and RFC 8285, the protection from RFC 3711 and RFC 7714 (log entries 4 and 7). -/

namespace Sys2Proof.Machine

/-! ### RTP (R174, R196, R197) -/

/-- The packet has padding. -/
def RtpPacket.padded (p : RtpPacket) : Bool := p.padCount != 0 || !p.pad.isEmpty

/-- Bytes of an RTP packet from its header to its last byte of padding. -/
def rtpLen (p : RtpPacket) : Nat := 12 + 4 * p.csrc.length + p.extLen + p.payload.length + p.pad.length

/-- Whether the extension is in a form of RFC 8285. -/
def extKnown (p : RtpPacket) : Bool := p.extForm == 0xBEDE || p.extForm / 16 == 0x100

/-- The bytes of an element in a block of form `form`: its header and its data; an element that reads as padding is zeros. In a form
that is not parsed an element is data alone. -/
def elemBytes (form : Nat) (e : ExtElem) : List Nat :=
  if form = 0xBEDE then (if e.id = 0 then 0 else e.id % 16 * 16 + (e.data.length - 1) % 16) :: e.data
  else if form / 16 = 0x100 then (if e.id = 0 then [0, 0] else [e.id % 256, e.data.length % 256]) ++ e.data
  else e.data

/-- Byte `i` of the extension block after its header: that of the element that lies there, or zero. -/
def extByte (p : RtpPacket) (i : Nat) : Nat :=
  match p.ext.find? fun e => decide (e.endOff - (elemBytes p.extForm e).length ≤ i) && decide (i < e.endOff) with
  | none => 0
  | some e => let b := elemBytes p.extForm e; b.getD (i - (e.endOff - b.length)) 0

/-- The header extension, with its header of four bytes. -/
def extBytes (p : RtpPacket) : List Nat :=
  if p.extLen = 0 then []
  else beBytes 2 p.extForm ++ beBytes 2 ((p.extLen - 4) / 4) ++ (List.range (p.extLen - 4)).map (extByte p)

/-- The RTP header with its CSRC list and header extension (R174, R196). -/
def rtpHeader (p : RtpPacket) : List Nat :=
  [p.version % 4 * 64 + (if RtpPacket.padded p then 32 else 0) + (if p.extLen = 0 then 0 else 16) + p.csrc.length % 16,
    (if p.marker then 128 else 0) + p.pt % 128]
    ++ beBytes 2 p.seq ++ beBytes 4 p.ts ++ beBytes 4 p.ssrc ++ p.csrc.flatMap (beBytes 4) ++ extBytes p

/-- What of an RTP packet is encrypted: its payload and its padding (R168). -/
def rtpBody (p : RtpPacket) : List Nat := p.payload ++ p.pad

/-! ### RTCP (R198, R200, R201) -/

/-- A part with the header of RTCP: its count or format, its type, its content. -/
def rtcpHead (count typ : Nat) (content : List Nat) : List Nat :=
  [0x80 + count % 32, typ] ++ beBytes 2 (content.length / 4) ++ content

/-- A report block. -/
def rrBytes (b : RrBlock) : List Nat :=
  beBytes 4 b.ssrc ++ beBytes 1 b.fractionLost ++ beBytes 3 b.cumulativeLost ++ beBytes 4 b.extHighest ++ beBytes 4 b.jitter
    ++ beBytes 4 b.lsr ++ beBytes 4 b.dlsr

/-- The items of an SDES chunk that carries a CNAME, with the zeros that end it. -/
def cnameBytes (name : List Nat) : List Nat :=
  let b := [1, name.length % 256] ++ name
  b ++ List.replicate (4 - b.length % 4) 0

/-- A part in the terms of the device, which sends it or hands it to Welmus; feedback names `sender` and, a FIR, its command. A part
that the device only reads has no bytes here. -/
def partBytes (sender fir : Nat) : RtcpPart → List Nat
  | .sr ssrc ntp ts packets octets blocks =>
    rtcpHead blocks.length 200 (beBytes 4 ssrc ++ beBytes 8 ntp ++ beBytes 4 ts ++ beBytes 4 packets ++ beBytes 4 octets
      ++ blocks.flatMap rrBytes)
  | .rr ssrc blocks => rtcpHead blocks.length 201 (beBytes 4 ssrc ++ blocks.flatMap rrBytes)
  | .sdes ssrc cname =>
    rtcpHead 1 202 (beBytes 4 ssrc ++ match cname with | none => [0, 0, 0, 0] | some n => cnameBytes n)
  | .nack media fci =>
    rtcpHead 1 205 (beBytes 4 sender ++ beBytes 4 media ++ fci.flatMap fun f => beBytes 2 f.1 ++ beBytes 2 f.2)
  | .pli media => rtcpHead 1 206 (beBytes 4 sender ++ beBytes 4 media)
  | .fir media => rtcpHead 4 206 (beBytes 4 sender ++ [0, 0, 0, 0] ++ beBytes 4 media ++ [fir % 256, 0, 0, 0])
  | .bye b | .app b | .xr b | .rtpfb _ b | .psfb _ b => b
  | .ccfb _ _ => []

/-- A compound that the device builds. -/
def compound (sender fir : Nat) (parts : List RtcpPart) : Rtcp :=
  { sender := sender, parts := parts, bytes := parts.flatMap (partBytes sender fir) }

/-! ### Zwiva (R204) -/

/-- The five words of a datagram's header (R204). -/
def Zwiva.words (z : Zwiva) : List Nat :=
  [z.magic % 256 * 2 ^ 24 + z.version % 16 * 2 ^ 20 + b2n z.rtcp * 2 ^ 19 + b2n z.simul * 2 ^ 18 + z.stream % 4 * 2 ^ 16
      + z.s % 4 * 2 ^ 14 + z.t % 4 * 2 ^ 12 + b2n z.key * 2 ^ 11 + b2n z.sw * 2 ^ 10 + b2n z.sof * 2 ^ 9 + b2n z.v * 2 ^ 8
      + z.level % 128 * 2,
    z.sourceIndex % 65536 * 65536 + z.format % 16 * 4096,
    z.streamSsrc % 2 ^ 32,
    z.trunkIndex / 65536 % 2 ^ 32,
    z.trunkIndex % 65536 * 65536]

/-- The header of a datagram, in network byte order. -/
def Zwiva.header (z : Zwiva) : List Nat := (Zwiva.words z).flatMap (beBytes 4)

/-- The inner packet in plaintext form. -/
def innerBytes : Inner → List Nat
  | .rtp p => rtpHeader p ++ rtpBody p
  | .rtcp c => c.bytes

/-! ### UDP payloads -/

/-- The protected extent of a UDP payload (R168). -/
def appExtent : App → Nat
  | .rtp p => rtpLen p
  | .rtcp c => c.bytes.length
  | .zwiva z => match z.inner with | .rtp p => rtpLen p | .rtcp c => c.bytes.length
  | .stun _ => 0
  | .ptp _ => 0
  | .raw n => n

/-- Bytes of tag, and of the SRTCP word, that protection adds under a profile (R204, R217, R219). -/
def tagLen (profile : Nat) : App → Nat
  | .zwiva _ => 20 + 16
  | .rtcp _ => (if profile = 3 then 10 else if profile = 4 then 4 else 16) + 4
  | _ => if profile = 3 then 10 else if profile = 4 then 4 else 16

/-- A UDP payload in plaintext form; a datagram keeps its header. -/
def plainBytes : App → List Nat
  | .rtp p => rtpHeader p ++ rtpBody p
  | .rtcp c => c.bytes
  | .zwiva z => Zwiva.header z ++ innerBytes z.inner
  | _ => []

/-! ### Protection (R217, R219, R220) -/

/-- Bytes of an authentication tag under a profile (R217). -/
def authLen (profile : Nat) : Nat := if profile = 3 then 10 else if profile = 4 then 4 else 16

/-- The word of SRTCP: the E flag and the index (R219). -/
def srtcpWord (c : Rtcp) : List Nat := beBytes 4 (c.index % 2 ^ 31 + (if c.e then 2 ^ 31 else 0))

/-- Counter mode of RFC 3711 under a session key and salt of 14 bytes, for an SSRC and an index (R219). -/
def ctrCrypt (key salt : List Nat) (ssrc index : Nat) (bs : List Nat) : List Nat :=
  xorBytes bs (ctrStream (roundKeys key) ((beNum salt * 2 ^ 16) ^^^ (ssrc * 2 ^ 64) ^^^ (index * 2 ^ 16)) 128 bs.length)

/-- An SRTP packet of index `index`, ROC and SEQ in one (R219). -/
def protectRtp (profile : Nat) (k : SessionKeys) (index : Nat) (p : RtpPacket) : List Nat :=
  let h := rtpHeader p
  if 3 ≤ profile then
    let c := h ++ ctrCrypt k.rtpKey k.rtpSalt p.ssrc index (rtpBody p)
    c ++ (hmac sha1 k.rtpAuth (c ++ beBytes 4 (index / 65536))).take (authLen profile)
  else
    h ++ gcmSeal k.rtpKey (xorBytes k.rtpSalt ([0, 0] ++ beBytes 4 p.ssrc ++ beBytes 6 index)) h (rtpBody p)

/-- An SRTCP packet; with E clear it is authenticated and not encrypted (R219). -/
def protectRtcp (profile : Nat) (k : SessionKeys) (c : Rtcp) : List Nat :=
  let w := srtcpWord c
  let h := c.bytes.take 8
  let b := c.bytes.drop 8
  if 3 ≤ profile then
    let x := h ++ (if c.e then ctrCrypt k.rtcpKey k.rtcpSalt c.sender (c.index % 2 ^ 31) b else b) ++ w
    x ++ (hmac sha1 k.rtcpAuth x).take (authLen profile)
  else
    let iv := xorBytes k.rtcpSalt ([0, 0] ++ beBytes 4 c.sender ++ [0, 0] ++ beBytes 4 (c.index % 2 ^ 31))
    (if c.e then h ++ gcmSeal k.rtcpKey iv (h ++ w) b else c.bytes ++ gcmSeal k.rtcpKey iv (c.bytes ++ w) []) ++ w

/-- A Zwiva datagram (R204, R220). -/
def protectZwiva (k : SessionKeys) (z : Zwiva) : List Nat :=
  let iv := xorBytes k.rtpSalt ([0x5A, 0, 0, 0, 0, 0] ++ beBytes 6 z.trunkIndex)
  Zwiva.header z ++ gcmSeal k.rtpKey iv (Zwiva.header z) (innerBytes z.inner)

/-- A UDP payload under session keys, as it stands on the wire; none without keys or for a payload that is never protected. -/
def protect (profile : Nat) (keys : Option SessionKeys) (index : Nat) (a : App) : Option (List Nat) :=
  match keys, a with
  | some k, .rtp p => some (protectRtp profile k index p)
  | some k, .rtcp c => some (protectRtcp profile k c)
  | some k, .zwiva z => some (protectZwiva k z)
  | _, _ => none

/-- The verdict on a received payload: its bytes are those that protection under the keys gives for what it reads as, with a tag of
the profile's length and no MKI (R217, R219, R220; DEDUCED, log entry 121: verifying a tag and decrypting is sealing again and
comparing). -/
def authentic (profile : Nat) (keys : Option SessionKeys) (index : Nat) (a : App) (wire : List Nat) : Bool :=
  protect profile keys index a == some wire

end Sys2Proof.Machine
end

