-- ==== Sys2Proof/Machine/Packets.lean ====
section
/-! DEFINITION. What the stages of the leg pipeline share: lengths, extension elements, class records of packets, leg
lookup, exceptions, class-0 frames, device-originated RTCP and key requests (R168, R174 to R176, R195 to R197, R219,
R232, R442). -/

namespace Sys2Proof.Machine

/-! ### Lengths (R168, R217, R219) -/

/-- Length from destination address to FCS of an untagged frame that carries `n` bytes over UDP. -/
def udpFrameLen (v6 : Bool) (n : Nat) : Nat := 14 + (if v6 then 40 else 20) + 8 + n + 4

/-- Length on the wire side of the MAC: after tag insertion and padding (R140). -/
def macLen (l : Nat) (tagged : Bool) : Nat := max 64 (l + (if tagged then 4 else 0))

/-! ### Header extensions (R174, R197) -/

/-- The elements that the parser interprets: those that end within the first 256 B, up to an ID 15 in one-byte form
(R174). -/
def liveExts (p : RtpPacket) : List ExtElem :=
  if !extKnown p then []
  else (p.ext.takeWhile fun e => decide (e.endOff ≤ 256) && !(p.extForm == 0xBEDE && e.id == 15)).filter
    fun e => e.id != 0 && !(p.extForm == 0xBEDE && decide (14 < e.id))

/-- The element with an ID, where the class record maps the kind (R182, R183). -/
def findExt (p : RtpPacket) (id : Nat) : Option ExtElem := if id = 0 then none else (liveExts p).find? fun e => e.id == id

/-- An element as padding: all its bytes zero (R197). -/
def padElem (e : ExtElem) : ExtElem := { e with id := 0, data := List.replicate e.data.length 0, dd := none }

/-- The three extension IDs of a class record: level, frame marking, dependency descriptor (R182). -/
def ClassRec.ids (c : ClassRec) : List Nat := [c.idLevel, c.idFrameMark, c.idDd]

/-- The receiver's ID for an element of the sender, zero where it becomes padding (R183, R197). -/
def mapId (form : Nat) (src dst : List Nat) (id : Nat) : Nat :=
  match (src.zip dst).find? fun p => p.1 == id && id != 0 with
  | none => 0
  | some p => if form = 0xBEDE ∧ 14 < p.2 then 0 else p.2

/-- The extension elements of a copy (R197). A block in another form than those of RFC 8285 is not parsed and goes unchanged
(DEDUCED from R174, log entry 122). -/
def rewriteExts (p : RtpPacket) (src dst : List Nat) : List ExtElem :=
  if !extKnown p then p.ext else
  let live := liveExts p
  p.ext.map fun e =>
    let id := if live.contains e then mapId p.extForm src dst e.id else 0
    if id = 0 then padElem e else { e with id := id }

/-! ### Class records of packets (R26, R182) -/

/-- The plan in bank `b` of conference `c`, or an empty one. -/
def State.planD (s : State) (c b : Nat) : Plan := (s.planOf c b).getD { conf := c, epoch := 0, tickPhase := 0 }

/-- The class record of a leg under its present slot in bank `b`, which a packet latched (R26). -/
def State.legClassIn (s : State) (leg b : Nat) : ClassRec :=
  match s.legs.find? leg with
  | none => {}
  | some g => match g.slot with | some k => (s.planD g.conf b).classOf k | none => {}

/-- The class record of a leg under its present slot in the ACTIVE plan. -/
def State.legClass (s : State) (leg : Nat) : ClassRec :=
  match s.legs.find? leg with
  | none => {}
  | some g =>
    match (s.conf g.conf).active, g.slot with
    | some p, some k => p.classOf k
    | _, _ => {}

/-- A leg that sends video on more than one of SSRC1 to SSRC3 (R177). -/
def Leg.simulcast (g : Leg) : Bool := decide (1 < popCount 3 (g.ssrcValid / 2))

/-- The SSRC index of a packet: by the SSRCs used in lookup, or for a wildcard leg by the media kind of its FORMAT
(DEDUCED from the roles of R177, log entry 23). -/
def Leg.ssrcIdx (g : Leg) (ssrc fmt : Nat) : Nat :=
  match (List.range 4).find? fun k => g.ssrcValid.testBit k && g.ssrcs.getD k 0 == ssrc with
  | some k => k
  | none => if fmt ≤ 4 then 0 else 1

/-- The SSRC index of a sender report: by the SSRCs used in lookup, or for a wildcard leg the stream whose packets carry the
SSRC (R177, R200, log entry 23). -/
def Leg.reportIdx (g : Leg) (ssrc : Nat) : Option Nat :=
  if g.ssrcValid = 0 then g.rx.findIdx? fun r => r.lastRtp.isSome && r.ssrc == ssrc
  else (List.range 4).find? fun k => g.ssrcValid.testBit k && g.ssrcs.getD k 0 == ssrc

/-- The FORMAT of a payload type (R182). -/
def ClassRec.format (c : ClassRec) (pt : Nat) : Option Nat := (c.ptMap.find? fun p => p.1 == pt).map Prod.snd

/-- The payload type of a FORMAT (R196). -/
def ClassRec.pt (c : ClassRec) (fmt : Nat) : Option Nat := (c.ptMap.find? fun p => p.2 == fmt).map Prod.fst

/-! ### Lookup (R175, R176) -/

/-- Entry `e` has the addresses of a frame. -/
def Lookup.onTuple (e : Lookup) (ip : IpHdr) (u : UdpHdr) : Bool :=
  e.v6 == ip.v6 && e.rAddr == ip.src && e.lAddr == ip.dst && e.rUdp == u.sport && e.lUdp == u.dport

/-- The VLAN check of the full compare (R176). -/
def State.vlanMatches (s : State) (leg : Nat) (vid : Option Nat) : Bool :=
  match s.legs.find? leg with
  | none => false
  | some g => !g.vlanValid || vid == some g.vlan

/-- The legs on a frame's 5-tuple that pass the VLAN check, lowest first (R171). -/
def State.tupleLegs (s : State) (ip : IpHdr) (u : UdpHdr) (vid : Option Nat) : List Nat :=
  s.legs.keys.filter fun l => s.vlanMatches l vid && s.lookups.any fun e => e.leg == l && e.onTuple ip u

/-- The leg that a lookup gives: the exact key first, then the wildcard (R176), each in the key's two buckets and the stash; for a
payload that carries no SSRC the wildcard, else the lowest-numbered leg on the 5-tuple (DESIGN CHOICE, log entry 24). -/
def State.lookup (s : State) (ip : IpHdr) (u : UdpHdr) (ssrc : Option Nat) (vid : Option Nat) : Option Nat :=
  let hit := fun (x : Option Nat) =>
    s.lookups.find? fun e => e.onTuple ip u && e.ssrc == x && s.vlanMatches e.leg vid && e.reachable
  match ssrc with
  | some x => ((hit (some x)).or (hit none)).map Lookup.leg
  | none => ((hit none).map Lookup.leg).or (s.tupleLegs ip u vid).head?

/-! ### The exception path (R171, R442) -/

/-- Puts a frame into the host exception queue of its port with a reason (R135, R171). DESIGN CHOICE (log entry 110): the frame,
which the MAC counted when it wrote it to the pipeline queue, counts no second time in RX_FRAMES and RX_BYTES (R142). -/
def State.exception (s : State) (port : Nat) (f : Frame) (reason : Nat) (leg : Option Nat) (stamp : Nat) : State :=
  match s.port? port with
  | none => s
  | some q =>
    if 65536 < (q.excQ.map fun x => x.frame.length).sum + f.length then s.countPort port 10 1
    else s.updPort port fun q => { q with excQ := q.excQ ++ [{
      frame := f, reason := reason, leg := leg, conf := (leg.bind s.legs.find?).map Leg.conf, stamp := stamp }] }

/-! ### Class 0 (R232) -/

/-- Charges a frame of class 0 to one bucket (R232, R235). -/
def State.chargeOne (s : State) (level idx w : Nat) : State :=
  let b := s.bucket level idx
  if !b.limits then s
  else
    let r := s.rateOf level idx
    s.setBucket level idx { b with vt := max b.vt (s.launchClock - bytesTime b.ceil r) + bytesTime w r }

/-- Sends a frame in class 0 with launch time zero: it is charged at the class and port levels, and waits where its
queue has no room (R232). -/
def State.sendClass0 (s : State) (port : Nat) (f : TxFrame) (ring : Option (Nat × Nat)) : State :=
  let s := ((s.chargeOne 2 (port * 8) (f.length + 20)).chargeOne 3 port (f.length + 20)).admitWaiting port
  match s.port? port with
  | none => s
  | some q =>
    if q.txRoom 0 f.length && !(s.waitQ.any fun w => w.port == port) then s.pushTx port 0 f
    else { s with waitQ := s.waitQ ++ [{ port := port, tx := f, ring := ring }] }

/-! ### Device-originated RTCP and key requests (R195, R201, R205) -/

/-- What stage 9 reads of a leg. -/
def Leg.txCtx (g : Leg) : TxCtx :=
  { serial := g.serial, kind := g.kind, v6 := g.v6, lUdp := g.lUdp, rUdp := g.rUdp, lAddr := g.lAddr, rAddr := g.rAddr
    vlan := if g.vlanValid then some g.vlan else none, slot := fld g.txSlot 20 0, gen := g.txGen, nextHop := g.nextHop
    lost := g.consentLost, resume := g.resume }

/-- Hands a copy to the egress pipeline of its leg's port, with the leg's context as it is (R18, R191). -/
def State.pushCopy (s : State) (c : Copy) : State :=
  let p := c.port / 16
  let c := { c with ctx := (s.legs.getD {} c.leg).txCtx }
  { s with egressQ := s.egressQ.put p (s.egressQ.getD [] p ++ [c]) }

/-- RTCP that goes to a leg under bank `b`, for a packet looked up as number `look`: none to a fenced leg (R118), none in a mode
without leg traffic (R35). -/
def State.rtcpTo (s : State) (leg b look : Nat) (body : App) (src : Option Nat) : State :=
  match s.legs.find? leg with
  | none => s
  | some g =>
    if g.fenced || !s.carries then s
    else
      s.pushCopy { leg := leg, conf := g.conf, bank := b, body := body, rtcp := true, srcLeg := src
                   rslot := g.slot.getD 0xFFFF, port := g.port, look := look }

/-- RTCP that the device sends to a leg (R201). Bank 2 stands for no bank latched. -/
def State.sendRtcp (s : State) (leg : Nat) (body : App) (src : Option Nat) : State := s.rtcpTo leg 2 s.lookNo body src

/-- The PLI or FIR of a key request for a sending leg: across a trunk an inner PSFB that names the trunk source (R195,
R205). -/
def keyReqBody (leg : Nat) (fir : Bool) (media : Nat) (trunk : Option Nat) : App :=
  let c := compound (Config.ownSsrc leg) (Config.firSeq leg media) [if fir then .fir media else .pli media]
  match trunk with
  | none => .rtcp c
  | some i => .zwiva { rtcp := true, sourceIndex := i, streamSsrc := media, inner := .rtcp c }

/-- A key request for a sending leg (R195): the first of an interval is sent and raises EV_KEYFRAME_NEEDED, later ones
are absorbed. -/
def State.keyRequest (s : State) (leg : Nat) (fir : Bool) (media : Nat) (trunk : Option Nat) : State :=
  match s.legs.find? leg with
  | none => s
  | some g =>
    let s := s.countLeg leg 27 1
    match g.keyReq with
    | some r => s.updLeg leg fun g => { g with keyReq := some { r with absorbed := true } }
    | none =>
      let s := s.updLeg leg fun g =>
        { g with keyReq := some { since := s.now, interval := (s.legClass leg).keyReqInterval } }
      (s.sendRtcp leg (keyReqBody leg fir media trunk) none).raiseEvent (s.legHolder leg) 0x105
        [w32 leg, w32 (if fir then 2 else 1)]

/-- KEY_REQ_INTERVAL_END (R195). -/
def keyReqIntervalEnd (leg : Nat) (s : State) : State :=
  let s := s.begin
  match s.legs.find? leg with
  | none => s
  | some g =>
    match g.keyReq with
    | none => s
    | some r =>
      if s.now < r.since + r.interval * 1000000 then s
      else
        let fn := s.legHolder leg
        let s := s.updLeg leg fun g => { g with keyReq := none }
        if r.absorbed then s.raiseEvent fn 0x105 [w32 leg, 0] else s

def execKeyReqIntervalEnd (leg : Nat) (s : State) : Res := .next (keyReqIntervalEnd leg s)

end Sys2Proof.Machine
end

