-- ==== Sys2Proof/Machine/MediaOps.lean ====
section
/-! DEFINITION. Where the media half keeps its objects: sessions, buses, outputs and frame buffers by their device numbers,
and what key requests do at decoders and encoders (R114, R195, R326, R339, R348, R354, R385). -/

namespace Sys2Proof.Machine

/-! ### Time -/

/-- The launch clock in ns from its zero, which timed work runs on (R162, R254, R265). -/
def State.launchNs (s : State) : Nat := (s.launchClock / 65536).toNat

/-! ### Device objects -/

/-- The device session for a session number of a bank. -/
def State.sessNo (s : State) (c b n : Nat) : Option Nat := ((s.conf c).bank b).sess.find? n

/-- The device bus for a bus number of a bank. -/
def State.busNo (s : State) (c b n : Nat) : Option Nat := ((s.conf c).bank b).buses.find? n

/-- The device output for an output number of a bank. -/
def State.outNo (s : State) (c b n : Nat) : Option Nat := ((s.conf c).bank b).outs.find? n

/-- The device session `i`. -/
def State.sessAt (s : State) (i : Nat) : Sess := s.sess.getD {} i

/-- Changes the device session `i`. -/
def State.updSess (s : State) (i : Nat) (f : Sess → Sess) : State := { s with sess := s.sess.upd i f }

/-- Changes the encoder part of device session `i`. -/
def State.updEnc (s : State) (i : Nat) (f : EncState → EncState) : State := s.updSess i fun x => { x with enc := f x.enc }

/-- Changes the device bus `i`. -/
def State.updBus (s : State) (i : Nat) (f : BusState → BusState) : State := { s with buses := s.buses.upd i f }

/-- The end of a bus's crossfade: the old route is released (R321). -/
def BusState.unfaded (b : BusState) : BusState :=
  { b with xfade := none, taps := b.taps.map fun t => { t with scaleOld := none } }

/-- Ends the crossfade of bus `i`, counted in CROSSFADES, once its last sample has passed, or at the bus's next frame (R321). -/
def State.endXfade (s : State) (i : Nat) (next : Bool) : State :=
  match (s.buses.getD {} i).xfade.bind Xfade.ends with
  | none => s
  | some t =>
    if next = true ∨ t ≤ s.launchNs then (s.updBus i BusState.unfaded).countConf (s.buses.getD {} i).conf 7 1 else s

/-- Ends the crossfades whose last sample has passed (R321). -/
def State.endXfades (s : State) : State := s.buses.foldl (fun (s : State) x => s.endXfade x.1 false) s

/-- The device output `i`. -/
def State.outAt (s : State) (i : Nat) : OutState := s.outs.getD {} i

/-- Changes the device output `i`. -/
def State.updOut (s : State) (i : Nat) (f : OutState → OutState) : State := { s with outs := s.outs.upd i f }

/-- The SESSION entry `n` of a plan. -/
def Plan.sessionRec (p : Plan) (n : Nat) : Option SessionRec := p.sessions.find? fun r => r.session == n

/-- The bus record `n` of a plan. -/
def Plan.busRec (p : Plan) (n : Nat) : Option BusRec := p.mix.buses.find? fun r => r.bus == n

/-- The output record `n` of a plan. -/
def Plan.outputRec (p : Plan) (n : Nat) : Option OutputRec := p.outputs.find? fun r => r.output == n

/-- The layout `n` of a plan. -/
def Plan.layoutRec (p : Plan) (n : Nat) : Option Layout := p.layouts.find? fun r => r.layout == n

/-- The graph `n` of a plan. -/
def Plan.graphRec (p : Plan) (n : Nat) : Option GraphRec := p.graphs.find? fun r => r.graph == n

/-- The roster slot that names session `n` (R102, R333). -/
def Plan.sessionSlot (p : Plan) (n : Nat) : Option RosterSlot :=
  p.roster.find? fun r => r.kind == 1 && (r.session == n || r.aux == n)

/-- The session of a TYPE that a roster slot names (R102). -/
def Plan.slotSession (p : Plan) (r : RosterSlot) (typ : Nat) : Option SessionRec :=
  ([r.session, r.aux].filterMap fun n => p.sessionRec n).find? fun x => x.typ == typ

/-- BANDS of an output or a rung: rows taken 64 at a time (R353, R376). -/
def bandsOf (h : Nat) : Nat := ceilDiv h 64

/-- The rung picture's width or height (R376). -/
def rungDim (d scale : Nat) : Nat := 2 * (d / 2 ^ (scale + 1))

/-- Rows of band `b` of a picture of height `h` (R353). -/
def bandRows (h b : Nat) : Nat := min 64 (h - 64 * b)

/-- The receiver of a slot in the ACTIVE bank: the leg bound to it. -/
def State.slotLeg (s : State) (c k : Nat) : Option Nat :=
  (List.find? (fun p : Nat × Leg => p.2.conf == c && p.2.slot == some k) s.legs).map Prod.fst

/-! ### Frame buffers (R339, R354) -/

/-- The buffers of an owner. -/
def State.fbs (s : State) : FbOwner → List Fb
  | .session i => (s.sessAt i).fbs
  | .output i => (s.outAt i).fbs
  | .pyramid i => (s.sessAt i).pyramid

/-- Buffer `k` of an owner. -/
def State.fb (s : State) (o : FbOwner) (k : Nat) : Fb := (s.fbs o).getD k {}

/-- Changes buffer `k` of an owner. -/
def State.updFb (s : State) (o : FbOwner) (k : Nat) (f : Fb → Fb) : State :=
  match o with
  | .session i => s.updSess i fun x => { x with fbs := x.fbs.modify k f }
  | .output i => s.updOut i fun x => { x with fbs := x.fbs.modify k f }
  | .pyramid i => s.updSess i fun x => { x with pyramid := x.pyramid.modify k f }

/-- A buffer that is not being written returns to FREE when it holds no mark and no lease (R339). -/
def Fb.settle (b : Fb) : Fb :=
  if (b.st == .valid || b.st == .suspect) && !b.ref && !b.out && !b.conceal && b.reads == 0 then {} else b

/-- Takes an FB_READ lease on a buffer. -/
def State.readFb (s : State) (b : FbOwner × Nat) : State := s.updFb b.1 b.2 fun x => { x with reads := x.reads + 1 }

/-- Ends an FB_READ lease on a buffer. -/
def State.unreadFb (s : State) (b : FbOwner × Nat) : State :=
  s.updFb b.1 b.2 fun x => ({ x with reads := x.reads - 1 } : Fb).settle

/-- The end of an FB_WRITE lease (R339, R340, R271): a buffer still WRITING becomes VALID, or SUSPECT after FAILED. -/
def State.endWrite (s : State) (status : Nat) (b : FbOwner × Nat) : State :=
  s.updFb b.1 b.2 fun x =>
    (if status = 2 then { x with st := .suspect }
     else if x.st = .writing then { x with st := .valid, concealed := status == 1 }
     else x).settle

/-- The number of the first FREE buffer of an owner that `taken` does not name. -/
def State.freeFb (s : State) (o : FbOwner) (taken : List Nat) : Option Nat :=
  (List.range (s.fbs o).length).find? fun k => (s.fb o k).st == .free && !taken.contains k

/-- The picture of a session by its count, where its buffer still holds it VALID. -/
def Sess.bufOf (x : Sess) (count : Nat) : Option Nat :=
  (List.range x.fbs.length).find? fun k => (x.fbs.getD k {}).count == count && (x.fbs.getD k {}).st == .valid

/-- Sets the marks of a session's buffers from its reference list, its two latest outputs and its concealment source
(R339), and lets unheld buffers return. -/
def Sess.remark (x : Sess) : Sess :=
  { x with fbs := x.fbs.map fun b =>
      if b.st = .writing ∨ b.st = .free then b
      else
        let here := fun (o : Option Nat) => o == some b.count && b.st == .valid
        ({ b with
          ref := b.st == .valid && x.refs.contains b.count
          out := here x.latest || here x.prevOut
          conceal := here x.source } : Fb).settle }

/-! ### Key requests at sessions (R195, R348, R385) -/

/-- A refresh of an encode session (R385). -/
def State.refreshSession (s : State) (i : Nat) : State := s.updEnc i fun e => { e with refresh := true }

/-- A key request for a locally originated source: it refreshes the encode session with RUNG SSRC_IDX - 1 (R195, R385). -/
def State.refreshSource (s : State) (c b source stream : Nat) : State :=
  match (s.planD c b).sessions.find? fun r => r.typ == 3 && r.source == source && r.rung + 1 == stream with
  | none => s
  | some r =>
    match s.sessNo c b r.session with
    | none => s
    | some i => s.refreshSession i

/-- The SSRC of stream `k` of a leg that a key request names; zero where the leg names none. -/
def Leg.streamSsrc (g : Leg) (k : Nat) : Nat := if g.ssrcValid.testBit k then g.ssrcs.getD k 0 else 0

/-- A key request that a decoder raises for the leg that sends to a session (R348): a FIR at a fresh session of a class
with JOIN_FIR. -/
def State.decoderRequest (s : State) (c b session : Nat) (fresh : Bool) : State :=
  let p := s.planD c b
  match p.sessionSlot session, p.sessionRec session with
  | some r, some x =>
    match s.slotLeg c r.slot with
    | none => s
    | some l =>
      let fir := fresh && (s.legClass l).joinFir
      (s.countConf c 21 1).keyRequest l fir ((s.legs.getD {} l).streamSsrc x.stream) none
  | _, _ => s

end Sys2Proof.Machine
end

