-- ==== Sys2Proof/Machine/LatchOps.lean ====
section
/-! DEFINITION. What a dispatch fixes for an engine: the latch of a composed output (R360) and the budgets (R266, R291, R296,
R313, R343, R371, R380). -/

namespace Sys2Proof.Machine

/-! ### Lookups of live tasks and graph instances -/

/-- The graph instance `r`. -/
def State.run? (s : State) (r : Nat) : Option GraphRun := s.sched.runs.find? r

/-- Changes the graph instance `r`. -/
def State.updRun (s : State) (r : Nat) (f : GraphRun → GraphRun) : State :=
  s.updSched fun x => { x with runs := x.runs.upd r f }

/-- The live task `t`. -/
def State.live? (s : State) (t : Nat) : Option Live := s.sched.lives.find? t

/-- Changes the live task `t`. -/
def State.updLive (s : State) (t : Nat) (f : Live → Live) : State :=
  s.updSched fun x => { x with lives := x.lives.upd t f }

/-- The plan that a graph instance runs under (R114). -/
def State.runPlan (s : State) (g : GraphRun) : Plan := s.planD g.conf g.bank

/-- The graph instance of a live task. -/
def State.runOf (s : State) (l : Live) : GraphRun :=
  (s.run? l.run).getD { conf := 0, bank := 0, loadNo := 0, graph := 0 }

/-! ### The layout in force and the latch (R117, R358 to R360) -/

/-- The layout reference in force of an output, with its complement (R359). -/
def State.layoutRef (s : State) (p : Plan) (o : OutputRec) : Word :=
  match (s.conf p.conf).layoutOv.find? o.output with
  | none => o.layout
  | some ref =>
    match p.layoutSels.find? fun x => x.ref == ref && x.output == o.output with
    | some x => x.layout
    | none => o.layout

/-- The TYPE 2 session that the holder of a rank sends to (R358). -/
def Plan.holderSession (p : Plan) (holder : Option Nat) : Option Nat :=
  match holder with
  | none => none
  | some h =>
    match p.roster.find? fun r => r.source == some h && h != 0xFFFF with
    | none => none
    | some r => (p.slotSession r 2).map SessionRec.session

/-- The latest picture of a session, as a layer draws it. -/
def State.latestOf (s : State) (c b session : Nat) : Drawn :=
  match s.sessNo c b session with
  | none => .fill
  | some i =>
    let x := s.sessAt i
    match x.latest with
    | none => .fill
    | some n => match x.bufOf n with | some k => .picture i k n | none => .fill

/-- What a layer draws under a latch taken now (R358). -/
def State.drawnNow (s : State) (p : Plan) (b : Nat) (holders : List (Option Nat)) (l : Layer) : Drawn :=
  if l.source = 0 then
    match p.sessionSlot l.arg with
    | none => .fill
    | some r => if (s.slotLeg p.conf r.slot).isNone then .fill else s.latestOf p.conf b l.arg
  else if l.source = 2 then
    match p.holderSession (holders.getD (l.arg % 16) none) with
    | none => .fill
    | some n => s.latestOf p.conf b n
  else if l.source = 4 then
    match s.outNo p.conf b l.arg with
    | none => .fill
    | some i => if (s.outAt i).last.isEmpty then .fill else .output (s.outAt i).last i ((s.outAt i).lastRun.getD 0)
  else .nothing

/-- The latch of output `o` for an instance of bank `b` (R360). -/
def State.latchNow (s : State) (p : Plan) (b : Nat) (o : OutputRec) : Latch :=
  let ref := s.layoutRef p o
  let holders := (List.range 16).map fun r => (s.conf p.conf).ranks.find? r
  let last := match s.outNo p.conf b o.output with | some i => (s.outAt i).last | none => []
  if !pair16Ok ref then { holders := holders, last := last, bad := true }
  else
    match p.layoutRec (fld ref 15 0) with
    | none => { holders := holders, last := last, bad := true }
    | some l =>
      { layout := some l, drawn := l.layers.map (s.drawnNow p b holders), holders := holders
        last := last }

/-- The latch of an output for an instance, taken at its first dispatch, with LAYER_FILLS, or the fence of a layout
reference that fails its pair (R117, R358, R360, R372). -/
def State.latch (s : State) (r : Nat) (o : OutputRec) : State :=
  match s.run? r with
  | none => s
  | some g =>
    if g.latches.has o.output then s
    else
      let p := s.runPlan g
      let l := s.latchNow p g.bank o
      let s := if l.layout.any fun y => y.layers.any fun x => x.source == 2 then s.checkRefs g.conf p else s
      let s := s.updRun r fun g => { g with latches := g.latches.put o.output l }
      if l.bad then (s.countConf g.conf 28 1).fenceConf g.conf 7 0
      else s.countConf g.conf 25 (l.drawn.countP fun d => d == .fill)

/-- Whether a layer's rectangle has rows in band `b`. -/
def Layer.inBand (l : Layer) (b : Nat) : Bool := decide (l.y < 64 * (b + 1)) && decide (64 * b < l.y + l.h)

/-- What a layer draws at the dispatch of a band: a latched buffer that no longer holds its picture is replaced by the
session's present LATEST (R360). The flag says that one was. -/
def State.redraw (s : State) : Drawn → Drawn × Bool
  | .picture i k n =>
    let x := s.sessAt i
    let b := x.fbs.getD k {}
    if b.count == n && b.st == .valid then (.picture i k n, false)
    else
      match x.latest with
      | none => (.fill, true)
      | some m => (match x.bufOf m with | some j => .picture i j m | none => .fill, true)
  | .output bufs i run =>
    let ok := bufs.all fun l => l.all fun k => (s.fb (.output i) k).st == .valid && (s.fb (.output i) k).count == run
    if ok then (.output bufs i run, false)
    else
      let last := (s.outAt i).last
      (if last.isEmpty then .fill else .output last i ((s.outAt i).lastRun.getD 0), true)
  | d => (d, false)

/-- The buffers that a drawn layer reads. -/
def Drawn.bufs : Drawn → List (FbOwner × Nat)
  | .picture i k _ => [(.session i, k)]
  | .output bufs i _ => bufs.flatten.map fun k => (.output i, k)
  | _ => []

/-- The band's view of a latch: replacements counted in LATCH_MISSES (R360). -/
def State.latchBand (s : State) (r : Nat) (o : OutputRec) (band : Nat) : State :=
  match s.run? r with
  | none => s
  | some g =>
    match g.latches.find? o.output, (g.latches.find? o.output).bind Latch.layout with
    | some l, some lay =>
      let ds := (lay.layers.zip l.drawn).map fun p => if p.1.inBand band then s.redraw p.2 else (p.2, false)
      let l' := { l with bands := l.bands.put band (ds.map Prod.fst) }
      (s.updRun r fun g => { g with latches := g.latches.put o.output l' }).countConf g.conf 27 (ds.countP Prod.snd)
    | _, _ => s

/-- The buffers that a band reads under its latch (R360, R372). -/
def State.bandReads (s : State) (g : GraphRun) (o : OutputRec) (band : Nat) : List (FbOwner × Nat) :=
  match g.latches.find? o.output, s.outNo g.conf g.bank o.output with
  | some l, some i =>
    match l.layout with
    | none => (l.last.getD band []).map fun k => (.output i, k)
    | some lay =>
      ((lay.layers.zip (l.bands.getD l.drawn band)).filter fun p => p.1.inBand band).flatMap fun p => p.2.bufs
  | _, _ => []

/-! ### Budgets -/

/-- STATE_BYTES, LDM_FOOTPRINT and DEFAULT_BUDGET of a resident kernel (R296); the manual gives the budget only, the
other two are free (log entry 28). -/
def residentBudget : Nat → Option Nat
  | 1 => some 54000 | 2 => some 180000 | 3 => some 5000 | 4 => some 5000 | 5 => some 5000 | 6 => some 5000
  | 7 => some 20000 | 8 => some 30000 | 0x10 => some 20000
  | _ => none

/-- A resident decoder (R296). -/
def residentDecoder (n : Nat) : Bool := [1, 3, 4, 7].contains n

/-- The kernel that a task's REF names (R293): (STATE_BYTES, LDM_FOOTPRINT, DEFAULT_BUDGET). -/
def Plan.kernelOf (p : Plan) (n : Nat) : Option (Nat × Nat × Nat) :=
  match residentBudget n with
  | some b => some (64 * Config.residentState n, 4096 * Config.residentFootprint n, b)
  | none => (p.kernels.find? fun k => k.kernel == n).map fun k => (k.stateBytes, k.footprint, k.budget)

/-- Samples of a 10 ms frame by rate code (R297). -/
def frameLen : Nat → Nat
  | 0 => 80 | 1 => 160 | _ => 480

/-- Cost in cycles of a conversion between rate codes (R301). -/
def convCost (a b : Nat) : Nat :=
  if a = b then 0 else if a + b = 2 then 362 else if a + b = 3 then 363 else 122

/-- Nominal cost of a bus frame (R313). -/
def BusRec.cost (r : BusRec) : Nat :=
  let f := frameLen r.rate
  400 + (r.columns.map fun c => convCost c.srcRate r.rate).sum + 2 * ceilDiv (r.columns.length * f) 64
    + 2 * ceilDiv (r.taps.length * f) 64 + (r.taps.map fun t => convCost r.rate t.outRate).sum

/-- Area of a rectangle within a band. -/
def areaIn (y w rows h band : Nat) : Nat := w * (min (y + rows) (64 * band + bandRows h band) - max y (64 * band))

/-- Area of the layers within a band; that of a HIGHLIGHT layer is its frame, around the layer it marks (R358, R371). -/
def Layout.bandArea (l : Layout) (p : Plan) (holders : List (Option Nat)) (h band : Nat) : Nat :=
  (l.layers.map fun x =>
    if x.source ≠ 3 then areaIn x.y x.w x.h h band
    else
      match (p.holderSession (holders.getD (x.arg % 16) none)).bind fun n => l.layers.find? fun y => y.source == 0 && y.arg == n with
      | none => 0
      | some y => areaIn y.y y.w y.h h band
          - areaIn (y.y + x.border) (y.w - 2 * x.border) (y.h - 2 * x.border) h band).sum

/-- Nominal cost of a composed band in tenths of a cycle (R371). -/
def composeCost10 (pOut pLayer : Nat) : Nat := 20000 + 6 * pOut + 3 * (pLayer - 2 * pOut)

/-- Bytes of the payloads of an access unit. -/
def Au.bytes (a : Au) : Nat := (a.entries.map fun e => e.2.data.length).sum

/-- The default budget of a task in cycles of its engine's clock (R266). The luma sample count of a picture not yet parsed
is that of the session's last accepted size, else its largest (DEDUCED, log entry 29). -/
def State.defaultBudget (s : State) (l : Live) : Nat :=
  let g := s.runOf l
  let p := s.runPlan g
  let t := l.task
  if t.op ≤ 4 then match p.kernelOf t.ref with | some k => k.2.2 | none => 0
  else if t.op = 5 then match p.busRec t.ref with | some b => 4 * b.cost | none => 0
  else if t.op = 6 then
    match p.sessionRec t.session with
    | none => 0
    | some r =>
      let size := match s.sessNo g.conf g.bank t.session with
        | some i => (s.sessAt i).lastSize.getD (r.maxW, r.maxH)
        | none => (r.maxW, r.maxH)
      4 * (2000 + (12 * (size.1 * size.2)) / 10 + (g.au.map Au.bytes).getD 0)
  else
    match p.outputRec t.ref with
    | none => 0
    | some o =>
      let band := fld t.param 5 0
      if t.op = 7 then
        let area := match g.latches.find? o.output with
          | some x => (x.layout.map fun lay => lay.bandArea p x.holders o.h band).getD 0
          | none => 0
        4 * composeCost10 (o.w * bandRows o.h band) area / 10
      else if t.op = 8 then 4 * (20000 + 7 * (o.w * bandRows o.h band)) / 10
      else
        let sc := ((p.sessionRec t.session).map SessionRec.scale).getD 0
        4 * (30000 + 8 * (rungDim o.w sc * bandRows (rungDim o.h sc) band)) / 10

/-- The budget of a task in ns: its BUDGET, or the default, in cycles of DCLK (1.8 GHz) for DSP cores and the audio
engine and of MCLK (1.2 GHz) for the others (R250, R266). -/
def State.budgetNs (s : State) (l : Live) : Nat :=
  let c := if l.task.budget = 0 then s.defaultBudget l else l.task.budget
  if l.task.op ≤ 5 then ceilDiv (c * 10) 18 else ceilDiv (c * 10) 12

end Sys2Proof.Machine
end

