-- ==== Sys2Proof/Machine/EncOps.lean ====
section
/-! DEFINITION. Rate control, picture structure and regions of the encoder array (R376, R384 to R389, R392, R393, R396). -/

namespace Sys2Proof.Machine

/-! ### Estimates (R387, R389) -/

/-- The largest `n` below 2^`bits` with n^6 * d < x, built bit by bit from `acc`. -/
def sixthBelow (d x : Nat) : Nat → Nat → Nat
  | 0, acc => acc
  | bits + 1, acc =>
    let n := acc + 2 ^ bits
    sixthBelow d x bits (if n ^ 6 * d < x then n else acc)

/-- The quotient C * K * 2^((26 - q) / 6) rounded up, for K in Q8.24 (R389). -/
def estBytes (c k q : Nat) : Nat :=
  if c * k = 0 then 0
  else sixthBelow (2 ^ 144 * 2 ^ (q - 26)) ((c * k) ^ 6 * 2 ^ (26 - q)) 64 0 + 1

/-- cap_bytes (R387). -/
def SessionRec.capBytes (r : SessionRec) : Nat := r.cap * r.windowMs / 8

/-- skip_bytes (R387). -/
def SessionRec.skipBytes (r : SessionRec) (o : OutputRec) : Nat := 32 + ceilDiv (rungDim o.w r.scale) 16

/-- BANDS_R (R376). -/
def SessionRec.bandsR (r : SessionRec) (o : OutputRec) : Nat := bandsOf (rungDim o.h r.scale)

/-- The output bands that rung band `b` covers (R376). -/
def SessionRec.covers (r : SessionRec) (o : OutputRec) (b : Nat) : List Nat :=
  (List.range (2 ^ r.scale)).map (fun i => b * 2 ^ r.scale + i) |>.filter fun x => decide (x < bandsOf o.h)

/-- The device session of an output's LEAD session in a bank (R376, R377). -/
def State.leadNo (s : State) (p : Plan) (b : Nat) (o : OutputRec) : Option Nat :=
  match p.sessions.find? fun r => r.typ == 3 && r.output == o.output && r.lead with
  | none => none
  | some r => s.sessNo p.conf b r.session

/-- The pyramid buffer of an output band of an instance. -/
def State.pyramidOf (s : State) (g : GraphRun) (o : OutputRec) (band : Nat) : Option (FbOwner × Nat) :=
  match s.leadNo (s.runPlan g) g.bank o, g.pyr.find? (o.output * 64 + band) with
  | some i, some k => some (.pyramid i, k)
  | _, _ => none

/-- C(j): the SAD of an inter picture, or the ACT of a key picture, of the level-2 blocks that rung band `j` covers, times
4^(2 - SCALE) (R389). A band with no vector field takes a free value (log entry 31). -/
def State.bandCost (s : State) (g : GraphRun) (r : SessionRec) (o : OutputRec) (key : Bool) (j : Nat) : Nat :=
  let one := fun band =>
    match s.pyramidOf g o band with
    | none => Config.absentCost r.session band
    | some b => ((s.fb b.1 b.2).field.map fun f => if key then f.2.2.2 else f.2.2.1).sum
  ((r.covers o j).map one).sum * 4 ^ (2 - r.scale)

/-- est(j, q) of R389. -/
def State.est (s : State) (g : GraphRun) (r : SessionRec) (o : OutputRec) (e : EncState) (key : Bool) (j q : Nat) : Nat :=
  estBytes (s.bandCost g r o key j) (if key then e.kKey else e.kInter) q

/-- proj(r, q) of R388. -/
def State.proj (s : State) (g : GraphRun) (r : SessionRec) (o : OutputRec) (e : EncState) (key : Bool) (b q : Nat) : Nat :=
  ((List.range (r.bandsR o)).filter (fun j => decide (b ≤ j))).map (fun j => s.est g r o e key j q) |>.sum

/-! ### Pictures (R384, R385, R393) -/

/-- The initial K of a FORMAT in Q8.24, for key and inter pictures (R389). -/
def initialK (format : Nat) : Nat × Nat := if format = 5 then (2 ^ 19, 2 ^ 16) else (3 * 2 ^ 17, 3 * 2 ^ 14)

/-- The temporal layer at position `q` since the last key picture (R384). -/
def layerAt (layers q : Nat) : Nat :=
  if layers = 1 then 0 else if layers = 2 then q % 2 else if q % 2 = 1 then 2 else if q % 4 = 0 then 0 else 1

/-- Bytes of the session's pictures released in (t - WINDOW_MS, t) (R387). -/
def EncState.spent (e : EncState) (windowMs t : Nat) : Nat :=
  ((e.history.filter fun h => decide (t < h.1 + windowMs * 1000000) && decide (h.1 < t)).map Prod.snd).sum

/-- Whether a picture released at `t` is a key picture (R385). -/
def EncState.keyDue (e : EncState) (r : SessionRec) (t : Nat) : Bool :=
  !e.started || e.noRef || (r.keyInterval != 0 && decide (r.keyInterval ≤ e.sinceKey))
    || (e.refresh && match e.lastForced with | none => true | some f => decide (f + r.refreshMs * 1000000 ≤ t))

/-- RTP_TS of a picture (R392). -/
def encTs (base : Nat) (d : GraphRec) (k : Nat) : Nat := (base + k * d.num * 9 / (d.den * 100000)) % 2 ^ 32

/-! ### Regions of interest (R386) -/

/-- The rectangle of a region under a latch (R386): x, y, width, height in the output. -/
def regionRect (p : Plan) (l : Latch) (w : Word) : Option (Nat × Nat × Nat × Nat) :=
  match l.layout with
  | none => none
  | some lay =>
    let arg := fld w 7 2
    if fld w 1 0 = 1 then (lay.layers[arg]?).map fun x => (x.x, x.y, x.w, x.h)
    else if fld w 1 0 = 2 then
      match p.holderSession (l.holders.getD arg none) with
      | none => none
      | some n => (lay.layers.find? fun x => x.source == 0 && x.arg == n).map fun x => (x.x, x.y, x.w, x.h)
    else none

/-- Two's complement of 5 bits. -/
def signed5 (n : Nat) : Int := if n < 16 then n else (n : Int) - 32

/-- A region resolved on the rung picture's 16-sample grid (R386): x0, y0, x1, y1 and QP_OFFSET. -/
def resolveRegion (p : Plan) (l : Latch) (scale : Nat) (w : Word) : Option (Nat × Nat × Nat × Nat × Int) :=
  (regionRect p l w).map fun q =>
    let d := 2 ^ scale * 16
    (q.1 / d * 16, q.2.1 / d * 16, ceilDiv (q.1 + q.2.2.1) d * 16, ceilDiv (q.2.1 + q.2.2.2) d * 16, signed5 (fld w 12 8))

/-- Clamps a QP to QP_MIN to QP_MAX (R386, R388). -/
def SessionRec.clampQp (r : SessionRec) (q : Int) : Nat := (max (r.qpMin : Int) (min q r.qpMax)).toNat

/-- The QP of a block whose centre is (x, y) in the rung picture (R386). -/
def EncPic.blockQp (c : EncPic) (r : SessionRec) (x y : Nat) : Nat :=
  if c.squeeze.isSome then r.qpMax
  else
    match c.regions.find? fun g => decide (g.1 ≤ x ∧ g.2.1 ≤ y ∧ x < g.2.2.1 ∧ y < g.2.2.2.1) with
    | none => c.qp
    | some g => r.clampQp ((c.qp : Int) + g.2.2.2.2)

/-! ### Dispatch of bands (R385, R388) -/

/-- A reference of encode session `i` that is no longer VALID: the next picture is a key picture (R396). -/
def State.refLost (s : State) (i : Nat) (e : EncState) : Bool :=
  [e.t0, e.prev].any fun k => k.any fun n => (s.fb (.session i) n).st != .valid

/-- The picture that band 0 starts at encode session `i` (R385 to R388, R392, R393). -/
def State.newPic (s : State) (p : Plan) (g : GraphRun) (run i : Nat) (r : SessionRec) (o : OutputRec) (d : GraphRec)
    (e : EncState) : EncPic :=
  let t := g.release
  let spent := e.spent r.windowMs t
  let avail := r.capBytes - spent
  let dropped := decide (r.capBytes < spent) || decide (avail < r.bandsR o * r.skipBytes o)
  let key := (e.keyDue r t || s.refLost i e) && !dropped
  let forced := key && e.refresh
  let near := fun (x : Option Nat) => match x with | none => false | some y => decide (t ≤ y + 2000000000)
  let layer := if key then 0 else layerAt r.tLayers e.q
  { inst := run, release := t, key := key, forced := forced, dropped := dropped
    stats := r.statsEn && (e.firstAt.isNone || near e.firstAt || s.modes.mode == .maintenance || near e.lastForced
      || forced)
    spent := spent, budget := avail
    qp := r.clampQp ((r.qpBase : Int) + if key then r.keyQp else 0)
    ts := encTs e.tsBase d g.k
    layer := layer
    refFb := if key then none else if layer = 2 then e.prev else e.t0
    regions := match g.latches.find? o.output with
      | none => []
      | some l => r.regions.filterMap (resolveRegion p l r.scale) }

/-- Whether the pyramid rows that a band covers are absent (R396). -/
def State.rowsAbsent (s : State) (g : GraphRun) (r : SessionRec) (o : OutputRec) (band : Nat) : Bool :=
  (r.covers o band).any fun b => (s.pyramidOf g o b).isNone

/-- The decisions at the dispatch of band `b` (R388). -/
def State.bandStart (s : State) (g : GraphRun) (r : SessionRec) (o : OutputRec) (e : EncState) (c : EncPic) (b : Nat) :
    EncPic :=
  if c.dropped then { c with band := b }
  else
    let left := c.budget - c.used
    let c1 := if c.skip.isNone && c.squeeze.isNone && decide (left < s.proj g r o e c.key b c.qp) then
      { c with squeeze := some b, qp := r.qpMax } else c
    let c2 := if c1.skip.isNone && c1.squeeze.isSome && decide (left < s.proj g r o e c1.key b r.qpMax) then
      { c1 with skip := some b } else c1
    { c2 with band := b, bandSkip := c2.skip.isSome || (r.scale != 0 && s.rowsAbsent g r o b) }

/-- What the dispatch of an ENCODE_ROW task does at its session: band 0 starts a picture, with its buffer `fb` (R379, R385,
R388). -/
def State.encDispatch (s : State) (run : Nat) (t : TaskRec) (fb : Nat) : State :=
  match s.run? run with
  | none => s
  | some g =>
    let p := s.runPlan g
    match p.sessionRec t.session, p.outputRec t.ref, p.graphRec g.graph, s.sessNo g.conf g.bank t.session with
    | some r, some o, some d, some i =>
      let b := fld t.param 5 0
      let e := (s.sessAt i).enc
      let fresh := b == 0 || e.pic.isNone || (e.pic.map EncPic.inst) != some run
      let s := if !fresh then s
        else
          let c : EncPic := { s.newPic p g run i r o d e with fb := some fb }
          s.updEnc i fun e =>
            { e with
              pic := some c
              firstAt := some (e.firstAt.getD g.release)
              refresh := e.refresh && !c.key
              noRef := e.noRef && !c.key
              lastForced := if c.forced then some g.release else e.lastForced }
      let e := (s.sessAt i).enc
      match e.pic with
      | none => s
      | some c => s.updEnc i fun x => { x with pic := some (s.bandStart g r o e c b) }
    | _, _, _, _ => s

/-! ### The end of a picture (R384, R387, R389, R396) -/

/-- K after a picture: K + (K * A / E - K) / 4, rounded down, clamped to 2^-16 to 256 (R389, log entry 32). -/
def nextK (k a e : Nat) : Nat :=
  if e = 0 then k
  else
    let d : Int := ((k : Int) * a - k * e) / (4 * e)
    (max 256 (min ((k : Int) + d) (2 ^ 32))).toNat

/-- The encoder state after the last band of a picture has completed. -/
def EncState.endPic (e : EncState) (r : SessionRec) (c : EncPic) : EncState :=
  let e := { e with pic := none, last := c, pictures := e.pictures + 1, noRef := e.noRef || c.failed }
  if c.dropped then { e with sinceKey := e.sinceKey + 1 }
  else
    let h := (c.release, c.used) :: e.history.filter fun x => decide (c.release < x.1 + r.windowMs * 1000000)
    let k := nextK (if c.key then e.kKey else e.kInter) c.sumA c.sumE
    let e := { e with
      started := true, history := h
      kKey := if c.key then k else e.kKey
      kInter := if c.key then e.kInter else k
      q := if c.key then 1 else e.q + 1
      sinceKey := if c.key then 1 else e.sinceKey + 1 }
    if c.failed then { e with t0 := none, prev := none }
    else { e with prev := c.fb, t0 := if c.layer = 0 then c.fb else e.t0 }

/-- The reference buffers of an encode session after a picture: the one written is VALID, or SUSPECT after a failure; the
references keep the REF mark (R377, R384, R396). -/
def Sess.encRemark (x : Sess) (c : EncPic) : Sess :=
  { x with fbs := x.fbs.zipIdx.map fun p =>
      let b : Fb := if some p.2 = c.fb then
        { p.1 with st := if c.failed ∨ c.dropped then .suspect else .valid, count := x.enc.pictures }
        else p.1
      if b.st = .writing ∨ b.st = .free then b
      else ({ b with ref := b.st == .valid && (x.enc.t0 == some p.2 || x.enc.prev == some p.2) } : Fb).settle }

/-- The completion of an ENCODE_ROW task at its session: after the last band the picture ends (R388, R396). -/
def State.encBandEnd (s : State) (run : Nat) (t : TaskRec) (status : Nat) : State :=
  match s.run? run with
  | none => s
  | some g =>
    let p := s.runPlan g
    match p.sessionRec t.session, p.outputRec t.ref, s.sessNo g.conf g.bank t.session with
    | some r, some o, some i =>
      match (s.sessAt i).enc.pic with
      | none => if status = 2 then s.updEnc i fun e => { e with noRef := true } else s
      | some c =>
        if c.inst ≠ run then (if status = 2 then s.updEnc i fun e => { e with noRef := true } else s)
        else
          let c := { c with bandsDone := c.bandsDone + 1, failed := c.failed || status == 2 }
          if c.bandsDone < r.bandsR o then s.updEnc i fun e => { e with pic := some c }
          else (s.updEnc i fun e => e.endPic r c).updSess i fun x => x.encRemark c
    | _, _, _ => s

end Sys2Proof.Machine
end

