-- ==== Sys2Proof/Machine/DspOps.lean ====
section
/-! DEFINITION. DSP cores: context slots, the prologue and epilogue of a task, the advance from bundle to bundle with block
repeats, kernel faults and DMA (R279, R283, R286 to R289, R292, R295). -/

namespace Sys2Proof.Machine

/-- The DSP core `c`. -/
def State.dsp (s : State) (c : Nat) : DspCore := s.dsps.getD {} c

/-- Changes the DSP core `c`. -/
def State.updDsp (s : State) (c : Nat) (f : DspCore → DspCore) : State := { s with dsps := s.dsps.put c (f (s.dsp c)) }

/-- Context slot `k` of a core. -/
def DspCore.slot (c : DspCore) (k : Nat) : DspSlot := c.slots.getD k {}

/-- Changes context slot `k` of core `c`. -/
def State.updDspSlot (s : State) (c k : Nat) (f : DspSlot → DspSlot) : State :=
  s.updDsp c fun x => { x with slots := x.slots.modify k f }

/-- The slot that holds a task. -/
def DspCore.slotOf (c : DspCore) (t : Nat) : Option Nat := c.slots.findIdx? fun x => x.task == some t

/-- The first slot that holds no task. -/
def DspCore.freeSlot (c : DspCore) : Option Nat := c.slots.findIdx? fun x => x.task.isNone

/-- A task leaves its slot, which is cleared (R287, R292). -/
def DspCore.release (c : DspCore) (t : Nat) : DspCore :=
  match c.slotOf t with
  | none => c
  | some k =>
    { c with
      slots := c.slots.set k {}
      running := if c.running = some k then none else c.running
      suspended := c.suspended.filter fun j => j != k }

/-- A plan kernel enters a core's store of 128 KiB; the least recently used ones leave (R295). -/
def storeKernel (store : List (Nat × Nat × Nat)) (load kernel bytes : Nat) : List (Nat × Nat × Nat) :=
  let rest := store.filter fun x => !(x.1 == load && x.2.1 == kernel)
  let keep := rest.foldl (fun (a : List (Nat × Nat × Nat) × Nat) x =>
    if a.2 + x.2.2 ≤ 131072 then (a.1 ++ [x], a.2 + x.2.2) else (a.1, 131073)) ([], bytes)
  (load, kernel, bytes) :: keep.1

/-- Rounds up to a multiple of 16. -/
def up16 (n : Nat) : Nat := ceilDiv n 16 * 16

/-- The input statuses of a task, in input order (R258); an input that never completed reads as FAILED. -/
def Live.statuses (l : Live) : List Nat :=
  (List.range l.task.dep).map fun i => match l.inputs.find? i with | some x => x.1 | none => 2

/-- The session state that a task reads: the copy that the select bit names (R289). -/
def Sess.state (x : Sess) : FMap Word := if x.sel then x.copyB else x.copyA

/-- The lengths of the four windows of a task (R286). -/
def State.windowLens (s : State) (p : Plan) (l : Live) (stateBytes : Nat) : List Nat :=
  let ring := ((p.sessionRec l.task.session).map SessionRec.ringKib).getD 0
  let pred := fun (x : Nat × Nat × Nat × Nat) =>
    match s.live? x.2.2.1 with
    | none => 0
    | some q => if q.task.op = 5 then 4096 else 4096 * q.task.outBlocks
  [if l.task.op = 1 then ring * 1024 else (l.inputs.map pred).sum, 4096 * l.task.outBlocks,
   Config.auxWindow p.conf l.task.ref, stateBytes]

/-- The registers and local memory of a slot at a kernel's entry (R289). -/
def entrySlot (t : Nat) (l : Live) (kernel stateBytes footprint entry : Nat) (wins : List Nat) (st : FMap Word) :
    DspSlot :=
  let sts := l.statuses
  let d0 := ((sts.take 16).zipIdx.map fun p => p.1 * 4 ^ p.2).sum
  let bytes := wordsOfBytes sts
  let low := (List.range (stateBytes / 4)).foldl (fun (m : FMap Word) i => m.setD 0 i (st.getD 0 i)) []
  let ldm := bytes.zipIdx.foldl (fun (m : FMap Word) p => m.setD 0 (stateBytes / 4 + p.2) p.1) low
  { task := some t
    d := ([w32 d0, l.task.param, w32 l.task.dep] ++ wins.map w32) ++ List.replicate 25 0
    p := [0, BitVec.ofNat 17 (up16 (stateBytes + l.task.dep)), BitVec.ofNat 17 stateBytes] ++ List.replicate 13 0
    ldm := ldm, pc := entry, kernel := kernel, stateBytes := stateBytes, footprint := footprint, windows := wins }

/-- The prologue: the task takes slot `k` of core `c` and runs there (R287, R289, R295). -/
def State.dspStart (s : State) (c k t : Nat) : State :=
  match s.live? t with
  | none => s
  | some l =>
    let g := s.runOf l
    let p := s.runPlan g
    match p.kernelOf l.task.ref with
    | none => s
    | some info =>
      let st := match s.sessNo g.conf g.bank l.task.session with | some i => (s.sessAt i).state | none => []
      let rec? := p.kernels.find? fun x => x.kernel == l.task.ref
      let entry := match rec? with | some x => x.entry | none => Config.residentEntry l.task.ref
      let slot := entrySlot t l l.task.ref info.1 info.2.1 entry (s.windowLens p l info.1) st
      s.updDsp c fun x =>
        { x with
          slots := x.slots.set k slot
          running := some k
          suspended := match x.running with | some j => j :: x.suspended | none => x.suspended
          store := match rec? with
            | none => x.store
            | some y => storeKernel x.store g.loadNo y.kernel (4 * (y.code.length + y.consts.length)) }

/-- The epilogue of a task that ended OK or CONCEALED: the state area of the slot goes into the inactive copy, and the
select bit flips (R289); a state that was restarted meanwhile stays as it is (R318). -/
def State.dspWriteBack (s : State) (l : Live) (x : DspSlot) : State :=
  let g := s.runOf l
  match (s.sessNo g.conf g.bank l.task.session).filter fun i => (s.sessAt i).era == l.era with
  | none => s
  | some i =>
    let st := (List.range (x.stateBytes / 4)).foldl (fun (m : FMap Word) j => m.setD 0 j (x.ldm.getD 0 j)) []
    s.updSess i fun y => if y.sel then { y with copyA := st, sel := false } else { y with copyB := st, sel := true }

/-! ### Bundles (R280, R283) -/

/-- The next bundle: at the end of the innermost active body the loop is tested, then the one around it where both end on
that bundle (R283). -/
def nextBundle (pc : Nat) : List (BitVec 16 × BitVec 17 × BitVec 17) → Nat × List (BitVec 16 × BitVec 17 × BitVec 17)
  | [] => (pc + 16, [])
  | (n, a, e) :: r =>
    if pc = e.toNat then
      if 1 < n.toNat then (a.toNat, (n - 1, a, e) :: r) else nextBundle pc r
    else (pc + 16, (n, a, e) :: r)

/-- A slot after the bundle at its PC. -/
def DspSlot.advance (x : DspSlot) : DspSlot :=
  let a := nextBundle x.pc x.loops
  { x with pc := a.1, loops := a.2 }

/-- The task of a slot is to be aborted: its core ends it at the next bundle boundary (R288). -/
def State.aborting (s : State) (x : DspSlot) : Bool := x.task.any fun t => (s.live? t).any fun l => l.abortAt.isSome

/-- The number of a core's running slot, where it issues bundles: DCLK runs, and it is not stopped, stalled on DMA, waiting or at an
abort (R38, R286, R288). -/
def State.issuing (s : State) (c : Nat) : Option Nat :=
  match (s.dsp c).running with
  | none => none
  | some k =>
    let x := (s.dsp c).slot k
    if !s.portsRun || decide (143 < c) || x.stopped || x.stall.isSome || x.waitOn.isSome || s.aborting x then none else some k

/-- A kernel fault at the running slot of a core: the task ends FAILED at the faulting bundle (R292). -/
def State.kernelFault (s : State) (c : Nat) : State :=
  match (s.dsp c).running with
  | none => s
  | some k =>
    let x := (s.dsp c).slot k
    let s := s.updDspSlot c k fun x => { x with stopped := true }
    let s := match x.task with
      | none => s
      | some t => s.updLive t fun l => { l with reported := some 2 }
    s.fault 0x29 7 (instId 0 c) (w32 x.kernel) (w32 x.pc)

end Sys2Proof.Machine
end

