-- ==== Sys2Proof/Machine/SchedOps.lean ====
section
/-! DEFINITION. What the task scheduler's steps share: engine kinds, flows, ready lists, delay lists, leases, completions,
graph instances, fences (R251, R254 to R263, R270 to R273). -/

namespace Sys2Proof.Machine

/-! ### Engine kinds (R251, R266) -/

/-- The engine kind of an OP (R251). -/
def engKind (op : Nat) : Nat := if op ≤ 4 then 0 else if op = 5 then 1 else if op = 6 then 2 else if op = 7 then 3 else 4

/-- How many engine instances a kind has (R17, R453). -/
def engCount : Nat → Nat
  | 0 => 144 | 1 => 1 | 2 => 48 | 3 => 16 | 4 => 32 | _ => 0

/-- Whether an engine is in dispatch: not unavailable, not lent, and not under the test of the whole device (R37, R40, R269,
R272). -/
def State.engUsable (s : State) (kind i : Nat) : Bool :=
  !s.avail.down.has (instId kind i) && !s.avail.lent.has (instId kind i) && !s.underWholeTest kind i

/-- Tasks dispatched on an engine, suspended ones among them. -/
def State.engTasks (s : State) (kind i : Nat) : List (Nat × Live) :=
  s.sched.lives.filter fun p => p.2.st == .dispatched && p.2.kind == kind && p.2.eng == i

/-- Whether an engine other than a DSP core can take a task now (R266). -/
def State.engFree (s : State) (kind i : Nat) : Bool :=
  s.engUsable kind i && decide ((s.engTasks kind i).length < if kind = 1 then 16 else 1)

/-- Whether an idle DSP core can take a task of a priority: a suspended task of the same or a numerically lower priority
resumes first (R267). -/
def State.dspFree (s : State) (i prio : Nat) : Bool :=
  let c := s.dsp i
  s.engUsable 0 i && c.running.isNone && c.freeSlot.isSome
    && (s.engTasks 0 i).all fun p => decide (prio < p.2.task.prio)

/-- Whether an engine can take a task now. -/
def State.canTake (s : State) (kind i prio : Nat) : Bool := if kind = 0 then s.dspFree i prio else s.engFree kind i

/-- The engine that a ready task goes to: the one that last ran a task of its session, else the lowest free (R260). -/
def State.pickEngine (s : State) (kind prio : Nat) (sess : Option Nat) : Option Nat :=
  let last := sess.bind fun i => s.sched.lastEng.find? (kind * 2 ^ 40 + i)
  match last with
  | some i => if s.canTake kind i prio then some i else (List.range (engCount kind)).find? fun i => s.canTake kind i prio
  | none => (List.range (engCount kind)).find? fun i => s.canTake kind i prio

/-! ### Flows and ready lists (R260, R262) -/

/-- The device session of a live task. -/
def State.taskSess (s : State) (l : Live) : Option Nat :=
  let g := s.runOf l
  if l.task.session = 0xFFFF then none else s.sessNo g.conf g.bank l.task.session

/-- The flow of a task: odd keys for flows of device sessions, even ones for local flows of a bank (R262). -/
def State.flowKey (s : State) (l : Live) : Option Nat :=
  let g := s.runOf l
  if l.task.sessionFlow then (s.taskSess l).map fun i => 2 * i + 1
  else if l.task.flowValid then some (2 * ((g.conf * 2 + g.bank) * 65536 + l.task.flow))
  else none

/-- A Lantern record about a task. -/
def State.traceTask (s : State) (kind t arg : Nat) : State :=
  match s.live? t with
  | none => s
  | some l => s.trace kind l.task.prio l.kind l.eng l.status t (s.runOf l).conf arg

/-- Inserts a task among those that wait on a flow: by instance release, then INDEX (R262). -/
def State.insertWait (s : State) (t : Nat) (l : Live) : List Nat → List Nat
  | [] => [t]
  | u :: r =>
    match s.live? u with
    | none => t :: u :: r
    | some m =>
      if l.run < m.run ∨ (l.run = m.run ∧ l.task.index < m.task.index) then t :: u :: r
      else u :: State.insertWait s t l r

/-- A ready task waits on its busy flow (R262). -/
def State.waitFlow (s : State) (t key : Nat) (l : Live) : State :=
  let s := s.updSched fun x => { x with waits := x.waits.put key (s.insertWait t l (x.waits.getD [] key)) }
  ((s.updLive t fun l => { l with st := .flowWait }).countSched 10 1).traceTask 8 t (Config.deviceFlow key % 65536)

/-- Puts a task at the end of its ready list (R260). -/
def State.pushReady (s : State) (t : Nat) (l : Live) : State :=
  let k := engKind l.task.op * 8 + l.task.prio
  (s.updSched fun x => { x with ready := x.ready.put k (x.ready.getD [] k ++ [t]) }).updLive t fun l =>
    { l with st := .ready }

/-- A task becomes ready: onto its ready list, or onto its flow where that is busy (R258, R262, R276). -/
def State.makeReady (s : State) (t : Nat) : State :=
  match s.live? t with
  | none => s
  | some l =>
    let s := s.traceTask 2 t (l.inputs.countP fun p => p.2.1 == 2)
    match s.flowKey l with
    | none => s.pushReady t l
    | some k => if s.sched.flows.has k then s.waitFlow t k l else s.pushReady t l

/-- Removes a task from the ready lists and the flows' waits. -/
def Sched.unready (x : Sched) (t : Nat) : Sched :=
  { x with
    ready := x.ready.map fun p => (p.1, p.2.filter fun u => u != t)
    waits := x.waits.map fun p => (p.1, p.2.filter fun u => u != t)
    pinned := x.pinned.filter fun p => p.2 != t }

/-- The first task that waits on a free flow enters its ready list (R262). -/
def State.passFlow (s : State) (k : Nat) : State :=
  if s.sched.flows.has k then s
  else
    match s.sched.waits.getD [] k with
    | [] => s
    | u :: r =>
      let s := s.updSched fun x => { x with waits := x.waits.put k r }
      match s.live? u with
      | none => s
      | some m => s.pushReady u m

/-- A flow frees: its first waiting task enters its ready list (R262). -/
def State.freeFlow (s : State) (t : Nat) (l : Live) : State :=
  match s.flowKey l with
  | none => s
  | some k =>
    if s.sched.flows.find? k ≠ some t then s
    else (s.updSched fun x => { x with flows := x.flows.del k }).passFlow k

/-! ### Delay lists (R263) -/

/-- Inserts an entry by due instant; entries with the same instant keep their insertion order (R263). -/
def insertDue (due : Nat) (e : Due) : List (Nat × Due) → List (Nat × Due)
  | [] => [(due, e)]
  | (d, f) :: r => if due < d then (due, e) :: (d, f) :: r else (d, f) :: insertDue due e r

/-- Puts an entry into delay list `i`. -/
def State.putDue (s : State) (i due : Nat) (e : Due) : State :=
  s.updSched fun x => { x with lists := x.lists.modify i (insertDue due e) }

/-- Removes entries from the delay lists and from those taken. -/
def State.dropDue (s : State) (bad : Due → Bool) : State :=
  s.updSched fun x =>
    { x with lists := x.lists.map fun l => l.filter fun p => !bad p.2, dueQ := x.dueQ.filter fun e => !bad e.2 }

/-- Whether an entry is a timer of task `t`. -/
def Due.isTask (t : Nat) : Due → Bool
  | .budget u | .abort u => u == t
  | _ => false

/-- The release instant `k` of a TICK graph, ns of the launch clock (R254). -/
def GraphRec.instant (d : GraphRec) (k : Nat) : Nat := d.phase + k * d.num / d.den

/-- The first release number of a TICK graph at or after an instant (R114, R254). -/
def GraphRec.firstRelease (d : GraphRec) (t : Nat) : Nat :=
  let k0 := (t - d.phase) * d.den / d.num
  ((List.range 3).map (fun i => k0 - 1 + i)).find? (fun k => decide (t ≤ d.instant k)) |>.getD (k0 + 2)

/-! ### Leases (R270, R271) -/

/-- Grants a lease: the lowest free record, with its generation (R270, log entry 27). -/
def State.grant (s : State) (kind inst lkind object t pool : Nat) : Nat × State :=
  let n := ((List.range (s.sched.leases.length + 1)).find? fun k => !s.sched.leases.has k).getD 0
  let gen := s.sched.gens.getD 0 n
  let r : Lease := { ownerKind := kind, ownerInst := inst, kind := lkind, gen := gen, object := object, task := t
                     pool := pool }
  (n, s.updSched fun x => { x with leases := x.leases.put n r, gens := x.gens.put n ((gen + 1) % 256) })

/-- Ends the leases of a task of the kinds that a test picks. -/
def State.endLeases (s : State) (t : Nat) (which : Lease → Bool) : State :=
  s.updSched fun x => { x with leases := x.leases.filter fun p => !(p.2.task == t && which p.2) }

/-- Blocks of a bank's output pool in use: those of its CREDIT leases (R261). -/
def State.poolUsed (s : State) (pool : Nat) : Nat :=
  ((s.sched.leases.filter fun p => p.2.kind == 5 && p.2.pool == pool).map fun p => p.2.object).sum

/-- Blocks of a plan's output pool: the PLACEMENT regions of CLASS 1 (R106, R261). -/
def Plan.poolBlocks (p : Plan) : Nat := ((p.regions.filter fun r => r.cls == 1).map fun r => r.size / 4096).sum

/-! ### Packet records (R290) -/

/-- Whether a task's kernel writes packet records, whatever its OP: of the resident ones PKT_RTP and the encoders with PARAM bit 31;
of a plan kernel its code says so, in a way that the spec does not give (R290, R293, R296; log entry 44). -/
def TaskRec.packetises (p : Plan) (t : TaskRec) : Bool :=
  decide (t.op ≤ 4) && (t.ref == 0x10 || ([2, 5, 6, 8].contains t.ref && bitAt t.param 31)
    || (p.kernels.find? fun k => k.kernel == t.ref).any fun k => Config.codePacketises k.code)

/-- The payload bytes of a plaintext packet in a record, from its RTP header on, with CSRCs and extension skipped. -/
def recPayload (bs : List Nat) : List Nat :=
  let b0 := bs.getD 0 0
  let cc := b0 % 16
  let x := b0 / 16 % 2 = 1
  let off := 12 + 4 * cc
  let ext := if x then 4 + 4 * netNum [bs.getD (off + 2) 0, bs.getD (off + 3) 0] else 0
  let pad := if b0 / 32 % 2 = 1 then bs.getLast?.getD 0 else 0
  ((bs.drop (off + ext)).reverse.drop pad).reverse

/-- The FORMAT that a resident encode kernel writes (R182, R296). -/
def kernelFormat : Nat → Option Nat
  | 2 => some 1 | 5 => some 2 | 6 => some 3 | 8 => some 4
  | _ => none

/-- The FORMAT of a locally originated packet, which its record does not carry: for video that of the TYPE 3 session of its
SOURCE, for audio that of the resident encoder that wrote the packet or its task's input; else free (log entry 34). -/
def State.localFormat (s : State) (p : Plan) (l : Live) (source : Nat) (video : Bool) : Nat :=
  let open_ := Config.localFormat p.conf source
  if video then
    ((p.sessions.find? fun r => r.typ == 3 && r.source == source).map SessionRec.format).getD (5 + open_ % 3)
  else
    let before := l.inputs.filterMap fun x => s.live? x.2.2.1
    ((l :: before).findSome? fun q => if q.task.op ≤ 4 then kernelFormat q.task.ref else none).getD (1 + open_ % 4)

/-- T_REQ of a packet record, in units of 2^-16 ns of TB0 (R12, R290); zero for now. -/
def recLaunch (a b c : Word) : Nat :=
  let n := a.toNat + 2 ^ 32 * b.toNat + 2 ^ 64 * c.toNat
  n / 2 ^ 48 * (1000000000 * 65536) + n % 2 ^ 48

/-- Parses the packet records of window 1 from word `off` on: the records, the words used, and whether a malformed one
ended the list (R290). -/
def parseRecords (ws : FMap Word) (blocks : Nat) (mk : List Word → List Nat → LocalRec) :
    Nat → Nat → List LocalRec × Nat × Bool
  | 0, off => ([], off, false)
  | fuel + 1, off =>
    let w := fun i => ws.getD 0 (off + i)
    let len := fld (w 0) 10 0
    if 1024 * blocks < off + 8 ∨ len = 0 then ([], off, false)
    else if len < 12 ∨ 2016 < len ∨ fld (w 1) 31 11 ≠ 0 ∨ w 5 ≠ 0 ∨ w 6 ≠ 0 ∨ w 7 ≠ 0 ∨ 1024 * blocks < off + 8 + ceilDiv len 4
    then ([], off, true)
    else
      let bytes := (bytesOfWords ((List.range (ceilDiv len 4)).map fun i => w (8 + i))).take len
      let next := off + 8 + 4 * ceilDiv len 16
      let r := parseRecords ws blocks mk fuel next
      (mk ((List.range 8).map w) bytes :: r.1, r.2.1, r.2.2)

/-- A packet record as the ingress pipelines take it; PKT_RTP writes the SOURCE of its PARAM (R290, R296). -/
def State.localRec (s : State) (p : Plan) (l : Live) (t bank : Nat) (credit : Option Nat) (h : List Word) (bs : List Nat) :
    LocalRec :=
  let w0 := wordAt h 0
  let w1 := wordAt h 1
  let video := bitAt w0 11
  let source := if l.task.ref = 0x10 then fld l.task.param 15 0 else fld w0 31 16
  { task := t, credit := credit, conf := p.conf, bank := bank, source := source
    format := s.localFormat p l source video, audio := !video
    key := bitAt w1 0, sw := bitAt w1 1, sof := bitAt w1 2, v := bitAt w1 3, level := fld w1 10 4
    s := fld w0 13 12, t := fld w0 15 14
    marker := decide (128 ≤ bs.getD 1 0), seq := netNum ((bs.drop 2).take 2), ts := netNum ((bs.drop 4).take 4)
    ssrc := netNum ((bs.drop 8).take 4), payload := recPayload bs
    launch := recLaunch (wordAt h 2) (wordAt h 3) (wordAt h 4), at_ := s.now }

/-- The end of a task's output credit: its packets, where it wrote any with OK or CONCEALED, go to the ingress pipelines
of their sources' HOME and keep the blocks they fill (R22, R103, R261, R290). -/
def State.handPackets (s : State) (t : Nat) (l : Live) (status : Nat) : State :=
  let g := s.runOf l
  let p := s.runPlan g
  if status = 2 ∨ !l.task.packetises p then s.endLeases t fun x => x.kind == 5
  else
    let credit := (List.find? (fun (x : Nat × Lease) => x.2.task == t && x.2.kind == 5) s.sched.leases).map Prod.fst
    let r := parseRecords l.out l.blocks (s.localRec p l t g.bank credit) (90 * l.blocks) 0
    let s := if r.2.2 then s.countConf g.conf 11 1 else s
    match r.1 with
    | [] => s.endLeases t fun x => x.kind == 5
    | _ =>
      let s := s.updSched fun x => { x with leases := x.leases.map fun (y : Nat × Lease) =>
        if y.2.task == t && y.2.kind == 5 then (y.1, { y.2 with object := ceilDiv r.2.1 1024 }) else y }
      r.1.foldl (fun (s : State) (q : LocalRec) =>
        let home := match p.sources[q.source]? with | some d => d.home | none => 0
        { s with localQ := s.localQ.put home (s.localQ.getD [] home ++ [q]) }) s

/-- The task's window 1 with words written from its start, within its output blocks (R286, R290, R390). -/
def Live.withOut (l : Live) (ws : List Word) : Live :=
  { l with out := (ws.take (1024 * l.blocks)).zipIdx.foldl (fun (m : FMap Word) p => m.setD 0 p.2 p.1) l.out }

/-- The task's window 1 with the words its kernel wrote. -/
def Live.withRecords (l : Live) (records : List (List Word)) : Live := l.withOut records.flatten

/-! ### Completions (R256 to R258) -/

/-- What a completed task's successor entries do in an instance that has ended early: pairs are checked, no task becomes
ready (R117, R256, R258). -/
def State.walkDead (s : State) (l : Live) : State :=
  l.task.succ.foldl (fun (s : State) (e : Word × Word) =>
    if pairOk e.1 e.2 then s else (s.countSched 15 1).fenceConf (s.runOf l).conf 8 0) s

/-- Counts a completion and writes its Lantern record (R276, R278). -/
def State.noteComplete (s : State) (t status cycles : Nat) : State :=
  let s := s.updLive t fun l => { l with st := .completed, status := status }
  (s.countSched (5 + status) 1).traceTask 6 t (cycles / 64)

/-- An undispatched task of an instance that ends early completes FAILED without running (R256); the next task of its flow takes its
place in the ready lists (R262). -/
def State.failUndispatched (deadline : Bool) (s : State) (t : Nat) : State :=
  match s.live? t with
  | none => s
  | some l =>
    if l.st = .dispatched ∨ l.st = .completed then s
    else
      let s := s.updSched fun x => x.unready t
      let s := if deadline then (s.countSched 8 1).traceTask 9 t (s.runOf l).graph else s
      let s := (s.noteComplete t 2 0).walkDead l
      let s := if l.task.op = 9 then s.encBandEnd l.run l.task 2 else s
      if l.st = .ready then match s.flowKey l with | some k => s.passFlow k | none => s else s

/-- Bytes of a ring entry: a marker is 16 B, a payload its bytes and 16 B (R335, log entry 35). -/
def RingEntry.bytes (e : RingEntry) : Nat := if e.marker then 16 else 16 + e.data.length

/-- Bytes of an access unit in its ring. -/
def Au.ringBytes (a : Au) : Nat := (a.entries.map fun e => e.2.bytes).sum

/-- The access unit of an ARRIVAL instance leaves its session's ring (R335). -/
def State.dropAu (s : State) (c b session : Nat) (a : Au) : State :=
  match s.sessNo c b session with
  | none => s
  | some i => s.updSess i fun x => { x with ringBytes := x.ringBytes - a.ringBytes }

/-- The access unit of an instance that ends leaves its ring. -/
def State.freeAu (s : State) (g : GraphRun) : State :=
  match g.au, (s.runPlan g).graphRec g.graph with
  | some a, some d => s.dropAu g.conf g.bank d.session a
  | _, _ => s

/-- The live tasks of an instance return to the pool once all of them have completed (R256). -/
def State.finishRun (s : State) (r : Nat) : State :=
  match s.run? r with
  | none => s
  | some g =>
    if g.tasks.all fun t => ((s.live? t).map Live.st) == some TaskSt.completed then
      let s := (s.freeAu g).dropDue fun e => e == .deadline r
      s.updSched fun x =>
        { x with runs := x.runs.del r, lives := x.lives.filter fun p => !g.tasks.contains p.1 }
    else s

/-- An instance ends early (R256). -/
def State.endRun (s : State) (r : Nat) (deadline : Bool) : State :=
  match s.run? r with
  | none => s
  | some g =>
    g.tasks.foldl (State.failUndispatched deadline) s

/-- The live task of INDEX `i` in an instance. -/
def State.liveOf (s : State) (g : GraphRun) (i : Nat) : Option Nat :=
  g.tasks.find? fun t => ((s.live? t).map fun l => l.task.index) == some i

/-- One successor entry of a completed task: `block` is the entry's number (R117, R258, R298). -/
def State.succEntry (pred : Nat) (l : Live) (status : Nat) (s : State) (p : (Word × Word) × Nat) : State :=
  let e := p.1
  if !pairOk e.1 e.2 then
    let g := s.runOf l
    ((s.countSched 15 1).fenceConf g.conf 8 0).endRun l.run false
  else
    match (s.run? l.run).bind fun g => s.liveOf g (fld e.1 11 0) with
    | none => s
    | some u =>
      match s.live? u with
      | none => s
      | some m =>
        if m.st = .completed then s
        else
          let blk := if l.task.op = 5 then p.2 else 0
          let s := s.updLive u fun m =>
            { m with inputs := m.inputs.put (fld e.1 23 12) (status, pred, blk), counter := m.counter - 1 }
          if m.counter = 1 then s.makeReady u else s

/-- SELFTEST's drain of an engine ends when it is idle: its test starts (R269). -/
def State.drained (s : State) (kind i : Nat) : State :=
  match s.avail.lent.find? (instId kind i) with
  | none => s
  | some x =>
    if x.started.isSome ∨ !(s.engTasks kind i).isEmpty then s
    else { s with avail := { s.avail with lent := s.avail.lent.put (instId kind i) { x with started := some s.now } } }

/-- An audio decode task that completed OK or CONCEALED has taken the entries that its ring held at its dispatch (R286, log
entry 35). -/
def State.takeRing (s : State) (l : Live) (st : Nat) : State :=
  if l.task.op ≠ 1 ∨ st = 2 then s
  else
    match s.taskSess l with
    | none => s
    | some i => s.updSess i fun x => if x.era ≠ l.era then x else
        { x with ring := x.ring.drop l.ringAt, ringBytes := ((x.ring.drop l.ringAt).map RingEntry.bytes).sum }

/-- The end of a dispatched task's hold on its engine, buffers and leases, with status `st` (R261, R271). -/
def State.endHold (s : State) (t : Nat) (l : Live) (st : Nat) : State :=
  let s := if l.kind = 0 then s.updDsp l.eng fun c => c.release t else s
  let s := if l.task.op = 9 ∧ st ≠ 2 then s else l.bufs.foldl (fun (s : State) b => s.endWrite st b) s
  let s := (l.held.foldl State.unreadFb s).takeRing l st
  let s := (s.handPackets t l st).endLeases t fun x => x.kind != 5
  (s.freeFlow t l).dropDue (Due.isTask t)

/-- A completion that the scheduler accepts (R257, R258): the task's leases end, its flow frees, and its successors are
walked. -/
def State.completeTask (s : State) (t st cycles : Nat) : State :=
  match s.live? t with
  | none => s
  | some l =>
    if l.st = .completed then s
    else
      let s := s.noteComplete t st cycles
      let s := if l.task.op = 9 then s.encBandEnd l.run l.task st else s
      let s := s.endHold t l st
      let s := l.task.succ.zipIdx.foldl (State.succEntry t l st) s
      (s.drained l.kind l.eng).finishRun l.run

/-! ### Releases (R254, R255) -/

/-- The lowest live task numbers that are free (R255, log entry 27). -/
def State.freeLives (s : State) (n : Nat) : List Nat :=
  ((List.range (s.sched.lives.length + n)).filter fun k => !s.sched.lives.has k).take n

/-- The selected set and rank holders last published before a release: one on the edge of a publication uses the earlier (R316). -/
def Conf.setAt (g : Conf) (release : Nat) : List Nat × FMap Nat :=
  if g.pubAt < release then (g.selected, g.ranks) else g.prevSel

/-- Counts a release for each bus that the graph serves, and gives the counts; the count of a bus begins with its first instance
(R304). -/
def State.countFrames (s : State) (c b : Nat) (d : GraphRec) (made : Bool) : State × FMap Nat :=
  (d.tasks.filter fun t => t.op == 5).foldl (fun (x : State × FMap Nat) t =>
    match x.1.busNo c b t.ref with
    | none => x
    | some i =>
      match (match (x.1.buses.getD {} i).rel with | some k => some (k + 1) | none => if made then some 0 else none) with
      | none => x
      | some k => (x.1.updBus i fun y => { y with rel := some k }, x.2.put t.ref k)) (s, [])

/-- A release creates a graph instance, or is skipped with MAX_INSTANCES live (R255, R276). -/
def State.release (s : State) (c b : Nat) (d : GraphRec) (k instant : Nat) (au : Option Au) : State :=
  let p := s.planD c b
  let liveRuns := s.sched.runs.countP fun x => x.2.conf == c && x.2.bank == b && x.2.loadNo == p.loadNo
    && x.2.graph == d.graph
  if d.maxInst ≤ liveRuns then ((s.countFrames c b d false).1.countSched 1 1).trace 13 0 7 0 0 0x3FFFF c d.graph
  else
    let ks := s.countFrames c b d true
    let s := ks.1
    let set := (s.conf c).setAt instant
    let r := s.sched.nextRun
    let ids := s.freeLives d.tasks.length
    let g : GraphRun :=
      { conf := c, bank := b, loadNo := p.loadNo, graph := d.graph, k := k, release := instant, tasks := ids, au := au
        selected := set.1, ranks := set.2, busK := ks.2 }
    let lives := (ids.zip d.tasks).foldl (fun (m : FMap Live) x =>
      m.put x.1 { run := r, task := x.2, counter := x.2.dep, kind := engKind x.2.op }) s.sched.lives
    let s := s.updSched fun x => { x with nextRun := r + 1, runs := x.runs.put r g, lives := lives }
    let s := (s.countSched 0 1).trace 1 0 7 0 0 0x3FFFF c d.graph
    let s := s.putDue 2 (instant + d.deadlineUs * 1000) (.deadline r)
    (ids.zip d.tasks).foldl (fun (s : State) x => if x.2.dep = 0 then s.makeReady x.1 else s) s

/-- Whether releases take place in the mode in force (R255). -/
def State.releases (s : State) : Bool :=
  match s.modes.mode with
  | .service | .degraded | .drain | .maintenance | .throttle => true
  | _ => false

/-- A complete access unit releases the ARRIVAL graph of its session (R254, R255). -/
def State.releaseAu (s : State) (c b session : Nat) (a : Au) : State :=
  match (s.planD c b).graphs.find? fun d => d.arrival && d.session == session with
  | none => s
  | some d =>
    let t := if s.releases then s.release c b d 0 s.launchNs (some a) else s
    if t.sched.nextRun = s.sched.nextRun then t.dropAu c b session a else t

/-! ### Fences (R272) -/

/-- One lease revoked: counted and traced (R272, R276). -/
def State.noteRevoke (s : State) (t lkind : Nat) : State := (s.countSched 13 1).traceTask 12 t lkind

/-- The kinds of the leases held for task `t`, of those that a test picks. -/
def State.leaseKinds (s : State) (t : Nat) (which : Nat → Bool) : List Nat :=
  (s.sched.leases.filter fun (x : Nat × Lease) => x.2.task == t && which x.2.kind).map fun x => x.2.kind

/-- Notes and ends the leases of task `t` of the kinds that a test picks. -/
def State.revokeKinds (s : State) (t : Nat) (which : Nat → Bool) : State :=
  ((s.leaseKinds t which).foldl (fun (s : State) k => s.noteRevoke t k) s).endLeases t fun x => which x.kind

/-- Step 3 of R272 for a task: every buffer held under its FB_WRITE leases is SUSPECT. -/
def State.revokeWrites (s : State) (t : Nat) : State :=
  match s.live? t with
  | none => s
  | some l =>
    let s := (s.revokeKinds t fun k => k == 3)
    (l.bufs.foldl (fun (s : State) b => s.endWrite 2 b) s).updLive t fun l => { l with bufs := [] }

/-- Step 4 of R272 for a task: the FAILED completion of its TASK lease, delivered to its successors. -/
def State.revokeCompletion (s : State) (t : Nat) : State :=
  match s.live? t with
  | none => s
  | some l =>
    let s := (s.revokeKinds t fun k => k == 1).noteComplete t 2 0
    let s := if l.task.op = 9 then s.encBandEnd l.run l.task 2 else s
    l.task.succ.zipIdx.foldl (State.succEntry t l 2) s

/-- Step 5 of R272 for a task: its FLOW lease. -/
def State.revokeFlow (s : State) (t : Nat) : State :=
  match s.live? t with
  | none => s
  | some l => (s.revokeKinds t fun k => k == 2).freeFlow t l

/-- Step 6 of R272 for a task: its FB_READ and CREDIT leases; it has left its engine. -/
def State.revokeRest (s : State) (t : Nat) : State :=
  match s.live? t with
  | none => s
  | some l =>
    let s := l.held.foldl State.unreadFb (s.revokeKinds t fun _ => true)
    let s := if l.kind = 0 then s.updDsp l.eng fun c => c.release t else s
    (s.dropDue (Due.isTask t)).drained l.kind l.eng

/-- Revokes the leases of dispatched tasks, in the order of steps 3 to 6 of R272; every one of them completes FAILED (R271). -/
def State.revokeTasks (s : State) (ts : List Nat) : State :=
  let ts := ts.filter fun t => ((s.live? t).map Live.st) == some TaskSt.dispatched
  let runs := (ts.filterMap fun t => (s.live? t).map Live.run).eraseDups
  let s := ts.foldl State.revokeWrites s
  let s := ts.foldl State.revokeCompletion s
  let s := ts.foldl State.revokeFlow s
  let s := ts.foldl State.revokeRest s
  runs.foldl State.finishRun s

/-- Revokes the leases of one dispatched task (R273). -/
def State.revokeTask (s : State) (t : Nat) : State := s.revokeTasks [t]

/-- A SELFTEST ends with its instance's failure (R460): SELFTEST_FAIL, and the response with PASS 0 and DETAIL. -/
def State.selftestFailed (s : State) (id cmd detail : Nat) : State :=
  let s := s.fault 0x2B 7 id (w32 detail) 0
  match s.welmus.taken.find? cmd with
  | none => s
  | some c => s.finish cmd c rOk 7 (fld (c.w 3) 20 0) [w32 (256 * detail)]

/-- Fences an engine (R32, R272): its reset line held, its leases revoked, the record of its cause (0x28). An engine that was
lent fails its self-test too (R460). -/
def State.fenceEngine (s : State) (kind i cause task : Nat) : State :=
  let id := instId kind i
  let s := s.instanceDown kind i true
  let s := { s with avail := { s.avail with fences := s.avail.fences.put id (s.now :: s.avail.fences.getD [] id) } }
  let s := (s.countSched 12 1).trace 11 0 kind i 0 0x3FFFF 0xFFFF (kind * 4096 + i)
  let s := s.revokeTasks ((s.engTasks kind i).map Prod.fst)
  let s := if kind = 0 then { s with dsps := s.dsps.del i } else s
  let s := s.fault 0x28 7 id (w32 cause) (w32 task)
  match s.avail.lent.find? id with
  | none => s
  | some x =>
    let s := { s with avail := { s.avail with
      lent := s.avail.lent.del id, down := s.avail.down.put id { since := s.now, held := false } } }
    s.selftestFailed id x.cmd 3

end Sys2Proof.Machine
end

