-- ==== Sys2Proof/Machine/Audio.lean ====
section
/-! DEFINITION. The audio engine: converters, DC blockers, gates, mixing, scales, crossfades, gain steps and tap blocks, and
the commands ROUTE_SET (audio) and GAIN_SET (R297 to R327). -/

namespace Sys2Proof.Machine

/-! ### Rounding (R302, R305, R310) -/

/-- A quotient rounded to nearest, ties to even. -/
def roundEven (a : Int) (d : Nat) : Int :=
  let q := a / (d : Int)
  let r := a - q * d
  if (d : Int) < 2 * r ∨ (2 * r = d ∧ q % 2 = 1) then q + 1 else q

/-- Saturation to Q1.23, and whether it changed the value. -/
def sat24 (v : Int) : Int × Bool :=
  if (2 : Int) ^ 23 - 1 < v then (2 ^ 23 - 1, true) else if v < -(2 ^ 23) then (-(2 ^ 23), true) else (v, false)

/-- Saturated samples and how many changed. -/
def sat24s (vs : List Int) : List Int × Nat := (vs.map fun v => (sat24 v).1, vs.countP fun v => (sat24 v).2)

/-! ### Converters (R301 to R303) -/

/-- Sample rate in Hz of a rate code (R297). -/
def rateHz : Nat → Nat
  | 0 => 8000 | 1 => 16000 | _ => 48000

/-- Group delay of a conversion in units of 0.5 ms (R301). -/
def groupDelay (a b : Nat) : Nat := if a = b then 0 else if a + b = 3 then 3 else 6

/-- Taps of a conversion's filter (R301). -/
def firTaps (a b : Nat) : Nat := if a + b = 2 then 289 else if a + b = 3 then 145 else 97

/-- The phases of a conversion's filter: an interpolator has one for each sample it makes of one (R301). -/
def firPhases (a b : Nat) : Nat := if a < b then rateHz b / rateHz a else 1

/-- Tap `i` of the symmetric filter whose first half is in ROM (R301). -/
def firProto (a b i : Nat) : Int :=
  let n := firTaps a b
  if i < n then (Config.firRom a b (min i (n - 1 - i))).toInt else 0

/-- The sum of phase `p` of a filter, 2^23 being a DC gain of exactly 1 (R301). -/
def phaseSum (a b : Nat) (h : Nat → Int) (p : Nat) : Int :=
  ((List.range (ceilDiv (firTaps a b) (firPhases a b))).map fun j => h (p + firPhases a b * j)).sum

/-- A symmetric filter whose phases have a DC gain of exactly 1: what stands in for a ROM whose phases do not (log entry 5). -/
def firPlain (a b i : Nat) : Int :=
  let c := firTaps a b / 2
  let l := firPhases a b
  if i = c then 2 ^ 22 else if i + l = c ∨ c + l = i then 2 ^ 21 else if i < c + l ∧ c < i + l then 2 ^ 22 else 0

/-- The filter of a conversion: symmetric, in 24 bits, and each phase of an interpolator with a DC gain of exactly 1 (R301). -/
def firFilter (a b i : Nat) : Int :=
  if a < b ∧ ¬ (List.range (firPhases a b)).all (fun p => phaseSum a b (firProto a b) p == 2 ^ 23) then firPlain a b i
  else firProto a b i

/-- Coefficient `j` of phase `p` of a conversion (R301). -/
def firCoeff (a b p j : Nat) : Int := firFilter a b (p + firPhases a b * j)

/-- Sample `i` of a frame whose history, newest first, is `hist`; negative indices reach into the history. -/
def sampleAt (hist xs : List Int) (i : Int) : Int :=
  if 0 ≤ i then xs.getD i.toNat 0 else hist.getD (-i - 1).toNat 0

/-- The exact sum of phase `p` of a conversion at input sample `i` (R302). -/
def firSum (a b p taps : Nat) (hist xs : List Int) (i : Nat) : Int :=
  ((List.range taps).map fun j => firCoeff a b p j * sampleAt hist xs ((i : Int) - j)).sum

/-- A conversion of one frame: the samples out, saturated, how many saturated, and the history after it (R301, R302). The
samples a decimator keeps are those at whole multiples of the ratio (log entry 5). -/
def convert (a b : Nat) (hist xs : List Int) : List Int × Nat × List Int :=
  let h := (xs.reverse ++ hist).take 288
  if a = b then (xs, 0, hist)
  else
    let n := firTaps a b
    let raw := if a < b then
        let l := rateHz b / rateHz a
        (List.range xs.length).flatMap fun i => (List.range l).map fun p => firSum a b p (ceilDiv n l) hist xs i
      else
        let m := rateHz a / rateHz b
        (List.range (xs.length / m)).map fun i => firSum a b 0 n hist xs (i * m)
    let r := sat24s (raw.map fun v => roundEven v (2 ^ 23))
    (r.1, r.2, h)

/-- A delay line of `n` samples, newest first (R303). -/
def delayLine (n : Nat) (line xs : List Int) : List Int × List Int :=
  ((List.range xs.length).map fun (i : Nat) => sampleAt line xs ((i : Int) - n), (xs.reverse ++ line).take n)

/-! ### DC blocker (R305, R306) -/

/-- The shift of the DC estimate at a source rate (R305). -/
def dcShift : Nat → Nat
  | 2 => 9 | 1 => 7 | _ => 6

/-- One frame through the DC blocker: `d` in units of 2^-39, held where frozen (R305, R306). -/
def dcBlock (rate : Nat) (frozen : Bool) (d : Int) (xs : List Int) : List Int × Int :=
  let r := xs.foldl (fun (a : List Int × Int) x =>
    let e := x * 65536 - a.2
    ((sat24 (roundEven e 65536)).1 :: a.1, if frozen then a.2 else a.2 + e / 2 ^ dcShift rate)) ([], d)
  (r.1.reverse, r.2)

/-- The mean of a frame in units of 2^-39, rounded down (R306, log entry 32). -/
def frameMean (xs : List Int) : Int := if xs.isEmpty then 0 else xs.sum * 65536 / (xs.length : Int)

/-! ### Columns of a frame (R299, R300, R317, R318) -/

/-- What a column is in a frame: its status (0 OK, 1 CONCEALED, 2 absent), whether it is mixed, its ramp (0 none, 1 in, 2
out), its aligned samples, and whether it has a signal to test for a crossing. -/
structure ColFrame where
  status : Nat := 2
  mixed : Bool := false
  ramp : Nat := 0
  x : List Int := []
  tests : Bool := false
  sat : Nat := 0
  st : ColState := {}

/-- The samples of an audio frame block at block `b` of a task's output, where its SAMPLES and RATE are those of a rate
(R299, R300). -/
def blockSamples (out : FMap Word) (b rate : Nat) : Option (List Int) :=
  let h := out.getD 0 (1024 * b)
  if fld h 9 0 ≠ frameLen rate ∨ fld h 11 10 ≠ rate then none
  else some ((List.range (frameLen rate)).map fun i =>
    ((out.getD 0 (1024 * b + 16 + i)).setWidth 24 : BitVec 24).toInt)

/-- The input of column `c`: its status and samples (R258, R300). -/
def State.columnInput (s : State) (l : Live) (rate c : Nat) : Nat × List Int :=
  match l.inputs.find? c with
  | none => (2, [])
  | some i =>
    if 2 ≤ i.1 then (2, [])
    else
      match (s.live? i.2.1).bind fun q => blockSamples q.out i.2.2 rate with
      | none => (2, [])
      | some xs => (i.1, xs)

/-- One column's frame: gate, DC blocker, converter and delay line (R300 to R306, R317, R318). -/
def columnFrame (g : GraphRun) (bus : BusRec) (dIn : Nat) (started : Bool) (rec : Column) (old : ColState)
    (inp : Nat × List Int) : ColFrame :=
  let f := frameLen rec.srcRate
  let holder := rec.rank.bind fun r => g.ranks.find? r
  let gatedNow := (rec.select && !g.selected.contains rec.source) || (rec.rank.isSome && holder.isNone)
  let entered := started && ((rec.select && old.gated && !gatedNow) || (rec.rank.isSome && holder.isSome && old.holder != holder))
  let left := started && rec.select && !old.gated && gatedNow
  let ramp := if entered then 1 else if left then 2 else 0
  let absent := inp.1 == 2
  let feeds := !absent && (!gatedNow || left)
  let zeros := List.replicate f (0 : Int)
  let dc0 := match old.dc with
    | some d => some d
    | none => if rec.dcEn && inp.1 == 0 then some (frameMean inp.2) else none
  let blocked := if rec.dcEn then dcBlock rec.srcRate (inp.1 != 0 || gatedNow) (dc0.getD 0) inp.2 else (inp.2, 0)
  let xs := if feeds then blocked.1 else zeros
  let conv := convert rec.srcRate bus.rate old.hist xs
  let n := (dIn - groupDelay rec.srcRate bus.rate) * (rateHz bus.rate / 2000)
  let al := delayLine n old.delay conv.1
  { status := inp.1, mixed := !gatedNow || left, ramp := ramp, x := al.1
    tests := !absent && !gatedNow && ramp != 1 || (left && !absent)
    sat := conv.2.1
    st := { hist := conv.2.2, delay := al.2, dc := if rec.dcEn then (dc0.map fun _ => blocked.2) else dc0
            gated := gatedNow, holder := holder, lastX := al.1.getLast?.getD 0 } }

/-! ### Gains (R323 to R325) -/

/-- The first sample at which an aligned signal is zero or changes sign (R324). -/
def crossing (last : Int) (xs : List Int) : Option Nat :=
  let neg := fun (x : Int) => decide (x < 0)
  (List.range xs.length).find? fun n =>
    let x := xs.getD n 0
    let p := if n = 0 then last else xs.getD (n - 1) 0
    x == 0 || neg p != neg x

/-- The step of a pending gain in a frame: its sample, and whether the timeout gave it (R324). -/
def gainStep (c : ColFrame) (last : Int) (release : Nat) (p : Word × Nat × Nat) : Option (Nat × Bool) :=
  if p.2.1 ≤ release then some (0, true)
  else if !c.tests then some (0, false)
  else (crossing last c.x).map fun n => (n, false)

/-- A GAIN override value: GAIN 0x80000000 clears (R323). -/
def gainValue (v : Word) : Option Int := if v = 0x80000000 then none else some v.toInt

/-- The gain of a column in a route at sample `n`: zero where the route does not list it or its coefficient fails its pair
(R117, R322, R323). -/
def gainAt (r : Resolved) (col : Nat) (ov : Option Int) (step : Option Nat) (new : Option Int) (n : Nat) : Int :=
  match List.find? (fun (x : Nat × Word × Word) => x.1 == col) r.coeffs with
  | none => 0
  | some x =>
    if !pairOk x.2.1 x.2.2 then 0
    else
      let o := match step with | some k => if k ≤ n then new else ov | none => ov
      o.getD x.2.1.toInt

/-! ### Routes (R320 to R322) -/

/-- An audio route of a bus by its number, with its coefficients. -/
def Plan.resolved (p : Plan) (b : BusRec) (ref : Nat) : Resolved :=
  match p.routes.find? fun r => r.ref == ref && r.bus == b.bus with
  | some r => { ref := ref, coeffs := r.coeffs }
  | none => { ref := ref }

/-- The DEFAULT_ROUTE of a bus; none where its reference fails its pair (R117, R320). -/
def Plan.defaultRoute (p : Plan) (b : BusRec) : Option Resolved :=
  if pair16Ok b.route then some (p.resolved b (fld b.route 15 0)) else none

/-- The audio route in force on a bus under a plan: its override's, else its DEFAULT_ROUTE (R320). -/
def State.routeInForce (s : State) (p : Plan) (b : BusRec) : Option Resolved :=
  match (s.conf p.conf).routeOv.find? b.bus with
  | some ref => some (p.resolved b ref)
  | none => p.defaultRoute b

/-- Starts the crossfade that a bus waits for, at the first frame released after its instant (R321). -/
def BusState.enter (b : BusState) (rate release : Nat) (now : Resolved) : BusState :=
  match b.asked with
  | none => if b.xfade.isSome then b else { b with route := now }
  | some a =>
    let due := if a.2.2 then decide (a.2.1 ≤ release) else decide (a.2.1 < release)
    if !due then b
    else
      { b with
        asked := none
        xfade := some { m := a.1 * rateHz rate / 1000, old := b.route, new := now }
        route := now
        taps := b.taps.map fun t => { t with scaleOld := t.scale, scale := none } }

/-! ### One frame (R310 to R312, R321) -/

/-- A frame's data for the sums: columns with gains. -/
structure MixIn where
  f : Nat
  cols : List ColFrame
  steps : List (Option Nat)
  ovs : List (Option Int × Option Int)

/-- The term of column `c` in a route's sum at sample `n`, times F (R310). -/
def MixIn.term (m : MixIn) (r : Resolved) (c n : Nat) : Int :=
  let q := m.cols.getD c {}
  if !q.mixed then 0
  else
    let o := m.ovs.getD c (none, none)
    let k : Int := if q.ramp = 1 then n + 1 else if q.ramp = 2 then (m.f : Int) - n - 1 else m.f
    gainAt r c o.1 (m.steps.getD c none) o.2 n * k * q.x.getD n 0

/-- The sum of a route at sample `n`, times F, without column `minus` (R310). -/
def MixIn.sum (m : MixIn) (r : Resolved) (minus n : Nat) : Int :=
  ((List.range m.cols.length).map fun c => if c = minus then 0 else m.term r c n).sum

/-- Whether a column is active in a route (R311). -/
def MixIn.active (m : MixIn) (v : List Bool) (r : Resolved) (c : Nat) : Bool :=
  let q := m.cols.getD c {}
  let o := m.ovs.getD c (none, none)
  decide (q.status < 2) && q.mixed && q.ramp != 2 && v.getD c false
    && gainAt r c o.1 (m.steps.getD c none) o.2 0 != 0

/-- The active count of a tap in a route (R311). -/
def MixIn.count (m : MixIn) (v : List Bool) (r : Resolved) (minus : Nat) : Nat :=
  (List.range m.cols.length).countP fun c => c != minus && m.active v r c

/-- The scale index of an active count (R311). -/
def scaleIdx (n : Nat) : Nat := if n ≤ 1 then 0 else Nat.clog 2 n

/-- The exact value of a tap in a route at sample `n`, times F * F * 2^60 in units of 2^-23 (R310, R312). -/
def MixIn.value (m : MixIn) (r : Resolved) (minus fPrev fNew n : Nat) : Int :=
  m.sum r minus n * (((m.f : Int) - n - 1) * fPrev + (n + 1) * fNew)

/-- The samples of a tap at bus rate, before saturation (R310, R321). -/
def MixIn.tapSamples (m : MixIn) (minus : Nat) (cur : Resolved) (x : Option Xfade) (fs : Nat × Nat) (fo : Nat × Nat) :
    List Int :=
  let d := m.f * m.f * 2 ^ 60
  (List.range m.f).map fun n =>
    match x with
    | none => roundEven (m.value cur minus fs.1 fs.2 n) d
    | some x =>
      let k := x.n + n
      if x.m ≤ k then roundEven (m.value x.new minus fs.1 fs.2 n) d
      else
        let a := m.value x.old minus fo.1 fo.2 n
        let b := m.value x.new minus fs.1 fs.2 n
        roundEven (((x.m : Int) - k - 1) * a + (k + 1) * b) (x.m * d)

/-- RTP_TS of a tap block (R304): `corr` is the correction in units of 0.5 ms. -/
def tapTs (base k clock corr : Nat) : Nat :=
  (((base : Int) + k * (rateHz clock / 100) - corr * (rateHz clock) / 2000) % 2 ^ 32).toNat

/-- The words of a tap block (R299). -/
def tapBlock (rate ts level sat : Nat) (v : Bool) (xs : List Int) : List Word :=
  [w32 (frameLen rate + 1024 * rate + 4096 * b2n v + 8192 * level), w32 ts, w32 (min sat 65535)]
    ++ List.replicate 13 0 ++ xs.map wInt

/-- What one tap gives: its block, its state, and the samples saturated in the sum and in its converter. -/
structure TapOut where
  block : List Word
  st : TapState
  sat : Nat
  conv : Nat

/-- One tap of a frame (R299, R304, R310 to R312). `silent` is a frame whose route reference failed. -/
def tapFrame (m : MixIn) (bus : BusRec) (b : BusState) (p : Plan) (v : List Bool) (dIn k : Nat) (silent : Bool) (t : Tap)
    (st : TapState) : TapOut :=
  let cur := match b.xfade with | some x => x.new | none => b.route
  let n := m.count v cur t.minus
  let fNew := p.mix.scaling.getD (scaleIdx n) 0
  let oldR := match b.xfade with | some x => x.old | none => b.route
  let foNew := p.mix.scaling.getD (scaleIdx (m.count v oldR t.minus)) 0
  let raw := if silent then List.replicate m.f 0
    else m.tapSamples t.minus cur b.xfade (st.scale.getD fNew, fNew) (st.scaleOld.getD foNew, foNew)
  let y := sat24s raw
  let c := convert bus.rate t.outRate st.hist y.1
  let corr := dIn + groupDelay bus.rate t.outRate
  { block := tapBlock t.outRate (tapTs st.tsBase k t.clock corr) (Config.audioLevel c.1).toNat y.2 (decide (1 ≤ n)) c.1
    st := { st with hist := c.2.2, scale := some fNew, scaleOld := some foNew }
    sat := y.2, conv := c.2.1 }

/-- The end of a frame for a crossfade: its samples are done. A frame's samples take its 10 ms from the release on, so a crossfade
runs until sample M - 1 has passed: in the spec's example one of 10 ms, released at 30.050, still runs at 35.000 (DEDUCED, R320,
R321, log entry 128). -/
def BusState.leave (b : BusState) (f rate release : Nat) : BusState :=
  match b.xfade with
  | none => { b with taps := b.taps.map fun t => { t with scaleOld := none } }
  | some x =>
    { b with xfade := some { x with
        n := x.n + f
        ends := if x.m ≤ x.n + f then some (release + (x.m - x.n) * 1000000000 / rateHz rate) else none } }

/-- V of a column: from its source's level-table entry, or its rank holder's, or 1; an entry older than 60 ms at the last media tick
reads as V 0 (R311, R314). -/
def State.columnV (s : State) (c : Nat) (g : GraphRun) (r : Column) : Bool :=
  let src := match r.rank with
    | some k => g.ranks.find? k
    | none => if r.source = 0xFFFF then none else some r.source
  match src with
  | none => true
  | some x =>
    match (s.conf c).levels.find? x with
    | none => false
    | some e => e.2.1 && decide ((s.conf c).lastTick.getD 0 / 1000 ≤ e.2.2 + 60000)

/-- Draws TS_BASE for `n` taps (R304). -/
def State.drawMany (s : State) : Nat → List Nat × State
  | 0 => ([], s)
  | n + 1 =>
    let a := s.draw
    let r := a.2.drawMany n
    (a.1.toNat :: r.1, r.2)

/-- The bus's state at its first frame (R304, R326). -/
def State.startBus (s : State) (i : Nat) (bus : BusRec) : State :=
  if (s.buses.getD {} i).started then s
  else
    let d := s.drawMany bus.taps.length
    d.2.updBus i fun b =>
      { b with
        started := true
        cols := if b.cols.isEmpty then bus.columns.map fun _ => {} else b.cols
        taps := d.1.map fun t => { tsBase := t } }

/-- Applies the gain steps of a frame: overrides change, pending values go, the counters count (R323, R324). -/
def State.applySteps (s : State) (c bus : Nat) (steps : List (Option (Nat × Bool))) : State :=
  steps.zipIdx.foldl (fun (s : State) (p : Option (Nat × Bool) × Nat) =>
    match p.1, (s.conf c).gainPend.find? (bus * 65536 + p.2) with
    | some st, some v =>
      let key := bus * 65536 + p.2
      let s := s.updConf c fun g =>
        { g with gainPend := g.gainPend.del key
                 gainOv := if v.1 = 0x80000000 then g.gainOv.del key else g.gainOv.put key v.1 }
      s.countConf c (if st.2 then 6 else 5) 1
    | _, _ => s) s

/-- Coefficients of a route that fail their pairs (R117, R322). -/
def Resolved.broken (r : Resolved) : Nat := r.coeffs.countP fun x => !pairOk x.2.1 x.2.2

/-- One frame of a bus, for a dispatched MIX_BUS task (R297 to R326). -/
def State.mixFrame (s : State) (t : Nat) (l : Live) (g : GraphRun) (p : Plan) (bus : BusRec) (i : Nat) : State :=
  let c := g.conf
  let was := (s.buses.getD {} i).started
  let s := (s.startBus i bus).endXfade i true
  let route := s.routeInForce p bus
  let b0 := s.buses.getD {} i
  let b := b0.enter bus.rate g.release (route.getD b0.route)
  let silent := route.isNone && b.xfade.isNone
  let routes := match b.xfade with | some x => [x.old, x.new] | none => [b.route]
  let dIn := (bus.columns.map fun r => groupDelay r.srcRate bus.rate).foldl max 0
  let cols := bus.columns.zipIdx.map fun q =>
    columnFrame g bus dIn was q.1 (b.cols.getD q.2 {}) (s.columnInput l q.1.srcRate q.2)
  let steps := cols.zipIdx.map fun q =>
    ((s.conf c).gainPend.find? (bus.bus * 65536 + q.2)).bind fun v => gainStep q.1 (b.cols.getD q.2 {}).lastX g.release v
  let ovs := (List.range cols.length).map fun k =>
    let key := bus.bus * 65536 + k
    (((s.conf c).gainOv.find? key).bind gainValue, ((s.conf c).gainPend.find? key).bind fun v => gainValue v.1)
  let m : MixIn := { f := frameLen bus.rate, cols := cols, steps := steps.map fun x => x.map Prod.fst, ovs := ovs }
  let v := bus.columns.map (s.columnV c g)
  let outs := bus.taps.zipIdx.map fun q => tapFrame m bus b p v dIn (g.busK.getD 0 bus.bus) silent q.1 (b.taps.getD q.2 {})
  let e := ({ b with cols := cols.map ColFrame.st, taps := outs.map TapOut.st } : BusState).leave m.f bus.rate g.release
  let conc := (List.range cols.length).any fun k =>
    (cols.getD k {}).status == 1 && (cols.getD k {}).mixed
      && routes.any fun r => (List.range m.f).any fun n => gainAt r k (ovs.getD k (none, none)).1 (m.steps.getD k none)
          (ovs.getD k (none, none)).2 n != 0
  let bad := (routes.map Resolved.broken).sum
  let s := s.updBus i fun _ => e
  let s := s.applySteps c bus.bus steps
  let s := ((((s.countConf c 0 1).countConf c 1 (outs.map TapOut.sat).sum).countConf c 2
    ((outs.map TapOut.conv).sum + (cols.map ColFrame.sat).sum)).countConf c 3 (cols.countP fun x => x.status == 2)).countConf
    c 4 (cols.countP fun x => x.status == 1)
  let s := (List.range bad).foldl (fun (s : State) _ => (s.countConf c 10 1).fenceConf c 3 0) s
  let s := if silent then (s.countConf c 10 1).fenceConf c 6 0 else s
  s.updLive t fun l =>
    { l with
      out := outs.zipIdx.foldl (fun (o : FMap Word) q => q.1.block.zipIdx.foldl
        (fun (o : FMap Word) w => o.setD 0 (1024 * q.2 + w.2) w.1) o) l.out
      reported := some (if conc then 1 else 0) }

/-- MIX_BUS_FRAME: the audio engine computes the frame of a dispatched task and reports its status (R310). -/
def mixBusFrame (task : Nat) (s : State) : State :=
  let s := s.begin
  match s.live? task with
  | none => s
  | some l =>
    if l.st ≠ .dispatched ∨ l.task.op ≠ 5 ∨ l.reported.isSome then s
    else
      let g := s.runOf l
      let p := s.runPlan g
      match p.busRec l.task.ref, s.busNo g.conf g.bank l.task.ref with
      | some bus, some i => s.mixFrame task l g p bus i
      | _, _ => s.updLive task fun l => { l with reported := some 2 }

def execMixBusFrame (task : Nat) (s : State) : Res := .next (mixBusFrame task s)

/-- GAIN_STEP_TIMEOUT: a gain still pending at its deadline steps at sample 0 of the next frame, once no frame of the bus
released before the deadline is left to test (R324). -/
def gainStepTimeout (c bus col : Nat) (s : State) : State :=
  let s := s.begin
  match (s.conf c).gainPend.find? (bus * 65536 + col) with
  | none => s
  | some v =>
    let early := s.sched.lives.any fun x => x.2.task.op == 5 && x.2.task.ref == bus && x.2.reported.isNone
      && x.2.st != .completed && (s.runOf x.2).conf == c && decide ((s.runOf x.2).release < v.2.1)
    if s.launchNs < v.2.1 ∨ early then s
    else s.applySteps c bus (List.replicate col none ++ [some (0, true)])

def execGainStepTimeout (conf bus col : Nat) (s : State) : Res := .next (gainStepTimeout conf bus col s)

/-! ### Commands (R80, R320, R323, R324) -/

/-- ROUTE_SET for a bus. -/
def routeSetAudioBody (id : Nat) (c : Taken) (s : State) : State :=
  let conf := fld (c.w 3) 15 0
  let target := fld (c.w 3) 16 16
  let output := fld (c.w 4) 15 0
  let fade := fld (c.w 4) 20 16
  let ref := fld (c.w 5) 15 0
  let p := (s.conf conf).active
  let bus := p.bind fun p => p.busRec output
  let bno := (s.conf conf).activeNo.bind fun b => s.busNo conf b output
  let bs := (bno.map fun i => s.buses.getD {} i).getD {}
  let bad := !c.lenIs 7 || !zeroFrom (c.w 3) 17 || !zeroFrom (c.w 4) 21 || !zeroFrom (c.w 5) 16
    || (fade != 0 && (decide (fade < 2) || decide (20 < fade)))
  if target ≠ 0 then s
  else
    s.checked id
      [(bad, rBadArg), (!s.hasConf c.fn conf, rDenied), (!s.serves 0x061, rWrongMode),
       (!pairOk (c.w 5) (c.w 6), rIntegrity), ((s.conf conf).fenced.isSome, rIntegrity), (p.isNone, rNotFound),
       (bus.isNone || !(p.any fun p => p.routes.any fun r => r.ref == ref && r.bus == output), rNotFound),
       (bs.xfade.isSome, rBusy)]
      fun s =>
        let inForce := (p.bind fun p => bus.bind fun b => s.routeInForce p b).map Resolved.ref
        let s := s.updConf conf fun g => { g with routeOv := g.routeOv.put output ref }
        let s := match bno with
          | none => s
          | some i =>
            if inForce = some ref then s
            else s.updBus i fun b => { b with asked := some (if fade = 0 then 5 else fade, s.launchNs, false) }
        s.commitOk id c 1 conf []

def execRouteSetAudio (id : Nat) (s : State) : Res := .next (s.command id 0x061 (routeSetAudioBody id))

/-- GAIN_SET. -/
def gainSetBody (id : Nat) (c : Taken) (s : State) : State :=
  let conf := fld (c.w 3) 15 0
  let bus := fld (c.w 4) 15 0
  let col := fld (c.w 5) 15 0
  let p := (s.conf conf).active
  let rec? := p.bind fun p => p.busRec bus
  let bad := !c.lenIs 8 || !zeroFrom (c.w 3) 16 || !zeroFrom (c.w 4) 16 || !zeroFrom (c.w 5) 16
  s.checked id
    [(bad, rBadArg), (!s.hasConf c.fn conf, rDenied), (!s.serves 0x062, rWrongMode), (!pairOk (c.w 6) (c.w 7), rIntegrity),
     ((s.conf conf).fenced.isSome, rIntegrity), (p.isNone, rNotFound),
     (match rec? with | none => true | some b => decide (b.columns.length ≤ col), rNotFound)]
    fun s =>
      let key := bus * 65536 + col
      let due := match (s.conf conf).gainPend.find? key with
        | some v => v.2
        | none => (s.launchNs + 10000000, s.launchNs)
      (s.updConf conf fun g => { g with gainPend := g.gainPend.put key (c.w 6, due) }).commitOk id c 1 conf []

def execGainSet (id : Nat) (s : State) : Res := .next (s.command id 0x062 (gainSetBody id))

end Sys2Proof.Machine
end

