-- ==== Sys2Proof/Machine/CmdDevice.lean ====
section
/-! DEFINITION. Host commands on the device, the tenants and the logs: DEVICE_IDENTIFY, DEVICE_MODE_SET, TENANT_GRANT,
LOG_READ, AUDIT_READ, messages with an unknown opcode and malformed messages (R34, R40 to R45, R67, R78, R80, R84 to
R87, R94). -/

namespace Sys2Proof.Machine

/-- DEVICE_IDENTIFY answers in every mode and from every function with the identity words (R34, R78, R80). -/
def deviceIdentifyBody (id : Nat) (c : Taken) (s : State) : State :=
  s.checked id [(!c.lenIs 3, rBadArg)] fun s =>
    s.complete id rOk 0xFFFFFFFF (plain (s.identityWords ++ [s.status0, s.svnState, w32 c.fn]))

def execDeviceIdentify (id : Nat) (s : State) : Res := .next (s.command id 0x010 (deviceIdentifyBody id))

/-- The mode that a TARGET code of DEVICE_MODE_SET names (R80). -/
def targetOf : Nat → Option Mode
  | 0x0 => some .reset | 0x4 => some .ready | 0x5 => some .service | 0x7 => some .drain
  | 0x8 => some .maintenance | 0xA => some .retain | 0xB => some .quarantine | _ => none

/-- DEVICE_MODE_SET: a RESET or QUARANTINE target commits and completes at once and then goes to the arbiter; any
other target waits at the arbiter (R43, R44, R80). -/
def deviceModeSetBody (id : Nat) (c : Taken) (s : State) : State :=
  let t := targetOf (fld (c.w 3) 3 0)
  let d := (c.w 4).toNat
  s.checked id
    [(!c.lenIs 5 || !zeroFrom (c.w 3) 4 || t.isNone || decide (86400 < d)
        || (decide (d ≠ 0) && t != some Mode.drain), rBadArg),
      (c.fn != 0, rDenied), (!s.serves 0x011, rWrongMode)] fun s =>
    match t with
    | none => s
    | some m =>
      let req : ModeReq := { target := m, trigger := 0, deadline := d }
      if m = .reset ∨ m = .quarantine then
        let s := (s.commitEntry c rOk 0 0 0).finish id c rOk 0 0 [w32 m.code]
        s.setModes { s.modes with arb := s.modes.arb ++ [req] }
      else if s.modes.arb.any (fun r => r.cmd == some id) ∨ s.modes.transition.any (fun r => r.cmd == some id) then s
      else s.setModes { s.modes with arb := s.modes.arb ++ [{ req with cmd := some id }] }

def execDeviceModeSet (id : Nat) (s : State) : Res := .next (s.command id 0x011 (deviceModeSetBody id))

/-- Two ranges of numbers share a number. -/
def overlaps (b1 n1 b2 n2 : Nat) : Bool :=
  decide (0 < n1) && decide (0 < n2) && decide (b1 < b2 + n2) && decide (b2 < b1 + n1)

/-- Whether the new grant overlaps the grant of a VF other than `fn` (R85). -/
def State.grantClash (s : State) (fn : Nat) (g : Grant) : Bool :=
  s.grants.any fun p => p.1 != fn &&
    (overlaps g.confBase g.confCount p.2.confBase p.2.confCount
      || overlaps g.slotBase g.slotCount p.2.slotBase p.2.slotCount)

/-- Closes a leg whose conference leaves a grant, with its own entry; its event goes to the VF that held it (R85,
R94). -/
def closeGranted (fn : Nat) (tag : Word) (s : State) (leg : Nat) : State :=
  (s.auditAuto 0x032 2 leg tag).closeLeg leg 3 fn

/-- Erases a loaded key slot that leaves a grant, with its own entry (R85, R94, R216). -/
def eraseGranted (tag : Word) (s : State) (k : Nat) : State :=
  (s.updSlot k Slot.erase).auditAuto 0x041 3 k tag

/-- The grant that TENANT_GRANT carries (R80). -/
def grantOf (c : Taken) : Grant :=
  { confBase := (c.w 4).toNat, confCount := (c.w 5).toNat, slotBase := (c.w 6).toNat, slotCount := (c.w 7).toNat,
    legQuota := (c.w 8).toNat }

/-- The commit of TENANT_GRANT: the grant is replaced, legs and loaded slots that leave it are closed and erased
(R85). -/
def State.replaceGrant (s : State) (fn : Nat) (g : Grant) (tag : Word) : State :=
  let old := s.grants.getD {} fn
  let legs := s.legs.filter fun p => old.coversConf p.2.conf && !g.coversConf p.2.conf
  let slots := s.slots.filter fun p => p.2.loaded && old.coversSlot p.1 && !g.coversSlot p.1
  let s := { s with grants := if g.confCount = 0 ∧ g.slotCount = 0 then s.grants.del fn else s.grants.put fn g }
  let s := (legs.map Prod.fst).foldl (closeGranted fn tag) s
  (slots.map Prod.fst).foldl (eraseGranted tag) s

/-- TENANT_GRANT (R80, R85). -/
def tenantGrantBody (id : Nat) (c : Taken) (s : State) : State :=
  let fn := (c.w 3).toNat
  let g := grantOf c
  s.checked id
    [(!c.lenIs 9 || decide (fn = 0) || decide (63 < fn) || decide (65535 < g.confBase) || decide (65536 < g.confCount)
        || decide (2097151 < g.slotBase) || decide (2097152 < g.slotCount) || decide (1048576 < g.legQuota)
        || decide (65536 < g.confBase + g.confCount) || decide (2097152 < g.slotBase + g.slotCount), rBadArg),
      (c.fn != 0, rDenied), (!s.serves 0x012, rWrongMode), (s.grantClash fn g, rBusy)] fun s =>
    (s.commitOk id c 6 fn []).replaceGrant fn g c.tag

def execTenantGrant (id : Nat) (s : State) : Res := .next (s.command id 0x012 (tenantGrantBody id))

/-- LOG_READ and AUDIT_READ over a log (R80, R94, R449). -/
def logReadBody (op : Nat) (log : State → Log) (id : Nat) (c : Taken) (s : State) : State :=
  let n := (c.w 4).toNat
  s.checked id
    [(!c.lenIs 5 || decide (n = 0) || decide (127 < n), rBadArg), (c.fn != 0, rDenied), (!s.serves op, rWrongMode)]
    fun s =>
      let r := (log s).read (c.w 3) n
      s.complete id rOk 0xFFFFFFFF (plain [r.1, r.2.1, r.2.2.1] ++ r.2.2.2.flatten)

def execLogRead (id : Nat) (s : State) : Res :=
  .next (s.command id 0x071 (logReadBody 0x071 (fun s => s.faults.log) id))

def execAuditRead (id : Nat) (s : State) : Res :=
  .next (s.command id 0x072 (logReadBody 0x072 (fun s => s.audit) id))

/-- A command whose opcode the catalogue lacks completes with BAD_ARG, a poisoned one with INTEGRITY (R69, R78). -/
def unknownOpcode (id : Nat) (s : State) : State :=
  let s := s.begin
  match s.welmus.taken.find? id with
  | none => s
  | some c =>
    if catalogue.contains c.op || c.malformed || !s.eligible id c then s
    else s.reject id (if c.poison then rIntegrity else rBadArg)

def execUnknownOpcode (id : Nat) (s : State) : Res := .next (unknownOpcode id s)

/-- A malformed message completes with BAD_ARG, with the opcode and tag of its words 1 and 2 (R67); poisoned words
come first (R76). -/
def malformedMessage (id : Nat) (s : State) : State :=
  let s := s.begin
  match s.welmus.taken.find? id with
  | none => s
  | some c =>
    if c.malformed && s.eligible id c then s.reject id (if c.poison then rIntegrity else rBadArg) else s

def execMalformedMessage (id : Nat) (s : State) : Res := .next (malformedMessage id s)

end Sys2Proof.Machine
end

