-- ==== Sys2Proof/Machine/Modes.lean ====
section
/-! DEFINITION. The mode arbiter, THROTTLE and QUARANTINE entry, the drain deadline, and the resets with their scopes
(R36, R38 to R50, R87, R210, R449, R472, R474, R475, R485, R491, R499). -/

namespace Sys2Proof.Machine

/-! ### Resets (R46, R47, R449) -/

/-- The RESET_MARK record that a reset forms (R449). -/
def State.resetMarkRec (s : State) (cause : Word) (lost : Bool) : FaultRec :=
  { time := if s.time.running then s.stamp else [0, 0, 0], cls := 1, sev := 0, fn := none, objKind := 0, objId := 0,
    d0 := cause, d1 := if lost then 0 else s.bootStatus }

/-- A log after a reset that keeps it: new records start at 0, so the kept ones count down from 0xFFFFFFFF (R449). -/
def Log.renumber (l : Log) : Log := { l with next := 0 }

/-- The reset of the main domain with RESET_CAUSE bit `bit`; `lost` when the logs and the last-gasp bank are lost;
`warm` counts in BOOT_COUNT (R46, R51, R52, R449). What is held outside the main domain, or in fuses, stays. -/
def State.mainReset (s : State) (bit : Nat) (lost warm : Bool) : State :=
  let fromQ := if s.modes.mode = .quarantine then 64 else 0
  let cause := w32 (s.boot.resetCause.toNat ||| bit ||| fromQ)
  let f : Faults :=
    if lost then { ({} : Faults) with resetMark := some (s.resetMarkRec cause true) }
    else { s.faults with
      log := s.faults.log.renumber, queue := [], lost := 0, resetMark := some (s.resetMarkRec cause false) }
  { ({} : State) with
    pending := s.pending, out := s.out, now := s.now, fresh := s.fresh, pins := s.pins, fuses := s.fuses
    boot := { ({} : Boot) with resetCause := cause }
    modes := { ({} : Modes) with
      bootCount := if warm then min (s.modes.bootCount + 1) 0xFFFF else s.modes.bootCount }
    audit := if lost then {} else s.audit.renumber
    faults := f
    thermal := { ({} : Thermal) with sensors := s.thermal.sensors, caseSide := s.thermal.caseSide }
    smbus := s.smbus, freq := s.freq, jtag := s.jtag
    vdd := if warm then { ({} : Vdd) with acked := s.vdd.acked } else {} }

/-- A DMA lease of a function (R271). -/
def Lease.dmaOf (fn : Nat) (x : Lease) : Bool := x.kind == 6 && x.ownerInst == fn

/-- Revokes the DMA leases of a function, each counted and traced (R271, R272, R276, R441). -/
def State.revokeDma (s : State) (fn : Nat) : State :=
  let mine := s.sched.leases.filter fun (p : Nat × Lease) => p.2.dmaOf fn
  let s := s.updSched fun x => { x with leases := x.leases.filter fun (p : Nat × Lease) => !p.2.dmaOf fn }
  mine.foldl (fun (s : State) (_ : Nat × Lease) => (s.countSched 13 1).trace 12 0 7 0 0 0x3FFFF 0xFFFF 6) s

/-- The reset of one function's mailbox, rings, interrupt state and leases (R47, R441): commands not taken and events
not delivered are discarded, set-3 counters carry on; a taken command that has not committed is abandoned, one that has
writes no response; its plan fetch fails and its descriptors are abandoned. -/
def State.resetFn (s : State) (fn : Nat) : State :=
  let gone := (s.welmus.taken.filter fun p => p.2.fn == fn && !p.2.committed).map Prod.fst
  let s := s.revokeDma fn
  { s with
    waitQ := s.waitQ.filter fun w => !(w.ring.any fun r => r.1 == fn)
    mbx := s.mbx.put fn { ({} : Mailbox) with counters := (s.mb fn).counters }
    funcs := s.funcs.put fn {}
    welmus := { s.welmus with
      taken := ((s.welmus.taken.filter fun p => !gone.contains p.1).map fun p =>
        if p.2.fn == fn then (p.1, { p.2 with orphan := true }) else p) }
    modes := { s.modes with arb := s.modes.arb.filter fun r =>
      match r.cmd with | some c => !gone.contains c | none => true }
    loads := s.loads.map fun p => if p.2.fn == fn then (p.1, { p.2 with aborted := true }) else p }

/-- The reset of several functions. -/
def State.resetFns (s : State) (fns : List Nat) : State := fns.foldl State.resetFn s

/-- Sets bits of RESET_CAUSE (R52). -/
def State.setCause (s : State) (bits : Nat) : State :=
  s.setBoot { s.boot with resetCause := w32 (s.boot.resetCause.toNat ||| bits) }

/-- PWRGOOD_AUX rises: the whole device is reset and samples SMB_ADDR (R46, R52, R483, R490). -/
def powerOn (smbAddr : Nat) (s : State) : State :=
  { ({} : State) with
    pending := s.pending, now := s.now, fresh := s.fresh, fuses := s.fuses
    pins := { s.pins with pwrgoodAux := true, smbAddr := smbAddr % 4, alarms := [{}, {}, {}] } }

def execPowerOn (smbAddr : Nat) (s : State) : Res := .next (powerOn smbAddr s)

/-- PWRGOOD_AUX falls: the whole device is held in reset, whatever PWRGOOD_MAIN shows (R491). -/
def auxPowerLoss (s : State) : State :=
  { ({} : State) with
    pending := s.pending, now := s.now, fresh := s.fresh, fuses := s.fuses
    pins := { s.pins with pwrgoodAux := false, linkUp := false, alarms := [{}, {}, {}] } }

def execAuxPowerLoss (s : State) : Res := .next (auxPowerLoss s)

/-- PWRGOOD_MAIN falls: the main domain is reset; the logs survive only where VDD_SRAM stayed in its window (R46,
R491). -/
def mainPowerLoss (sramKept : Bool) (s : State) : State :=
  let s := s.begin
  if !s.pins.pwrgoodAux || !s.pins.pwrgoodMain then s
  else
    let s := s.mainReset 2 (!sramKept) false
    { s with pins := { s.pins with pwrgoodMain := false } }

def execMainPowerLoss (sramKept : Bool) (s : State) : Res := .next (mainPowerLoss sramKept s)

/-- SYS_RESET_N low for `lowNs`: filtered below 1 us, a reset from 10 us on, either between; `taken` says which (R46,
R475). -/
def pinWarmReset (lowNs : Nat) (taken : Bool) (s : State) : State :=
  let s := s.begin
  if !s.pins.pwrgoodAux || decide (lowNs < 1000) || (decide (lowNs < 10000) && !taken) then s
  else s.mainReset 4 false true

def execPinWarmReset (lowNs : Nat) (taken : Bool) (s : State) : Res := .next (pinWarmReset lowNs taken s)

/-- PERST_N in IDENTIFY: the boot window is cleared and the wait for a pushed image starts again, also where one was being checked
(R47). -/
def State.pushAgain (s : State) : State :=
  let again := s.boot.checking.any fun c => c.1 == 3
  s.setBoot { s.boot with
    window := [], pushed := false, pushLength := 0, checking := if again then none else s.boot.checking }

/-- PERST_N low: host interface, DMA engine and all mailbox queues are reset; in IDENTIFY the boot window is cleared
(R46, R47, R52). -/
def perst (s : State) : State :=
  let s := s.begin
  if !s.pins.pwrgoodAux then s
  else
    let s := { s with pins := { s.pins with perstN := false, linkUp := false } }
    let t := (s.resetFns (List.range 64)).setCause 16
    if s.modes.mode = .identify then t.pushAgain else t

def execPerst (s : State) : Res := .next (perst s)

/-- PERST_N rises: the host interface leaves reset where its reference is present, at the pin and by the frequency monitor (R50,
R487). -/
def perstRelease (pcieRef : Bool) (s : State) : State :=
  let s := s.begin
  if !s.pins.pwrgoodAux then s
  else { s with pins := { s.pins with perstN := true, pcieRef := pcieRef && !s.freq.pcie.missing } }

def execPerstRelease (pcieRef : Bool) (s : State) : Res := .next (perstRelease pcieRef s)

/-- A function-level reset of PF0 resets PF0 and all VFs (R46, R47). -/
def execPf0Flr (s : State) : Res := .next (s.begin.resetFns (List.range 64))

/-- A function-level reset of a VF (R46, R47). -/
def vfFlr (fn : Nat) (s : State) : State :=
  let s := s.begin
  if fn = 0 ∨ 63 < fn then s else s.resetFn fn

def execVfFlr (fn : Nat) (s : State) : Res := .next (vfFlr fn s)

/-- TRST_N low resets the JTAG test logic only: IDCODE is selected (R46; PRESUMED from IEEE 1149.1, log entry 21). -/
def execTestReset (s : State) : Res := .next { s.begin with jtag := 1 }

/-- IDCODE (R485). -/
def State.idcode (s : State) : Word := w32 (1 + 2 ^ 12 * 0x0B08 + 2 ^ 28 * (s.fuses.rev / 16 % 16))

/-- A JTAG instruction: 0 BYPASS, 1 IDCODE, others by number; outside RESET the others act as BYPASS (R485). -/
def jtagInstruction (code : Nat) (s : State) : State :=
  let s := s.begin
  if !s.pins.pwrgoodAux then s
  else
    let k := if code ≤ 1 ∨ s.modes.mode = .reset then code else 0
    ({ s with jtag := k } : State).emit (.jtag (if k = 1 then s.idcode else 0))

def execJtagInstruction (code : Nat) (s : State) : Res := .next (jtagInstruction code s)

/-! ### THROTTLE (R41, R472) -/

/-- The modes that THROTTLE is entered from (R40). -/
def Mode.throttles : Mode → Bool
  | .ready | .service | .degraded | .drain | .maintenance => true
  | _ => false

/-- Entry into THROTTLE with the mode left as return mode and step 1 taken; EV_THERMAL and a THERMAL record (R40, R41,
R44, R81, R472). -/
def State.enterThrottle (s : State) : State :=
  if s.modes.mode.throttles then
    let hot := wInt s.hottest
    let s := s.setModes { s.modes with returnMode := s.modes.mode }
    let s := s.setMode .throttle 8
    let s := { s with thermal := { s.thermal with step := 1, lastTest := s.now, coldSince := none } }
    (s.fault 0x40 0 0 1 hot).raiseEvent 0 0x108 [1, hot]
  else s

/-- On entry into RETAIN the SerDes are powered down, so every port that ran waits for signal again (R38). -/
def State.portsDown (s : State) : State :=
  (s.ports.filter fun p => p.2.st != 0 && p.2.st != 5).foldl (fun s p => s.portDark p.1) s

/-- Entry into CALIBRATE from RETAIN, for the resume steps: the lanes that an earlier CALIBRATE lost are tried again (R40, R62,
R487). -/
def State.startResume (s : State) (cmd : Option Nat) : State :=
  let s := { s with avail := { s.avail with down := s.avail.down.filter fun p => p.1 / 65536 != 7 } }
  (s.setModes { s.modes with resuming := true, resumeCmd := cmd }).setBoot { s.boot with calDone := [] }

/-- Exit from THROTTLE to the return mode as it stands: every reduction is removed (R40, R41, R472). -/
def State.leaveThrottle (s : State) : State :=
  if s.modes.mode = .throttle then
    let hot := wInt s.hottest
    let s := s.setMode s.modes.returnMode 9
    let s := if s.modes.mode = .calibrate then s.startResume none else s
    let s := s.setModes { s.modes with returnMode := .reset }
    let s := { s with thermal := { s.thermal with step := 0, coldSince := none }, hbm := { s.hbm with request := 0 } }
    (s.fault 0x40 0 0 0 hot).raiseEvent 0 0x108 [0, hot]
  else s

/-! ### The arbiter (R43, R44) -/

/-- Precedence of a request (R43): 1 reset, 2 QUARANTINE, 3 THROTTLE, 4 automatic, 5 DEVICE_MODE_SET. -/
def ModeReq.rank (r : ModeReq) : Nat :=
  if r.target = .reset then 1 else if r.target = .quarantine then 2
  else if r.trigger = 8 ∨ r.trigger = 9 then 3 else if r.trigger = 0 then 5 else 4

/-- The first request of the highest precedence. -/
def bestReq : List ModeReq → Option ModeReq
  | [] => none
  | r :: rs =>
    match bestReq rs with
    | none => some r
    | some b => if b.rank < r.rank then some b else some r

/-- The transition that DEVICE_MODE_SET to `t` makes from mode `from_`, by the table of R40. -/
def State.commandTarget (s : State) (from_ t : Mode) : Option Mode :=
  match from_, t with
  | .ready, .service => some s.serviceMode
  | .drain, .service => some s.serviceMode
  | .service, .drain => some .drain
  | .degraded, .drain => some .drain
  | .ready, .maintenance => some .maintenance
  | .maintenance, .ready => some .ready
  | .ready, .retain => some .retain
  | .retain, .ready => some .calibrate
  | _, _ => none

/-- A DEVICE_MODE_SET that the arbiter takes in THROTTLE changes the return mode, and with it what the data path does (R33, R38,
R41). -/
def State.setReturn (s : State) (id : Nat) (c : Taken) (m : Mode) (deadline : Nat) : State :=
  let s := if m = .retain then s.portsDown else s
  let s := s.setModes { s.modes with
    returnMode := m
    drainDeadline := if m = .drain ∧ deadline ≠ 0 then some (s.now + deadline * 1000000000) else none }
  (s.auditMode m 0 true).finish id c rOk 0 0 [w32 (9 + 16 * m.code)]

/-- A DEVICE_MODE_SET that the arbiter takes (R40, R41, R43). -/
def State.takeCommand (s : State) (r : ModeReq) (id : Nat) (c : Taken) : State :=
  match s.commandTarget s.effMode r.target with
  | none => s.reject id rWrongMode
  | some m =>
    let s := s.commitEntry c rOk 0 0 0
    if s.modes.mode = .throttle ∧ (m.carries || s.trafficGone) = true then
      (s.setReturn id c m r.deadline).drainCheck
    else (s.markCommitted id).setModes { s.modes with transition := some { r with target := m } }

/-- An automatic request whose condition still holds when the arbiter takes it (R40, R43). -/
def State.takeAuto (s : State) (r : ModeReq) : State :=
  if r.trigger = 5 then (if s.instDown then s.autoNow .service .degraded 5 else s)
  else if r.trigger = 6 then (if s.instDown then s else s.autoNow .degraded .service 6)
  else if r.trigger = 7 then (if s.legs.isEmpty then s.autoNow .drain .ready 7 else s)
  else s

/-- MODE_ARBITER_TAKE (R43): nothing is taken during a transition but a reset or QUARANTINE. -/
def modeArbiterTake (s : State) : State :=
  let s := s.begin
  match bestReq s.modes.arb with
  | none => s
  | some r =>
    if s.modes.transition.isSome ∧ 2 < r.rank then s
    else
      let s := s.setModes { s.modes with arb := s.modes.arb.erase r }
      if r.target = .reset then
        if s.modes.mode = .reset then s else (s.auditMode .reset 0 false).mainReset 8 false true
      else if r.target = .quarantine then
        if s.modes.mode = .reset ∨ s.modes.mode = .quarantine then s
        else s.setModes { s.modes with transition := some r }
      else if r.trigger = 8 then s.enterThrottle
      else if r.trigger = 9 then s.leaveThrottle
      else
        match r.cmd with
        | none => s.takeAuto r
        | some id =>
          match s.welmus.taken.find? id with
          | none => s
          | some c => s.takeCommand r id c

def execModeArbiterTake (s : State) : Res := .next (modeArbiterTake s)

/-- The PHASE 1 entry and response of the DEVICE_MODE_SET behind a transition (R44, R94). -/
def State.finishModeSet (s : State) (cmd : Option Nat) : State :=
  match cmd with
  | none => s
  | some id =>
    match s.welmus.taken.find? id with
    | none => s
    | some c => s.finish id c rOk 0 0 [w32 s.modes.mode.code]

/-- The end of a change of THROTTLE's return mode that waited for the traffic to go (R41). -/
def State.returnDone (s : State) (r : ModeReq) (m : Mode) : State :=
  match r.cmd with
  | none => s.autoReturn m r.trigger
  | some id =>
    match s.welmus.taken.find? id with
    | none => s.autoReturn m r.trigger
    | some c => (s.setReturn id c m r.deadline).drainCheck

/-- MODE_TRANSITION_DONE: MODE takes the new value, TRANSIT clears and the waiting command completes (R36, R38, R44). A mode
without leg traffic is reached once the traffic taken in before is gone (R35, R44; log entry 106). -/
def modeTransitionDone (s : State) : State :=
  let s := s.begin
  match s.modes.transition with
  | none => s
  | some r =>
    if r.target = .quarantine ∨ (r.target.carries || s.trafficGone) = false then s
    else
      let m := if r.target = .service ∨ r.target = .degraded then s.serviceMode else r.target
      let s := s.setModes { s.modes with transition := none }
      if s.modes.mode = .throttle then s.returnDone r m
      else
      let s := s.setMode m r.trigger
      let s := if m = .retain then s.portsDown else s
      if m = .calibrate then
        s.startResume r.cmd
      else
        let s := if m = .drain ∧ r.deadline ≠ 0 then
            s.setModes { s.modes with drainDeadline := some (s.now + r.deadline * 1000000000) }
          else s
        (s.finishModeSet r.cmd).drainCheck

def execModeTransitionDone (s : State) : Res := .next (modeTransitionDone s)

/-- Closes a leg at the drain deadline, with its own entry (R36, R94). -/
def closeDrained (s : State) (leg : Nat) : State := (s.auditAuto 0x032 2 leg 0).closeLeg leg 1 (s.legHolder leg)

/-- DRAIN_DEADLINE_EXPIRY (R36). -/
def drainDeadlineExpiry (s : State) : State :=
  let s := s.begin
  match s.modes.drainDeadline with
  | none => s
  | some t =>
    if s.now < t ∨ s.effMode ≠ .drain then s
    else s.legs.keys.foldl closeDrained (s.setModes { s.modes with drainDeadline := none })

def execDrainDeadlineExpiry (s : State) : Res := .next (drainDeadlineExpiry s)

/-! ### Instances lost in CALIBRATE (R40, R50, R61, R487) -/

/-- Marks instances unavailable since calibration: they return only at the next CALIBRATE (R40, R61). -/
def State.calibrationLost (s : State) (kind : Nat) (idxs : List Nat) : State :=
  { s with avail := { s.avail with
    down := idxs.foldl (fun m i => m.put (instId kind i) { since := s.now, held := true }) s.avail.down } }

/-- The lanes whose SerDes reference is `q` (R50, R487): lane groups 4q to 4q + 3. -/
def refLanes (q : Nat) : List Nat := (List.range 16).map fun i => 16 * q + i

/-- A SerDes reference missing in CALIBRATE: its lanes are unavailable until the next CALIBRATE, and one REF_MISSING record says
so (R50, R487). -/
def State.calRefLost (s : State) (q : Nat) : State :=
  (s.calibrationLost 7 (refLanes q)).fault 0x0C 7 (instId 8 (4 * q)) 0 0

/-! ### QUARANTINE and the watchdog (R39, R42, R48, R474, R499) -/

/-- The object of a command that writes two entries, as (OBJ_KIND, OBJ_ID) (R78, R93). -/
def Taken.object (c : Taken) : Nat × Nat :=
  match c.op with
  | 0x020 => (1, fld (c.w 3) 15 0)
  | 0x080 | 0x081 => (7, fld (c.w 3) 20 0)
  | _ => (0, 0)

/-- A command in progress at entry into QUARANTINE (R499): WRONG_MODE before its commit point, else FAILED with its
PHASE 1 entry. -/
def flushCommand (s : State) (p : Nat × Taken) : State :=
  if p.2.committed then s.finish p.1 p.2 rFailed p.2.object.1 p.2.object.2 []
  else s.reject p.1 rWrongMode

/-- A command in progress at a restart of the application cores completes with FAILED (R48). -/
def failCommand (s : State) (p : Nat × Taken) : State :=
  if p.2.committed then s.finish p.1 p.2 rFailed p.2.object.1 p.2.object.2 []
  else s.reject p.1 rFailed

/-- The last-gasp bank receives a record: the first after VALID is cleared is kept, later ones count in MORE (R456). -/
def Faults.lastGasp (f : Faults) (ws : List Word) : Faults :=
  if f.lgValid then { f with lgMore := min (f.lgMore + 1) 0xFFFF } else { f with lgRecord := ws, lgValid := true }

/-- Writes the FATAL record: into the log's queue and into the last-gasp bank; SEQ in the bank is the number the record
gets when the records before it are written one by one (R456, R474; log entry 15). -/
def State.fatalRecord (s : State) (cause : Nat) (detail : Word) : State :=
  let r := s.faultRec 0x60 0 0 (w32 cause) detail
  let seq := s.faults.log.next + w32 (s.faults.queue.length + b2n s.faults.resetMark.isSome)
  let s := s.fault 0x60 0 0 (w32 cause) detail
  { s with faults := s.faults.lastGasp (r.words seq s.faults.lost) }

/-- The task scheduler with no instance left: its settings, counters and Lantern trace stay. -/
def Sched.stopped (x : Sched) : Sched :=
  { ({} : Sched) with
    tickUs := x.tickUs, tickAt := x.tickAt, nextRun := x.nextRun, gens := x.gens, orderNo := x.orderNo, counters := x.counters
    lantern := x.lantern, leases := x.leases.filter fun p => p.2.kind == 6 }

/-- Stops the data path, the media engines and the time bases, whose PLL stops, and zeroises every key; HBM loses its contents
(R28, R39, R216, R474 steps 1 and 2, R475). -/
def State.stopData (s : State) : State :=
  { s with
    time := { s.time with running := false }
    sched := s.sched.stopped, dsps := [], sess := [], buses := [], outs := []
    pchs := s.pchs.map fun p => (p.1, { p.2 with lines := [], writes := [], rows := [] })
    towers := s.towers.map fun p => (p.1, { p.2 with burst := none, retrain := none })
    slots := [], keyCache := [], storageKey := [], kik := []
    cores := s.cores.map fun p => (p.1, { p.2 with jobs := [], freeAt := 0 })
    hmacs := []
    rxJobs := [], txJobs := [], replQ := [], egressQ := [], localQ := [], stunQ := [], gone := [], store := [], waitQ := []
    ports := s.ports.map fun p => (p.1, { p.2 with
      txq := [[], [], [], [], [], [], [], []], pipeQ := [], timeQ := [], ctlQ := [], excQ := [] }) }

/-- The plan fetches in progress end: their banks are empty (R96, R107). -/
def State.dropLoads (s : State) : State :=
  { s with
    confs := s.loads.foldl (fun cs (p : Nat × Load) =>
      FMap.upd cs p.2.conf fun g => g.setBank p.2.bank fun b => { b with st := .empty, plan := none }) s.confs
    loads := [] }

/-- The request for QUARANTINE that the device acts on: a fatal condition before a command, so that its record is written (R42,
R474). -/
def Modes.quarantineReq (m : Modes) : Option ModeReq :=
  match List.find? (fun r : ModeReq => r.trigger == 10) m.quarantines with
  | some r => some r
  | none => m.quarantines.head?

/-- QUARANTINE_ENTRY (R39, R474, R499): for a request that the arbiter holds or has taken, while none for RESET waits (R43). -/
def quarantineEntry (s : State) : State :=
  let s := s.begin
  match s.modes.quarantineReq with
  | none => s
  | some r =>
    if s.modes.mode = .quarantine ∨ s.modes.mode = .reset ∨ s.modes.resetAsked = true then s
    else
      let s := s.stopData
      let s := if r.trigger = 10 then s.fatalRecord r.cause r.detail else s
      let s := s.setModes { s.modes with transition := none, arb := [], fwRestart := false, resuming := false }
      let s := s.setMode .quarantine r.trigger
      (s.welmus.taken.foldl flushCommand s).dropLoads

def execQuarantineEntry (s : State) : Res := .next (quarantineEntry s)

/-- A restart of the application cores (R48): every command in progress fails. -/
def State.fwRestartNow (s : State) : State :=
  let s := s.setCause 32
  let s := s.setModes { s.modes with fwRestart := true }
  let s := s.welmus.taken.foldl failCommand s
  let s := s.setModes { s.modes with
    transition := s.modes.transition.map fun r => { r with cmd := none }
    arb := s.modes.arb.filter fun r => r.cmd.isNone
    resumeCmd := none }
  let s := s.dropLoads
  { s with
    avail := { s.avail with lent := [] }
    towers := s.towers.map fun p => (p.1, { p.2 with retrain := none }) }

/-- The control-cluster watchdog expires, with its record: a restart, or a fatal condition within 60 s of the one before (R42,
R46, R48, R452). -/
def State.watchdog (s : State) : State :=
  let recent := s.modes.watchdogs.filter fun t => decide (s.now < t + 60000000000)
  let s := s.setModes { s.modes with watchdogs := s.now :: recent }
  let s := s.fault 0x58 0 0 (w32 (recent.length + 1)) 0
  if recent.isEmpty then s.fwRestartNow else s.fatal 4 (w32 (recent.length + 1))

/-- WATCHDOG_EXPIRY (R48): only where the control cluster runs. -/
def watchdogExpiry (s : State) : State :=
  let s := s.begin
  if s.modes.mode.status then s.watchdog else s

def execWatchdogExpiry (s : State) : Res := .next (watchdogExpiry s)

/-- FW_RESTART_DONE (R48). -/
def execFwRestartDone (s : State) : Res :=
  .next (let s := s.begin; s.setModes { s.modes with fwRestart := false })

/-- RAIL_OUT_OF_WINDOW: a monitored main rail outside its window for 2 us while PWRGOOD_MAIN is high is fatal (R42,
R489, R491). Rails are numbered by the rows of R489. -/
def railOutOfWindow (rail lowNs : Nat) (s : State) : State :=
  let s := s.begin
  if s.pins.pwrgoodMain && decide (2000 ≤ lowNs) && decide (rail < 7) then s.fatal 3 (w32 rail) else s

def execRailOutOfWindow (rail lowNs : Nat) (s : State) : Res := .next (railOutOfWindow rail lowNs s)

end Sys2Proof.Machine
end

