-- ==== Sys2Proof/Machine/Boot.lean ====
section
/-! DEFINITION. From the release of the main domain to READY: boot sources, image checks, the boot window, LOAD and the
calibration steps (R49, R52, R54 to R63, R145, R146, R209, R212, R466, R469, R487, R488). -/

namespace Sys2Proof.Machine

/-- The flash slots to try, in order, by BOOT_SRC (R54). -/
def flashOrder : Nat → List Nat
  | 0 => [1, 2]
  | 1 => []
  | 2 => [1, 2]
  | _ => [2, 1]

/-- Opens the boot window where push is enabled and no slot is left to try (R54). -/
def State.openWindow (s : State) : State :=
  if s.boot.toTry.isEmpty && s.pins.bootSrc != 0 && s.boot.checking.isNone then
    s.setBoot { s.boot with pushReady := true }
  else s

/-- MAIN_RESET_RELEASE: the conditions of R49 have held for 2 ms, `railsOk` and `sysclkOk` throughout, and the frequency monitor
shows the system reference present; BOOT_SRC is sampled and the device enters IDENTIFY
(R40, R49, R54, R483). -/
def mainResetRelease (bootSrc : Nat) (railsOk sysclkOk : Bool) (heldNs : Nat) (s : State) : State :=
  let s := s.begin
  if !s.pins.pwrgoodAux || s.modes.mode != .reset || !railsOk || !sysclkOk || s.freq.sysclk.missing
      || decide (heldNs < 2000000) then s
  else
    let s := { s with pins := { s.pins with pwrgoodMain := true, sysResetN := true, bootSrc := bootSrc % 4 } }
    let s := s.setBoot { s.boot with toTry := flashOrder (bootSrc % 4) }
    (s.setMode .identify 1).openWindow

def execMainResetRelease (bootSrc : Nat) (railsOk sysclkOk : Bool) (heldNs : Nat) (s : State) : Res :=
  .next (mainResetRelease bootSrc railsOk sysclkOk heldNs s)

/-- Sets the result code of a source (R51, R52). -/
def State.setResult (s : State) (src code : Nat) : State :=
  s.setBoot (if src = 1 then { s.boot with resultA := code }
    else if src = 2 then { s.boot with resultB := code } else { s.boot with resultPush := code })

/-- SVN, ADVANCE, REVOKE0 and KEY_INDEX of an image header (R56). -/
def headSvn (h : BootHeader) : Nat := fld h.word2 7 0
def headAdvance (h : BootHeader) : Bool := bitAt h.word2 8
def headRevoke0 (h : BootHeader) : Bool := bitAt h.word2 9
def headKey1 (h : BootHeader) : Bool := bitAt h.word2 10

/-- The result of the header checks of R57, steps 1 to 4; 1 when all pass (R52). -/
def State.headerResult (s : State) (h : BootHeader) : Nat :=
  if h.magic ≠ 0x534D4C57 ∨ fld h.word1 15 0 ≠ 1 ∨ h.reservedZero = false then 2
  else if headSvn h < s.fuses.svnMin ∨ 64 < headSvn h then 3
  else if h.bodyLength = 0 ∨ 12582912 < h.bodyLength then 6
  else if (if headKey1 h then s.fuses.revoked1 else s.fuses.revoked0) then 5
  else 1

/-- Word `i` of the image in the boot window. -/
def Boot.winWord (b : Boot) (i : Nat) : Word :=
  let at_ := fun k => (b.window.getD 0 (4 * i + k)).toNat
  wordOfBytes (at_ 0) (at_ 1) (at_ 2) (at_ 3)

/-- The header of the image in the boot window (R56, R59). -/
def Boot.winHeader (b : Boot) : BootHeader :=
  { magic := b.winWord 0, word1 := b.winWord 1, word2 := b.winWord 2, bodyLength := (b.winWord 3).toNat,
    fwVersion := b.winWord 4,
    reservedZero := zeroIn (b.winWord 1) 31 16 && zeroIn (b.winWord 2) 31 11
      && b.window.all fun p => decide (p.1 < 164) || decide (4095 < p.1) || decide (p.2 = 0) }

/-- The next source's check ended with `code`: on 1 its body is read; else the next source comes, or the boot window
opens (R54, R57). -/
def State.headerChecked (s : State) (src : Nat) (h : BootHeader) (code : Nat) : State :=
  if code = 1 then s.setBoot { s.boot with checking := some (src, h) } else (s.setResult src code).openWindow

/-- BOOT_IMAGE_CHECK (R57): the next flash slot's header as read, or the pushed image's header from the window. -/
def bootImageCheck (read : BootRead) (s : State) : State :=
  let s := s.begin
  if s.modes.mode ≠ .identify ∨ s.boot.checking.isSome then s
  else
    match s.boot.toTry with
    | src :: rest =>
      let s := s.setBoot { s.boot with toTry := rest }
      match read with
      | .header h => s.headerChecked src h (s.headerResult h)
      | .noImage => (s.setResult src 2).openWindow
      | .flashError => (s.setResult src 7).openWindow
    | [] =>
      if s.boot.pushed then
        let h := s.boot.winHeader
        (s.setBoot { s.boot with pushed := false }).headerChecked 3 h (s.headerResult h)
      else s

def execBootImageCheck (read : BootRead) (s : State) : Res := .next (bootImageCheck read s)

/-- IMAGE_AUTHENTICATED (R57 steps 5 to 7): with digest and signature right the device enters LOAD; otherwise the next
source is tried. -/
def imageAuthenticated (digestOk signatureOk bodyRead : Bool) (s : State) : State :=
  let s := s.begin
  match s.boot.checking with
  | none => s
  | some (src, h) =>
    if s.modes.mode ≠ .identify ∨ s.modes.ending = true then s
    else
      let s := s.setBoot { s.boot with checking := none }
      if !bodyRead then (s.setResult src 7).openWindow
      else if !(digestOk && signatureOk) then (s.setResult src 4).openWindow
      else
        let s := s.setResult src 1
        let s := s.setBoot { s.boot with
          source := src, pushReady := false, image := some h, readyUnderImage := false, fwVersion := h.fwVersion,
          toTry := [] }
        s.setMode .load 2

def execImageAuthenticated (digestOk signatureOk bodyRead : Bool) (s : State) : Res :=
  .next (imageAuthenticated digestOk signatureOk bodyRead s)

/-- A write into the boot window: stored while PUSH_READY is 1 and discarded otherwise (R59). -/
def bootWindowWrite (off : Nat) (value : Byte) (s : State) : State :=
  let s := s.begin
  if s.hostUp && s.boot.pushReady && decide (off < 12587008) then
    s.setBoot { s.boot with window := s.boot.window.setD 0 off value }
  else s

def execBootWindowWrite (off : Nat) (value : Byte) (s : State) : Res := .next (bootWindowWrite off value s)

/-- BOOT_DOORBELL: starts the check of the pushed image while PUSH_READY is 1 (R59). DESIGN CHOICE (log entry 108): PUSH_READY
stays 1 while a pushed image is checked, so that the window stays writable and a further doorbell is taken; the length written is
kept and decides nothing. -/
def bootDoorbell (length : Word) (s : State) : State :=
  let s := s.begin
  if s.hostUp && s.boot.pushReady then s.setBoot { s.boot with pushed := true, pushLength := length.toNat } else s

def execBootDoorbell (length : Word) (s : State) : Res := .next (bootDoorbell length s)

/-- Sends an AVSBus voltage target: acknowledged, it is the target in force; otherwise it is tried again (R488). -/
def State.avsCommand (s : State) (mv tries : Nat) (ack : Bool) : State :=
  let s := s.emit (.avs mv)
  let v := s.vdd
  { s with vdd :=
      if ack then { v with acked := mv, command := none }
      else if tries ≤ 3 then { v with command := some (mv, tries, s.now) }
      else { v with command := none } }

/-- The mailbox of a function whose queues Welmus initialises: EVQ_MASK, EVQ_IRQ and the set-3 counters stay (R60; log
entry 86). -/
def Mailbox.init (m : Mailbox) : Mailbox :=
  { ({} : Mailbox) with mask := m.mask, holdoff := m.holdoff, threshold := m.threshold, counters := m.counters }

/-- Welmus initialises the mailbox queues of all 64 functions: what waits in them is gone, and a command that the hardware
responder had taken is abandoned (R60). -/
def State.initQueues (s : State) : State :=
  { s with mbx := s.mbx.map fun p => (p.1, p.2.init), welmus := { s.welmus with taken := [] } }

/-- KIK (R212): the counter-mode KDF of SP 800-108 over IMPORT_SECRET, with DEVICE_SERIAL as BAR0 presents it. -/
def importKeyOf (f : Fuses) : List Nat :=
  hmac sha256 f.importSecret
    (beBytes 4 1 ++ ([0x4B, 0x56, 0x2D, 0x54, 0x42, 0x38, 0x20, 0x69, 0x6D, 0x70, 0x6F, 0x72, 0x74] : List Nat) ++ [0]
      ++ leBytes 8 f.serial ++ beBytes 4 0x100)

/-- The pushed provisioning image burns IMPORT_SECRET from its boot window, once, and sets IMPORT_SET (R212). -/
def State.burnSecret (s : State) (provision : Option (List Nat)) : State :=
  match provision with
  | none => s
  | some secret =>
    if s.boot.source = 3 ∧ s.fuses.importSet = false ∧ secret.length = 32 then
      { s with fuses := { s.fuses with importSecret := secret, importSet := true } }
    else s

/-- Draws `n` words of key from the random-number generator. -/
def State.drawKey (s : State) : Nat → List Word × State
  | 0 => ([], s)
  | n + 1 => let d := s.draw; let r := d.2.drawKey n; (d.1 :: r.1, r.2)

/-- LOAD_COMPLETE: mailbox queues initialised, import key derived, storage key drawn, first voltage target commanded, and the
device enters CALIBRATE (R60, R209, R212, R469, R488). `provision` is the secret in the boot window where the image that ran is
the provisioning image; it is burned before KIK is derived (DESIGN CHOICE, log entry 120). The storage key of AES-256-XTS has 512
bits. -/
def loadComplete (avsAck : Bool) (provision : Option (List Nat)) (s : State) : State :=
  let s := s.begin
  if s.modes.mode ≠ .load ∨ s.modes.ending = true then s
  else
    let s := s.burnSecret provision
    let d := s.drawKey 16
    let s := { d.2 with storageKey := d.1, kik := importKeyOf s.fuses }
    let s := { s with vdd := { s.vdd with guard := 10 } }
    let s := s.avsCommand (min (s.fuses.baseMv + 10) 800) 1 avsAck
    let s := s.initQueues
    (s.setBoot { s.boot with calDone := [] }).setMode .calibrate 3

def execLoadComplete (load : LoadEnd) (s : State) : Res := .next (loadComplete load.avsAck load.provision s)

/-- The Survey baseline that step C5 leaves for monitor `m` (R466). -/
def c5Monitor (means : List Nat) (excluded : List (Nat × Nat)) (flash : Option (List Nat)) (writable : Bool) (m : Nat) :
    Monitor :=
  let mean := means.getD m 0
  { baseline := match flash with | some b => b.getD m mean | none => mean
    c5 := mean, excluded := excluded.any (fun p => p.1 == m), volatile := flash.isNone && !writable }

/-- The SerDes references that the frequency monitor shows missing (R487). -/
def State.missingSdrefs (s : State) : List Nat :=
  (List.range 8).filter fun q => (s.freq.sdref.getD q {}).missing

/-- What a calibration step does when it ends (R50, R61, R62, R145, R146, R403, R421, R466). The references are as the frequency
monitor shows them. -/
def State.calEffect (s : State) : CalStep → State
  | .c1 ok => if ok then s.missingSdrefs.foldl State.calRefLost s else s.fatal 5 0
  | .c2 ok => if ok then s else s.fatal 5 0
  | .c3 failed =>
    let s := failed.foldl (fun s p => (s.calibrationLost 6 [p]).fault 0x34 7 (instId 6 p) 0 0) s
    let s := { s with
      pchs := failed.foldl (fun m p => m.put p { ({} : Pch) with st := 1 }) []
      towers := []
      hbm := { ({} : Hbm) with sumpCells := 67108864 * (192 - failed.eraseDups.length) / 192 } }
    if (List.range 6).any fun k => (List.range 32).all fun i => failed.contains (32 * k + i) then s.fatal 5 0 else s
  | .c4 failed => s.calibrationLost 7 (failed ++ s.missingSdrefs.flatMap refLanes)
  | .c5 means excluded flash writable =>
    let s := { s with survey := (List.range 64).map fun m => (m, c5Monitor means excluded flash writable m) }
    excluded.foldl (fun s p => s.fault 0x4A 7 (instId 9 p.1) (w32 p.2) 0) s
  | .c6 ok =>
    if ok then
      { s with
        time := { ({} : TimeUnit) with running := true, tclkRef10 := !s.freq.ref10m.missing }
        sched := { s.sched with tickAt := 0 } }
    else s.fatal 5 0
  | .hbmResume => s

/-- The number of a calibration step: 1 to 6, and 7 for the HBM resume of R62. -/
def calNo : CalStep → Nat
  | .c1 _ => 1 | .c2 _ => 2 | .c3 _ => 3 | .c4 _ => 4 | .c5 _ _ _ _ => 5 | .c6 _ => 6 | .hbmResume => 7

/-- The steps that must be done before a step may end (R61, R62). -/
def calBefore (resuming : Bool) : Nat → List Nat
  | 1 => []
  | 2 => [1]
  | 7 => [1]
  | 4 => if resuming then [1] else [1, 2]
  | _ => [1, 2]

/-- The steps of CALIBRATE, or of the resume from RETAIN (R61, R62). -/
def calSteps (resuming : Bool) : List Nat := if resuming then [1, 7, 4] else [1, 2, 3, 4, 5, 6]

/-- The fuse writes when the device first reaches READY under an image (R58). -/
def State.advanceFuses (s : State) : State :=
  if s.boot.readyUnderImage then s
  else
    let s := s.setBoot { s.boot with readyUnderImage := true }
    match s.boot.image with
    | none => s
    | some h => { s with fuses := { s.fuses with
        svnMin := if headAdvance h then max s.fuses.svnMin (headSvn h) else s.fuses.svnMin
        revoked0 := s.fuses.revoked0 || (headRevoke0 h && headKey1 h) } }

/-- The end of CALIBRATE: the device enters READY (R40, R58, R62). -/
def State.calDone (s : State) : State :=
  let cmd := s.modes.resumeCmd
  let s := s.setModes { s.modes with resuming := false, resumeCmd := none }
  ((s.setMode .ready 4).advanceFuses).finishModeSet cmd

/-- CALIBRATION_STEP_DONE (R61, R62). -/
def calibrationStepDone (step : CalStep) (s : State) : State :=
  let s := s.begin
  let n := calNo step
  let r := s.modes.resuming
  if s.modes.mode ≠ .calibrate ∨ !(calSteps r).contains n ∨ s.boot.calDone.contains n
      ∨ !((calBefore r n).all fun k => s.boot.calDone.contains k)
      ∨ s.modes.ending = true then s
  else
    let s := (s.calEffect step).setBoot { s.boot with calDone := n :: s.boot.calDone }
    if s.modes.ending then s
    else if (calSteps r).all fun k => s.boot.calDone.contains k then s.calDone
    else s

def execCalibrationStepDone (step : CalStep) (s : State) : Res := .next (calibrationStepDone step s)

/-- A write of RESET_CAUSE clears the bits written with 1 (R13, R52). -/
def resetCauseWrite (_fn : Nat) (value : Word) (s : State) : State :=
  let s := s.begin
  if s.hostUp then s.setBoot { s.boot with resetCause := s.boot.resetCause &&& ~~~value } else s

def execResetCauseWrite (fn : Nat) (value : Word) (s : State) : Res := .next (resetCauseWrite fn value s)

end Sys2Proof.Machine
end

