-- ==== Sys2Proof/Machine/Cipher.lean ====
section
/-! DEFINITION. The take of a job by a cipher core: provisional replay check, key checks, counting under a key (R181,
R206, R217 to R230). -/

namespace Sys2Proof.Machine

/-! ### Indices and windows (R181, R229) -/

/-- The index estimate of a sequence number under RFC 3711, Appendix A (R229). A stream of which no packet was authenticated has no
highest number, and takes its ROC as it stands (DEDUCED, log entry 116). -/
def estimateIndex (started : Bool) (sl roc seq : Nat) : Nat :=
  let v :=
    if !started then roc
    else if sl < 32768 then (if 32768 + sl < seq then roc + (2 ^ 32 - 1) else roc)
    else if seq + 32768 < sl then roc + 1
    else roc
  v % 2 ^ 32 * 65536 + seq

/-- Whether an index may be taken: right of the window's left edge and not marked; bit `i` of `window` marks the index
`i` below the highest (R181). -/
def windowFree (started : Bool) (top window size idx : Nat) : Bool :=
  if !started || decide (top < idx) then true
  else decide (top - idx < size) && !window.testBit (top - idx)

/-- Marks an index: the new highest and the window (R181). -/
def windowMark (started : Bool) (top window size idx : Nat) : Nat × Nat :=
  if !started then (idx, 1)
  else if top < idx then (idx, (window * 2 ^ (min (idx - top) size) + 1) % 2 ^ size)
  else (top, window ||| 2 ^ (top - idx))

/-- The highest index of a stream. -/
def SsrcState.top (r : SsrcState) : Nat := r.roc * 65536 + r.highest

/-- The index of a received payload and whether the replay check passes now (R181, R206, R229). -/
def State.replayIndex (g : Leg) (cls : ClassRec) (app : App) : Nat × Bool :=
  match app with
  | .rtp p =>
    let r := g.rx.getD (g.ssrcIdx p.ssrc ((cls.format p.pt).getD 0)) {}
    let i := estimateIndex r.started r.highest r.roc p.seq
    (i, windowFree r.started r.top r.window cls.replayWindow i)
  | .rtcp c => (c.index % 2 ^ 31, windowFree g.rtcpStarted g.rtcpHighest g.rtcpWindow 64 (c.index % 2 ^ 31))
  | .zwiva z =>
    let r := g.trunkRx
    (z.trunkIndex, windowFree r.started r.top r.window cls.replayWindow z.trunkIndex)
  | _ => (0, true)

/-! ### Checks against the slot (R228) -/

/-- What the checks of R228 find. -/
inductive KeyCheck where
  | ok | pair | absent | generation
  deriving DecidableEq, Repr, Inhabited

/-- The first three checks of R228; a leg that has closed has no pair to fail. -/
def State.keyCheck (s : State) (pairGood : Bool) (slot gen : Nat) : KeyCheck :=
  let r := s.slot slot
  if !pairGood then .pair
  else if !r.loaded then .absent
  else if r.generation ≠ gen then .generation
  else .ok

/-- Adds to counter `i` of core `c` (R230). -/
def State.countCore (s : State) (c i k : Nat) : State := s.updCore c fun q => { q with counters := bump q.counters i k }

/-- The effects of a failed check: the core's counter, the leg's counter `legCtr`, and the fence of a leg whose pair
fails (R117, R228). -/
def State.keyDrop (s : State) (core leg serial legCtr : Nat) (k : KeyCheck) : State :=
  match k with
  | .ok => s
  | .pair => ((s.countCore core 4 1).countTo leg serial legCtr 1).fenceLegPair leg 2
  | .absent => (s.countCore core 4 1).countTo leg serial legCtr 1
  | .generation => (s.countCore core 5 1).countTo leg serial legCtr 1

/-! ### Timing (R221, R222) -/

/-- A PCLK cycle in ps. -/
def pclkPs : Nat := 625

/-- What of a payload a core works through: its protected extent, for a Zwiva datagram with its header (R221). -/
def coreBytes (a : App) : Nat := appExtent a + (match a with | .zwiva _ => 20 | _ => 0)

/-- Cycles of occupancy of a core (R221). -/
def coreCycles (a : App) : Nat := max 1 (ceilDiv (coreBytes a) 128)

/-- Cycles of occupancy of the HMAC unit (R221). -/
def hmacCycles (a : App) : Nat := 3 + ceilDiv (appExtent a + 4 + 9) 64

/-- Cycles from take to result where no unit is waited for (R221). -/
def latencyCycles (profile : Nat) (a : App) : Nat :=
  if 3 ≤ profile then 40 + 4 * hmacCycles a else 36 + ceilDiv (coreBytes a) 128

/-- The HMAC unit of group `p`. -/
def State.hmac (s : State) (p : Nat) : HmacUnit := s.hmacs.getD {} p

/-- The unit's input queue holds 64 jobs at an instant (R222). -/
def HmacUnit.full (u : HmacUnit) (t : Nat) : Bool := decide (64 ≤ u.starts.countP fun x => decide (t < x))

/-- A job of `n` cycles enters the unit at `t`: when it starts, in the first of the four interleaved places that is free, and the
unit after it (DEDUCED from R221 and R222, log entry 123: each place runs one cycle in four). -/
def HmacUnit.enter (u : HmacUnit) (t n : Nat) : Nat × HmacUnit :=
  let first := u.places.foldl min (u.places.headD 0)
  let start := max t first
  (start, { places := u.places.set (u.places.findIdx fun x => x == first) (start + 4 * n * pclkPs)
            starts := start :: u.starts.filter fun x => decide (t < x) })

/-- The instant at which a core can start its next job, in ps: now, or when it is free. -/
def State.startAt (s : State) (core : Nat) : Nat := max (s.now * 1000) (s.core core).freeAt

/-- A core takes no job: unavailable, or out of dispatch for a test (R37, R458, R459). -/
def State.coreOut (s : State) (core : Nat) : Bool :=
  s.avail.down.has (instId 5 core) || s.avail.lent.has (instId 5 core) || s.underWholeTest 5 core

/-- The core of group `p` that is free soonest, of cores free equally soon the lowest-numbered (R221). -/
def State.nextCore (s : State) (p : Nat) : Option Nat :=
  (((List.range 5).map fun i => 5 * p + i).filter fun k => !s.coreOut k).foldl
    (fun best k => match best with
      | none => some k
      | some b => if s.startAt k < s.startAt b then some k else best) none

/-- A core takes a job: its key copied into a private key register, its result due after the job's latency (R221, R222, R227). -/
def State.startJob (s : State) (core slot : Nat) (j : Job) (a : App) (index : Nat) : State :=
  let r := s.slot slot
  let t := s.startAt core
  let h := if 3 ≤ r.profile then (s.hmac (core / 5)).enter t (hmacCycles a) else (t, s.hmac (core / 5))
  let s := { s with takeNo := s.takeNo + 1, hmacs := if 3 ≤ r.profile then s.hmacs.put (core / 5) h.2 else s.hmacs }
  s.updCore core fun q =>
    { q with
      freeAt := t + coreCycles a * pclkPs
      jobs := q.jobs ++ [{ job := j, takeNo := s.takeNo, keyReg := r.keys, profile := r.profile, index := index
                           readyAt := h.1 + latencyCycles r.profile a * pclkPs }] }

/-! ### The key cache (R209, R230) -/

/-- A fill of the key cache, which holds 65,536 records: a record gives way where it is full. -/
def fillCache (cache : List Nat) (slot victim : Nat) : List Nat :=
  if cache.length < 65536 then slot :: cache else cache.set (victim % 65536) slot

/-- A take reads its slot's record in the key cache; one that waits for a fill counts in KEY_CACHE_MISSES, whatever the checks
then find. Where the slot number fails its pair, no record is read (R209, R228, R230). Which record of a full cache gives way,
which no rule says, comes with the command (log entry 119). -/
def State.readKey (s : State) (core slot : Nat) (pairGood : Bool) (victim : Nat) : State :=
  if !pairGood || s.keyCache.contains slot then s
  else { s with keyCache := fillCache s.keyCache slot victim }.countCore core 8 1

/-! ### Counting (R225, R226) -/

/-- Raises EV_KEY_REKEY_DUE or EV_KEY_EXHAUSTED to the slot's holder (R81, R225). -/
def State.keyEvent (s : State) (code slot idx : Nat) (rtcp : Bool) : State :=
  s.raiseEvent (s.slotHolder slot) code [w32 slot, w32 idx, w32 (idx / 2 ^ 32 % 65536 + 65536 * b2n rtcp)]

/-- Advances INDEX or RTCP_INDEX at a take, with the events at its limits (R225). -/
def State.advanceIndex (s : State) (slot : Nat) (rtcp : Bool) : State :=
  let r := s.slot slot
  let i := (if rtcp then r.rtcpIndex else r.index) + 1
  let due := decide (i = if rtcp then 2 ^ 30 else 2 ^ 47) && !(if rtcp then r.rtcpRekeyRaised else r.rekeyRaised)
  let out := decide (i = if rtcp then 2 ^ 31 - 2 ^ 16 else 2 ^ 48 - 2 ^ 16)
  let s := s.updSlot slot fun r =>
    if rtcp then { r with rtcpIndex := i, rtcpRekeyRaised := r.rtcpRekeyRaised || due
                          rtcpExhausted := r.rtcpExhausted || out }
    else { r with index := i, rekeyRaised := r.rekeyRaised || due, exhausted := r.exhausted || out }
  let s := if due then s.keyEvent 0x102 slot i rtcp else s
  if out then s.keyEvent 0x103 slot i rtcp else s

/-- The copy with the index that its packet carries on the wire (R219, R220, R225). -/
def Copy.withIndex (c : Copy) (use : Nat) : Copy :=
  match c.body with
  | .rtcp r => { c with body := .rtcp { r with index := use, e := true }, index := use }
  | .zwiva z => { c with body := .zwiva { z with trunkIndex := use }, index := use }
  | _ => c

/-- A datagram to a trunk counts under INDEX even when it carries RTCP (R205, R225). -/
def Copy.underRtcp (c : Copy) : Bool := match c.body with | .rtcp _ => true | _ => false

/-- A copy whose own packet index is beyond the limit (R226). -/
def Copy.overIndex (c : Copy) : Bool := match c.body with | .rtp _ => decide (2 ^ 48 - 2 ^ 16 ≤ c.index) | _ => false

/-- The take of an egress job (R225, R226, R228). -/
def State.takeTx (s : State) (core : Nat) (c : Copy) (victim : Nat) : State :=
  let pairGood := !(s.isOpen c.leg c.ctx.serial) || (s.legs.find? c.leg).all fun g => pairOk g.txSlot g.txSlotC
  let s := s.readKey core c.ctx.slot pairGood victim
  match s.keyCheck pairGood c.ctx.slot c.ctx.gen with
  | .ok =>
    let r := s.slot c.ctx.slot
    let rtcp := c.underRtcp
    if (if rtcp then r.rtcpExhausted else r.exhausted) || c.overIndex then
      (s.countCore core 6 1).countTo c.leg c.ctx.serial 31 1
    else
      let use := if rtcp then r.rtcpIndex else r.index
      (s.startJob core c.ctx.slot (.tx (c.withIndex use)) c.body (c.withIndex use).index).advanceIndex c.ctx.slot rtcp
  | k => s.keyDrop core c.leg c.ctx.serial 31 k

/-- The take of an ingress job for a leg in bank `bank` under roster slot `k` (R181, R222, R228). -/
def State.takeFor (core leg conf bank k : Nat) (app : App) (gen : Nat) (j : Job) (victim : Nat) (s : State) : State :=
  match s.legs.find? leg with
  | none => s
  | some g =>
    let cls := (s.planD conf bank).classOf k
    let r := State.replayIndex g cls app
    if !r.2 then s.countLeg leg 4 1
    else
      let slot := fld g.rxSlot 20 0
      let s := s.readKey core slot (pairOk g.rxSlot g.rxSlotC) victim
      match s.keyCheck (pairOk g.rxSlot g.rxSlotC) slot gen with
      | .ok =>
        if decide (3 ≤ (s.slot slot).profile) && (s.hmac (core / 5)).full (s.startAt core) then
          (s.countCore (core / 5 * 5) 7 1).countLeg leg 3 1
        else s.startJob core slot j app r.1
      | c => s.keyDrop core leg g.serial 7 c

/-- The take of an ingress job, for the leg as it was open at the packet's lookup (R92, R181, R222, R228). -/
def State.takeRx (s : State) (core : Nat) (j : Job) (victim : Nat) : State :=
  match j with
  | .tx _ => s
  | .rx leg serial conf bank k _ _ app _ gen _ => s.asOpened leg serial (State.takeFor core leg conf bank k app gen j victim)

/-- CIPHER_TAKE: the core of its group that is free soonest takes the next job, where it can start within the present nanosecond and
leg traffic runs; ingress jobs go before egress jobs (R33, R35, R38, R221). -/
def cipherTake (core victim : Nat) (s : State) : State :=
  let s := s.begin
  let p := core / 5
  if !s.moves || decide (39 < core) || s.nextCore p != some core || decide ((s.now + 1) * 1000 ≤ s.startAt core) then s
  else
    match s.rxJobs.getD [] p with
    | j :: rest => ({ s with rxJobs := s.rxJobs.put p rest }).takeRx core j victim
    | [] =>
      match s.txJobs.getD [] p with
      | .tx c :: rest => ({ s with txJobs := s.txJobs.put p rest }).takeTx core c victim
      | _ => s

def execCipherTake (group unit victim : Nat) (s : State) : Res := .next (cipherTake (5 * group + unit) victim s)

end Sys2Proof.Machine
end

