-- ==== Sys2Proof/Machine/Compose.lean ====
section
/-! DEFINITION. The Gallery composer: crop, scaling, colour, blending, narrowing, and the completion of a band (R357 to R374);
and ROUTE_SET for a layout (R359). -/

namespace Sys2Proof.Machine

/-! ### Sources (R358, R361, R363) -/

/-- The planes of a picture. -/
def Picture.plane (p : Picture) (n : Nat) : List Nat := if n = 0 then p.y else if n = 1 then p.cb else p.cr

/-- Sample (x, y) of a plane in 12 bits (R363). -/
def pic12 (p : Picture) (n x y : Nat) : Nat :=
  let w := if n = 0 then p.w else p.w / 2
  (Picture.plane p n).getD (y * w + x) 0 * if p.deep then 4 else 16

/-- A source as a layer sees it: its size and its samples in 12 bits by plane and position. -/
structure Source where
  w : Nat
  h : Nat
  bands : List Picture
  whole : Bool

/-- Sample (x, y) of a plane of a source. -/
def Source.at12 (q : Source) (n x y : Nat) : Nat :=
  if q.whole then pic12 (q.bands.headD {}) n x y
  else
    let rows := if n = 0 then 64 else 32
    pic12 (q.bands.getD (y / rows) {}) n x (y % rows)

/-- The source that a drawn layer reads; none where it draws FILL or nothing. -/
def State.sourceOf (s : State) : Drawn → Option Source
  | .picture i k _ =>
    let p := ((s.sessAt i).fbs.getD k {}).pic
    some { w := p.w, h := p.h, bands := [p], whole := true }
  | .output bufs i _ =>
    let ps := bufs.map fun l => (s.fb (.output i) (l.headD 0)).pic
    some { w := (ps.headD {}).w, h := (ps.map fun (p : Picture) => p.h).sum, bands := ps, whole := false }
  | _ => none

/-- One direction of a crop in a plane (R361): first sample and extent, with `half` 2 for chroma. -/
def cropOf (origin extent size half : Nat) : Nat × Nat :=
  let c := 2 * (origin * size / 2 ^ 17)
  let e := max 2 (2 * (extent * size / 2 ^ 17))
  (c / half, min e (size - c) / half)

/-! ### Scaling (R361, R362) -/

/-- How often a ratio above `limit` is halved by reading every second sample (R362). -/
def halvings (limit dst : Nat) : Nat → Nat → Nat
  | 0, _ => 0
  | n + 1, src => if src ≤ limit * dst then 0 else 1 + halvings limit dst n (ceilDiv src 2)

/-- One direction of the scaling of a layer: first source sample, extent after decimation, step, destination extent, taps
(R361, R362). -/
structure Axis where
  start : Nat
  len : Nat
  step : Nat
  dst : Nat
  taps : Nat

/-- The axis of a direction: `limit` is its highest ratio (R362). -/
def axisOf (vertical : Bool) (c : Nat × Nat) (dst : Nat) : Axis :=
  let limit := if vertical then 4 else 8
  let n := halvings limit dst 16 c.2
  let len := ceilDiv c.2 (2 ^ n)
  let taps := if len ≤ 2 * dst then 6 else if vertical then 3 else if len ≤ 4 * dst then 12 else 24
  { start := c.1, len := len, step := 2 ^ n, dst := dst, taps := taps }

/-- The source position of sample `k` in units of 1/64, rounded half up (R361). -/
def Axis.pos (a : Axis) (k : Nat) : Int :=
  ((64 * (2 * k + 1) * a.len : Int) - 63 * a.dst) / (2 * a.dst)

/-- The source sample, in source coordinates, of tap position `i`: clamped to the crop (R361). -/
def Axis.tap (a : Axis) (i : Int) : Nat := a.start + a.step * (max 0 (min i ((a.len : Int) - 1))).toNat

/-- Coefficient `j` of the scaler's filter at phase `p`: the ROM's where they sum to 256, as the rule has it, else the two taps
around the position alike (R362, log entry 5). -/
def scaleCoeff (taps p j : Nat) : Int :=
  if ((List.range taps).map fun i => (Config.scaleRom taps p i).toInt).sum = 256 then (Config.scaleRom taps p j).toInt
  else if j = (taps - 1) / 2 ∨ j = (taps - 1) / 2 + 1 then 128 else 0

/-- One filtered sample from samples `f` by source coordinate (R362). A direction that is not scaled passes its samples
(R367); taps lie around the position as the family's symmetric filters do (log entry 36). -/
def Axis.filter (a : Axis) (f : Nat → Nat) (k : Nat) : Nat :=
  if a.len = a.dst then f (a.tap k)
  else
    let p := a.pos k
    let i0 := p / 64 - ((a.taps - 1) / 2 : Nat)
    let sum := ((List.range a.taps).map fun (j : Nat) =>
      scaleCoeff a.taps (p % 64).toNat j * (f (a.tap (i0 + j)) : Int)).sum
    (max 0 (min ((sum + 128) / 256) 4095)).toNat

/-- The axes of a layer's source in a plane. -/
def Layer.axes (l : Layer) (q : Source) (n : Nat) : Axis × Axis :=
  let half := if n = 0 then 1 else 2
  (axisOf false (cropOf l.cropX l.cropW q.w half) (l.w / half), axisOf true (cropOf l.cropY l.cropH q.h half) (l.h / half))

/-- Scaled sample (k, m) of a layer in a plane: horizontally first, then vertically (R362). -/
def Layer.scaled (l : Layer) (q : Source) (n k m : Nat) : Nat :=
  let ax := l.axes q n
  ax.2.filter (fun y => ax.1.filter (fun x => q.at12 n x y) k) m

/-- Whether a layer's source is brought within a limit by decimation (R362). -/
def Layer.decimated (l : Layer) (q : Source) : Bool :=
  let ax := l.axes q 0
  decide (1 < ax.1.step) || decide (1 < ax.2.step)

/-! ### Colour (R365, R366) -/

/-- The 12-bit range of a colour code for luma and chroma (R366). -/
def colourRange (code : Nat) (luma : Bool) : Nat × Nat :=
  if code = 2 then (0, 4095) else if luma then (256, 3760) else (256, 3840)

/-- Kr, Kg and Kb of a colour code: ITU-R BT.601 for code 1, BT.709 for the others (R365, R366; PRESUMED from those standards, log
entry 133). -/
def lumaWeights (code : Nat) : Rat × Rat × Rat :=
  if code = 1 then (299 / 1000, 587 / 1000, 114 / 1000) else (2126 / 10000, 7152 / 10000, 722 / 10000)

/-- The 12-bit extent and zero of component `n` of a colour code (R366). -/
def colourScale (code n : Nat) : Rat × Rat :=
  if code = 2 then (4095, if n = 0 then 0 else 2048) else if n = 0 then (3504, 256) else (3584, 2048)

/-- R, G and B from luma and the two colour differences of a code, row by row. -/
def toRgb (code : Nat) : List (List Rat) :=
  let k := lumaWeights code
  [[1, 0, 2 * (1 - k.1)], [1, -(2 * k.2.2 * (1 - k.2.2)) / k.2.1, -(2 * k.1 * (1 - k.1)) / k.2.1], [1, 2 * (1 - k.2.2), 0]]

/-- Luma and the two colour differences of a code from R, G and B, row by row. -/
def fromRgb (code : Nat) : List (List Rat) :=
  let k := lumaWeights code
  let b := 2 * (1 - k.2.2)
  let r := 2 * (1 - k.1)
  [[k.1, k.2.1, k.2.2], [-k.1 / b, -k.2.1 / b, (1 - k.2.2) / b], [(1 - k.1) / r, -k.2.1 / r, -k.2.2 / r]]

/-- The factor of component `j` of code `a` in component `n` of code `b`, in 12-bit samples (R365). -/
def colourFactor (a b n j : Nat) : Rat :=
  ((List.range 3).map fun i => ((fromRgb b).getD n []).getD i 0 * ((toRgb a).getD i []).getD j 0).sum
    * (colourScale b n).1 / (colourScale a j).1

/-- A ROM entry of the conversion from code `a` to code `b` in Q2.14, rounded to nearest: column 3 is the offset of the row (R365;
the rounding is a DESIGN CHOICE, log entry 133). -/
def colourCoeff (a b n j : Nat) : Int :=
  let v := if j < 3 then colourFactor a b n j
    else (colourScale b n).2 - ((List.range 3).map fun i => colourFactor a b n i * (colourScale a i).2).sum
  (v * 16384 + 1 / 2).floor

/-- One converted sample (R365). -/
def colourConv (a b n y cb cr : Nat) : Nat :=
  let v : Int := colourCoeff a b n 0 * y + colourCoeff a b n 1 * cb + colourCoeff a b n 2 * cr + colourCoeff a b n 3
  let r := colourRange b (n == 0)
  (max (r.1 : Int) (min ((v + 8192) / 16384) r.2)).toNat

/-- A layer's sample in the output's colour (R365): the mean of four luma samples is rounded half up. -/
def Layer.sample (l : Layer) (q : Source) (out n k m : Nat) : Nat :=
  if l.colour = out then l.scaled q n k m
  else if n = 0 then
    colourConv l.colour out 0 (l.scaled q 0 k m) (l.scaled q 1 (k / 2) (m / 2)) (l.scaled q 2 (k / 2) (m / 2))
  else
    let sum := l.scaled q 0 (2 * k) (2 * m) + l.scaled q 0 (2 * k + 1) (2 * m) + l.scaled q 0 (2 * k) (2 * m + 1)
      + l.scaled q 0 (2 * k + 1) (2 * m + 1)
    colourConv l.colour out n ((sum + 2) / 4) (l.scaled q 1 k m) (l.scaled q 2 k m)

/-! ### Blending (R357, R358, R363) -/

/-- A colour laid out as BACKGROUND, in 12 bits (R356, R363). -/
def fillOf (fill n : Nat) : Nat := fill / 2 ^ (10 * n) % 1024 * 4

/-- What is drawn by a layer: its rectangle, whether as a frame of BORDER pixels, and its source. -/
structure Shape where
  layer : Layer
  x : Nat
  y : Nat
  w : Nat
  h : Nat
  frame : Option Nat
  src : Option Source

/-- Whether a shape covers sample (x, y) of a plane; chroma at the chroma positions (R363). -/
def Shape.covers (q : Shape) (n x y : Nat) : Bool :=
  let f := if n = 0 then 1 else 2
  let x := x * f
  let y := y * f
  let inside := decide (q.x ≤ x ∧ x < q.x + q.w ∧ q.y ≤ y ∧ y < q.y + q.h)
  match q.frame with
  | none => inside
  | some b =>
    inside && (decide (x < q.x + b) || decide (q.x + q.w ≤ x + b) || decide (y < q.y + b) || decide (q.y + q.h ≤ y + b))

/-- A blended sample (R363). -/
def Layer.blended (l : Layer) (v d : Nat) : Nat :=
  if l.blend = 0 then v else (l.alpha * v + (256 - l.alpha) * d + 128) / 256

/-- A shape drawn over sample `d` at (x, y) of a plane, in picture coordinates. -/
def Shape.draw (q : Shape) (out n x y d : Nat) : Nat :=
  if !q.covers n x y then d
  else
    let f := if n = 0 then 1 else 2
    q.layer.blended (match q.src with
      | none => fillOf q.layer.fill n
      | some src => q.layer.sample src out n (x - q.x / f) (y - q.y / f)) d

/-- The shape of a layer under a latch (R358): none where nothing is drawn. -/
def State.layerShape (s : State) (p : Plan) (x : Latch) (lay : Layout) (l : Layer) (d : Drawn) : Option Shape :=
  let own : Shape := { layer := l, x := l.x, y := l.y, w := l.w, h := l.h, frame := none, src := s.sourceOf d }
  if l.source = 3 then
    match p.holderSession (x.holders.getD (l.arg % 16) none) with
    | none => none
    | some n => (lay.layers.find? fun y => y.source == 0 && y.arg == n).map fun y =>
        { own with x := y.x, y := y.y, w := y.w, h := y.h, frame := some l.border, src := none }
  else some own

/-- The shapes of a band back to front (R363). -/
def State.shapes (s : State) (p : Plan) (x : Latch) (lay : Layout) (band : Nat) : List Shape :=
  let ds := x.bands.getD x.drawn band
  (lay.order.getD (List.range lay.layers.length)).filterMap fun k =>
    (lay.layers[k]?).bind fun l => s.layerShape p x lay l (ds.getD k .nothing)

/-! ### Narrowing (R367) -/

/-- The dither matrix B (R367). -/
def ditherB (x y : Nat) : Nat :=
  ([[0, 8, 2, 10], [12, 4, 14, 6], [3, 11, 1, 9], [15, 7, 13, 5]].getD (y % 4) []).getD (x % 4) 0

/-- A 12-bit value narrowed to its depth (R367). -/
def narrowDepth (deep : Bool) (v x y : Nat) : Nat :=
  if deep then min 1023 ((v + 2) / 4) else min 255 ((v + ditherB x y) / 16)

/-- A plane of a band in 12 bits: row by row, with positions in picture coordinates. -/
def bandPlane (o : OutputRec) (band n : Nat) (f : Nat → Nat → Nat) : List Nat :=
  let w := if n = 0 then o.w else o.w / 2
  let rows := if n = 0 then bandRows o.h band else bandRows o.h band / 2
  let y0 := band * if n = 0 then 64 else 32
  (List.range rows).flatMap fun y => (List.range w).map fun x => f x (y0 + y)

/-- A band's picture from samples by plane and position. -/
def bandPicture (o : OutputRec) (band : Nat) (deep : Bool) (f : Nat → Nat → Nat → Nat) : Picture :=
  { w := o.w, h := bandRows o.h band, deep := deep
    y := bandPlane o band 0 (f 0), cb := bandPlane o band 1 (f 1), cr := bandPlane o band 2 (f 2) }

/-- The pictures of a band from its 12-bit values: one, or two under DUAL8 (R354, R367). -/
def bandPictures (o : OutputRec) (band : Nat) (v : Nat → Nat → Nat → Nat) : List Picture :=
  let one := fun (deep : Bool) => bandPicture o band deep fun n x y => narrowDepth deep (v n x y) x y
  if o.dual then [one o.deep, one false] else [one o.deep]

/-- A band composed from its latch (R363). -/
def State.composed (s : State) (p : Plan) (o : OutputRec) (x : Latch) (lay : Layout) (band : Nat) : List Picture :=
  let shapes := s.shapes p x lay band
  bandPictures o band fun n px py =>
    shapes.foldl (fun (d : Nat) (q : Shape) => q.draw o.colour n px py d) (fillOf lay.background n)

/-! ### The completion of a band (R364, R370, R372) -/

/-- The pictures of a band and its status: copied or filled after failed inputs or a failed layout reference, else composed
(R372). -/
def State.bandResult (s : State) (l : Live) (p : Plan) (o : OutputRec) (i band : Nat) (x : Latch) : List Picture × Nat :=
  let copy := fun (ks : List Nat) => ks.map fun k => (s.fb (.output i) k).pic
  match x.layout with
  | none =>
    match x.last.getD band [] with
    | [] => (bandPictures o band fun n px py => Config.noPicture o.output n (py * o.w + px) % 4096, 1)
    | ks => (copy ks, 1)
  | some lay =>
    if !l.inputs.isEmpty && l.inputs.all (fun q => q.2.1 == 2) then
      match (s.outAt i).conceal.getD [] band with
      | [] => (bandPictures o band fun n _ _ => fillOf lay.background n, 1)
      | ks => (copy ks, 1)
    else (s.composed p o x lay band, 0)

/-- The output's marks after band `band` of an instance completed into the buffers `ks` (R354, R370). -/
def OutState.bandDone (u : OutState) (run band bands : Nat) (ks : List Nat) (done : FMap (List Nat)) : OutState :=
  let whole := (List.range bands).all fun b => done.has b
  let newer := match u.lastRun with | none => true | some r => decide (r < run)
  let last := if whole && newer then (List.range bands).map fun b => done.getD [] b else u.last
  let conceal := u.conceal.put band ks
  let cs := conceal.flatMap Prod.snd
  { u with
    conceal := conceal, last := last
    lastRun := if whole && newer then some run else u.lastRun
    fbs := u.fbs.zipIdx.map fun q =>
      if q.1.st = .writing ∨ q.1.st = .free then q.1
      else ({ q.1 with conceal := cs.contains q.2, out := last.flatten.contains q.2 } : Fb).settle }

/-- COMPOSE_ROW_DONE: the unit has written a dispatched band: its buffers become VALID, the marks move, the counters count,
and it reports its status (R364, R370, R372, R374). -/
def composeRowDone (task : Nat) (s : State) : State :=
  let s := s.begin
  match s.live? task with
  | none => s
  | some l =>
    if l.st ≠ .dispatched ∨ l.task.op ≠ 7 ∨ l.reported.isSome then s
    else
      let g := s.runOf l
      let p := s.runPlan g
      let band := fld l.task.param 5 0
      match p.outputRec l.task.ref, s.outNo g.conf g.bank l.task.ref, g.latches.find? l.task.ref with
      | some o, some i, some x =>
        let r := s.bandResult l p o i band x
        let ks := l.bufs.map Prod.snd
        let decimated := match x.layout with
          | none => 0
          | some lay =>
            ((lay.layers.zip (x.bands.getD x.drawn band)).filter fun q => q.1.inBand band).countP fun q =>
              match s.sourceOf q.2 with | some src => q.1.decimated src | none => false
        let s := (ks.zip r.1).foldl (fun (s : State) (q : Nat × Picture) =>
          s.updFb (.output i) q.1 fun f => { f with st := .valid, pic := q.2, concealed := r.2 == 1, count := l.run }) s
        let done := x.done.put band ks
        let s := s.updRun l.run fun g => { g with latches := g.latches.put o.output { x with done := done } }
        let s := s.updOut i fun u => u.bandDone l.run band (bandsOf o.h) ks done
        let s := s.countConf g.conf 22 1
        let s := if (List.range (bandsOf o.h)).all fun b => done.has b then s.countConf g.conf 23 1 else s
        let s := if r.2 = 1 ∧ x.layout.isSome then s.countConf g.conf 24 1 else s
        let s := if r.2 = 0 then s.countConf g.conf 26 decimated else s
        s.updLive task fun l => { l with reported := some r.2 }
      | _, _, _ => s.updLive task fun l => { l with reported := some 2 }

def execComposeRowDone (task : Nat) (s : State) : Res := .next (composeRowDone task s)

/-! ### ROUTE_SET for a layout (R80, R359) -/

/-- ROUTE_SET with TARGET 1: CROSSFADE is ignored for layouts (R80). -/
def routeSetLayoutBody (id : Nat) (c : Taken) (s : State) : State :=
  let conf := fld (c.w 3) 15 0
  let output := fld (c.w 4) 15 0
  let ref := fld (c.w 5) 15 0
  let p := (s.conf conf).active
  let known := p.any fun p => (p.outputRec output).isSome && p.layoutSels.any fun x => x.ref == ref && x.output == output
  let bad := !c.lenIs 7 || !zeroFrom (c.w 3) 17 || !zeroFrom (c.w 4) 21 || !zeroFrom (c.w 5) 16
  if fld (c.w 3) 16 16 ≠ 1 then s
  else
    s.checked id
      [(bad, rBadArg), (!s.hasConf c.fn conf, rDenied), (!s.serves 0x061, rWrongMode),
       (!pairOk (c.w 5) (c.w 6), rIntegrity), ((s.conf conf).fenced.isSome, rIntegrity), (!known, rNotFound)]
      fun s => (s.updConf conf fun g => { g with layoutOv := g.layoutOv.put output ref }).commitOk id c 1 conf []

def execRouteSetLayout (id : Nat) (s : State) : Res := .next (s.command id 0x061 (routeSetLayoutBody id))

end Sys2Proof.Machine
end

