-- ==== Sys2Proof/Machine/Replicate.lean ====
section
/-! DEFINITION. The replicator: the fan-out walk, the ladder test, tracks and their switches (R26, R104, R117, R186, R189
to R195, R205). -/

namespace Sys2Proof.Machine

/-! ### Lists (R103, R104, R117) -/

/-- The receiver slots of a list reference; none where its pair fails (R105, R117). -/
def Plan.listOf (p : Plan) (w : Word) : Option (List Nat) :=
  if !pair16Ok w then none else some (p.lists.getD (fld w 15 0) [])

/-- The source descriptor's list for a packet (R103, R190): none where a pair fails. -/
def Plan.packetList (p : Plan) (source : Nat) (c : Class) : Option (List Nat) :=
  match p.sources[source]? with
  | none => some []
  | some d => p.listOf (if c.audio then d.audioList else d.layers.getD (3 * c.s + c.t) 0x0000FFFF)

/-- The leg was bound to slot `k` of conference `c` at the lookup number `look` (R92, R104). -/
def Leg.boundAt (g : Leg) (c k look : Nat) : Bool :=
  g.conf == c && ((g.slot == some k && decide (g.since ≤ look))
    || g.past.any fun b => b.1 == k && decide (b.2.1 ≤ look) && decide (look < b.2.2))

/-- The leg bound to slot `k` of conference `c` for a packet looked up as number `look`, with its opening: one that is open, or one
that closed since (R92, R104). -/
def State.receiver (s : State) (c k look : Nat) : Option (Nat × Nat) :=
  match List.find? (fun p : Nat × Leg => p.2.boundAt c k look) s.legs with
  | some p => some (p.1, p.2.serial)
  | none =>
    (List.find? (fun p : Nat × Gone => decide (look < p.2.look) && p.2.leg.boundAt c k look) s.gone).map fun p => (p.2.num, p.1)

/-- The ladder of a roster entry; none for LADDER 0xFFFF (R189). -/
def Plan.ladderOf (p : Plan) (r : RosterSlot) : Option Ladder :=
  if r.ladder = 0xFFFF then none else p.ladders.find? fun l => l.idx == r.ladder

/-- The wanted cut of a rung code; none where OFF (R189). -/
def rungCut (rung : Nat) : Option (Nat × Nat) := if rung.testBit 4 then none else some (rung % 4, rung / 4 % 4)

/-- The wanted cut of a receiver at a rate class (R189). -/
def Plan.wantedCut (p : Plan) (r : RosterSlot) (cls : Nat) : Option (Nat × Nat) :=
  (p.ladderOf r).bind fun l => rungCut (l.rungs.getD cls 16)

/-- The rate class that decides a receiver's cut: the leg's, which the estimator leaves at the RATE_INIT of the binding for trunks
and classes without estimator (R113, R203). -/
def rateClass (g : Leg) : Nat := g.est.cls

/-! ### The sender's side of a track (R186, R192, R194) -/

/-- A packet of a class is within cut (S, T) (R186). -/
def Class.within (c : Class) (S T : Nat) : Bool :=
  (if c.simul then c.s == S else decide (c.s ≤ S)) && decide (c.t ≤ T)

/-- The receive state of stream `k` of a packet's sender: of the leg, of the trunk source, or
of the locally originated source (R22, R179, R206). -/
def State.senderStream (s : State) (pk : ReplPacket) (k : Nat) : SsrcState :=
  match pk.srcLeg with
  | none => (((s.conf pk.conf).locals.getD {} pk.source).streams).getD k {}
  | some l =>
    match s.legs.find? l, pk.trunk with
    | some g, none => g.rx.getD k {}
    | some g, some t => ((g.hist.sources.getD {} t.1).streams).getD k {}
    | none, _ => {}

/-- The SSRC that video copies carry: the sender's SSRC1, or the identity SSRC of a trunk source (R191, R194, R204). A
wildcard leg names no SSRC, so its packets' own stands (log entry 23). -/
def State.outSsrc (s : State) (pk : ReplPacket) : Nat :=
  let own := match pk.app with | .rtp p => p.ssrc | _ => 0
  match pk.srcLeg, pk.trunk with
  | none, _ => own
  | some _, some t => t.2
  | some l, none =>
    match s.legs.find? l with
    | some g => if g.ssrcValid.testBit 1 then g.ssrcs.getD 1 0 else own
    | none => own

/-- The KEY and BY_SOURCE of the track of a packet's source (R192). -/
def trackKey (pk : ReplPacket) : Nat × Bool :=
  match pk.srcLeg, pk.trunk with
  | some l, none => (l, false)
  | _, _ => (pk.source, true)

/-- The stream that a new track takes: the highest at or below the wanted S that delivered within the last 1 s, else the
packet's own (R192). -/
def State.firstStream (s : State) (pk : ReplPacket) (S : Nat) : Nat :=
  if !pk.cls.simul then pk.cls.stream
  else
    let live := fun k =>
      let r := s.senderStream pk k
      r.lastArrival != 0 && decide (s.tb0Us < r.lastArrival + 1000000)
    (([3, 2, 1].filter fun k => decide (k ≤ S + 1)).find? live).getD pk.cls.stream

/-- A key request for a packet's source, as it is raised by a track (R195). -/
def State.trackRequest (s : State) (pk : ReplPacket) (stream : Nat) (fir : Bool) : State :=
  match pk.srcLeg with
  | some l => s.keyRequest l fir (s.outSsrc pk) (pk.trunk.map Prod.fst)
  | none => s.refreshSource pk.conf pk.bank pk.source stream

/-! ### Tracks (R192 to R194) -/

/-- Moves track `i` to the front of the recency order. -/
def Leg.touch (g : Leg) (i : Nat) : Leg := { g with recency := i :: g.recency.filter fun j => j != i }

/-- The number of the track to use for a source: its own, else an invalid one, else the least recently used. -/
def Leg.trackFor (g : Leg) (key : Nat × Bool) : Nat × Bool :=
  match g.tracks.findIdx? fun t => t.valid && t.key == key.1 && t.bySource == key.2 with
  | some i => (i, false)
  | none =>
    match g.tracks.findIdx? fun t => !t.valid with
    | some i => (i, true)
    | none => (g.recency.getLast?.getD 0, true)

/-- A new track (R192): CUT is the wanted cut. -/
def newTrack (old : Track) (key : Nat × Bool) (stream roc ssrc : Nat) (want : Nat × Nat) : Track :=
  { outSsrc := ssrc, key := key.1, bySource := key.2, ssrcIdx := stream, cutS := want.1, cutT := want.2
    valid := true, wait := true, roc := roc, lastOut := old.lastOut }

/-- The track of receiver `r` for a packet's source, allocated where it has none: its number and the state (R192). -/
def State.track (s : State) (r : Nat) (pk : ReplPacket) (want : Nat × Nat) (fir : Bool) : Nat × State :=
  let g := s.legs.getD {} r
  let key := trackKey pk
  let i := g.trackFor key
  let s := s.updLeg r fun g => g.touch i.1
  if !i.2 then (i.1, s)
  else
    let old := g.tracks.getD i.1 {}
    let stream := s.firstStream pk want.1
    let s := if old.valid then s.countLeg r 22 1 else s
    let t := newTrack old key stream (s.senderStream pk stream).roc (s.outSsrc pk) want
    let s := s.updLeg r fun g => { g with tracks := g.tracks.set i.1 t }
    (i.1, s.trackRequest pk stream fir)

/-- The spatial part of the cut in force: that of the stream in use for a simulcast sender, of whose packets no others are within a
cut (R186). CUT_S of a new track may name a stream above the one in use; the change to it is then a spatial change (R192, R193;
DEDUCED, log entry 25). -/
def Track.spatial (t : Track) (simul : Bool) : Nat := if simul then t.ssrcIdx - 1 else t.cutS

/-- The number of the cut in force among the nine. -/
def Track.cut (t : Track) (simul : Bool) : Nat := 3 * t.spatial simul + t.cutT

/-- Whether a packet is a switch point for the change of a track to the wanted cut (R193). -/
def switchPoint (t : Track) (c : Class) (want : Nat × Nat) : Bool :=
  let same := c.stream == t.ssrcIdx
  if want.1 = t.spatial c.simul then
    if want.2 < t.cutT then same && c.sof
    else same && c.sof && (c.sw || c.key) && c.within want.1 want.2
  else if c.simul then c.stream == want.1 + 1 && c.sof && c.key
  else if want.1 < t.cutS then same && c.sof
  else same && c.sof && c.key

/-- The ticks of 90 kHz in `us` microseconds, half up (R194). -/
def ticks90 (us : Int) : Int := (us * 90000 + 500000) / 1000000

/-- TS_DELTA at a change of stream (R194). -/
def switchTs (t : Track) (old : SsrcState) (ts arrival : Nat) : Nat :=
  (((old.lastTs : Int) + t.tsDelta + ticks90 ((arrival : Int) - old.lastArrival) - ts) % 2 ^ 32).toNat

/-- The values that a track takes at a switch (R194). -/
def Track.switch (t : Track) (old : SsrcState) (c : Class) (cutseq : List Nat) (ts arrival : Nat) (want : Nat × Nat) :
    Track :=
  let t1 := if c.simul ∧ c.stream ≠ t.ssrcIdx then
    { t with tsDelta := switchTs t old ts arrival, ssrcIdx := c.stream } else t
  { t1 with
    seqDelta := (t.lastOut + 1 + 65536 - cutseq.getD (3 * want.1 + want.2) 0) % 65536
    cutS := want.1, cutT := want.2, pend := false }

/-- Applies the switch rules of R193 and the end of WAIT of R192 to a track; the flag asks for a key request. -/
def Track.advance (t : Track) (old : SsrcState) (c : Class) (cutseq : List Nat) (ts arrival : Nat) (want : Nat × Nat) :
    Track × Bool :=
  let here := t.spatial c.simul
  let t := if want.1 = here then { t with pend := false } else t
  let r : Track × Bool :=
    if want = (here, t.cutT) then (t, false)
    else if switchPoint t c want then (t.switch old c cutseq ts arrival want, false)
    else if want.1 ≠ here ∧ !t.pend then ({ t with pend := true }, true)
    else (t, false)
  let t := r.1
  if t.wait && c.stream == t.ssrcIdx && c.within (t.spatial c.simul) t.cutT && c.key && c.sof then
    ({ t with
      wait := false
      seqDelta := (t.lastOut + 1 + 65536 - cutseq.getD (t.cut c.simul) 0) % 65536 }, r.2)
  else (t, r.2)

/-- Whether a track passes a packet (R191). -/
def Track.passes (t : Track) (c : Class) : Bool := !t.wait && c.stream == t.ssrcIdx && c.within (t.spatial c.simul) t.cutT

/-- The out sequence number of a packet, and the track after it: ROC rises as the number passes from 65,535 to 0 (R191,
R194). -/
def Track.emit (t : Track) (simul : Bool) (cutseq : List Nat) : Nat × Track :=
  let o := (cutseq.getD (t.cut simul) 0 + t.seqDelta) % 65536
  let wrap := decide (o < t.lastOut) && decide (32768 ≤ t.lastOut - o)
  (o, { t with lastOut := o, roc := if wrap then (t.roc + 1) % 2 ^ 32 else t.roc })

/-! ### One entry of the walk (R191, R205) -/

/-- The copy of a packet for a receiver. -/
def baseCopy (pk : ReplPacket) (r : Nat) (g : Leg) (k : Nat) : Copy :=
  { leg := r, conf := pk.conf, bank := pk.bank, body := pk.app, audio := pk.cls.audio, format := pk.cls.format
    index := pk.index, srcLeg := pk.srcLeg, srcIds := pk.srcIds, rslot := k, port := g.port, tReq := pk.tReq
    credit := pk.credit, look := pk.look }

/-- Hands a copy on and counts it for its sender (R207). -/
def State.emitCopy (s : State) (pk : ReplPacket) (c : Copy) : State :=
  (match pk.srcLeg with | some l => s.countLeg l 15 1 | none => s).pushCopy c

/-- The header of a datagram to a trunk (R204, R205). -/
def trunkHeader (pk : ReplPacket) (ident : Nat) (p : RtpPacket) : Zwiva :=
  { simul := pk.cls.simul, stream := pk.cls.stream, s := pk.cls.s, t := pk.cls.t, key := pk.cls.key, sw := pk.cls.sw
    sof := pk.cls.sof, v := pk.cls.v, level := pk.cls.level, sourceIndex := pk.source, format := pk.cls.format
    streamSsrc := ident
    inner := .rtp { p with ext := rewriteExts p pk.srcIds [1, 2, 3] } }

/-- A copy to a trunk receiver: its ladder and fixed rate class decide, no track applies (R205). -/
def State.trunkCopy (s : State) (pk : ReplPacket) (r k : Nat) (g : Leg) (want : Option (Nat × Nat)) : State :=
  let pass := pk.cls.audio || match want with | none => false | some w => pk.cls.within w.1 w.2
  if !pass then s.countLeg r 18 1
  else if 4096 ≤ pk.source then s.countLeg r 20 1
  else
    match pk.app with
    | .rtp p =>
      let ident := if pk.cls.audio then p.ssrc else s.outSsrc pk
      s.emitCopy pk { baseCopy pk r g k with body := .zwiva (trunkHeader pk ident p) }
    | _ => s

/-- A video copy under a track (R191). -/
def State.videoCopy (s : State) (pk : ReplPacket) (r k : Nat) (want : Nat × Nat) (fir : Bool) : State :=
  match pk.app with
  | .rtp p =>
    let a := s.track r pk want fir
    let s := a.2
    let g := s.legs.getD {} r
    let t := g.tracks.getD a.1 {}
    let v := t.advance (s.senderStream pk t.ssrcIdx) pk.cls pk.cutseq p.ts pk.arrival want
    let s := s.updLeg r fun g => { g with tracks := g.tracks.set a.1 v.1 }
    let s := if v.2 then s.trackRequest pk v.1.ssrcIdx (v.1.wait && fir) else s
    if !v.1.passes pk.cls then s.countLeg r 18 1
    else
      let o := v.1.emit pk.cls.simul pk.cutseq
      let s := s.updLeg r fun g => { g with tracks := g.tracks.set a.1 o.2 }
      let out : RtpPacket := { p with ssrc := v.1.outSsrc, seq := o.1, ts := (p.ts + v.1.tsDelta) % 2 ^ 32 }
      s.emitCopy pk { baseCopy pk r g k with
        body := .rtp out, index := o.2.roc * 65536 + o.1, track := some a.1 }
  | _ => s

/-- The selected set for a packet by its look-up: a packet looked up before the last publication goes by the earlier set (R316). -/
def Conf.setFor (g : Conf) (look : Nat) : List Nat := if g.pubLook ≤ look then g.selected else g.prevSel.1

/-- The test of receiver `r` at slot `k` with roster entry `e` (R191). -/
def State.laneTest (plan : Plan) (pk : ReplPacket) (fir : Bool) (k r : Nat) (e : RosterSlot) (s : State) : State :=
  let g := s.legs.getD {} r
  if g.fenced then s
  else
    let selected := ((s.conf pk.conf).setFor pk.look).contains pk.source
    if pk.cls.audio && !((plan.ladderOf e).any fun l => l.audioAll) && !selected then s.countLeg r 19 1
    else
      let want := plan.wantedCut e (rateClass g)
      if g.kind = 2 then s.trunkCopy pk r k g want
      else if pk.cls.audio then s.emitCopy pk (baseCopy pk r g k)
      else
        match want with
        | none => s.countLeg r 18 1
        | some w => s.videoCopy pk r k w fir

/-- One entry of a list: slot `k` (R191), with its receiver as it was at the packet's lookup (R92). -/
def State.walkEntry (plan : Plan) (pk : ReplPacket) (fir : Bool) (s : State) (k : Nat) : State :=
  match s.receiver pk.conf k pk.look, plan.rosterSlot k with
  | some r, some e => s.asOpened r.1 r.2 (State.laneTest plan pk fir k r.1 e)
  | _, _ => s

/-- The walk of a packet over its list (R20, R117, R190, R191). -/
def State.walk (pk : ReplPacket) (s : State) : State :=
  let plan := s.planD pk.conf pk.bank
  match plan.packetList pk.source pk.cls with
  | none => s.fenceConf pk.conf 1 0
  | some slots => slots.foldl (State.walkEntry plan pk pk.joinFir) s

/-- REPLICATOR_WALK: the packet at the head of pipeline `p`'s input queue walks its list, and its copies leave in list order
(R20, R117, R190, R191), while leg traffic runs (R33, R35, R38); its sender stands as it was at the lookup (R92). -/
def replicatorWalk (p : Nat) (s : State) : State :=
  let s := s.begin
  if !s.moves then s
  else
    match s.replQ.getD [] p with
    | [] => s
    | pk :: rest =>
      let s := { s with replQ := s.replQ.put p rest }
      match pk.srcLeg with
      | some l => s.asOpened l pk.srcSerial (State.walk pk)
      | none => State.walk pk s

def execReplicatorWalk (p : Nat) (s : State) : Res := .next (replicatorWalk p s)

end Sys2Proof.Machine
end

