-- ==== Sys2Proof/Machine/Estimator.lean ====
section
/-! DEFINITION. RTCP that a leg sends: reports, NACK service, key requests, sender reports, and the estimator (R195, R198 to
R203). -/

namespace Sys2Proof.Machine

/-! ### The estimator (R202, R203) -/

/-- A number of the 32-bit fixed point with 16 fraction bits (R202). What a result beyond its range reads as is free (log entry
124). -/
def fix32 (x : Int) : Int := if -(2 ^ 31) ≤ x ∧ x < 2 ^ 32 then x else Config.wideFix x

/-- A product of two numbers with 16 fraction bits, rounded to nearest (R202). -/
def fixMul (a b : Int) : Int := fix32 ((a * b + 32768) / 65536)

/-- One reported packet that the send log holds: send time, length, whether received, arrival time in us (R202). -/
structure Fed where
  send : Nat
  length : Nat
  received : Bool
  arr : Option Int
  deriving DecidableEq, Repr, Inhabited

/-- The reported packets of a block, found in the send log of the track with its SSRC (R202). -/
def Leg.fedBlock (g : Leg) (reportUs : Nat) (b : CcfbBlock) : List Fed :=
  match g.tracks.findIdx? fun t => t.valid && t.outSsrc == b.ssrc with
  | none => []
  | some t =>
    b.reports.zipIdx.filterMap fun r =>
      let n := (b.beginSeq + r.2) % 65536
      match g.hist.sendLog.find? (t * 256 + n % 256) with
      | none => none
      | some e =>
        if e.outSeq ≠ n then none
        else some { send := e.launchUs, length := e.length, received := r.1.received
                    arr := if r.1.ato = 0x1FFF then none else some ((reportUs : Int) - (r.1.ato * 1000000 + 512) / 1024) }

/-- Inserts by send time, after equal ones. -/
def insertFed (f : Fed) : List Fed → List Fed
  | [] => [f]
  | a :: r => if f.send < a.send then f :: a :: r else a :: insertFed f r

/-- One received, timed packet (R203). The first packet of a leg starts the group state (log entry 40). -/
def Est.packet (e : Est) (c : ClassRec) (f : Fed) (arr : Int) : Est :=
  if !e.started then
    { e with started := true, groupStart := f.send, sendPrev := f.send, arrPrev := arr, sendLast := f.send, arrLast := arr }
  else
    let e := if (f.send : Int) - e.groupStart < c.groupUs then e
      else
        let d := fix32 (((e.arrLast - e.arrPrev) - (e.sendLast - e.sendPrev)) * 65536)
        let g := fix32 (e.g + fixMul c.alpha (fix32 (d - e.g)))
        { e with
          g := g
          overUse := if (c.gamma : Int) * 65536 < g then e.overUse + (e.sendLast - e.sendPrev) else 0
          sendPrev := e.sendLast, arrPrev := e.arrLast, groupStart := f.send }
    { e with sendLast := f.send, arrLast := arr }

/-- The highest class whose rate is at most `rate`, else 0 (R203). -/
def targetClass (c : ClassRec) (rate : Int) : Nat :=
  ((List.range 32).reverse.find? fun k => decide ((c.classRate.getD k 0 : Int) * 65536 ≤ rate)).getD 0

/-- The rate after a report (R203): kb/s with 16 fraction bits; `loss` has 16 fraction bits, `dt` is in us. -/
def Est.newRate (e : Est) (c : ClassRec) (nowUs : Nat) (dt : Nat) (recv loss : Int) : Est :=
  let calm := match e.lastDecrease with | none => true | some t => decide (t + 200000 ≤ nowUs)
  let e := if (c.overuseMs : Int) * 1000 ≤ e.overUse ∧ calm = true then
      { e with rate := fixMul c.beta recv, lastDecrease := some nowUs }
    else if -(c.gamma : Int) * 65536 ≤ e.g then
      { e with rate := fix32 (e.rate + fixMul (fixMul e.rate c.eta) (fix32 ((dt * 65536 + 500000) / 1000000 : Nat))) }
    else e
  let r := if (c.lossHigh : Int) < loss then fixMul e.rate (65536 - loss / 2) else e.rate
  { e with rate := max ((c.rMin : Int) * 65536) (min r (min ((c.rMax : Int) * 65536) (fixMul recv 98304))) }

/-- The class after a report (R203). -/
def Est.newClass (e : Est) (c : ClassRec) (dt : Nat) : Est :=
  let t := targetClass c e.rate
  if t < e.cls then { e with cls := t, held := 0 }
  else if e.cls < t then
    if (c.holdUpMs : Int) * 1000 ≤ e.held + dt then { e with cls := e.cls + 1, held := 0 }
    else { e with held := e.held + dt }
  else { e with held := 0 }

/-- One report (R203). -/
def Est.report (e : Est) (c : ClassRec) (nowUs : Nat) (fs : List Fed) : Est :=
  let dt := match e.lastReport with | none => 0 | some t => nowUs - t
  let timed := fs.filter fun f => f.received && f.arr.isSome
  let sorted := timed.foldl (fun (l : List Fed) f => insertFed f l) []
  let e := sorted.foldl (fun (e : Est) f => e.packet c f (f.arr.getD 0)) e
  let acked := (nowUs, (sorted.map Fed.length).sum) :: e.acked.filter fun a => decide (nowUs < a.1 + 500000)
  let recv : Int := fix32 (((acked.map Prod.snd).sum * 8 * 65536 + 250) / 500 : Nat)
  let lost := fs.countP fun f => !f.received
  let loss : Int := if fs.isEmpty then 0 else ((lost * 65536 + fs.length / 2) / fs.length : Nat)
  (({ e with acked := acked, lastReport := some nowUs } : Est).newRate c nowUs dt recv loss).newClass c dt

/-- RFC 8888 feedback at a receiver (R198, R202, R203, R207). -/
def State.feedback (s : State) (leg : Nat) (c : ClassRec) (reportUs : Nat) (blocks : List CcfbBlock) : State :=
  match s.legs.find? leg with
  | none => s
  | some g =>
    if g.kind = 2 ∨ !c.estEn then s
    else
      match blocks.flatMap (g.fedBlock reportUs) with
      | [] => s
      | fs =>
        let e := g.est.report c s.tb0Us fs
        let s := (s.updLeg leg fun g => { g with est := e }).countLeg leg 28 1
        if g.est.cls < e.cls then s.countLeg leg 29 1
        else if e.cls < g.est.cls then s.countLeg leg 30 1 else s

/-! ### Sources (R102, R195) -/

/-- The leg that sends a source, with its trunk source index for a source across a trunk (R102). -/
def State.senderOf (s : State) (c b source : Nat) : Option (Nat × Option Nat) :=
  match (s.planD c b).roster.find? fun r => r.sources.contains source with
  | none => none
  | some r => (s.slotLeg c r.slot).map fun l => (l, if r.kind = 2 then some (source - fld r.ref 15 0) else none)

/-- A PLI or FIR from a receiver: a key request for a source (R195, R198), found in the roster (R117). -/
def State.requestSource (s : State) (c b source stream : Nat) (fir : Bool) (media : Nat) : State :=
  let s := s.checkRefs c (s.planD c b)
  match s.senderOf c b source with
  | some l => s.keyRequest l.1 fir media l.2
  | none => s.refreshSource c b source stream

/-- A received PLI or FIR at a receiver's track (R198, R199); a track in WAIT asks by FIR where its sender's class says so
(R195). -/
def State.requestTrack (s : State) (leg conf b media : Nat) : State :=
  let s := s.countLeg leg 26 1
  match s.legs.find? leg with
  | none => s
  | some g =>
    match g.tracks.find? fun t => t.valid && t.outSsrc == media with
    | none => s
    | some t =>
      if t.bySource then
        let fir := match s.senderOf conf b t.key with | some l => t.wait && (s.legClassIn l.1 b).joinFir | none => false
        s.requestSource conf b t.key t.ssrcIdx fir media
      else s.keyRequest t.key (t.wait && (s.legClassIn t.key b).joinFir) media none

/-! ### NACK service (R199) -/

/-- The key of a stream's entry in a history block, which has one set of slots for each stream, for a trunk too (R187). -/
def histKey (stream slot : Nat) : Nat := stream * 65536 + slot

/-- The key of a cut map's entry (R187). -/
def cutKey (cut pos : Nat) : Nat := cut * 65536 + pos

/-- A history's entry for a sequence number (R187). -/
def History.entry (h : History) (stream n : Nat) : Option HistEntry :=
  if h.depth = 0 then none
  else (h.slots.find? (histKey stream (n % h.depth))).bind fun e => if e.inSeq = n then some e else none

/-- The in-sequence number at a position of a history's cut map (R187). -/
def History.mapped (h : History) (cut q : Nat) : Option Nat :=
  if h.depth = 0 then none else h.cutMap.find? (cutKey cut (q % h.depth))

/-- The history entry that serves out number `o` of a track (R199). Cut map and entry are read from the new block first and
then from the old one (R188). -/
def servedEntry (hs : List History) (simul : Bool) (t : Track) (o nowUs ageMs : Nat) : Option HistEntry :=
  let cut := t.cut simul
  let q := (o + 65536 - t.seqDelta) % 65536
  let held := (hs.filterMap fun h => h.mapped cut q).flatMap fun n => hs.filterMap fun h => h.entry t.ssrcIdx n
  match held.find? fun e => e.cutseq.getD cut 0 == q with
  | none => none
  | some e =>
    if e.placeholder || !e.cls.within (t.spatial simul) t.cutT || decide (e.arrival + ageMs * 1000 < nowUs) then none
    else some e

/-- The sender of a track: its leg and the index of the trunk source, 0 for a leg's own. -/
def State.trackSender (s : State) (conf b : Nat) (t : Track) : Option (Nat × Nat) :=
  if t.bySource then (s.senderOf conf b t.key).map fun l => (l.1, l.2.getD 0) else some (t.key, 0)

/-- The sender of a track is a simulcast sender: the leg, or the trunk source by its header (R177, R204). -/
def Leg.simulOf (g : Leg) (index : Nat) : Bool := if g.kind = 2 then (g.hist.sources.getD {} index).simul else g.simulcast

/-- One sequence number that a NACK names (R199), under the bank that the NACK's packet latched (R26). -/
def State.serveNack (leg conf b look : Nat) (track : Option Nat) (s : State) (o : Nat) : State :=
  let s := s.countLeg leg 23 1
  let g := s.legs.getD {} leg
  let miss := s.countLeg leg 25 1
  match track with
  | none => miss
  | some i =>
    let t := g.tracks.getD i {}
    match s.trackSender conf b t with
    | none => miss
    | some x =>
      match s.legs.find? x.1 with
      | none => miss
      | some sender =>
        let c := s.legClassIn x.1 b
        match servedEntry (sender.hist :: sender.prevHist.toList) (sender.simulOf x.2) t o s.tb0Us c.histAge with
        | none => miss
        | some e =>
          let out : RtpPacket := { e.pkt with ssrc := t.outSsrc, seq := o, ts := (e.pkt.ts + t.tsDelta) % 2 ^ 32 }
          let copy : Copy :=
            { leg := leg, conf := conf, bank := b, body := .rtp out, rtx := true, format := e.cls.format
              index := estimateIndex true t.lastOut t.roc o, srcLeg := some x.1
              srcIds := if sender.kind = 2 then [1, 2, 3] else c.ids, track := some i
              rslot := g.slot.getD 0xFFFF, port := g.port, look := look }
          (s.pushCopy copy).countLeg leg 24 1

/-- The numbers that a NACK's entry names: PID and the bits of BLP. -/
def nackSeqs (f : Nat × Nat) : List Nat :=
  f.1 :: ((List.range 16).filter fun i => f.2.testBit i).map fun i => (f.1 + i + 1) % 65536

/-- A generic NACK from a receiver (R199). -/
def State.nack (s : State) (leg conf b look media : Nat) (fci : List (Nat × Nat)) : State :=
  let g := s.legs.getD {} leg
  let track := g.tracks.findIdx? fun t => t.valid && t.outSsrc == media
  let s := if track.any fun i => (g.tracks.getD i {}).bySource then s.checkRefs conf (s.planD conf b) else s
  (fci.flatMap nackSeqs).foldl (State.serveNack leg conf b look track) s

/-! ### Sender reports (R200) -/

/-- The RTCP that carries a forwarded SR to a receiver, with the CNAME where its compound has one. -/
def srBody (kind2 : Bool) (source ssrc ntp ts packets octets : Nat) (cname : Option (List Nat)) : App :=
  let c := compound ssrc 0 (.sr ssrc ntp ts packets octets [] :: cname.toList.map fun n => .sdes ssrc (some n))
  if kind2 then .zwiva { rtcp := true, sourceIndex := source, streamSsrc := ssrc, inner := .rtcp c } else .rtcp c

/-- An SR for SSRC0 to receiver `r`, as it came; to a trunk under its source's number, which must be below 4,096 (R200, R205). -/
def State.audioSr (r b look leg source : Nat) (body : Bool → App) (s : State) : State :=
  let two := (s.legs.getD {} r).kind == 2
  if two && decide (4096 ≤ source) then s.countLeg r 20 1 else s.rtcpTo r b look (body two) (some leg)

/-- Forwards an SR for stream `k` of a sender to the receivers that take it (R200), under the bank that the SR's packet latched
(R26). Report blocks do not go with it (log entry 43). -/
def State.forwardSr (s : State) (conf b look leg source k : Nat) (bySource : Bool) (ssrc ntp ts packets octets : Nat)
    (cname : Option (List Nat)) : State :=
  if k = 0 then
    let p := s.planD conf b
    match p.packetList source { audio := true } with
    | none => s.fenceConf conf 1 0
    | some slots => slots.foldl (fun (s : State) slot =>
        match s.receiver conf slot look with
        | none => s
        | some r => s.asOpened r.1 r.2
            (State.audioSr r.1 b look leg source fun two => srBody two source ssrc ntp ts packets octets cname)) s
  else
    s.legs.foldl (fun (s : State) (x : Nat × Leg) =>
      if x.2.conf ≠ conf ∨ x.2.slot.isNone then s
      else
        match x.2.tracks.find? fun t => t.valid && t.bySource == bySource && t.key == (if bySource then source else leg)
            && t.ssrcIdx == k && !t.wait with
        | none => s
        | some t => s.rtcpTo x.1 b look (srBody false source t.outSsrc ntp ((ts + t.tsDelta) % 2 ^ 32) packets octets cname)
            (some leg)) s

/-! ### A compound, part by part (R198) -/

/-- The latest statistics of a report block (R198). -/
def RxReport.put (r : List RxReport) (b : RrBlock) : List RxReport :=
  { ssrc := b.ssrc, fractionLost := b.fractionLost, cumulativeLost := b.cumulativeLost, extHighest := b.extHighest
    jitter := b.jitter } :: r.filter fun x => x.ssrc != b.ssrc

/-- Where a compound came from: the leg and what was latched with it; the source it speaks for, none where SOURCE_REF fails its pair
(R117), and the index and the stream of that source on a trunk. -/
structure RtcpFrom where
  leg : Nat
  conf : Nat
  bank : Nat
  look : Nat
  port : Nat
  frame : Frame
  stamp : Nat
  source : Option Nat
  trunk : Option (Nat × Nat)

/-- A key request that crossed a trunk names the source by the number that this device gave it (R195, R205). -/
def State.crossRequest (s : State) (c : RtcpFrom) (media : Nat) : State :=
  (s.countLeg c.leg 26 1).requestSource c.conf c.bank ((c.trunk.map Prod.fst).getD 0) 1 false media

/-- One part of a verified compound (R198). -/
def State.rtcpPart (c : RtcpFrom) (cls : ClassRec) (cname : Option (List Nat)) (s : State) (part : RtcpPart) : State :=
  let welmus := s.exception c.port
    { c.frame with
      app := .rtcp { parts := [part], bytes := partBytes 0 0 part }, wire := partBytes 0 0 part
      length := max 64 (udpFrameLen false (partBytes 0 0 part).length) }
    10 (some c.leg) c.stamp
  let blocks := fun (bs : List RrBlock) => s.updLeg c.leg fun g => { g with reports := bs.foldl RxReport.put g.reports }
  match part with
  | .sr ssrc ntp ts packets octets bs =>
    let s := blocks bs
    match c.source with
    | none => s.fenceConf c.conf 1 0
    | some n =>
      let k := match c.trunk with | none => (s.legs.getD {} c.leg).reportIdx ssrc | some i => some i.2
      match k with
      | none => s
      | some k => s.forwardSr c.conf c.bank c.look c.leg n k c.trunk.isSome ssrc ntp ts packets octets cname
  | .rr _ bs => blocks bs
  | .sdes .. => s
  | .bye _ => welmus
  | .app _ => welmus
  | .xr _ => welmus
  | .nack media fci => s.nack c.leg c.conf c.bank c.look media fci
  | .pli media => if c.trunk.isSome then s.crossRequest c media else s.requestTrack c.leg c.conf c.bank media
  | .fir media => if c.trunk.isSome then s.crossRequest c media else s.requestTrack c.leg c.conf c.bank media
  | .ccfb us bs => s.feedback c.leg cls us bs
  | .rtpfb _ _ => welmus
  | .psfb _ _ => welmus

/-- A verified compound (R198): every part in turn. -/
def State.rtcpIn (s : State) (c : RtcpFrom) (cls : ClassRec) (m : Rtcp) : State :=
  let cname := m.parts.findSome? fun q => match q with | .sdes _ n => n | _ => none
  m.parts.foldl (State.rtcpPart c cls cname) s

end Sys2Proof.Machine
end

