-- ==== Sys2Proof/Machine/Classify.lean ====
section
/-! DEFINITION. Layer classification, template maps, cut counters and the retransmission history (R184 to R187, R206). -/

namespace Sys2Proof.Machine

/-! ### Template maps (R185) -/

/-- Whether the pipeline records a template structure (R185). -/
def ddSupported (d : DdStructure) : Bool :=
  decide (d.targets.length ≤ 9) && decide (d.size ≤ 255) && d.templates.all fun t => decide (t.s ≤ 2) && decide (t.t ≤ 2)

/-- The switch bit of a template: its indication is Switch (2) for the decode target whose highest layer is its own
(R185). -/
def ddSwitch (d : DdStructure) (t : DdTemplate) : Bool :=
  match d.targets.findIdx? fun x => x == (t.s, t.t) with
  | none => false
  | some j => t.dtis.getD j 0 == 2

/-- The template map that a structure gives, with its offset applied (R185). -/
def ddMap (d : DdStructure) : FMap (Nat × Nat × Bool) :=
  d.templates.zipIdx.foldl (fun (m : FMap (Nat × Nat × Bool)) x =>
    m.put ((d.idOffset + x.2) % 64) (x.1.s, x.1.t, ddSwitch d x.1)) []

/-! ### Classification (R184) -/

/-- What a source of layer information gives: (s, t), KEY, SW, and SOF where it gives a frame start. -/
structure LayerInfo where
  s : Nat := 0
  t : Nat := 0
  key : Bool := false
  sw : Bool := false
  sof : Option Bool := none

/-- Frame marking (R184). -/
def frameMarkInfo (data : List Nat) : LayerInfo :=
  let a := data.getD 0 0
  { s := min 2 (data.getD 1 0), t := min 2 (a % 8), key := a.testBit 5 && a.testBit 3, sw := a.testBit 3
    sof := some (a.testBit 7) }

/-- The H.265 payload header (R184). -/
def h265Info (b : List Nat) : LayerInfo :=
  let typ := fun i => b.getD i 0 / 2 % 64
  let t0 := typ 0
  let n := if t0 = 48 then typ 4 else if t0 = 49 then b.getD 2 0 % 64 else t0
  { s := min 2 (b.getD 0 0 % 2 * 32 + b.getD 1 0 / 8), t := min 2 (b.getD 1 0 % 8 - 1)
    key := decide (16 ≤ n ∧ n ≤ 21), sw := decide (2 ≤ n ∧ n ≤ 5)
    sof := if t0 < 49 then some true else if t0 = 49 then some ((b.getD 2 0).testBit 7) else none }

/-- The H.264 NAL header (R184). -/
def h264Info (b : List Nat) : LayerInfo :=
  let t0 := b.getD 0 0 % 32
  let n := if t0 = 24 then b.getD 3 0 % 32 else if t0 = 28 then b.getD 1 0 % 32 else t0
  let key := n == 5 || n == 7
  { key := key, sw := key
    sof := if 1 ≤ t0 ∧ t0 ≤ 24 then some true else if t0 = 28 then some ((b.getD 1 0).testBit 7) else none }

/-- The AV1 aggregation header (R184). -/
def av1Info (b : List Nat) : LayerInfo :=
  let a := b.getD 0 0
  { key := a.testBit 3, sw := a.testBit 3, sof := some (!a.testBit 7) }

/-- The layer that a dependency descriptor names under a template map, and whether its template is unknown (R184,
R185). -/
def ddInfo (m : FMap (Nat × Nat × Bool)) (d : DdInfo) (key : Bool) : LayerInfo × Bool :=
  match m.find? d.templateId with
  | none => ({ key := key, sof := some d.startOfFrame }, true)
  | some x => ({ s := x.1, t := x.2.1, key := key, sw := x.2.2, sof := some d.startOfFrame }, false)

/-- The dependency descriptor of a packet (R184). -/
def packetDd (c : ClassRec) (p : RtpPacket) : Option DdInfo := (findExt p c.idDd).bind fun e => e.dd

/-- The audio level of a packet: (LEVEL, V) (R184). -/
def packetLevel (c : ClassRec) (p : RtpPacket) : Option (Nat × Bool) :=
  (findExt p c.idLevel).bind fun e => e.data.head?.map fun b => (b % 128, decide (128 ≤ b))

/-- Layer information from a payload; a payload that carries none is layer (0, 0), with no frame start (R184). -/
def payloadInfo (fmt : Nat) (b : List Nat) : LayerInfo :=
  if b.isEmpty then {}
  else if fmt = 6 then h265Info b
  else if fmt = 5 then h264Info b
  else if fmt = 7 then av1Info b
  else {}

/-- What the sources of R184 give for a packet: its layer information, the number that DD_UNSUPPORTED counts, and the template map
and the streams without usable structure after it (R185). -/
structure Sources where
  info : LayerInfo
  unsupported : Nat
  map : FMap (Nat × Nat × Bool)
  off : List Nat

/-- Layer information from the first source of R184 that a video packet of stream `k` carries; `r` is the stream's state before the
packet. A structure that is not recorded makes the packets of its stream (0, 0) until the leg's map is replaced (R185). -/
def videoInfo (c : ClassRec) (fmt : Nat) (m : FMap (Nat × Nat × Bool)) (off : List Nat) (k : Nat) (r : SsrcState)
    (p : RtpPacket) : Sources :=
  match packetDd c p with
  | some d =>
    let key := d.struct?.isSome || r.keyTs == some p.ts
    let bare : LayerInfo := { key := key, sof := some d.startOfFrame }
    match d.struct? with
    | some st =>
      if ddSupported st then
        let x := ddInfo (ddMap st) d key
        { info := x.1, unsupported := b2n x.2, map := ddMap st, off := [] }
      else { info := bare, unsupported := 1, map := m, off := if off.contains k then off else k :: off }
    | none =>
      if off.contains k then { info := bare, unsupported := 0, map := m, off := off }
      else
        let x := ddInfo m d key
        { info := x.1, unsupported := b2n x.2, map := m, off := off }
  | none =>
    let i := match findExt p c.idFrameMark with | some e => frameMarkInfo e.data | none => payloadInfo fmt p.payload
    { info := i, unsupported := 0, map := m, off := off }

/-- The classification of a video packet of stream `k` (R184, R186). -/
def videoClass (i : LayerInfo) (k : Nat) (simul : Bool) (fmt : Nat) (r : SsrcState) (ts : Nat) : Class :=
  { stream := k, s := if simul then k - 1 else i.s, t := i.t, key := i.key, sw := i.sw
    sof := i.sof.getD (!r.started || r.lastTs != ts), format := fmt, simul := simul }

/-! ### Cut counters and history (R186, R187, R206) -/

/-- The cuts of a stream: all nine, or the three of a simulcast stream (R186). -/
def cutsOf (simul : Bool) (k : Nat) : List Nat :=
  if simul then [3 * (k - 1), 3 * (k - 1) + 1, 3 * (k - 1) + 2] else List.range 9

/-- Adds `n` to the counters of some cuts, modulo 65,536. -/
def cutsAdd (cs : List Nat) (which : List Nat) (n : Nat) : List Nat :=
  cs.zipIdx.map fun x => if which.contains x.2 then (x.1 + n) % 65536 else x.1

/-- The cuts of a stream that hold a packet within them (R186). -/
def cutsWithin (c : Class) : List Nat := (cutsOf c.simul c.stream).filter fun k => c.within (k / 3) (k % 3)

/-- Writes an entry and the cut maps of some cuts (R187). -/
def History.write (h : History) (c : Class) (e : HistEntry) (maps : List Nat) : History :=
  if h.depth = 0 then h
  else
    { h with
      slots := h.slots.put (histKey c.stream (e.inSeq % h.depth)) e
      cutMap := maps.foldl (fun (m : FMap Nat) k => m.put (cutKey k (e.cutseq.getD k 0 % h.depth)) e.inSeq) h.cutMap }

/-- The placeholders of a gap before number `n` (R186, R187). -/
def History.hole (c : Class) (cs : List Nat) (n : Nat) (h : History) (j : Nat) : History :=
  let cuts := cutsOf c.simul c.stream
  let cutseq := cs.zipIdx.map fun x => if cuts.contains x.2 then (x.1 + 65536 - j + 1) % 65536 else x.1
  h.write c { inSeq := (n + 65536 - j) % 65536, cls := c, cutseq := cutseq, placeholder := true } cuts

/-- What R186 makes of a video packet: the stream's state, cut counters, history, cutseq (none: RX_LATE), the gap, and
whether the packet was stored (1) or too long to store (2). -/
structure Renumbered where
  stream : SsrcState
  cuts : List Nat
  hist : History
  cutseq : Option (List Nat)
  gap : Nat := 0
  stored : Nat := 0

/-- A packet stored in a history, unless it is longer than 2,016 B (R187). -/
def History.store (h : History) (c : Class) (p : RtpPacket) (us : Nat) (cutseq maps : List Nat) : History × Nat :=
  if h.depth = 0 then (h, 0)
  else if 2016 < rtpLen p then (h, 2)
  else (h.write c { inSeq := p.seq, cls := c, arrival := us, cutseq := cutseq, pkt := p } maps, 1)

/-- R186 for a video packet of class `c`; `old` is the history block of the bank before (R188). -/
def renumber (r : SsrcState) (cs : List Nat) (h : History) (old : Option History) (c : Class) (p : RtpPacket)
    (us : Nat) : Renumbered :=
  let d := if r.seqStarted then (p.seq + 65536 - r.seqHighest) % 65536 else 1
  if d = 0 ∨ 32768 ≤ d then
    match (h.entry c.stream p.seq).or (old.bind fun o => o.entry c.stream p.seq) with
    | none => { stream := r, cuts := cs, hist := h, cutseq := none }
    | some e =>
      if !e.placeholder then { stream := r, cuts := cs, hist := h, cutseq := none }
      else
        let x := h.store c p us e.cutseq []
        { stream := r, cuts := cs, hist := x.1, cutseq := some e.cutseq, stored := x.2 }
  else
    let gap := d - 1
    let cs1 := cutsAdd cs (cutsOf c.simul c.stream) gap
    let h1 := ((List.range (min gap 32)).map (· + 1)).foldl (History.hole c cs1 p.seq) h
    let cs2 := cutsAdd cs1 (cutsWithin c) 1
    let x := h1.store c p us cs2 (cutsWithin c)
    { stream := { r with seqStarted := true, seqHighest := p.seq }, cuts := cs2, hist := x.1, cutseq := some cs2, gap := gap
      stored := x.2 }

/-- The counters of R186 and R187 at a leg (R207). -/
def State.noteRenumbered (s : State) (leg : Nat) (x : Renumbered) : State :=
  let s := if x.cutseq.isNone then s.countLeg leg 9 1 else s
  let s := s.countLeg leg 10 x.gap
  if x.stored = 1 then s.countLeg leg 12 1 else if x.stored = 2 then s.countLeg leg 13 1 else s

/-! ### Receive state (R179, R181, R229) -/

/-- A stream after a verified packet with an index: the window is marked, the highest index advances, and the packet's
SSRC, timestamp and arrival are kept. -/
def SsrcState.accept (r : SsrcState) (size idx : Nat) (p : RtpPacket) (us now : Nat) (struct_ : Bool) : SsrcState :=
  let m := windowMark r.started r.top r.window size idx
  { r with
    started := true, window := m.2, highest := m.1 % 65536, roc := m.1 / 65536, lastTs := p.ts, lastArrival := us
    received := r.received + 1, lastRtp := some now, base := if r.started then r.base else idx, ssrc := p.ssrc
    keyTs := if struct_ then some p.ts else r.keyTs }

end Sys2Proof.Machine
end

