-- ==== Sys2Proof/Machine/Egress.lean ====
section
/-! DEFINITION. The egress pipelines and the egress scheduler: header assembly, charging, the Grotto and the Sump, and
the hand-off to the MAC. Nothing waits on a resource of lower rank: a copy without room is dropped (R31, R172, R180, R187, R196,
R197, R202, R231 to R247). -/

namespace Sys2Proof.Machine

/-! ### Classes (R231, R232) -/

/-- DSCP of an egress class (R231). -/
def classDscp (c : Nat) : Nat := [48, 46, 34, 34, 36, 26, 40, 0].getD c 0

/-- Horizon of a class in ns (R231). -/
def classHorizon (c : Nat) : Int := 1000000 * ([1, 20, 50, 50, 100, 100, 100, 250].getD c 0 : Nat)

/-- Stale limit of a class in ns (R231). -/
def classStale (c : Nat) : Int := 1000 * ([1000, 2000, 5000, 5000, 10000, 20000, 2000, 50000].getD c 0 : Nat)

/-- The plan a copy goes by: that of its latched bank, or the ACTIVE one for RTCP that the device originates (R26). -/
def State.copyPlan (s : State) (c : Copy) : Option Plan := if c.bank < 2 then s.planOf c.conf c.bank else (s.conf c.conf).active

/-- The SHAPER entry of a copy's roster slot. -/
def State.copyShaper (s : State) (c : Copy) : ShaperRec := ((s.copyPlan c).map fun p => p.shaperOf c.rslot).getD {}

/-- The egress class of a copy (R232). -/
def copyClass (r : ShaperRec) (c : Copy) : Nat :=
  if c.ctx.kind = 2 then r.videoClass
  else if c.rtx then r.rtxClass
  else if c.rtcp ∨ c.audio then r.audioClass
  else r.videoClass

/-! ### Stage 9 (R180, R196, R197) -/

/-- The body of a copy in the receiver's terms; none where its PT map lacks the FORMAT (R196, R197). -/
def copyBody (cls : ClassRec) (c : Copy) : Option App :=
  match c.body with
  | .rtp p => (cls.pt c.format).map fun pt => .rtp { p with pt := pt, ext := rewriteExts p c.srcIds cls.ids }
  | b => some b

/-- The headers of a copy (R196) around its payload, not yet encrypted. -/
def copyFrame (x : TxCtx) (mac sa cls : Nat) (body : App) : Frame :=
  { da := mac, sa := sa, etype := if x.v6 then 0x86DD else 0x0800, length := udpFrameLen x.v6 (appExtent body)
    ip := some { v6 := x.v6, headerLen := if x.v6 then 40 else 20, src := x.lAddr, dst := x.rAddr, dscp := classDscp cls
                 ecn := 0, ident := 0, df := true, ttl := 64, flow := 0 }
    udp := some { sport := x.lUdp, dport := x.rUdp }
    wire := plainBytes body, app := body }

/-- The source address of a port's egress frames: none on a port without an ADDRESS entry (R180). On a port that is gone the copy
goes on to the egress scheduler, which drops it (R124, R246). -/
def State.sourceMac (s : State) (port : Nat) : Option Nat :=
  match s.port? port with
  | none => some 0
  | some q => q.cfg.addrs.head?.map Prod.fst

/-- Consent to send a copy: not lost, and the packet looked up after the answer that last restored it (R172). -/
def Copy.consented (c : Copy) (x : TxCtx) : Bool := !x.lost && decide (x.resume ≤ c.look)

/-- Stage 9 for a copy of pipeline `p` (R172, R180, R196, R197, R205, R228). -/
def State.assemble (s : State) (p : Nat) (c : Copy) : State :=
  let ctx := if s.isOpen c.leg c.ctx.serial then (s.legs.getD {} c.leg).txCtx else c.ctx
  let c := { c with ctx := ctx }
  match ctx.nextHop, s.sourceMac c.port, c.consented ctx with
  | some mac, some sa, true =>
    let cls := copyClass (s.copyShaper c) c
    match copyBody (((s.copyPlan c).map fun q => q.classOf c.rslot).getD {}) c with
    | none => s.countTo c.leg ctx.serial 20 1
    | some body =>
      let c := { c with body := body, cls := cls, frame := copyFrame ctx mac sa cls body }
      { s with txJobs := s.txJobs.put p (s.txJobs.getD [] p ++ [.tx c]) }
  | _, _, _ => s.countTo c.leg ctx.serial 21 1

/-- EGRESS_ASSEMBLE: stage 9 for the copy at the head of pipeline `p`, while leg traffic runs (R33, R35, R38). -/
def egressAssemble (p : Nat) (s : State) : State :=
  let s := s.begin
  if !s.moves then s
  else
    match s.egressQ.getD [] p with
    | [] => s
    | c :: rest => ({ s with egressQ := s.egressQ.put p rest } : State).assemble p c

def execEgressAssemble (p : Nat) (s : State) : Res := .next (egressAssemble p s)

/-! ### Stage 11 (R233 to R240, R243) -/

/-- The levels that may be charged for a copy: leg, conference, class, port (R233). -/
def chargeLevels (c : Copy) (inMask : Bool) : List (Nat × Nat) :=
  (if inMask then [(0, c.leg)] else []) ++ [(1, c.conf), (2, c.port * 8 + c.cls), (3, c.port)]

/-- Checks the complement of a level's rate at its use: a failure fences the leg or the conference and leaves the level
without limit for this copy (R117, R240). -/
def State.checkLevel (s : State) (k : Nat × Nat) : State :=
  let b := s.bucket k.1 k.2
  if pairOk b.rate b.rateC then s
  else
    match k.1 with
    | 0 => s.fenceLegPair k.2 4
    | 1 => s.fenceConf k.2 5 0
    | _ => s

/-- Places a waking queue: VT no further back than the ceiling allows (R235, R236). -/
def State.wakeLevel (t0 : Int) (s : State) (k : Nat × Nat) : State :=
  let b := s.bucket k.1 k.2
  if !b.limits then s
  else s.setBucket k.1 k.2 { b with vt := max b.vt (t0 - bytesTime b.ceil (s.rateOf k.1 k.2)) }

/-- The earliest instant that the levels allow (R235). -/
def State.levelsTime (s : State) (ks : List (Nat × Nat)) (t0 : Int) : Int :=
  ks.foldl (fun e k => let b := s.bucket k.1 k.2; if b.limits then max e b.vt else e) t0

/-- Charges `w` bytes at a level (R234, R235). -/
def State.chargeLevel (w : Nat) (s : State) (k : Nat × Nat) : State :=
  let b := s.bucket k.1 k.2
  if !b.limits then s else s.setBucket k.1 k.2 { b with vt := b.vt + bytesTime w (s.rateOf k.1 k.2) }

/-- A requested launch time of TB0, in units of 2^-16 ns, on the launch clock (R162). -/
def State.onLaunchClock (s : State) (t : Int) : Int := (t * 2 ^ 24 - s.time.stepSum) / 2 ^ 24

/-- Stage 11 for an encrypted copy: buckets, launch time, Grotto (R235, R243, R244, R246, R247). A leg that has closed has no
bucket, no counters and no LAST_LAUNCH; its copies leave normally (R191, R246). -/
def State.charge (s : State) (c : Copy) : State :=
  let len := c.frame.length
  let here := s.isOpen c.leg c.ctx.serial
  let note := fun (s : State) i k => if here then s.countLeg c.leg i k else s
  let s := note (note s 16 1) 17 (appExtent c.body)
  if !s.portUp c.port then note s 36 1
  else
    let w := macLen len c.ctx.vlan.isSome + 20
    let cells := ceilDiv (len + 32) 256
    let now := s.launchClock
    let inMask := here && (s.copyShaper c).legMask.testBit c.cls
    let levels := chargeLevels c inMask
    let s := levels.foldl State.checkLevel s
    let t0 := match c.tReq with | some t => max now (s.onLaunchClock t) | none => now
    let s := levels.foldl (State.wakeLevel t0) s
    let e := s.levelsTime levels t0
    let e := if inMask then max e ((s.legs.getD {} c.leg).lastLaunch * 65536) else e
    let launch := ceilDivI e 65536
    if (c.cls ≠ 0 ∧ classHorizon c.cls * 65536 < launch * 65536 - now) ∨ s.grottoFree < 16384 + cells then
      note s 34 1
    else
      let s := levels.foldl (State.chargeLevel w) s
      let s := if inMask then s.updLeg c.leg fun g => { g with lastLaunch := launch } else s
      let s := if t0 < e then note s 32 1 else s
      let s := note s 38 (s.cellsOf fun x => x.leg == c.leg && x.copy.ctx.serial == c.ctx.serial)
      let x : Stored :=
        { copy := c, port := c.port, cls := c.cls, leg := c.leg, length := len, cells := cells, launch := launch
          immediate := decide (e ≤ t0) && decide (t0 ≤ now), chargedAt := s.now }
      { s with store := s.store.put s.chargeNo x, chargeNo := s.chargeNo + 1 }

/-- A result due at an instant in ps has left its core by the end of the present nanosecond. -/
def State.ready (s : State) (j : CoreJob) : Bool := decide (j.readyAt < (s.now + 1) * 1000)

/-- The copy of an egress job. -/
def CoreJob.copy? (j : CoreJob) : Option Copy := match j.job with | .tx c => some c | .rx .. => none

/-- The egress job of group `p` that was taken first among those with their result, as (core, order of its take, job, copy). -/
def State.oldestTx (s : State) (p : Nat) : Option (Nat × CoreJob × Copy) :=
  ((List.range 5).flatMap fun i => (s.core (5 * p + i)).jobs.filterMap fun j =>
      if s.ready j then j.copy?.map fun c => (5 * p + i, j, c) else none).foldl
    (fun best x => match best with
      | none => some x
      | some b => if b.2.1.takeNo ≤ x.2.1.takeNo then best else some x) none

/-- The test of a lent instance starts (R459, R460). -/
def State.startTest (s : State) (id : Nat) : State :=
  { s with avail := { s.avail with
      lent := s.avail.lent.upd id fun x => { x with started := some (x.started.getD s.now) } } }

/-- The result of the job taken as number `n` leaves its core: its key register is zeroised (R227); a core lent to a SELFTEST that
holds no other job has drained (R459). -/
def State.freeCore (s : State) (core n : Nat) : State :=
  let s := s.updCore core fun q => { q with jobs := q.jobs.filter fun j => j.takeNo != n }
  if (s.core core).jobs.isEmpty then s.startTest (instId 5 core) else s

/-- EGRESS_CHARGE: the oldest egress job of group `p` leaves its core and is charged (R219, R230, R235), while leg traffic runs
(R33, R35, R38). -/
def egressCharge (p : Nat) (s : State) : State :=
  let s := s.begin
  match s.oldestTx p with
  | none => s
  | some (core, j, c) =>
    if !s.moves then s
    else
      let c := { c with frame := { c.frame with
        app := c.body, length := c.frame.length + tagLen j.profile c.body
        wire := (protect j.profile j.keyReg j.index c.body).getD [] } }
      let s := (s.updCore core fun q => { q with counters := bump (bump q.counters 1 1) 2 (appExtent c.body) }).freeCore core j.takeNo
      s.charge c

def execEgressCharge (p : Nat) (s : State) : Res := .next (egressCharge p s)

/-! ### Grotto and Sump (R244) -/

/-- The lead of a copy in units of 2^-16 ns (R244). -/
def State.lead (s : State) (c : Stored) : Int := c.launch * 65536 - s.launchClock

/-- SUMP_SPILL: a copy whose lead exceeds 40 us moves to the Sump; one that finds the Sump full stays in the Grotto until its
hand-off (R244). -/
def sumpSpill (copy : Nat) (s : State) : State :=
  let s := s.begin
  match s.store.find? copy with
  | none => s
  | some c =>
    if !s.moves || c.sump || c.stays || decide (s.lead c ≤ 40000 * 65536) then s
    else if s.sumpFree < c.cells then { s with store := s.store.put copy { c with stays := true } }
    else { s with store := s.store.put copy { c with sump := true } }.countTo c.leg c.copy.ctx.serial 33 1

def execSumpSpill (copy : Nat) (s : State) : Res := .next (sumpSpill copy s)

/-- Copy `n` is the next that the fetch engine takes from its pseudo-channel: the earliest in launch time, ties in charge order
(R244). -/
def State.nextFetch (s : State) (n : Nat) (c : Stored) : Bool :=
  s.store.all fun x => !x.2.sump || Config.sumpPch x.1 != Config.sumpPch n || decide (c.launch < x.2.launch)
    || (decide (c.launch = x.2.launch) && decide (n ≤ x.1))

/-- The panic of the launch units' Sump fetches: it begins with a copy of a lead of 8 us or less still in the Sump, and ends with
none of 12 us or less there (R416). -/
def State.sumpPanic (s : State) : State :=
  let near := fun (u ns : Nat) => s.store.any fun x => x.2.sump && x.2.port / 16 == u && decide (s.lead x.2 ≤ ns * 65536)
  { s with panic := { s.panic with
      sump := (List.range 8).filter fun u => if s.panic.sump.contains u then near u 12000 else near u 8000 } }

/-- SUMP_FETCH: a Sump copy whose lead has fallen to 20 us returns in its turn, into the reserve if it must; a poisoned one is
dropped (R244, R410). -/
def sumpFetch (copy : Nat) (poisoned : Bool) (s : State) : State :=
  let s := s.begin
  match s.store.find? copy with
  | none => s
  | some c =>
    if !s.moves || !c.sump || decide (20000 * 65536 < s.lead c) || decide (s.grottoFree < c.cells) || !s.nextFetch copy c then s
    else if poisoned then ({ s with store := s.store.del copy }.countTo c.leg c.copy.ctx.serial 34 1).sumpPanic
    else State.sumpPanic { s with store := s.store.put copy { c with sump := false } }

def execSumpFetch (copy : Nat) (poisoned : Bool) (s : State) : Res := .next (sumpFetch copy poisoned s)

/-! ### Hand-off (R245, R246) -/

/-- The launch time of a copy in us of TB0 (R162, R187, R202). -/
def State.launchUs (s : State) (launch : Int) : Nat := ((launch * 2 ^ 40 + s.time.stepSum) / 2 ^ 40 / 1000).toNat

/-- The out sequence number of a copy. -/
def Copy.outSeq (c : Copy) : Nat := match c.body with | .rtp p => p.seq | _ => 0

/-- Writes the send log for a copy under a track (R187, R202, R246). -/
def State.logSend (s : State) (x : Stored) : State :=
  match x.copy.track with
  | none => s
  | some t =>
    let n := x.copy.outSeq
    let e : SendEntry := { outSeq := n, launchUs := s.launchUs x.launch, length := x.length }
    s.updLeg x.leg fun g =>
      if g.serial = x.copy.ctx.serial then
        { g with hist := { g.hist with sendLog := g.hist.sendLog.put (t * 256 + n % 256) e } }
      else g

/-- The frame that a launch unit hands over: tagged with the leg's VID and PCP 7 - class, padded (R140, R245). -/
def txFrameOf (x : Stored) : TxFrame :=
  let tags := match x.copy.ctx.vlan with
    | some v => [{ tpid := 0x8100, pcp := 7 - x.cls, vid := v }]
    | none => []
  let n := macLen x.length x.copy.ctx.vlan.isSome
  { frame := { x.copy.frame with tags := tags, length := n }, length := n, launch := x.launch * 65536
    immediate := x.immediate, leg := true }

/-- LAUNCH_HANDOFF: the head of a launch queue, once its lead is 2 us or less (R245 to R247), while leg traffic runs (R33, R35,
R38). -/
def launchHandoff (port cls : Nat) (s : State) : State :=
  let s := s.begin
  match s.launchHead port cls with
  | none => s
  | some (n, x) =>
    if !s.moves || x.sump || decide (2000 * 65536 < s.lead x) then s
    else
      let gone := { s with store := s.store.del n }
      let own := x.copy.ctx.serial
      if !s.portUp port then gone.countTo x.leg own 36 1
      else if classStale cls * 65536 < -s.lead x then gone.countTo x.leg own 35 1
      else
        let f := txFrameOf x
        if !((s.port? port).getD {}).txRoom cls f.length then s
        else
          let s := (gone.countTo x.leg own 37 1).countTo x.leg own 39 (s.now - x.chargedAt)
          (s.pushTx port cls f).logSend x

def execLaunchHandoff (port cls : Nat) (s : State) : Res := .next (launchHandoff port cls s)

end Sys2Proof.Machine
end

