-- ==== Sys2Proof/Machine/Ports.lean ====
section
/-! DEFINITION. PORT_CONFIG and the bring-up of ports: signal, training, alignment, lane faults and reduced width
(R120 to R131). -/

namespace Sys2Proof.Machine

/-! ### PORT_CONFIG (R80, R123 to R125) -/

/-- The entries read so far, with the counts of OPTIONS and GATE_BASE entries. -/
structure EntryScan where
  cfg : PortCfg := {}
  options : Nat := 0
  bases : Nat := 0
  deriving DecidableEq, Repr, Inhabited

/-- Reads one entry of TYPE `ty` with its words (header first); none if it is out of its format, range or limit (R12,
R125). -/
def readEntry (e : EntryScan) (ty : Nat) (ws : List Word) : Option EntryScan :=
  let w := wordAt ws
  let c := e.cfg
  let n := ws.length
  match ty with
  | 1 =>
    if n = 5 ∧ c.addrs.length < 16 ∧ zeroFrom (w 2) 16 ∧ zeroFrom (w 4) 16 then
      some { e with cfg := { c with addrs := c.addrs ++ [(num64 (w 1) (w 2), num64 (w 3) (w 4))] } }
    else none
  | 2 =>
    if n = 2 ∧ c.vlans.length < 16 ∧ zeroIn (w 1) 15 12 ∧ zeroFrom (w 1) 28 ∧ fld (w 1) 11 0 ≤ fld (w 1) 27 16 then
      some { e with cfg := { c with vlans := c.vlans ++ [(fld (w 1) 11 0, fld (w 1) 27 16)] } }
    else none
  | 3 =>
    if n = 3 ∧ c.steers.length < 32 ∧ zeroIn (w 2) 15 13 ∧ zeroFrom (w 2) 27 ∧ fld (w 2) 26 24 ≤ 4 then
      some { e with cfg := { c with steers := c.steers ++ [{
        etype := fld (w 1) 15 0, etypeMask := fld (w 1) 31 16, vid := fld (w 2) 11 0, vidMatch := bitAt (w 2) 12,
        pcpMask := fld (w 2) 23 16, action := fld (w 2) 26 24 }] } }
    else none
  | 4 =>
    if n = 3 ∧ c.gateList.length < 256 ∧ 1 ≤ (w 1).toNat ∧ (w 1).toNat ≤ 1000000000 ∧ zeroFrom (w 2) 8 then
      some { e with cfg := { c with gateList := c.gateList ++ [((w 1).toNat, (w 2).toNat)] } }
    else none
  | 5 =>
    if n = 3 ∧ e.options = 0 ∧ zeroIn (w 1) 7 6 ∧ zeroFrom (w 1) 11 ∧ zeroFrom (w 2) 14 ∧ 1518 ≤ (w 2).toNat
        ∧ (w 2).toNat ≤ 9216 then
      some { e with options := 1, cfg := { c with
        txInvert := fld (w 1) 3 0, degradeOk := bitAt (w 1) 4, dropUntagged := bitAt (w 1) 5,
        defaultPcp := fld (w 1) 10 8, maxFrame := (w 2).toNat } }
    else none
  | 6 =>
    let v := (w 1).toNat + 2 ^ 32 * (w 2).toNat + 2 ^ 64 * (w 3).toNat
    let ns := v / 2 ^ 16 % 2 ^ 32
    if n = 4 ∧ e.bases = 0 ∧ ns < 1000000000 then
      some { e with bases := 1, cfg := { c with
        gateBase := (v / 2 ^ 48 * 1000000000 + ns) * 2 ^ 16 + v % 2 ^ 16 } }
    else none
  | _ => none

/-- Reads the entries of a PORT_CONFIG; the first argument bounds their number (R125). -/
def readEntries : Nat → List Word → EntryScan → Option EntryScan
  | _, [], e => some e
  | 0, _ :: _, _ => none
  | k + 1, h :: ws, e =>
    let n := fld h 15 8
    if n = 0 ∨ ws.length + 1 < n ∨ !zeroFrom h 16 then none
    else
      match readEntry e (fld h 7 0) ((h :: ws).take n) with
      | none => none
      | some e' => readEntries k ((h :: ws).drop n) e'

/-- The gate cycle: the sum of the GATE intervals (R125, R163). -/
def PortCfg.cycle (c : PortCfg) : Nat := (c.gateList.map Prod.fst).sum

/-- The configuration that a PORT_CONFIG carries; none where it is malformed (R80, R123, R125). -/
def portCfgOf (c : Taken) : Option PortCfg :=
  let n := fld (c.w 5) 15 0
  let p := fld (c.w 3) 6 0
  let sp := fld (c.w 3) 10 8
  if !c.lenIs (6 + n) || !zeroIn (c.w 3) 7 7 || !zeroFrom (c.w 3) 11 || decide (4 < sp) || !zeroIn (c.w 4) 7 2
      || !zeroFrom (c.w 4) 17 || !zeroFrom (c.w 5) 16 || (lanesOf sp != 0 && p % lanesOf sp != 0) then none
  else
    match readEntries n (c.words.drop 6) {} with
    | none => none
    | some e =>
      let g := { e.cfg with
        speed := sp, pauseRx := bitAt (c.w 4) 0, pauseTx := bitAt (c.w 4) 1, pfc := fld (c.w 4) 15 8,
        gates := bitAt (c.w 4) 16 }
      if ((g.pauseRx || g.pauseTx) && g.pfc != 0) || (g.gates && (g.gateList.isEmpty || e.bases != 1))
          || (!g.gateList.isEmpty && (decide (g.cycle < 1000) || decide (1000000000 < g.cycle))) then none
      else some g

/-- The absolute lanes of a port of a speed. -/
def portLanes (p speed : Nat) : List Nat := (List.range (lanesOf speed)).map fun i => p + i

/-- A port with a different number that holds one of the lanes (R123). -/
def State.lanesTaken (s : State) (p speed : Nat) : Bool :=
  s.ports.any fun q => q.1 != p && (portLanes q.1 q.2.cfg.speed).any fun l => (portLanes p speed).contains l

/-- Every lane of the port is unavailable since calibration (R123). -/
def State.lanesGone (s : State) (p speed : Nat) : Bool :=
  decide (0 < lanesOf speed) && (portLanes p speed).all fun l => s.avail.down.has (instId 7 l)

/-- The class and port buckets of a port return to unlimited (R233). -/
def State.clearPortBuckets (s : State) (p : Nat) : State :=
  { s with buckets := s.buckets.filter fun b =>
      !((b.1 / 2 ^ 20 == 2 && b.1 % 2 ^ 20 / 8 == p) || b.1 == 3 * 2 ^ 20 + p) }

/-- The bits of a port's lanes. -/
def laneBits (speed : Nat) : Nat := 2 ^ lanesOf speed - 1

/-- The commit of a PORT_CONFIG: one that keeps the running SPEED and lane set leaves the link up, and a reduced port that it does
not restart stays an unavailable instance (R123, R124, R129, R131, R233; log entry 62). DESIGN CHOICE (log entry 98): a hold in
force stays where such a PORT_CONFIG clears PAUSE_RX or the priority's PFC bit; frames that wait for a port taken out of existence
go with its queues. -/
def State.portConfig (s : State) (p : Nat) (g : PortCfg) : State :=
  let old := (s.port? p).getD {}
  if g.speed = 0 then
    let s := ((s.portTo p 0).portWhole p).clearPortBuckets p
    let s := (s.waitQ.filter fun w => w.port == p).foldl State.endWait s
    { s with ports := s.ports.del p, shorted := s.shorted.filter fun l => !(portLanes p old.cfg.speed).contains l }
  else if old.st = 4 ∧ old.speedRun = g.speed ∧ old.active = laneBits g.speed then
    let s := if old.cfg.speed ≠ g.speed then s.clearPortBuckets p else s
    s.updPort p fun q => { q with cfg := g, reduced := q.reduced && q.cfg.speed == g.speed, openLanes := q.openLanes &&& laneBits g.speed }
  else
    let s := if old.cfg.speed ≠ g.speed then s.clearPortBuckets p else s
    let s := { s with shorted := s.shorted.filter fun l => !(portLanes p g.speed).contains l }
    let s := if (s.port? p).isSome then s else { s with ports := s.ports.put p { cfg := g } }
    let s := (s.portWhole p).portTo p 1
    s.reSpeed p fun q =>
      ({ q with cfg := g, speedRun := 0, active := 0, order := 0, rxInverted := 0 } : Port).sees (q.signal &&& laneBits g.speed) s.now

/-- PORT_CONFIG (R80, R123). -/
def portConfigBody (id : Nat) (c : Taken) (s : State) : State :=
  let p := fld (c.w 3) 6 0
  let sp := fld (c.w 3) 10 8
  s.checked id
    [((portCfgOf c).isNone, rBadArg), (c.fn != 0, rDenied), (!s.serves 0x050, rWrongMode),
      (s.lanesTaken p sp, rBusy), (s.lanesGone p sp, rNoResource)] fun s =>
    match portCfgOf c with
    | none => s
    | some g => (s.commitOk id c 4 p []).portConfig p g

def execPortConfig (id : Nat) (s : State) : Res := .next (s.command id 0x050 (portConfigBody id))

/-! ### Bring-up (R126 to R131) -/

/-- The reduced width of a configured speed on the lanes without fault, as running speed and lanes (R131). -/
def reducedWidth (speed bad : Nat) : Option (Nat × Nat) :=
  let good := fun i => !bad.testBit i
  if speed = 4 then
    if good 0 && good 1 then some (3, 3)
    else if good 2 && good 3 then some (3, 12)
    else
      match (List.range 4).find? good with
      | some i => some (2, 2 ^ i)
      | none => none
  else if speed = 3 then
    if good 0 then some (2, 1) else if good 1 then some (2, 2) else none
  else none

/-- The port goes on with the lanes without fault: to TRAIN at full or reduced width, or to HELD (R126, R129, R131). -/
def State.chooseWidth (s : State) (p : Nat) : State :=
  match s.port? p with
  | none => s
  | some q =>
    let bad := q.openLanes ||| s.shortBits p q.cfg
    if bad = 0 then
      (s.reSpeed p fun q => { q with speedRun := q.cfg.speed, active := laneBits q.cfg.speed }).portTo p 2
    else
      match if q.cfg.degradeOk then reducedWidth q.cfg.speed bad else none with
      | none => s.portTo p 5
      | some (sp, act) =>
        (s.reSpeed p fun q => { q with speedRun := sp, active := act, reduced := true }).portTo p 2

/-- Declares a lane fault of a port: 0 open, 1 shorted (R129, R142, R452). -/
def State.laneFault (s : State) (p lane kind : Nat) : State :=
  (s.countPort p 33 1).fault 0x0A 4 p (w32 lane) (w32 kind)

/-- PORT_SIGNAL_DETECT: a lane (relative to the port) shows or loses signal in WAIT_SIGNAL (R126). -/
def portSignalDetect (p lane : Nat) (signal : Bool) (s : State) : State :=
  let s := s.begin
  match s.port? p with
  | none => s
  | some q =>
    if !s.portsRun || q.st != 1 || q.refHeld || decide (lanesOf q.cfg.speed ≤ lane) || s.shorted.contains (p + lane) then s
    else s.updPort p fun q => q.sees (if signal then q.signal ||| 2 ^ lane else q.signal &&& (15 - 2 ^ lane)) s.now

def execPortSignalDetect (port lane : Nat) (signal : Bool) (s : State) : Res :=
  .next (portSignalDetect port lane signal s)

/-- Every lane of a port shows signal. -/
def Port.allSignal (q : Port) : Bool := (List.range (lanesOf q.cfg.speed)).all fun i => q.signal.testBit i

/-- WAIT_SIGNAL_TIMEOUT: the bound of 100 ms has run, or the state's work has ended within it with signal on every lane (R126,
R129, R131; log entry 62). -/
def waitSignalTimeout (p : Nat) (s : State) : State :=
  let s := s.begin
  match s.port? p with
  | none => s
  | some q =>
    if !s.portsRun || q.st != 1 || q.refHeld
        || !(q.signalSince.any fun t => q.allSignal || decide (t + 100000000 ≤ s.now)) then s
    else
      let lanes := (List.range (lanesOf q.cfg.speed)).filter fun i =>
        !q.signal.testBit i && !q.openLanes.testBit i && !s.shorted.contains (p + i)
      let s := lanes.foldl (fun s i =>
        (s.updPort p fun q => { q with openLanes := q.openLanes ||| 2 ^ i }).laneFault p (p + i) 0) s
      s.chooseWidth p

def execWaitSignalTimeout (port : Nat) (s : State) : Res := .next (waitSignalTimeout port s)

/-- TRAIN_DONE: polarity is corrected and the port aligns (R126, R128). -/
def trainDone (p inverted : Nat) (s : State) : State :=
  let s := s.begin
  match s.port? p with
  | none => s
  | some q =>
    if !s.portsRun || q.st != 2 || q.retryAt.isSome then s
    else (s.updPort p fun q => { q with rxInverted := inverted &&& q.active }).portTo p 3

def execTrainDone (port inverted : Nat) (s : State) : Res := .next (trainDone port inverted s)

/-- A failed state: back to WAIT_SIGNAL after 100 ms (R126). -/
def State.bringupFails (s : State) (p : Nat) : State :=
  s.updPort p fun q => { q with retryAt := some (s.now + 100000000) }

/-- TRAIN_TIMEOUT: TRAIN exceeds 500 ms (R126). -/
def trainTimeout (p : Nat) (s : State) : State :=
  let s := s.begin
  match s.port? p with
  | none => s
  | some q =>
    if q.st != 2 || q.retryAt.isSome || decide (s.now < q.stSince + 500000000) then s else s.bringupFails p

def execTrainTimeout (port : Nat) (s : State) : Res := .next (trainTimeout port s)

/-- ALIGN_DONE: lanes are locked, reordered and deskewed and the port goes UP; skew above 180 ns fails ALIGN (R126,
R127, R130, R131). -/
def alignDone (p order skewPs : Nat) (s : State) : State :=
  let s := s.begin
  match s.port? p with
  | none => s
  | some q =>
    if !s.portsRun || q.st != 3 || q.retryAt.isSome then s
    else if 180000 < skewPs then s.bringupFails p
    else
      let s := s.updPort p fun q => { q with
        st := 4, stSince := s.now, fecLock := true
        order := if popCount 4 q.active ≤ 1 then 0 else min order 2 }
      let s := s.fault 0x08 4 p (s.portStatusOf p) 0
      if q.reduced && !q.reducedUp then
        (s.updPort p fun q => { q with reducedUp := true }).instanceDown 12 p false
      else s

def execAlignDone (port order skewPs : Nat) (s : State) : Res := .next (alignDone port order skewPs s)

/-- ALIGN_TIMEOUT: ALIGN exceeds 10 ms (R126). -/
def alignTimeout (p : Nat) (s : State) : State :=
  let s := s.begin
  match s.port? p with
  | none => s
  | some q =>
    if q.st != 3 || q.retryAt.isSome || decide (s.now < q.stSince + 10000000) then s else s.bringupFails p

def execAlignTimeout (port : Nat) (s : State) : Res := .next (alignTimeout port s)

/-- BRINGUP_RETRY_EXPIRY: the 100 ms after a failed state end (R126). -/
def bringupRetryExpiry (p : Nat) (s : State) : State :=
  let s := s.begin
  match s.port? p with
  | none => s
  | some q => if q.retryAt.any fun t => decide (t ≤ s.now) then s.portTo p 1 else s

def execBringupRetryExpiry (port : Nat) (s : State) : Res := .next (bringupRetryExpiry port s)

/-- LINK_LOSS: loss of alignment (no lane named) while UP, or of signal on lanes that carry the port or are brought up
(R126, R136). -/
def linkLoss (p : Nat) (lanesLost : List Nat) (s : State) : State :=
  let s := s.begin
  match s.port? p with
  | none => s
  | some q =>
    let hit := lanesLost.any fun i => q.active.testBit i
    if (q.st == 4 && (lanesLost.isEmpty || hit)) || ((q.st == 2 || q.st == 3) && hit) then
      let sig := lanesLost.foldl (fun b i => b &&& (15 - 2 ^ (i % 4))) q.signal
      (s.updPort p fun q => { q with signal := sig }).portTo p 1
    else s

def execLinkLoss (port : Nat) (lanesLost : List Nat) (s : State) : Res := .next (linkLoss port lanesLost s)

/-- LANE_SHORTED: the receiver is disabled and the fault declared in any state; a port that runs on the lane drops to a
reduced width or is held (R129, R131, R494). -/
def laneShorted (lane : Nat) (s : State) : State :=
  let s := s.begin
  if s.shorted.contains lane || decide (127 < lane) then s
  else
    let s := { s with shorted := s.shorted ++ [lane] }
    match List.find? (fun q : Nat × Port => (portLanes q.1 q.2.cfg.speed).contains lane) s.ports with
    | none => s
    | some (p, q) =>
      let i := lane - p
      let s := (s.updPort p fun q => q.sees (q.signal &&& (15 - 2 ^ i)) s.now).laneFault p lane 1
      if !s.portsRun then s
      else if lanesOf q.cfg.speed = 1 ∨ q.cfg.degradeOk = false ∨ ((q.st = 2 ∨ q.st = 3 ∨ q.st = 4) ∧ q.active.testBit i) then
        s.chooseWidth p
      else s

def execLaneShorted (lane : Nat) (s : State) : Res := .next (laneShorted lane s)

end Sys2Proof.Machine
end

