-- ==== Sys2Proof/Machine/Mac.lean ====
section
/-! DEFINITION. The MAC: receive checks, filters, steering and queues, pause and PFC with their watchdog, and the start
of transmitted frames under launch time and gates (R35, R132 to R140, R142, R149, R150, R160 to R166). -/

namespace Sys2Proof.Machine

/-! ### Pause (R136 to R139) -/

/-- Time of one pause quantum in ps at a running SPEED (R136). -/
def quantumPs : Nat → Nat
  | 1 => 5120 | 2 => 2560 | 3 => 1280 | _ => 640

/-- Wire time of one byte in ps at a running SPEED (R164). -/
def bytePs : Nat → Nat
  | 1 => 80 | 2 => 40 | 3 => 20 | _ => 10

/-- Microseconds held in the 99 intervals before and the current one (R138). -/
def Watch.total (w : Watch) : Nat := (w.past.take 99).sum + w.held / 1000000

/-- Whether a hold is in force at `t` ps. -/
def Port.heldAt (q : Port) (which t : Nat) : Bool :=
  !(q.watch.getD which {}).tripped && (q.hold which).any fun h => decide (h.from_ ≤ t) && decide (t < h.until_)

/-- A pause time of `quanta` for the port (8) or a priority: it replaces the time remaining, counts from the last bit of
a frame in progress, and zero ends the hold; a tripped watchdog ignores it (R136 to R138). -/
def Port.pause (q : Port) (which quanta now : Nat) : Port :=
  let t := now * 1000
  if (q.watch.getD which {}).tripped then q
  else
    let q := q.settle which t
    if quanta = 0 then q.setHold which none
    else
      let from_ := max t q.busyUntil
      q.setHold which (some { from_ := from_, until_ := from_ + quanta * quantumPs q.speedRun })

/-- The PFC times of a frame, for the enabled priorities whose class-enable bit is set (R136). -/
def Port.pfcTimes (q : Port) (enable : Nat) (quanta : List Nat) (now : Nat) : Port :=
  ((List.range 8).filter fun p => q.cfg.pfc.testBit p && enable.testBit p).foldl
    (fun q p => q.pause p (quanta.getD p 0) now) q

/-- Counts a pause or PFC frame that a tripped watchdog ignores, once, for the holds that it names (R138, R142). -/
def Port.countIgnored (q : Port) (holds : List Nat) : Port :=
  if holds.any fun k => (q.watch.getD k {}).tripped then { q with counters := bump q.counters 15 1 } else q

/-- The test of a pause watchdog's window: with 10 ms or more held in it the watchdog trips, which ends the hold (R138). -/
def State.watchTest (p : Nat) (s : State) (which : Nat) : State :=
  match s.port? p with
  | none => s
  | some q =>
    let q := q.settle which (s.now * 1000)
    let w := q.watch.getD which {}
    if 10000 ≤ w.total && !w.tripped then
      let q := { (q.setHold which none) with watch := q.watch.set which { w with tripped := true } }
      (s.updPort p fun _ => q).fault 0x0B 4 p (w32 which) 0
    else s.updPort p fun _ => q

/-- PAUSE_HOLD_EXPIRY: a hold ends at its time, or when the watchdog's window is full (R136, R138). -/
def pauseHoldExpiry (p which : Nat) (s : State) : State :=
  let s := s.begin
  match (s.port? p).bind fun q => q.hold which with
  | none => s
  | some h =>
    let s := s.watchTest p which
    if h.until_ ≤ s.now * 1000 then s.updPort p fun q => q.setHold which none else s

def execPauseHoldExpiry (port which : Nat) (s : State) : Res := .next (pauseHoldExpiry port which s)

/-- One watchdog at a 1 ms boundary; intervals whose boundary passed unseen held nothing (R138). -/
def watchBoundary (p : Nat) (s : State) (which : Nat) : State :=
  match s.port? p with
  | none => s
  | some q =>
    let q := q.settle which (s.now * 1000)
    let w := q.watch.getD which {}
    let idle := List.replicate (min (s.now / 1000000 - q.watchAt - 1) 99) 0
    let past := (w.held / 1000000 :: idle ++ w.past).take 99
    let trip := decide (10000 ≤ past.sum)
    let w' : Watch := { past := past, held := w.held % 1000000, tripped := trip }
    let q := { q with watch := q.watch.set which w' }
    let q := if trip then q.setHold which none else q
    let s := s.updPort p fun _ => q
    if trip && !w.tripped then s.fault 0x0B 4 p (w32 which) 0 else s

/-- PAUSE_WATCHDOG_INTERVAL: once at each 1 ms boundary of the oscillator (R138). -/
def pauseWatchdogInterval (p : Nat) (s : State) : State :=
  let s := s.begin
  match s.port? p with
  | none => s
  | some q =>
    if s.now / 1000000 ≤ q.watchAt then s
    else ((List.range 9).foldl (watchBoundary p) s).updPort p fun q => { q with watchAt := s.now / 1000000 }

def execPauseWatchdogInterval (port : Nat) (s : State) : Res := .next (pauseWatchdogInterval port s)

/-- Bytes in the packet pipeline queue. -/
def Port.fill (q : Port) : Nat := (q.pipeQ.map fun f => f.frame.length).sum

/-- Capacity of the packet pipeline queue (R135). -/
def Port.pipeCap (q : Port) : Nat := 16384 * lanesOf q.cfg.speed

/-- Whether the MAC sends pause or PFC frames at all (R139). -/
def Port.sendsPause (q : Port) : Bool := q.cfg.pauseTx || q.cfg.pfc != 0

/-- Sends a pause frame, or a PFC frame for the enabled priorities, of `quanta` (R139, R142). DESIGN CHOICE (log entry 98): the
frame leaves at once and takes no time on the wire, also where a frame is in progress. -/
def State.sendPause (s : State) (p quanta : Nat) : State :=
  match s.port? p with
  | none => s
  | some q =>
    let pfc := q.cfg.pfc != 0
    let s := s.emit (.pause p pfc q.cfg.pfc quanta)
    let s := s.countPort p (if pfc then 19 else 18) 1
    s.updPort p fun q => { q with txPaused := quanta != 0, lastPauseTx := s.now }

/-- The thresholds of R139 after the fill has changed from `before`: a fill that comes to 75 % or more sends a pause time, one
that falls below 25 % ends it. -/
def State.pauseCheck (s : State) (p before : Nat) : State :=
  match s.port? p with
  | none => s
  | some q =>
    if !q.sendsPause then s
    else if decide (3 * q.pipeCap ≤ 4 * q.fill) && (!q.txPaused || decide (4 * before < 3 * q.pipeCap)) then
      s.sendPause p 0xFFFF
    else if q.txPaused && decide (4 * q.fill < q.pipeCap) then s.sendPause p 0
    else s

/-- PAUSE_TX_REPEAT: each half pause time while the fill stays at 75 % or more (R139). -/
def pauseTxRepeat (p : Nat) (s : State) : State :=
  let s := s.begin
  match s.port? p with
  | none => s
  | some q =>
    if q.st == 4 && q.sendsPause && q.txPaused && decide (3 * q.pipeCap ≤ 4 * q.fill)
        && decide (q.lastPauseTx * 1000 + 0xFFFF * quantumPs q.speedRun / 2 ≤ s.now * 1000) then s.sendPause p 0xFFFF
    else s

def execPauseTxRepeat (port : Nat) (s : State) : Res := .next (pauseTxRepeat port s)

/-! ### Receive (R132 to R135) -/

/-- The tags and EtherType that the MAC parses: at most an outer tag of 0x88A8 or 0x8100 and an inner one of 0x8100
(R132). -/
def parsedTags (f : Frame) : List VlanTag × Nat :=
  match f.tags with
  | [] => ([], f.etype)
  | a :: r =>
    if a.tpid ≠ 0x88A8 ∧ a.tpid ≠ 0x8100 then ([], a.tpid)
    else
      match r with
      | [] => ([a], f.etype)
      | b :: r2 =>
        if b.tpid ≠ 0x8100 then ([a], b.tpid)
        else
          match r2 with
          | [] => ([a, b], f.etype)
          | c :: _ => ([a, b], c.tpid)

/-- The frame's PCP: its outermost tag's, or DEFAULT_PCP (R132). -/
def framePcp (tags : List VlanTag) (dflt : Nat) : Nat := match tags with | [] => dflt | a :: _ => a.pcp

/-- The frame's VID: its innermost tag's (R132). -/
def frameVid (tags : List VlanTag) : Option Nat := tags.getLast?.map VlanTag.vid

/-- The address filter (R133 step 5). -/
def PortCfg.addrOk (g : PortCfg) (da : Nat) : Bool :=
  da == 0xFFFFFFFFFFFF || da == 0x0180C2000001 || da == 0x0180C200000E || da == 0x011B19000000
    || g.addrs.any fun a => (da ^^^ a.1) &&& a.2 == 0

/-- The VLAN filter (R133 step 6). -/
def PortCfg.vlanOk (g : PortCfg) (vid : Option Nat) : Bool :=
  match vid with
  | none => !g.dropUntagged
  | some v => g.vlans.isEmpty || g.vlans.any fun r => decide (r.1 ≤ v) && decide (v ≤ r.2)

/-- Whether a STEER entry matches (R134). -/
def Steer.matches_ (e : Steer) (etype : Nat) (vid : Option Nat) (pcp : Nat) : Bool :=
  (etype &&& e.etypeMask == e.etype &&& e.etypeMask) && (!e.vidMatch || vid == some e.vid) && e.pcpMask.testBit pcp

/-- The queue a frame is steered to: 0 pipeline, 1 time, 2 host exception, 3 MAC control, 4 drop (R134). -/
def PortCfg.steer (g : PortCfg) (f : Frame) (etype : Nat) (vid : Option Nat) (pcp : Nat) : Nat :=
  match g.steers.find? fun e => e.matches_ etype vid pcp with
  | some e => e.action
  | none =>
    let ip := etype == 0x0800 || etype == 0x86DD
    if etype = 0x88F7 then 1
    else if ip && f.udp.any fun u => u.dport == 319 || u.dport == 320 then 1
    else if etype = 0x8808 then 3
    else if ip then 0
    else 2

/-- Receive correction in 0.1 ns at a running SPEED (R149). -/
def rxCorrection : Nat → Nat
  | 1 => 1824 | 2 => 1216 | 3 => 944 | _ => 784

/-- Transmit correction in 0.1 ns at a running SPEED (R149). -/
def txCorrection : Nat → Nat
  | 1 => 968 | 2 => 640 | 3 => 528 | _ => 448

/-- The transmit stamps of a frame on the eight time bases (R149, R150). -/
def State.txStamps (s : State) (speed : Nat) : List Nat :=
  s.time.bases.map fun b => b.value + txCorrection speed * 2 ^ 40 / 10

/-- The receive stamps of a frame on the eight time bases (R149, R150). -/
def State.rxStamps (s : State) (speed : Nat) : List Nat :=
  s.time.bases.map fun b => b.value - rxCorrection speed * 2 ^ 40 / 10

/-- Puts a steered frame into its receive queue, or drops it whole (R35, R133 step 7, R135). -/
def State.enqueueRx (s : State) (p : Nat) (q : Port) (f : Frame) (queue : Nat) : State :=
  let r : RxFrame := { frame := f, stamps := s.rxStamps q.speedRun, at_ := s.time.elapsed }
  let done := fun (s : State) => (s.countPort p 0 1).countPort p 1 f.length
  match queue with
  | 0 =>
    if !s.carries then s.countPort p 12 1
    else if q.pipeCap < q.fill + f.length then s.countPort p 8 1
    else (done (s.updPort p fun q => { q with pipeQ := q.pipeQ ++ [r] })).pauseCheck p q.fill
  | 1 =>
    if 16384 < (q.timeQ.map fun x => x.frame.length).sum + f.length then s.countPort p 9 1
    else done (s.updPort p fun q => { q with timeQ := q.timeQ ++ [r] })
  | 2 =>
    if 65536 < (q.excQ.map fun x => x.frame.length).sum + f.length then s.countPort p 10 1
    else done (s.updPort p fun q => { q with excQ := q.excQ ++ [{ frame := f, reason := 0, stamp := r.stamps.headD 0 }] })
  | 3 =>
    if 4096 < (q.ctlQ.map fun x => x.length).sum + f.length then s.countPort p 11 1
    else done (s.updPort p fun q => { q with ctlQ := q.ctlQ ++ [f] })
  | _ => s.countPort p 7 1

/-- Pause or PFC of a frame whose EtherType is 0x8808 (R132, R133 step 4). -/
def frameCtl (f : Frame) : MacCtl := if (parsedTags f).2 = 0x8808 then f.ctl else .none

/-- The holds that a pause or PFC frame names at a port (R136). -/
def PortCfg.holds (g : PortCfg) : MacCtl → List Nat
  | .pause _ => if g.pauseRx then [8] else []
  | .pfc enable _ => (List.range 8).filter fun k => g.pfc.testBit k && enable.testBit k
  | .none => []

/-- The checks of R133 in order. -/
def State.macReceive (s : State) (p : Nat) (q : Port) (f : Frame) : State :=
  if !f.fcsOk then s.countPort p 2 1
  else if f.length < 64 then s.countPort p 3 1
  else if q.cfg.maxFrame < f.length then s.countPort p 4 1
  else
    let holds := q.cfg.holds (frameCtl f)
    match frameCtl f with
    | .pause quanta =>
      let s := holds.foldl (State.watchTest p) (s.countPort p 13 1)
      if q.cfg.pauseRx then s.updPort p fun q => (q.countIgnored holds).pause 8 quanta s.now else s
    | .pfc enable quanta =>
      let s := holds.foldl (State.watchTest p) (s.countPort p 14 1)
      s.updPort p fun q => (q.countIgnored holds).pfcTimes enable quanta s.now
    | .none =>
      let t := parsedTags f
      let vid := frameVid t.1
      if !q.cfg.addrOk f.da then s.countPort p 5 1
      else if !q.cfg.vlanOk vid then s.countPort p 6 1
      else s.enqueueRx p q f (q.cfg.steer f t.2 vid (framePcp t.1 q.cfg.defaultPcp))

/-- FRAME_RECEIVE: `fecCorrected` and `fecBad` codewords and `symbols` corrected per lane came with it; a frame with a codeword that
FEC could not correct fails its FCS check (R122, R133, R142). -/
def frameReceive (p : Nat) (f : Frame) (fecCorrected fecBad : Nat) (symbols : List Nat) (s : State) : State :=
  let s := s.begin
  match s.port? p with
  | none => s
  | some q =>
    if !s.portsRun || q.st != 4 then s
    else
      let s := (s.countPort p 26 fecCorrected).countPort p 27 fecBad
      let s := (List.range 4).foldl (fun s i =>
        if i < lanesOf q.cfg.speed then s.countPort p (28 + i) (symbols.getD i 0) else s) s
      match s.port? p with
      | none => s
      | some q => s.macReceive p q { f with fcsOk := f.fcsOk && fecBad == 0 }

def execFrameReceive (port : Nat) (frame : Frame) (fecCorrected fecBad : Nat) (symbols : List Nat) (s : State) : Res :=
  .next (frameReceive port frame fecCorrected fecBad symbols s)

/-! ### Transmit (R140, R160 to R166) -/

/-- Whether a frame is due (R160). -/
def TxFrame.due (f : TxFrame) (clock : Int) : Bool := f.asap || f.immediate || decide (f.launch ≤ clock)

/-- The cycle phase of a gate list, in whole ns (R163): `t` is TB0 in units of 2^-16 ns. -/
def PortCfg.phase (g : PortCfg) (t : Nat) : Nat := ((((t : Int) - g.gateBase) / 65536) % (g.cycle : Int)).toNat

/-- The length of the run of open entries at the front of a list (R164). -/
def openRun (c : Nat) : List (Nat × Nat) → Nat
  | [] => 0
  | (d, m) :: r => if m.testBit c then d + openRun c r else 0

/-- Time left in the open window of class `c` at a phase, zero where its gate is closed (R164). -/
def openLeft (c : Nat) (all : List (Nat × Nat)) : List (Nat × Nat) → Nat → Nat
  | [], _ => 0
  | (d, m) :: r, ph =>
    if ph < d then (if m.testBit c then d - ph + openRun c (r ++ all) else 0)
    else openLeft c all r (ph - d)

/-- The longest window of class `c` (R164). -/
def longestWindow (c : Nat) (all : List (Nat × Nat)) : Nat :=
  ((List.range all.length).map fun i => openRun c (all.drop i ++ all.take i)).foldl max 0

/-- What the gates say of a frame (R165). -/
inductive GateTest where
  | start | hold | drop
  deriving DecidableEq, Repr, Inhabited

/-- The fit test (R163 to R165). -/
def PortCfg.gateTest (g : PortCfg) (c wirePs t : Nat) : GateTest :=
  if !g.gates || g.gateList.all fun e => e.2.testBit c then .start
  else if wirePs ≤ 1000 * openLeft c g.gateList g.gateList (g.phase t) then .start
  else if wirePs ≤ 1000 * longestWindow c g.gateList then .hold
  else .drop

/-- Wire time of a frame in ps (R164). -/
def TxFrame.wirePs (f : TxFrame) (speed : Nat) : Nat := (f.length + 8) * bytePs speed

/-- Looks for a frame of class `c` to start, dropping frames too long for the port or for every gate window; the first
argument bounds the frames looked at (R140, R165). -/
def Port.pickClass : Nat → Port → Nat → Int → Nat → Port × Option TxFrame
  | 0, q, _, _, _ => (q, none)
  | k + 1, q, c, clock, t =>
    match q.txq.getD c [] with
    | [] => (q, none)
    | f :: r =>
      let pop : Port := ({ q with txq := q.txq.set c r } : Port).markHeads clock
      if q.cfg.maxFrame < f.length then
        Port.pickClass k { pop with counters := bump pop.counters 20 1 } c clock t
      else if !f.due clock then (q, none)
      else
        match q.cfg.gateTest c (f.wirePs q.speedRun) t with
        | .start => (pop, some f)
        | .hold =>
          if f.deferred then (q, none)
          else ({ q with txq := q.txq.set c ({ f with deferred := true } :: r), counters := bump q.counters 24 1 }, none)
        | .drop => Port.pickClass k { pop with counters := bump pop.counters 25 1 } c clock t

/-- The highest-priority class with a frame to start (R140, R160). -/
def Port.pick (q : Port) (clock : Int) (t now : Nat) : List Nat → Port × Option TxFrame
  | [] => (q, none)
  | c :: cs =>
    if q.heldAt (7 - c) (now * 1000) then q.pick clock t now cs
    else
      match Port.pickClass ((q.txq.getD c []).length + 1) q c clock t with
      | (q', some f) => (q', some f)
      | (q', none) => q'.pick clock t now cs

end Sys2Proof.Machine
end

