-- ==== Sys2Proof/Machine/Ingress.lean ====
section
/-! DEFINITION. The ingress pipelines' first stages: taking frames in turn, parsing, leg lookup, binding checks; STUN and
consent (R18, R26, R116, R118, R135, R171 to R178, R206). -/

namespace Sys2Proof.Machine

/-! ### Turns (R135) -/

/-- The port that runs on lane `l`, if it has a whole frame in its packet pipeline queue. -/
def State.readyOnLane (s : State) (l : Nat) : Option Nat :=
  (List.find? (fun p : Nat × Port => decide (p.1 ≤ l) && decide (l < p.1 + lanesOf p.2.cfg.speed)
    && p.2.active.testBit (l - p.1) && p.2.st == 4 && !p.2.pipeQ.isEmpty) s.ports).map Prod.fst

/-- The lane of the next turn of pipeline `p` whose port has a frame ready, with that port (R135). -/
def State.nextTurn (s : State) (p : Nat) : Option (Nat × Nat) :=
  let last := s.turns.getD 15 p
  (List.range 16).findSome? fun i =>
    let l := (last + 1 + i) % 16
    (s.readyOnLane (16 * p + l)).map fun port => (l, port)

/-! ### Parsing (R171, R173, R174) -/

/-- The reason codes of R171 that need no lookup: the IP header. -/
def ipReason (f : Frame) : Option Nat :=
  match f.ip with
  | none => some 2
  | some ip =>
    if !ip.v6 && (ip.headerLen != 20 || ip.mf || ip.frag != 0) then some 3
    else if !ip.v6 && (!ip.csumOk || !ip.lenOk) then some 5
    else if ip.v6 && ip.proto != 17 then some 4
    else if ip.proto != 17 || f.udp.isNone then some 2
    else none

/-- The SSRC field of the lookup key (R175). -/
def lookupSsrc (f : Frame) : Option Nat :=
  if f.firstByte < 128 ∨ 191 < f.firstByte then none
  else match f.app with | .rtp p => some p.ssrc | .rtcp c => some c.sender | _ => none

/-- A received UDP payload as the leg's kind takes it: RTP, RTCP or Zwiva, none where it is malformed (R173, R174,
R206). `cls` and `run` are the sending leg's class record and SOURCE_RUN. -/
def legPayload (f : Frame) (cls : ClassRec) (run : Nat) : Option App :=
  if f.firstByte = 0x5A then
    match f.app with
    | .zwiva z => if z.magic = 0x5A ∧ z.version = 1 ∧ z.sourceIndex < run then some f.app else none
    | _ => none
  else if 192 ≤ f.secondByte ∧ f.secondByte ≤ 223 then
    match f.app with | .rtcp _ => some f.app | _ => none
  else
    match f.app with
    | .rtp p =>
      if p.version = 2 ∧ !p.truncated ∧ p.padCount ≤ p.payload.length + p.pad.length ∧ (cls.format p.pt).isSome then
        some f.app
      else none
    | _ => none

/-- The number of trunk sources of a slot: SOURCE_RUN (R102). -/
def sourceRun (r : RosterSlot) : Nat := if r.kind = 2 then r.aux else 1

/-- A packet of a leg found: binding state, parse checks, the latched bank, and its job at the cipher array (R26, R116,
R118, R178). -/
def State.legPacket (s : State) (port : Nat) (r : RxFrame) (leg : Nat) : State :=
  match s.legs.find? leg with
  | none => s
  | some g =>
    if g.fenced then s.countLeg leg 6 1
    else
      match g.slot, (s.conf g.conf).activeNo with
      | some k, some b =>
        let plan := s.planD g.conf b
        let run := ((plan.rosterSlot k).map sourceRun).getD 0
        match legPayload r.frame (plan.classOf k) run with
        | none => s.countLeg leg 8 1
        | some app =>
          let job := Job.rx leg g.serial g.conf b k port r.frame app (r.stamps.headD 0) g.rxGen s.lookNo
          { s with
            lookNo := s.lookNo + 1
            rxJobs := s.rxJobs.put (port / 16) (s.rxJobs.getD [] (port / 16) ++ [job]) }
      | _, _ => s.countLeg leg 5 1

/-- A frame from its packet pipeline queue: the rows of R171 in order. -/
def State.ingressFrame (s : State) (port : Nat) (r : RxFrame) : State :=
  let f := r.frame
  let stamp := r.stamps.headD 0
  match ipReason f, f.ip, f.udp with
  | none, some ip, some u =>
    let vid := frameVid (parsedTags f).1
    let stun := decide (f.firstByte ≤ 3)
    let leg := if stun then (s.tupleLegs ip u vid).head? else s.lookup ip u (lookupSsrc f) vid
    let kind := match leg with | some l => (s.legs.getD {} l).kind | none => 0
    if !u.lenOk || !u.csumOk then
      match leg with
      | some l => s.countLeg l 8 1
      | none => s.exception port f 6 none stamp
    else if stun then
      { s with stunQ := s.stunQ ++ [{
        frame := f, port := port, request := (match f.app with | .stun b => b | _ => false), stamp := stamp }] }
    else if 20 ≤ f.firstByte ∧ f.firstByte ≤ 63 then s.exception port f 8 leg stamp
    else
      match leg with
      | none => s.exception port f 1 none stamp
      | some l =>
        if (128 ≤ f.firstByte ∧ f.firstByte ≤ 191 ∧ kind ≤ 1) ∨ (f.firstByte = 0x5A ∧ kind = 2) then
          s.legPacket port r l
        else s.exception port f 9 (some l) stamp
  | some reason, _, _ => s.exception port f reason none stamp
  | none, _, _ => s.exception port f 2 none stamp

/-- INGRESS_TAKE_FRAME: one whole frame in turn order (R135), then R171 to R178, in a mode in which leg traffic runs (R33, R38). -/
def ingressTakeFrame (p : Nat) (s : State) : State :=
  let s := s.begin
  if !s.moves then s
  else
    match s.nextTurn p with
    | none => s
    | some (l, port) =>
      match s.port? port with
      | none => s
      | some q =>
        match q.pipeQ with
        | [] => s
        | r :: rest =>
          let s := { s with turns := s.turns.put p l }
          let s := (s.updPort port fun q => { q with pipeQ := rest }).pauseCheck port q.fill
          s.ingressFrame port r

def execIngressTakeFrame (p : Nat) (s : State) : Res := .next (ingressTakeFrame p s)

/-! ### STUN and consent (R171, R172) -/

/-- The frame of a STUN reply from a leg's template (R171). -/
def stunReply (g : Leg) (req : Frame) (sa : Nat) : TxFrame :=
  let body := App.stun false
  let l := udpFrameLen g.v6 (Config.stunReplyLength g.v6)
  let tags := if g.vlanValid then [{ tpid := 0x8100, pcp := 7, vid := g.vlan }] else []
  let n := macLen l g.vlanValid
  { frame := {
      da := req.sa, sa := sa, tags := tags, etype := if g.v6 then 0x86DD else 0x0800, length := n
      ip := some { v6 := g.v6, headerLen := if g.v6 then 40 else 20, src := g.lAddr, dst := g.rAddr, dscp := 48, df := true }
      udp := some { sport := g.lUdp, dport := g.rUdp }, wire := [1, 1], app := body }
    length := n, asap := true }

/-- An answered request counts for the consent of a leg (R172); sending resumes with the first copy looked up from now on. -/
def State.grantConsent (s : State) (leg : Nat) : State :=
  match s.legs.find? leg with
  | none => s
  | some g =>
    if g.kind = 2 then s
    else
      let s := s.updLeg leg fun g => { g with consent := some s.now, consentLost := false }
      if g.consentLost then
        ({ s.updLeg leg (fun g => { g with resume := s.lookNo + 1 }) with lookNo := s.lookNo + 1 } : State).legState leg
          g.stateCode 5
      else s

/-- Welmus answers a binding request on the port of arrival, or cannot for want of an ADDRESS entry (R171). -/
def State.answerStun (s : State) (r : Stun) (leg : Nat) (legs : List Nat) : State :=
  match s.legs.find? leg, ((s.port? r.port).getD {}).cfg.addrs with
  | some _, [] => s.countLeg leg 21 1
  | some g, a :: _ => legs.foldl State.grantConsent (s.sendClass0 r.port (stunReply g r.frame a.1) none)
  | none, _ => s

/-- STUN_REQUEST: Welmus takes the oldest STUN packet (R48, R171): during a restart of the cores it goes unanswered. The template of
the lowest-numbered leg on the 5-tuple that has one answers; where none has, the packet goes to the host. -/
def stunRequest (s : State) : State :=
  let s := s.begin
  match s.stunQ with
  | [] => s
  | r :: rest =>
    let s := { s with stunQ := rest }
    if !s.welmusRuns then s
    else
      match r.frame.ip, r.frame.udp with
      | some ip, some u =>
        let legs := s.tupleLegs ip u (frameVid (parsedTags r.frame).1)
        match legs.find? fun l => (s.legs.getD {} l).stun with
        | none => s.exception r.port r.frame 7 legs.head? r.stamp
        | some l => if r.request then s.answerStun r l legs else s
      | _, _ => s

def execStunRequest (s : State) : Res := .next (stunRequest s)

/-- CONSENT_EXPIRY: 30 s without an answered request (R172). -/
def consentExpiry (leg : Nat) (s : State) : State :=
  let s := s.begin
  match s.legs.find? leg with
  | none => s
  | some g =>
    match g.consent with
    | none => s
    | some t =>
      if g.consentLost || decide (s.now < t + 30000000000) then s
      else (s.updLeg leg fun g => { g with consentLost := true }).legState leg g.stateCode 4

def execConsentExpiry (leg : Nat) (s : State) : Res := .next (consentExpiry leg s)

end Sys2Proof.Machine
end

