-- ==== Sys2Proof/Machine/SessionIn.lean ====
section
/-! DEFINITION. What enters media sessions: audio payloads into input rings, video payloads and markers into access units,
and the release of access units (R178, R318, R335 to R338). -/

namespace Sys2Proof.Machine

/-! ### Audio (R178, R318) -/

/-- A payload enters a TYPE 0 session's ring, or is dropped where the ring is full (R335, R278). -/
def State.audioIn (s : State) (i ringKib : Nat) (e : RingEntry) : State :=
  if ringKib * 1024 < (s.sessAt i).ringBytes + e.bytes then s.countSched 2 1
  else s.updSess i fun x => { x with ring := x.ring ++ [e], ringBytes := x.ringBytes + e.bytes }

/-- A payload enters session `n` of a bank. -/
def State.audioTo (s : State) (c b n : Nat) (e : RingEntry) : State :=
  match (s.planD c b).sessionRec n, s.sessNo c b n with
  | some r, some i => s.audioIn i r.ringKib e
  | _, _ => s

/-- A ranked source's payload is copied into the session that its rank feeds (R318). -/
def State.rankIn (s : State) (c b source : Nat) (e : RingEntry) : State :=
  match List.find? (fun p : Nat × Nat => p.2 == source) (s.conf c).ranks with
  | none => s
  | some p =>
    let n := (s.planD c b).mix.rankSessions.getD p.1 0xFFFF
    if n = 0xFFFF then s else s.audioTo c b n e

/-! ### Access units (R336 to R338) -/

/-- Whether the depacketiser supports a payload's structure (R336). -/
def payloadKnown (format : Nat) (bs : List Nat) : Bool :=
  let b := bs.getD 0 0
  if format = 5 then decide (1 ≤ b % 32 ∧ b % 32 ≤ 24) || b % 32 == 28
  else if format = 6 then decide (b / 2 % 64 ≤ 49)
  else true

/-- The extended sequence number of `seq` near the extended number `top`. -/
def extendNear (top seq : Nat) : Nat :=
  let d := (seq + 65536 - top % 65536) % 65536
  if d < 32768 then top + d else top + d - 65536

/-- The highest sequence number present in an access unit. -/
def Au.top (a : Au) : Nat := (a.entries.map Prod.fst).foldl max 0

/-- An access unit is complete from sequence number `first` on: its M packet and every number up to it are present
(R337). -/
def Au.complete (a : Au) (first : Nat) : Bool :=
  match a.entries.find? fun e => e.2.m with
  | none => false
  | some m => (List.range (m.1 + 1 - first)).all fun k => a.entries.any fun e => e.1 == first + k

/-- The first 4 MiB of an access unit (R337). -/
def Au.cap (a : Au) : Au :=
  let r := a.entries.foldl (fun (x : List (Nat × RingEntry) × Nat) e =>
    if x.2 + e.2.data.length ≤ 4194304 then (x.1 ++ [e], x.2 + e.2.data.length) else x) ([], 0)
  { a with entries := r.1 }

/-- Releases the first access unit of a session: a whole one or a damaged one; one made only of markers is not released
(R337). -/
def State.releaseHead (s : State) (c b i session : Nat) (damaged : Bool) : State :=
  match (s.sessAt i).aus with
  | [] => s
  | a :: rest =>
    let bad := damaged || a.damaged
    let s := s.updSess i fun x => { x with aus := rest, nextFirst := some (max (x.nextFirst.getD 0) (a.top + 1)) }
    if a.entries.all fun e => e.2.marker then s.dropAu c b session a
    else
      let s := s.countConf c 12 1
      let s := if bad then s.countConf c 13 1 else s
      let kept := a.cap
      let s := s.updSess i fun x => { x with ringBytes := x.ringBytes - (a.ringBytes - kept.ringBytes) }
      s.releaseAu c b session { kept with damaged := bad }

/-- An access unit that is released now though it is not complete: too large, or past its reassembly time (R337). -/
def Au.overdue (a : Au) (r : SessionRec) (nowUs : Nat) : Bool :=
  decide (4194304 < a.bytes) || decide (r.ringKib * 1024 / 2 < a.bytes)
    || (r.reassMs != 0 && decide (a.arrival + r.reassMs * 1000 ≤ nowUs))

/-- Whether the first access unit of a session must be released now, and whether as damaged: complete; overdue; or, with
REASSEMBLY_MS 0, followed by a later timestamp. One behind it that is overdue goes at once too, and the order of sequence sends it
ahead (R337; DEDUCED, log entry 132). -/
def headDue (x : Sess) (r : SessionRec) (nowUs : Nat) : Option Bool :=
  match x.aus with
  | [] => none
  | a :: rest =>
    if a.complete (x.nextFirst.getD a.first) then some false
    else if (a :: rest).any (fun u => u.overdue r nowUs) || (r.reassMs == 0 && !rest.isEmpty) then some true
    else none

/-- Releases access units in sequence order while the first one is due (R337). -/
def State.releaseDue (c b i session : Nat) (r : SessionRec) : Nat → State → State
  | 0, s => s
  | n + 1, s =>
    match headDue (s.sessAt i) r s.tb0Us with
    | none => s
    | some d => State.releaseDue c b i session r n (s.releaseHead c b i session d)

/-- Inserts an entry into the access unit of its timestamp, or a new one in sequence order (R337). -/
def placeEntry (ext : Nat) (e : RingEntry) (bad : Bool) : List Au → List Au
  | [] => [{ ts := e.ts, first := ext, entries := [(ext, e)], arrival := e.arrival, damaged := bad }]
  | a :: r =>
    if a.ts = e.ts then
      { a with
        entries := (a.entries.filter fun x => decide (x.1 < ext)) ++ [(ext, e)] ++
          a.entries.filter fun x => decide (ext < x.1)
        damaged := a.damaged || bad } :: r
    else if ext < a.top then
      { ts := e.ts, first := ext, entries := [(ext, e)], arrival := e.arrival, damaged := bad } :: a :: r
    else a :: placeEntry ext e bad r

/-- Every pending access unit is released as damaged (R338). -/
def State.releaseAll (c b i session : Nat) : Nat → State → State
  | 0, s => s
  | n + 1, s => if (s.sessAt i).aus.isEmpty then s else State.releaseAll c b i session n (s.releaseHead c b i session true)

/-- A video payload or marker at its session (R335 to R338). -/
def State.videoIn (s : State) (c b i : Nat) (r : SessionRec) (e : RingEntry) : State :=
  let x := s.sessAt i
  let top := x.highest.getD (65536 + e.seq)
  let ext := extendNear top e.seq
  let jump := x.highest.isSome && (decide (top + 3000 < ext) || decide (ext + 100 < top))
  if r.ringKib * 1024 < x.ringBytes + e.bytes then
    s.countSched 2 1
  else
    let known := e.marker || payloadKnown r.format e.data
    let late := !jump && x.nextFirst.any fun f => decide (ext < f)
    let s := if e.marker || (known && !late) then s else s.countConf c 14 1
    let e := if known then e else { e with data := [] }
    if jump then
      let s := State.releaseAll c b i r.session x.aus.length s
      s.updSess i fun x =>
        { x with highest := some (65536 + e.seq), nextFirst := some (65536 + e.seq), ringBytes := x.ringBytes + e.bytes
                 aus := placeEntry (65536 + e.seq) e (!known) [] }
    else if late then s
    else
      let s := s.updSess i fun x =>
        { x with highest := some (max top ext), nextFirst := some (x.nextFirst.getD ext)
                 ringBytes := x.ringBytes + e.bytes, aus := placeEntry ext e (!known) x.aus }
      State.releaseDue c b i r.session r ((s.sessAt i).aus.length) s

/-- A decrypted video payload of a KIND 1 leg (R178, R335): to the TYPE 2 session of its slot, of its STREAM only; layers
above S_DEC or T_DEC leave a marker. -/
def State.videoTo (s : State) (c b : Nat) (slot : RosterSlot) (stream : Nat) (e : RingEntry) : State :=
  match (s.planD c b).slotSession slot 2 with
  | none => s.countConf c 14 1
  | some r =>
    if r.stream ≠ stream then s.countConf c 14 1
    else
      match s.sessNo c b r.session with
      | none => s.countConf c 14 1
      | some i =>
        if r.sDec < e.s ∨ r.tDec < e.t then (s.countConf c 14 1).videoIn c b i r { e with marker := true, data := [] }
        else s.videoIn c b i r e

/-- REASSEMBLY_TIMEOUT: the access units whose time has come are released (R337). -/
def reassemblyTimeout (c session : Nat) (s : State) : State :=
  let s := s.begin
  match (s.conf c).activeNo with
  | none => s
  | some b =>
    match (s.planD c b).sessionRec session, s.sessNo c b session with
    | some r, some i => State.releaseDue c b i session r ((s.sessAt i).aus.length) s
    | _, _ => s

def execReassemblyTimeout (conf session : Nat) (s : State) : Res := .next (reassemblyTimeout conf session s)

end Sys2Proof.Machine
end

