-- ==== Sys2Proof/Machine/Decrypt.lean ====
section
/-! DEFINITION. What follows a verified tag: replay marks, classification, renumbering, history and hand-over; locally
originated packets; receiver reports and NACKs to senders (R21 to R23, R178 to R188, R198, R201, R206, R229, R464). -/

namespace Sys2Proof.Machine

/-! ### Handing on (R184, R190, R314) -/

/-- Hands a packet to the replicator, which no packet reaches before its tag is verified (R19): a full input queue drops it
(R190). -/
def State.toReplicator (s : State) (p : Nat) (pk : ReplPacket) : State :=
  let q := s.replQ.getD [] p
  if 512 ≤ q.length then match pk.srcLeg with | some l => s.countLeg l 14 1 | none => s
  else { s with replQ := s.replQ.put p (q ++ [pk]) }

/-- Writes the level table (R314). -/
def State.putLevel (s : State) (c source level : Nat) (v : Bool) : State :=
  s.updConf c fun g => { g with levels := g.levels.put source (level, v, s.tb0Us) }

/-- A payload as a session's ring takes it. -/
def ringEntry (p : RtpPacket) (c : Class) (us : Nat) : RingEntry :=
  { seq := p.seq, ts := p.ts, m := p.marker, s := c.s, t := c.t, key := c.key, arrival := us, data := p.payload }

/-- The job of a received packet as the stages after decryption see it. -/
structure RxJob where
  leg : Nat
  serial : Nat
  conf : Nat
  bank : Nat
  slot : Nat
  port : Nat
  frame : Frame
  stamp : Nat
  look : Nat
  index : Nat

/-- Hands a verified RTP packet of a source to the replicator; a SOURCE_REF that fails its pair gives no copies and fences
the conference (R117). -/
def State.handOn (s : State) (j : RxJob) (source : Option Nat) (offset : Nat) (pk : ReplPacket) : State :=
  match source with
  | none => s.fenceConf j.conf 1 0
  | some n => s.toReplicator (j.port / 16) { pk with source := n + offset }

/-! ### RTP of a leg of KIND 0 or 1 (R178, R181, R184, R186) -/

/-- An audio packet (R178, R184, R191, R314, R318). -/
def State.rxAudio (s : State) (j : RxJob) (g : Leg) (r : RosterSlot) (cls : ClassRec) (fmt : Nat) (p : RtpPacket) : State :=
  let lv := packetLevel cls p
  let c : Class := { audio := true, format := fmt, level := (lv.map Prod.fst).getD 127, v := (lv.map Prod.snd).getD false }
  let s := match lv with | some x => s.updLeg j.leg fun g => { g with level := x.1, vbit := x.2 } | none => s
  let src := r.source
  let e := ringEntry p c s.tb0Us
  let s := match src with
    | none => s
    | some n =>
      let s := match lv with | some x => if n = 0xFFFF then s else s.putLevel j.conf n x.1 x.2 | none => s
      if n = 0xFFFF then s else s.rankIn j.conf j.bank n e
  if g.kind = 1 then
    let s := if src.isNone then s.fenceConf j.conf 1 0 else s
    match (s.planD j.conf j.bank).slotSession r 0 with
    | some x => s.audioTo j.conf j.bank x.session e
    | none => s
  else
    s.handOn j src 0
      { conf := j.conf, bank := j.bank, source := 0, srcLeg := some j.leg, srcSerial := j.serial, app := .rtp p, cls := c
        index := j.index
        arrival := s.tb0Us, look := j.look, srcIds := cls.ids, joinFir := cls.joinFir }

/-- The numbers that a gap misses, oldest first. -/
def gapSeqs (n gap : Nat) : List Nat := (List.range gap).map fun i => (n + 65536 - gap + i) % 65536

/-- What R186 leaves at the leg: the stream, the cut counters, the history, and the missing numbers to ask for (R201). -/
def State.putRenumbered (s : State) (leg k n : Nat) (nack : Bool) (x : Renumbered) (h : History) : State :=
  s.updLeg leg fun g =>
    { g with
      rx := g.rx.set k x.stream, cuts := x.cuts, hist := h
      nacks := if nack then g.nacks ++ (gapSeqs n x.gap).map fun m => (k, m) else g.nacks }

/-- A video packet (R178, R184 to R188). `old` is the stream's state before the packet. A KIND 1 leg has no history: its late
packets count in RX_LATE, and still go to its session, which takes retransmissions (R337; DEDUCED, log entry 100). -/
def State.rxVideo (s : State) (j : RxJob) (g : Leg) (r : RosterSlot) (cls : ClassRec) (fmt k : Nat) (old : SsrcState)
    (p : RtpPacket) : State :=
  let i := videoInfo cls fmt g.templates g.ddOff k old p
  let c := videoClass i.info k g.simulcast fmt old p.ts
  let s := (s.updLeg j.leg fun g => { g with templates := i.map, ddOff := i.off }).countLeg j.leg 11 i.unsupported
  let g := s.legs.getD {} j.leg
  if g.kind = 1 then
    let x := renumber (g.rx.getD k {}) g.cuts {} none c p s.tb0Us
    let s := (s.putRenumbered j.leg k p.seq cls.upstreamNack x g.hist).noteRenumbered j.leg x
    s.videoTo j.conf j.bank r k (ringEntry p c s.tb0Us)
  else
    let x := renumber (g.rx.getD k {}) g.cuts g.hist g.prevHist c p s.tb0Us
    let s := (s.putRenumbered j.leg k p.seq cls.upstreamNack x x.hist).noteRenumbered j.leg x
    match x.cutseq with
    | none => s
    | some cs =>
      s.handOn j r.source 0
        { conf := j.conf, bank := j.bank, source := 0, srcLeg := some j.leg, srcSerial := j.serial, app := .rtp p, cls := c
          cutseq := cs
          arrival := s.tb0Us, look := j.look, srcIds := cls.ids, joinFir := cls.joinFir }

/-- A verified RTP packet: the window is checked again and marked (R180, R181, R229). SSRC index 0 carries audio (R177). -/
def State.rxRtp (s : State) (j : RxJob) (g : Leg) (r : RosterSlot) (cls : ClassRec) (p : RtpPacket) : State :=
  let fmt := (cls.format p.pt).getD 0
  let k := g.ssrcIdx p.ssrc fmt
  let old := g.rx.getD k {}
  if !windowFree old.started old.top old.window cls.replayWindow j.index then s.countLeg j.leg 4 1
  else
    let st := ((packetDd cls p).bind DdInfo.struct?).isSome
    let s := ((s.updLeg j.leg fun g =>
      { g with rx := g.rx.set k (old.accept cls.replayWindow j.index p s.tb0Us s.now st), nextHop := some j.frame.sa
               lastRtpIn := some s.now }).countLeg j.leg 0 1).countLeg j.leg 1 (rtpLen p)
    if k = 0 then s.rxAudio j g r cls fmt p else s.rxVideo j g r cls fmt k old p

/-! ### Zwiva datagrams (R204, R206) -/

/-- A verified datagram with an inner RTP packet (R206). -/
def State.rxTrunkRtp (s : State) (j : RxJob) (r : RosterSlot) (cls : ClassRec) (z : Zwiva) (p : RtpPacket) : State :=
  let g := s.legs.getD {} j.leg
  let old := g.hist.sources.getD {} z.sourceIndex
  let st := old.streams.getD z.stream {}
  let idx := estimateIndex st.started st.highest st.roc p.seq
  let st1 := st.accept 64 idx p s.tb0Us s.now false
  let c : Class :=
    { audio := decide (z.stream = 0), stream := z.stream, s := z.s, t := z.t, key := z.key, sw := z.sw, sof := z.sof
      level := z.level, v := z.v, format := z.format, simul := z.simul }
  let put := fun (s : State) (q : TrunkSrc) (h : History) => s.updLeg j.leg fun g =>
    { g with hist := { h with sources := h.sources.put z.sourceIndex { q with ssrc := z.streamSsrc, simul := z.simul } } }
  let pk : ReplPacket :=
    { conf := j.conf, bank := j.bank, source := 0, srcLeg := some j.leg, srcSerial := j.serial
      trunk := some (z.sourceIndex, z.streamSsrc)
      app := .rtp p, cls := c, index := idx, arrival := s.tb0Us, look := j.look, srcIds := [1, 2, 3], joinFir := cls.joinFir }
  if c.audio then
    let s := put s { old with streams := old.streams.set 0 st1 } g.hist
    let s := match r.source with
      | none => s
      | some n => (s.putLevel j.conf (n + z.sourceIndex) z.level z.v).rankIn j.conf j.bank (n + z.sourceIndex)
          (ringEntry p c s.tb0Us)
    s.handOn j r.source z.sourceIndex pk
  else
    let x := renumber st1 old.cuts g.hist g.prevHist c p s.tb0Us
    let s := put s { old with streams := old.streams.set z.stream x.stream, cuts := x.cuts } x.hist
    let s := s.noteRenumbered j.leg x
    match x.cutseq with
    | none => s
    | some cs => s.handOn j r.source z.sourceIndex { pk with cutseq := cs }

/-- A verified datagram: the trunk's window is checked again and marked (R206, R229). -/
def State.rxTrunk (s : State) (j : RxJob) (g : Leg) (r : RosterSlot) (cls : ClassRec) (z : Zwiva) : State :=
  let t := g.trunkRx
  if !windowFree t.started t.top t.window cls.replayWindow j.index then s.countLeg j.leg 4 1
  else
    let m := windowMark t.started t.top t.window cls.replayWindow j.index
    let s := s.updLeg j.leg fun g =>
      { g with trunkRx := { t with started := true, window := m.2, highest := m.1 % 65536, roc := m.1 / 65536 }
               nextHop := some j.frame.sa }
    match z.inner with
    | .rtp p =>
      let s := ((s.updLeg j.leg fun g => { g with lastRtpIn := some s.now }).countLeg j.leg 0 1).countLeg j.leg 1 (rtpLen p)
      s.rxTrunkRtp j r cls z p
    | .rtcp m =>
      (s.countLeg j.leg 2 1).rtcpIn
        { leg := j.leg, conf := j.conf, bank := j.bank, look := j.look, port := j.port, frame := j.frame, stamp := j.stamp
          source := r.source.map (· + z.sourceIndex), trunk := some (z.sourceIndex, z.stream) } cls m

/-! ### RTCP of a leg (R198, R229) -/

/-- A verified compound: the fixed window of 64 is checked again and marked. -/
def State.rxRtcp (s : State) (j : RxJob) (g : Leg) (r : RosterSlot) (cls : ClassRec) (m : Rtcp) : State :=
  if !windowFree g.rtcpStarted g.rtcpHighest g.rtcpWindow 64 j.index then s.countLeg j.leg 4 1
  else
    let w := windowMark g.rtcpStarted g.rtcpHighest g.rtcpWindow 64 j.index
    let s := (s.updLeg j.leg fun g =>
      { g with rtcpStarted := true, rtcpHighest := w.1, rtcpWindow := w.2, nextHop := some j.frame.sa }).countLeg j.leg 2 1
    s.rtcpIn { leg := j.leg, conf := j.conf, bank := j.bank, look := j.look, port := j.port, frame := j.frame
               stamp := j.stamp, source := r.source, trunk := none } cls m

/-! ### DECRYPT_COMPLETE (R21, R181, R227, R229, R230) -/

/-- What a leg keeps when the updates of a packet verified under an earlier key are discarded (R21). -/
def Leg.keepRx (old new : Leg) : Leg :=
  { new with
    rx := old.rx, rtcpHighest := old.rtcpHighest, rtcpStarted := old.rtcpStarted, rtcpWindow := old.rtcpWindow
    trunkRx := old.trunkRx, cuts := old.cuts, templates := old.templates, ddOff := old.ddOff, nextHop := old.nextHop
    level := old.level, vbit := old.vbit, hist := { new.hist with sources := old.hist.sources } }

/-- A verified payload of a leg (R178). -/
def State.verified (s : State) (j : RxJob) (app : App) : State :=
  match s.legs.find? j.leg, (s.planD j.conf j.bank).rosterSlot j.slot with
  | some g, some r =>
    let cls := (s.planD j.conf j.bank).classOf j.slot
    match app with
    | .rtp p => s.rxRtp j g r cls p
    | .rtcp m => s.rxRtcp j g r cls m
    | .zwiva z => s.rxTrunk j g r cls z
    | _ => s
  | _, _ => s

/-- What follows the verdict on a packet's tag at its leg: a failed tag is counted and the packet dropped; else R178 to R206 follow.
Updates of receive state under a generation that is no longer expected are discarded (R21, R215, R229, R230). -/
def State.judged (j : RxJob) (app : App) (gen : Nat) (tagOk : Bool) (s : State) : State :=
  if !tagOk then s.countLeg j.leg 3 1
  else
    match s.legs.find? j.leg with
    | none => s
    | some g =>
      let t := s.verified j app
      if g.rxGen = gen then t else t.updLeg j.leg g.keepRx

/-- The received packet that a core took first, once its result is due. -/
def State.oldestRx (s : State) (core : Nat) : Option CoreJob :=
  (s.core core).jobs.find? fun j => (match j.job with | .rx .. => true | .tx _ => false) && s.ready j

/-- DECRYPT_COMPLETE: a core's result, for the leg as it was open at the packet's lookup (R21, R92, R227, R230). -/
def decryptComplete (core : Nat) (s : State) : State :=
  let s := s.begin
  match s.oldestRx core with
  | some ⟨.rx leg serial conf bank slot port frame app stamp gen look, n, keys, profile, index, _⟩ =>
    let tagOk := authentic profile keys index app frame.wire
    let s := s.updCore core fun q => { q with counters := bump (bump q.counters 0 1) 2 (appExtent app) }
    let s := s.freeCore core n
    let s := if tagOk then s else s.countCore core 3 1
    let j : RxJob :=
      { leg := leg, serial := serial, conf := conf, bank := bank, slot := slot, port := port, frame := frame, stamp := stamp
        look := look, index := index }
    s.asOpened leg serial (State.judged j app gen tagOk)
  | _ => s

def execDecryptComplete (group unit : Nat) (s : State) : Res := .next (decryptComplete (5 * group + unit) s)

/-! ### Locally originated packets (R22, R23, R103, R290, R464) -/

/-- Whether a local queue still holds a packet under a CREDIT lease. -/
def State.creditHeld (s : State) (n : Nat) : Bool := s.localQ.any fun p => p.2.any fun q => q.credit == some n

/-- A CREDIT lease ends once no packet under it waits (R261, R464). -/
def State.endCredit (s : State) (credit : Option Nat) : State :=
  match credit with
  | none => s
  | some n => if s.creditHeld n then s else s.updSched fun x => { x with leases := x.leases.del n }

/-- A locally originated source is simulcast where more than one encode session carries it (R376, R385). -/
def Plan.localSimul (p : Plan) (source : Nat) : Bool :=
  decide (1 < p.sessions.countP fun r => r.typ == 3 && r.source == source)

/-- A packet record at the replicator: it is numbered as R186 numbers a received packet, with state kept by source (R22,
log entry 41). -/
def State.injectLocal (s : State) (p : Nat) (q : LocalRec) : State :=
  let plan := s.planD q.conf q.bank
  let simul := plan.localSimul q.source
  let k := if q.audio then 0 else if simul then q.s + 1 else 1
  let pkt : RtpPacket :=
    { marker := q.marker, pt := 96, seq := q.seq, ts := q.ts, ssrc := q.ssrc, payload := q.payload }
  let c : Class :=
    { audio := q.audio, stream := k, s := q.s, t := q.t, key := q.key, sw := q.sw, sof := q.sof, level := q.level, v := q.v
      format := q.format, simul := simul }
  let old := (s.conf q.conf).locals.getD {} q.source
  let st := old.streams.getD k {}
  let idx := estimateIndex st.started st.highest st.roc q.seq
  let st1 := st.accept 64 idx pkt s.tb0Us s.now false
  let x := renumber st1 old.cuts {} none c pkt s.tb0Us
  let new : TrunkSrc :=
    if q.audio then { old with streams := old.streams.set 0 st1, ssrc := q.ssrc }
    else { old with streams := old.streams.set k x.stream, cuts := x.cuts, ssrc := q.ssrc }
  let s := s.updConf q.conf fun g => { g with locals := g.locals.put q.source new }
  let s := if q.audio then s.putLevel q.conf q.source q.level q.v else s
  let pk : ReplPacket :=
    { conf := q.conf, bank := q.bank, source := q.source, app := .rtp pkt, cls := c, index := idx, arrival := s.tb0Us
      tReq := if q.launch = 0 then none else some (q.launch : Int)
      look := s.lookNo, cutseq := x.cutseq.getD [] }
  if !q.audio && x.cutseq.isNone then s else s.toReplicator p pk

/-- LOCAL_INJECT: a packet record enters pipeline `p` where no network frame is ready (R23), while leg traffic runs (R33, R35). -/
def localInject (p : Nat) (s : State) : State :=
  let s := s.begin
  if !s.moves || (s.nextTurn p).isSome then s
  else
    match s.localQ.getD [] p with
    | [] => s
    | q :: rest => (({ s with localQ := s.localQ.put p rest } : State).injectLocal p q).endCredit q.credit

def execLocalInject (p : Nat) (s : State) : Res := .next (localInject p s)

/-- LOCAL_STARVED: records not taken within 20 ms of their task's completion are discarded, their credit ends and a record
is written (R464). -/
def localStarved (task : Nat) (s : State) : State :=
  let s := s.begin
  let all := s.localQ.flatMap Prod.snd
  match all.find? fun q => q.task == task && decide (q.at_ + 20000000 ≤ s.now) with
  | none => s
  | some q =>
    let mine := fun (x : LocalRec) => x.task == task && x.at_ == q.at_
    let n := all.countP mine
    let s := { s with localQ := s.localQ.map fun (p : Nat × List LocalRec) => (p.1, p.2.filter fun x => !mine x) }
    (s.endCredit q.credit).fault 0x22 1 q.conf (w32 n) 0

def execLocalStarved (task : Nat) (s : State) : Res := .next (localStarved task s)

/-! ### RTCP that the device originates (R201) -/

/-- A report block built from a stream's receive state: lost packets from the numbers expected; what the receive state does
not hold is free (R201, log entry 39). -/
def reportBlock (leg idx : Nat) (r : SsrcState) : RrBlock :=
  { ssrc := r.ssrc, fractionLost := Config.rrField leg idx 0
    cumulativeLost := (r.top + 1 - r.base - r.received) % 2 ^ 24, extHighest := r.top % 2 ^ 32
    jitter := Config.rrField leg idx 1, lsr := Config.rrField leg idx 2, dlsr := Config.rrField leg idx 3 }

/-- The streams that have sent RTP, in order. -/
def Leg.reportBlocks (g : Leg) (leg : Nat) : List RrBlock :=
  (g.rx.zipIdx.filter fun x => x.1.lastRtp.isSome).map fun x => reportBlock leg x.2 x.1

/-- RR_SEND: every 1,000 ms, to a leg of KIND 0 or 1 that has sent RTP within 5 s (R201). -/
def rrSend (leg : Nat) (s : State) : State :=
  let s := s.begin
  match s.legs.find? leg with
  | none => s
  | some g =>
    let due := match g.lastRr with | none => true | some t => decide (t + 1000000000 ≤ s.now)
    let live := g.lastRtpIn.any fun t => decide (s.now ≤ t + 5000000000)
    if g.kind = 2 || !due || !live then s
    else
      let own := Config.ownSsrc leg
      (s.updLeg leg fun g => { g with lastRr := some s.now }).sendRtcp leg
        (.rtcp (compound own 0 [.rr own (g.reportBlocks leg)])) none

def execRrSend (leg : Nat) (s : State) : Res := .next (rrSend leg s)

/-- Packs sequence numbers into generic NACK entries: PID and the 16 numbers after it (R201). -/
def packNacks : Nat → List Nat → List (Nat × Nat)
  | 0, _ => []
  | _, [] => []
  | fuel + 1, n :: r =>
    let near := r.takeWhile fun m => decide (1 ≤ (m + 65536 - n) % 65536 ∧ (m + 65536 - n) % 65536 ≤ 16)
    let blp := near.foldl (fun b m => b ||| 2 ^ ((m + 65536 - n) % 65536 - 1)) 0
    (n, blp) :: packNacks fuel (r.drop near.length)

/-- UPSTREAM_NACK_SEND: a generic NACK for each stream with missing packets not yet asked for (R201). -/
def upstreamNackSend (leg : Nat) (s : State) : State :=
  let s := s.begin
  match s.legs.find? leg with
  | none => s
  | some g =>
    if g.nacks.isEmpty then s
    else
      let own := Config.ownSsrc leg
      let parts := [1, 2, 3].filterMap fun k =>
        match (g.nacks.filter fun x => x.1 == k).map Prod.snd with
        | [] => none
        | l => some (RtcpPart.nack (g.rx.getD k {}).ssrc (packNacks l.length l))
      (s.updLeg leg fun g => { g with nacks := [] }).sendRtcp leg (.rtcp (compound own 0 parts)) none

def execUpstreamNackSend (leg : Nat) (s : State) : Res := .next (upstreamNackSend leg s)

end Sys2Proof.Machine
end

