-- ==== Sys2Proof/Machine/Dsp.lean ====
section
/-! DEFINITION. The operations of a DSP core that the table names: arithmetic, search, narrowing, addressing, block repeat,
branches, pre-emption masks, DMA and the end of a kernel (R280 to R289). -/

namespace Sys2Proof.Machine

/-! ### Registers -/

/-- A data register. -/
def DspSlot.dr (x : DspSlot) (i : Nat) : BitVec 32 := x.d.getD i 0

/-- Writes a data register. -/
def DspSlot.setD (x : DspSlot) (i : Nat) (v : BitVec 32) : DspSlot := { x with d := x.d.set i v }

/-! ### Addressing (R281) -/

/-- The low `n` bits of a number in reverse order. -/
def revBits : Nat → Nat → Nat
  | 0, _ => 0
  | n + 1, v => (v % 2) * 2 ^ n + revBits n (v / 2)

/-- A pointer as an address. -/
def DspSlot.ptr (x : DspSlot) (i : Nat) : Nat := (x.p.getD i 0).toNat

/-- The length of a pointer's buffer: the 17 bits of Ln hold 131,072 as 0 (DEDUCED from R279 and R281, log entry 127). -/
def DspSlot.len (x : DspSlot) (i : Nat) : Nat := let n := (x.l.getD i 0).toNat; if n = 0 then 131072 else n

/-- The step of an access: an immediate or Mn. -/
def DspSlot.step (x : DspSlot) (a : DspAccess) : Int :=
  if a.useM then (x.m.getD a.ptr 0).toInt else a.step.getD 0

/-- Whether the pointer's buffer may be used in its mode (R281, R292). -/
def DspSlot.modeOk (x : DspSlot) (a : DspAccess) : Bool :=
  let n := x.am.getD a.ptr 0
  let len := x.len a.ptr
  if n = 3 then false
  else if n = 2 ∧ (a.step.isSome || a.useM) then
    decide (8 ≤ len ∧ 2 ^ Nat.log2 len = len ∧ (x.b.getD a.ptr 0).toNat ≤ x.ptr a.ptr
      ∧ x.ptr a.ptr - (x.b.getD a.ptr 0).toNat < len)
  else true

/-- The pointer after an access with update (R281), modulo 2^17. -/
def DspSlot.nextPtr (x : DspSlot) (a : DspAccess) : Nat :=
  let p := x.ptr a.ptr
  let b := (x.b.getD a.ptr 0).toNat
  let len := x.len a.ptr
  let n := x.am.getD a.ptr 0
  if n = 1 then
    let q : Int := (p : Int) + x.step a
    let q := if (b : Int) + len ≤ q then q - len else if q < b then q + len else q
    (q % 2 ^ 17).toNat
  else if n = 2 then
    let k := Nat.log2 len
    let m := (x.m.getD a.ptr 0).toNat
    (b + revBits k ((revBits k (p - b) + revBits k m) % 2 ^ k)) % 2 ^ 17
  else (((p : Int) + x.step a) % 2 ^ 17).toNat

/-- Whether an access updates its pointer. -/
def accUpdates (a : DspAccess) : Bool := a.step.isSome || a.useM

/-- The address of an access: Pn, or Pn plus the signed 10-bit offset of an access without update (R281). -/
def DspSlot.addr (x : DspSlot) (a : DspAccess) : Int :=
  if accUpdates a then x.ptr a.ptr else (x.ptr a.ptr : Int) + (BitVec.ofInt 10 a.offset).toInt

/-- Whether an access faults: misaligned, beyond LDM_FOOTPRINT, or through a bad mode (R281, R292). -/
def DspSlot.accessBad (x : DspSlot) (a : DspAccess) : Bool :=
  let at_ := x.addr a
  decide (at_ < 0) || decide (at_ % a.size ≠ 0) || decide ((x.footprint : Int) < at_ + a.size) || !x.modeOk a

/-- Byte `i` of local memory. -/
def DspSlot.byte (x : DspSlot) (i : Nat) : Nat := (x.ldm.getD 0 (i / 4)).toNat / 256 ^ (i % 4) % 256

/-- Writes a byte of local memory. -/
def DspSlot.setByte (x : DspSlot) (i v : Nat) : DspSlot :=
  let w := (x.ldm.getD 0 (i / 4)).toNat
  let o := 256 ^ (i % 4)
  { x with ldm := x.ldm.setD 0 (i / 4) (BitVec.ofNat 32 (w - w / o % 256 * o + v % 256 * o)) }

/-! ### What the slots of a bundle do: every operation reads `x`, the registers before the bundle, and writes `y` (R280) -/

/-- A load of up to 8 bytes, least significant first, into Dn and, beyond 4 bytes, Dn+1; a store the other way (R9,
R280). -/
def DspSlot.access (x : DspSlot) (a : DspAccess) (y : DspSlot) : DspSlot :=
  let at_ := (x.addr a).toNat
  let idx := List.range a.size
  let y := if a.store then
      let v := (x.dr a.dreg).toNat + 2 ^ 32 * (x.dr (a.dreg + 1)).toNat
      idx.foldl (fun (y : DspSlot) i => y.setByte (at_ + i) (v / 256 ^ i % 256)) y
    else
      let v := (idx.map fun i => x.byte (at_ + i) * 256 ^ i).sum
      let y := y.setD a.dreg (BitVec.ofNat 32 v)
      if 4 < a.size then y.setD (a.dreg + 1) (BitVec.ofNat 32 (v / 2 ^ 32)) else y
  if accUpdates a then { y with p := y.p.set a.ptr (BitVec.ofNat 17 (x.nextPtr a)) } else y

/-- The 24-bit Q1.23 operand in a data register's container (R10, R280). -/
def q23 (v : BitVec 32) : Int := (v.setWidth 24).toInt

/-- DSP_MAC: the two 24 x 24 products of a MAC slot are added into one 72-bit accumulator; an addition that overflows wraps
and sets OVF (R280). -/
def macOp (acc a0 b0 a1 b1 : Nat) (x y : DspSlot) : DspSlot :=
  let sum := (x.a.getD acc 0).toInt + q23 (x.dr a0) * q23 (x.dr b0) + q23 (x.dr a1) * q23 (x.dr b1)
  let v : BitVec 72 := BitVec.ofInt 72 sum
  { y with a := y.a.set acc v, ovf := y.ovf || v.toInt != sum }

/-- The value of a register in a move: of a length, pointer, mode or count without sign (PRESUMED, log entry 33). -/
def DspSlot.regVal (x : DspSlot) : DspReg → Int
  | .d i => (x.dr i).toInt
  | .a i => (x.a.getD i 0).toInt
  | .p i => (x.p.getD i 0).toNat
  | .m i => (x.m.getD i 0).toInt
  | .b i => (x.b.getD i 0).toNat
  | .l i => (x.l.getD i 0).toNat
  | .am i => (x.am.getD i 0).toNat
  | .sv => x.sv.toInt
  | .sx => x.sx.toNat
  | .sc => x.sc.toNat

/-- Writes a register in a move: the low bits of the value, as many as it has. -/
def DspSlot.setReg (y : DspSlot) (v : Int) : DspReg → DspSlot
  | .d i => y.setD i (BitVec.ofInt 32 v)
  | .a i => { y with a := y.a.set i (BitVec.ofInt 72 v) }
  | .p i => { y with p := y.p.set i (BitVec.ofInt 17 v) }
  | .m i => { y with m := y.m.set i (BitVec.ofInt 17 v) }
  | .b i => { y with b := y.b.set i (BitVec.ofInt 17 v) }
  | .l i => { y with l := y.l.set i (BitVec.ofInt 17 v) }
  | .am i => { y with am := y.am.set i (BitVec.ofInt 2 v) }
  | .sv => { y with sv := BitVec.ofInt 32 v }
  | .sx => { y with sx := BitVec.ofInt 32 v }
  | .sc => { y with sc := BitVec.ofInt 32 v }

/-- A move of the control slot. -/
def moveOp (m : DspMove) (x y : DspSlot) : DspSlot := y.setReg (match m.src with | some r => x.regVal r | none => m.imm) m.dst

/-- Whether what stands beside an operation faults (R281, R292). -/
def besideBad (b : DspBeside) (x : DspSlot) : Bool := b.uncorrectable || b.mem.any x.accessBad

/-- What the other slots of a bundle do. -/
def besideRun (b : DspBeside) (x : DspSlot) : DspSlot :=
  let y := b.macs.foldl (fun y m => macOp m.acc m.a0 m.b0 m.a1 m.b1 x y) x
  let y := b.clears.foldl (fun (y : DspSlot) i => { y with a := y.a.set i 0 }) y
  let y := b.mem.foldl (fun y a => x.access a y) y
  match b.move with | some m => moveOp m x y | none => y

/-- One bundle of the running slot of a core: `bad` says whether its operation faults, `f` is the operation with the PC that
follows. A bundle that faults writes nothing. A core that issues nothing changes nothing (R280, R292; log entry 33). -/
def State.bundleWith (s : State) (c : Nat) (b : DspBeside) (bad : DspSlot → Bool) (f : DspSlot → DspSlot → DspSlot) : State :=
  let s := s.begin
  match s.issuing c with
  | none => s
  | some k =>
    let x := (s.dsp c).slot k
    if bad x || besideBad b x then s.kernelFault c else s.updDspSlot c k fun x => f x (besideRun b x)

/-- A bundle whose operation goes on to the next. -/
def State.bundle (s : State) (c : Nat) (b : DspBeside) (f : DspSlot → DspSlot → DspSlot) : State :=
  s.bundleWith c b (fun _ => false) fun x y => (f x y).advance

/-! ### Arithmetic (R280, R284, R285) -/

def execDspMac (bundle : DspBundle) (acc a0 b0 a1 b1 : Nat) (s : State) : Res :=
  .next (s.bundle bundle.core bundle.beside (macOp acc a0 b0 a1 b1))

/-- SINIT (R284). -/
def sinitOp (isMax : Bool) (_x y : DspSlot) : DspSlot :=
  { y with sv := if isMax then 0x80000000 else 0x7FFFFFFF, sx := 0, sc := 0 }

def execSinit (bundle : DspBundle) (isMax : Bool) (s : State) : Res :=
  .next (s.bundle bundle.core bundle.beside (sinitOp isMax))

/-- MAX: a strictly greater signed operand replaces SV, its index SX (R284). -/
def maxOp (i : Nat) (x y : DspSlot) : DspSlot :=
  let v := x.dr i
  if x.sv.toInt < v.toInt then { y with sv := v, sx := x.sc, sc := x.sc + 1 } else { y with sc := x.sc + 1 }

def execMax (bundle : DspBundle) (dreg : Nat) (s : State) : Res := .next (s.bundle bundle.core bundle.beside (maxOp dreg))

/-- MIN: a strictly smaller signed operand replaces SV, its index SX (R284). -/
def minOp (i : Nat) (x y : DspSlot) : DspSlot :=
  let v := x.dr i
  if v.toInt < x.sv.toInt then { y with sv := v, sx := x.sc, sc := x.sc + 1 } else { y with sc := x.sc + 1 }

def execMin (bundle : DspBundle) (dreg : Nat) (s : State) : Res := .next (s.bundle bundle.core bundle.beside (minOp dreg))

/-- The value of a narrowing and whether it saturated (R285). -/
def narrow (acc : Int) (sh w : Nat) : Int × Bool :=
  let v := if sh = 0 then acc else (acc + 2 ^ (sh - 1)) / 2 ^ sh
  let top : Int := 2 ^ (w - 1) - 1
  let bot : Int := -(2 ^ (w - 1))
  if top < v then (top, true) else if v < bot then (bot, true) else (v, false)

/-- NRW: half up, saturated, sign-extended (R285). -/
def nrwOp (acc sh w i : Nat) (x y : DspSlot) : DspSlot :=
  let r := narrow (x.a.getD acc 0).toInt sh w
  { y.setD i (BitVec.ofInt 32 r.1) with sat := y.sat || r.2 }

def execNrw (bundle : DspBundle) (acc s w dreg : Nat) (st : State) : Res :=
  .next (st.bundle bundle.core bundle.beside (nrwOp acc s w dreg))

/-! ### Pre-emption masks (R288) -/

/-- PMSK: the 512-cycle limit runs from the first of a row (R288). -/
def pmskOp (now : Nat) (x y : DspSlot) : DspSlot := { y with pm := true, pmSince := if x.pm then x.pmSince else now }

def execPmsk (bundle : DspBundle) (s : State) : Res := .next (s.bundle bundle.core bundle.beside (pmskOp s.now))

/-- PUNM (R288). -/
def execPunm (bundle : DspBundle) (s : State) : Res :=
  .next (s.bundle bundle.core bundle.beside fun _ y => { y with pm := false })

/-- PM_FORCED_UNMASK: 512 DCLK cycles after PM was set the core clears it and sets PM_FORCED (R267, R288). -/
def pmForcedUnmask (core : Nat) (s : State) : State :=
  let s := s.begin
  match (s.dsp core).running with
  | none => s
  | some k =>
    let x := (s.dsp core).slot k
    if !x.pm || decide (s.now * 18 < x.pmSince * 18 + 5120) then s
    else s.updDspSlot core k fun x => { x with pm := false, pmForced := true }

def execPmForcedUnmask (core : Nat) (s : State) : Res := .next (pmForcedUnmask core s)

/-! ### Block repeat and branches (R283) -/

/-- The count of a REP: an immediate or a data register (R283). -/
def repCount (count : Nat) (fromD : Option Nat) (x : DspSlot) : BitVec 16 :=
  match fromD with | none => BitVec.ofNat 16 count | some i => (x.dr i).setWidth 16

/-- REP: a count of 0 skips the body (R283). -/
def repOp (count : Nat) (fromD : Option Nat) (endAt : Nat) (x y : DspSlot) : DspSlot :=
  let n := repCount count fromD x
  if n = 0 then { y with pc := endAt + 16 }
  else { y with loops := (n, BitVec.ofNat 17 (x.pc + 16), BitVec.ofNat 17 endAt) :: x.loops, pc := x.pc + 16 }

/-- REP; with four levels active it is a repeat overflow (R283, R292). -/
def execRep (bundle : DspBundle) (count : Nat) (fromD : Option Nat) (endAt : Nat) (s : State) : Res :=
  .next (s.bundleWith bundle.core bundle.beside (fun x => decide (4 ≤ x.loops.length)) (repOp count fromD endAt))

/-- BRK: the innermost loop ends, and the core goes on after its end (R283). -/
def brkOp (x y : DspSlot) : DspSlot :=
  match x.loops with
  | [] => y.advance
  | (_, _, e) :: r => { y with loops := r, pc := e.toNat + 16 }

def execBrk (bundle : DspBundle) (s : State) : Res := .next (s.bundleWith bundle.core bundle.beside (fun _ => false) brkOp)

/-- Whether a branch target lies in the body of every active loop (R283). -/
def DspSlot.inBodies (x : DspSlot) (target : Nat) : Bool :=
  x.loops.all fun l => decide (l.2.1.toNat ≤ target ∧ target ≤ l.2.2.toNat)

/-- DSP_BRANCH: a taken branch. Out of an active loop's body it is a repeat violation; through a register to an illegal or
reserved encoding, a fault too (R283, R292). -/
def execDspBranch (bundle : DspBundle) (kind : BranchKind) (target : Nat) (legal : Bool) (s : State) : Res :=
  .next (s.bundleWith bundle.core bundle.beside (fun x => !x.inBodies target || (kind == .register && !legal))
    fun _ y => { y with pc := target })

/-! ### Load and store (R281) -/

/-- DSP_LOAD_STORE; an uncorrectable local-memory word faults (R281, R292). -/
def execDspLoadStore (bundle : DspBundle) (acc : DspAccess) (uncorrectable : Bool) (s : State) : Res :=
  .next (s.bundleWith bundle.core bundle.beside (fun x => x.accessBad acc || uncorrectable) fun x y => (x.access acc y).advance)

/-! ### DMA (R286) -/

/-- A descriptor from five data registers (R286). -/
def descOf (ws : List (BitVec 32)) : DspDesc :=
  let w := fun i => ws.getD i 0
  { window := fld (w 0) 1 0, toWindow := bitAt (w 0) 2, rows := fld (w 0) 31 16, winOffset := (w 1).toNat
    ldmAddr := fld (w 2) 16 0, rowBytes := fld (w 3) 17 0, stride := (w 4).toNat }

/-- Whether a descriptor breaks its layout, writes a window other than 1, or reaches beyond its window or the slot (R286). -/
def descBad (ws : List (BitVec 32)) (wins : List Nat) : Bool :=
  let w := fun i => ws.getD i 0
  let d := descOf ws
  let twoD := bitAt (w 0) 3
  let reach := d.winOffset + (d.rows - 1) * d.stride + d.rowBytes
  fld (w 0) 15 4 != 0 || d.rows == 0 || (!twoD && d.rows != 1) || d.winOffset % 4 != 0 || fld (w 2) 31 17 != 0
    || d.ldmAddr % 4 != 0 || fld (w 3) 31 18 != 0 || d.rowBytes % 4 != 0 || decide (d.rowBytes < 4)
    || decide (131072 < d.rowBytes) || (d.toWindow && d.window != 1)
    || decide (wins.getD d.window 0 < reach) || decide (131072 < d.ldmAddr + d.rows * d.rowBytes)

/-- Queues a descriptor on a channel. -/
def DspSlot.queue (x : DspSlot) (c : Nat) (d : DspDesc) : DspSlot := { x with chans := x.chans.modify c fun l => l ++ [d] }

/-- DMAQ: a full channel of eight stalls the core until a place frees (R286). -/
def dmaqOp (channel : Nat) (dregs : List Nat) (x y : DspSlot) : DspSlot :=
  let d := descOf (dregs.map x.dr)
  if 8 ≤ (x.chans.getD channel []).length then { y with stall := some (channel, d) } else (y.queue channel d).advance

/-- DMAQ; a descriptor that breaks its rules is a DMA violation (R286, R292). -/
def execDmaq (bundle : DspBundle) (channel : Nat) (dregs : List Nat) (s : State) : Res :=
  .next (s.bundleWith bundle.core bundle.beside (fun x => descBad (dregs.map x.dr) x.windows) (dmaqOp channel dregs))

/-- DMAW: the core waits until the channel has completed all of its descriptors (R286). -/
def dmawOp (channel : Nat) (x y : DspSlot) : DspSlot :=
  if (x.chans.getD channel []).isEmpty then y.advance else { y with waitOn := some channel }

def execDmaw (bundle : DspBundle) (channel : Nat) (s : State) : Res :=
  .next (s.bundleWith bundle.core bundle.beside (fun _ => false) (dmawOp channel))

/-- The byte offsets in the window and the words of local memory that a descriptor moves, in order (R286). -/
def DspDesc.moves (d : DspDesc) : List (Nat × Nat) :=
  (List.range d.rows).flatMap fun r => (List.range (d.rowBytes / 4)).map fun j =>
    (d.winOffset + r * d.stride + 4 * j, (d.ldmAddr + r * d.rowBytes) / 4 + j)

/-- Byte `i` of words, least significant first (R9). -/
def byteOf (word : Nat → Word) (i : Nat) : Nat := (word (i / 4)).toNat / 256 ^ (i % 4) % 256

/-- The word from byte `i` on. -/
def wordFrom (word : Nat → Word) (i : Nat) : Word :=
  wordOfBytes (byteOf word i) (byteOf word (i + 1)) (byteOf word (i + 2)) (byteOf word (i + 3))

/-- Writes byte `i` of words. -/
def putByte (m : FMap Word) (i v : Nat) : FMap Word :=
  let w := (m.getD 0 (i / 4)).toNat
  let o := 256 ^ (i % 4)
  m.setD 0 (i / 4) (w32 (w - w / o % 256 * o + v % 256 * o))

/-- Writes a word from byte `i` on. -/
def putWord (m : FMap Word) (i : Nat) (v : Word) : FMap Word :=
  (bytesOf v).zipIdx.foldl (fun m p => putByte m (i + p.2) p.1) m

/-- The output blocks of a task's predecessors as it reads them, in input order: (predecessor, first word, words) (R286, R298). -/
def State.inputBlocks (s : State) (l : Live) : List (Nat × Nat × Nat) :=
  (List.range l.task.dep).filterMap fun i => (l.inputs.find? i).bind fun x =>
    (s.live? x.2.1).map fun q => if q.task.op = 5 then (x.2.1, 1024 * x.2.2, 1024) else (x.2.1, 0, 1024 * q.task.outBlocks)

/-- Word `i` of the blocks of several tasks, one after the other. -/
def State.outputWord (s : State) : List (Nat × Nat × Nat) → Nat → Word
  | [], _ => 0
  | (t, a, n) :: r, i => if i < n then ((s.live? t).map fun q => q.out.getD 0 (a + i)).getD 0 else s.outputWord r (i - n)

/-- The bytes of a session's input ring, entry by entry: a header, whose layout the spec does not give, and the payload (R335). -/
def Sess.ringData (x : Sess) : List Nat :=
  x.ring.flatMap fun e => (List.range 16).map (Config.ringHeader e.seq e.ts) ++ e.data

/-- The word at an index of a window: window 0 is the session's input ring for DECODE_AUDIO, else the predecessors' output blocks;
window 1 is the task's output, window 3 its session state; window 2 is the data that the environment supplies (R286). -/
def State.windowWord (s : State) (l : Live) (st : FMap Word) (data : List Word) (w i : Nat) : Word :=
  match w with
  | 0 =>
    if l.task.op = 1 then
      wordAt (wordsOfBytes (((s.taskSess l).map fun k => (s.sessAt k).ringData).getD [])) i
    else s.outputWord (s.inputBlocks l) i
  | 1 => l.out.getD 0 i
  | 3 => st.getD 0 i
  | _ => wordAt data i

/-- A channel's first descriptor has completed: a stalled DMAQ enters, a DMAW that waited ends (R286). -/
def DspSlot.popChan (x : DspSlot) (c : Nat) : DspSlot :=
  let y := { x with chans := x.chans.modify c List.tail }
  let y : DspSlot := match y.stall with
    | some (c', d) => if c' = c then ({ y with stall := none }.queue c d).advance else y
    | none => y
  if y.waitOn = some c ∧ (y.chans.getD c []).isEmpty then { y with waitOn := none }.advance else y

/-! ### The end of a kernel (R289) -/

/-- The end of an epilogue: the state is written back for OK or CONCEALED, and the core reports the status (R257, R289). -/
def State.epilogue (s : State) (core k t status : Nat) : State :=
  match s.live? t with
  | none => s
  | some l =>
    let s := if status < 2 then s.dspWriteBack l ((s.dsp core).slot k) else s
    (s.updLive t fun l => { l with reported := some (min status 2) }).updDspSlot core k fun x =>
      { x with stopped := true, ending := none }

/-- The status with which END ends a task: a resident decoder conceals a FAILED or absent input, and completes CONCEALED (R296). -/
def Live.endStatus (l : Live) (status : Nat) : Nat :=
  if status = 0 && residentDecoder l.task.ref && (l.statuses.contains 2 || (l.task.op == 1 && l.ringAt == 0)) then 1 else status

/-- END k: for OK or CONCEALED the epilogue waits for every channel of the slot (R289). -/
def dspEnd (core status : Nat) (beside : DspBeside) (s : State) : State :=
  let s := s.begin
  match s.issuing core with
  | none => s
  | some k =>
    let x := (s.dsp core).slot k
    match x.task.bind fun t => (s.live? t).map fun l => (t, l) with
    | none => s
    | some (t, l) =>
      if besideBad beside x then s.kernelFault core
      else
        let s := s.updDspSlot core k (besideRun beside)
        let st := l.endStatus status
        if st < 2 ∧ !(x.chans.all List.isEmpty) then
          s.updDspSlot core k fun x => { x with stopped := true, ending := some st }
        else s.epilogue core k t st

def execDspEnd (bundle : DspBundle) (status : Nat) (s : State) : Res := .next (dspEnd bundle.core status bundle.beside s)

/-- DSP_DMA_COMPLETE: the first descriptor of a slot's channel completes its transfer, a suspended slot's too; an epilogue
that waits for the slot's channels goes on after the last (R286, R287, R289). -/
def dspDmaComplete (core slot channel : Nat) (windowData : List Word) (s : State) : State :=
  let s := s.begin
  let x := (s.dsp core).slot slot
  match x.task, x.chans.getD channel [] with
  | some t, d :: _ =>
    match s.live? t with
    | none => s
    | some l =>
      let g := s.runOf l
      let st := match s.sessNo g.conf g.bank l.task.session with | some i => (s.sessAt i).state | none => []
      let s := if d.toWindow then
          s.updLive t fun l => { l with out := d.moves.foldl (fun (m : FMap Word) p => putWord m p.1 (x.ldm.getD 0 p.2)) l.out }
        else
          s.updDspSlot core slot fun x => { x with ldm := d.moves.foldl (fun (m : FMap Word) p =>
            m.setD 0 p.2 (wordFrom (s.windowWord l st windowData d.window) p.1)) x.ldm }
      let s := s.updDspSlot core slot fun x => x.popChan channel
      let y := (s.dsp core).slot slot
      match y.ending with
      | some st => if y.chans.all List.isEmpty then s.epilogue core slot t st else s
      | none => s
  | _, _ => s

def execDspDmaComplete (core slot channel : Nat) (windowData : List Word) (s : State) : Res :=
  .next (dspDmaComplete core slot channel windowData s)

end Sys2Proof.Machine
end

