-- ==== Sys2Proof/Machine/HostDma.lean ====
section
/-! DEFINITION. The host interface's rings and the DMA engine: ring registers, descriptors, exception and statistics records,
frames from the host, MSI-X masks, bus master and link changes (R431 to R445). -/

namespace Sys2Proof.Machine

/-! ### Rings (R433, R434, R440) -/

/-- Ring `r` of a function. -/
def State.ring (s : State) (fn r : Nat) : Ring := (s.func fn).rings.getD r {}

/-- Changes ring `r` of a function. -/
def State.updRing (s : State) (fn r : Nat) (f : Ring → Ring) : State :=
  let g := s.func fn
  s.setFunc fn { g with rings := g.rings.modify r f }

/-- Whether RING_SIZE is valid (R433). -/
def sizeOk (n : Nat) : Bool := [16, 32, 64, 128, 256, 512, 1024, 2048, 4096].contains n

/-- Descriptors posted and not written back (R434). -/
def Ring.posted (r : Ring) : Nat := (r.tail + r.size - r.head) % r.size

/-- Posted descriptors that neither a descriptor in progress nor a waiting record uses. -/
def Ring.spare (r : Ring) : Nat := r.posted - r.records.length - b2n r.work.isSome

/-- The number by which a function's DMA leases name their ring, in place of a live task (R441). -/
def dmaTask (fn ring : Nat) : Nat := 2 ^ 18 + fn * 8 + ring

/-- Grants a DMA lease for a descriptor or a fetch (R441). -/
def State.grantDma (s : State) (fn ring : Nat) : State :=
  s.updSched fun x =>
    let n := ((List.range (x.leases.length + 1)).find? fun k => !x.leases.has k).getD 0
    let gen := x.gens.getD 0 n
    let r : Lease := { ownerKind := 5, ownerInst := fn, kind := 6, gen := gen, object := ring, task := dmaTask fn ring }
    { x with leases := x.leases.put n r, gens := x.gens.put n ((gen + 1) % 256) }

/-- Ends a DMA lease (R441). -/
def State.endDma (s : State) (fn ring : Nat) : State :=
  s.updSched fun x => { x with leases := x.leases.filter fun p => p.2.task != dmaTask fn ring }

/-- RING_TAIL_WRITE: the doorbell; a value of RING_SIZE or more is ignored (R433, R434). -/
def ringTailWrite (fn ring : Nat) (value : Word) (s : State) : State :=
  let s := s.begin
  if !s.hostUp || decide (63 < fn) || decide (3 < ring) then s
  else s.updRing fn ring fun r => if value.toNat < r.size then { r with tail := value.toNat } else r

def execRingTailWrite (fn ring : Nat) (value : Word) (s : State) : Res := .next (ringTailWrite fn ring value s)

/-- A ring's records that wait when it is disabled are discarded (R444). -/
def Ring.discardAll (r : Ring) : Ring :=
  { r with records := [], lost := r.lost || !r.records.isEmpty, dropped := r.dropped + r.records.length }

/-- RING_CTRL_WRITE: ENABLE starts a ring with a valid size and resets its indices, or stops it after the descriptor in
progress (R433, R434). -/
def ringCtrlWrite (fn ring : Nat) (value : Word) (s : State) : State :=
  let s := s.begin
  if !s.hostUp || decide (63 < fn) || decide (3 < ring) then s
  else s.updRing fn ring fun r =>
    if bitAt value 0 then
      if r.enable then r
      else if sizeOk r.size then
        { r with enable := true, head := 0, tail := 0, badConfig := false
                 work := r.work.map fun (d : DmaWork) => { d with past := true } }
      else { r with badConfig := true }
    else { r.discardAll with enable := false }

def execRingCtrlWrite (fn ring : Nat) (value : Word) (s : State) : Res := .next (ringCtrlWrite fn ring value s)

/-- RING_STATUS_WRITE: a write of 1 clears LOST (R433). -/
def ringStatusWrite (fn ring : Nat) (value : Word) (s : State) : State :=
  let s := s.begin
  if !s.hostUp || decide (63 < fn) || decide (3 < ring) then s
  else s.updRing fn ring fun r => { r with lost := r.lost && !bitAt value 31 }

def execRingStatusWrite (fn ring : Nat) (value : Word) (s : State) : Res := .next (ringStatusWrite fn ring value s)

/-! ### Records for rings 1 and 2 (R443, R444) -/

/-- A record for ring 1 or 2: it takes a posted descriptor, or is discarded (R440, R444). -/
def State.ringRecord (s : State) (fn ring : Nat) (rec : Nat → DmaRecord) : State :=
  let r := s.ring fn ring
  if r.enable && !(s.func fn).held && decide (0 < r.spare) then
    s.updRing fn ring fun r => { r with records := r.records ++ [rec r.dropped], dropped := 0 }
  else s.updRing fn ring fun r => { r with lost := true, dropped := r.dropped + 1 }

/-- A statistics record goes to the ring of the holder of its conference (R393, R444). -/
def State.statsRecord (s : State) (c : Nat) (words : List Word) : State :=
  s.ringRecord (s.confHolder c) 2 fun _ => .stats words

/-- The header of an exception record (R443). -/
def excHeader (e : ExcFrame) (port : Nat) (conf : Option Nat) (dropped : Nat) : List Word :=
  [w32 (e.frame.length - 4 + 2 ^ 16 * port + 2 ^ 24 * e.reason), w32 (e.leg.getD 0 + 2 ^ 20 * b2n e.leg.isSome),
    w32 (conf.getD 0)] ++ timeWords e.stamp ++ [w32 (min dropped 0xFFFF), 0]

/-- The port whose host exception queue is next in turn: the first with a frame after the port served last (R442). -/
def State.excNext (s : State) : Option Nat :=
  ((List.range 128).map fun i => (s.excLast + 1 + i) % 128).find? fun p => (s.port? p).any fun q => !q.excQ.isEmpty

/-- EXCEPTION_DELIVERY: the head frame of the host exception queue of the port in turn goes to the holder of its leg's conference,
else to PF0, or is discarded (R442 to R444). -/
def exceptionDelivery (port : Nat) (s : State) : State :=
  let s := s.begin
  if s.excNext ≠ some port then s
  else
    match s.port? port with
    | none => s
    | some q =>
      match q.excQ with
      | [] => s
      | e :: rest =>
        let fn := match e.conf with | some c => s.confHolder c | none => 0
        let s := { s.updPort port fun q => { q with excQ := rest } with excLast := port }
        s.ringRecord fn 1 fun d => .exc (excHeader e port e.conf d) e.frame

def execExceptionDelivery (port : Nat) (s : State) : Res := .next (exceptionDelivery port s)

/-! ### Descriptors (R435, R436) -/

/-- Bytes of an access of a width code; zero for stream width (R435). -/
def widthBytes : Nat → Nat
  | 1 => 1 | 2 => 2 | 3 => 4 | 4 => 8 | _ => 0

/-- LENGTH of a descriptor. -/
def descLength (ws : List Word) : Nat := fld (wordAt ws 5) 24 0

/-- DST_ADDR of a descriptor. -/
def descDst (ws : List Word) : Nat := num64 (wordAt ws 3) (wordAt ws 4)

/-- Whether a descriptor is written back with BAD_DESC (R436). SWAP, like the widths, is used on ring 0 only (R432, log
entry 38). -/
def badDesc (ring : Nat) (ws : List Word) : Bool :=
  let w0 := wordAt ws 0
  let sw := fld w0 2 0
  let dw := fld w0 6 4
  let src := num64 (wordAt ws 1) (wordAt ws 2)
  let dst := descDst ws
  let swap := fld w0 9 8
  let n := descLength ws
  let off := fun (a w : Nat) => decide (w ≠ 0) && decide (a % w ≠ 0)
  !zeroIn w0 16 11 || !zeroIn w0 31 24 || !zeroIn (wordAt ws 5) 31 25
    || (ring != 3 && !zeroIn w0 23 17) || ((ring == 1 || ring == 2) && src != 0) || (ring == 3 && dst != 0)
    || decide (4 < sw) || decide (4 < dw) || (ring != 0 && (sw != 0 || dw != 0 || swap != 0))
    || (bitAt w0 3 && sw == 0) || (bitAt w0 7 && dw == 0)
    || off src (widthBytes sw) || off dst (widthBytes dw)
    || (if ring = 3 then decide (n < 60) || decide (9212 < n) else decide (n < 1) || decide (16777216 < n))
    || off n (widthBytes sw) || off n (widthBytes dw) || (swap != 0 && decide (n % 4 ≠ 0))

/-! ### Moving data (R437, R439) -/

/-- SWAP on groups of four bytes; a part group at the end has not been delivered (R437). -/
def swapBytes (mode : Nat) : List Nat → List Nat
  | a :: b :: c :: d :: r =>
    (match mode with
      | 1 => [b, a, d, c]
      | 2 => [c, d, a, b]
      | 3 => [d, c, b, a]
      | _ => [a, b, c, d]) ++ swapBytes mode r
  | l => if mode = 0 then l else []

/-- Bytes that reach the destination of `n` bytes read: whole groups of SWAP, whole destination accesses (R437). -/
def wholeBytes (ws : List Word) (n : Nat) : Nat :=
  let w0 := wordAt ws 0
  let m := if fld w0 9 8 = 0 then n else n / 4 * 4
  let d := widthBytes (fld w0 6 4)
  if d = 0 then m else m / d * d

/-- A COPY descriptor with the bytes its source gave: what it writes and its RESULT (R437, R439). -/
def copyWork (idx : Nat) (ws : List Word) (data : List Nat) (e : SrcEnd) : DmaWork :=
  let n := descLength ws
  let failed := decide (data.length < n) || e != .complete
  let got := data.take n
  let k := wholeBytes ws got.length
  { words := ws, idx := idx, bytes := k, data := (swapBytes (fld (wordAt ws 0) 9 8) got).take k
    result := if !failed then 0 else if e = .poisoned then 4 else 1 }

/-- Bytes of a record. -/
def DmaRecord.length : DmaRecord → Nat
  | .exc _ f => 32 + (f.length - 4)
  | .stats ws => 4 * ws.length

/-- A descriptor of ring 1 or 2 with its record: longer ones are truncated (R439, R443). -/
def recordWork (idx : Nat) (ws : List Word) (r : DmaRecord) : DmaWork :=
  let n := descLength ws
  { words := ws, idx := idx, bytes := min n r.length, record := some r, result := if n < r.length then 5 else 0 }

/-- Whether a frame's addresses and ports are those of an open leg of a VF's grant on a port (R445). -/
def State.frameOfGrant (s : State) (fn port : Nat) (f : Frame) : Bool :=
  match f.ip, f.udp with
  | some ip, some u =>
    s.legs.any fun p =>
      s.hasConf fn p.2.conf && p.2.port == port && p.2.v6 == ip.v6 && ip.proto == 17 && ip.src == p.2.lAddr
        && u.sport == p.2.lUdp && ip.dst == p.2.rAddr && u.dport == p.2.rUdp
  | _, _ => false

/-- A TRANSMIT descriptor: its frame goes to the class 0 queue of its port, or is refused (R232, R445). -/
def State.transmitWork (s : State) (fn idx : Nat) (ws : List Word) (e : SrcEnd) (frame : Frame) : DmaWork × State :=
  let port := fld (wordAt ws 0) 23 17
  let w : DmaWork := { words := ws, idx := idx }
  if e = .poisoned then ({ w with result := 4 }, s)
  else if e = .busError then ({ w with result := 1 }, s)
  else if !s.portUp port || (fn != 0 && !s.frameOfGrant fn port frame) then ({ w with result := 6 }, s)
  else
    let len := max 64 (descLength ws + 4)
    let t := s.sendClass0 port { frame := { frame with length := len }, length := len, asap := true } (some (fn, 3))
    ({ w with bytes := descLength ws, waits := decide (s.waitQ.length < t.waitQ.length) }, t)

/-- Whether a ring of a channel can take a descriptor: it runs, has none in progress, and has one posted, rings 1 and 2 with a
record that waits for it (R432, R434, R440, R443). -/
def State.takes (s : State) (fn ring : Nat) : Bool :=
  let r := s.ring fn ring
  !(s.func fn).held && r.enable && r.work.isNone && r.posted != 0 && (ring == 0 || ring == 3 || !r.records.isEmpty)

/-- The rings that a channel serves before a ring: 3, 1, 2, 0 is the order (R432). -/
def ringsBefore (ring : Nat) : List Nat :=
  if ring = 3 then [] else if ring = 1 then [3] else if ring = 2 then [3, 1] else [3, 1, 2]

/-- DMA_DESCRIPTOR_TAKE: a ring takes its next posted descriptor, where no ring that its channel serves first can take one (R432,
R436, R437, R439, R440, R445). Rings 1 and 2 take one when a record waits for it. -/
def dmaDescriptorTake (fn ring : Nat) (desc : Descriptor) (data : List Nat) (srcEnd : SrcEnd) (frame : Frame)
    (s : State) : State :=
  let s := s.begin
  let r := s.ring fn ring
  if !s.hostUp || decide (63 < fn) || decide (3 < ring) || !s.takes fn ring || (ringsBefore ring).any (s.takes fn) then s
  else
    let put := fun (s : State) (w : DmaWork) =>
      (s.updRing fn ring fun q =>
        { q with work := some { w with addr := num64 r.baseLo r.baseHi + 32 * r.head } }).grantDma fn ring
    if ring = 0 then
      put s (if badDesc 0 desc then { words := desc, idx := r.head, result := 3 } else copyWork r.head desc data srcEnd)
    else if ring = 3 then
      if badDesc 3 desc then put s { words := desc, idx := r.head, result := 3 }
      else
        let x := s.transmitWork fn r.head desc srcEnd frame
        put x.2 x.1
    else
      match r.records with
      | [] => s
      | q :: rest =>
        let s := s.updRing fn ring fun r => { r with records := rest }
        if badDesc ring desc then
          (put s { words := desc, idx := r.head, result := 3 }).updRing fn ring fun r =>
            { r with lost := true, dropped := r.dropped + 1 }
        else put s (recordWork r.head desc q)

def execDmaDescriptorTake (fn ring : Nat) (desc : Descriptor) (data : List Nat) (srcEnd : SrcEnd) (frame : Frame)
    (s : State) : Res := .next (dmaDescriptorTake fn ring desc data srcEnd frame s)

/-! ### Write-back (R438, R439) -/

/-- The writes of accesses of `w` bytes each, at one address where it is fixed (R437). -/
def accessWrites (fn w : Nat) (fixed : Bool) : Nat → Nat → List Nat → List Out
  | 0, _, _ => []
  | k + 1, addr, bs =>
    .hostWrite fn addr (bs.take w) :: accessWrites fn w fixed k (if fixed then addr else addr + w) (bs.drop w)

/-- The destination writes of a descriptor's first `n` bytes (R437, R443). -/
def DmaWork.writes (w : DmaWork) (fn n : Nat) : List Out :=
  let dst := descDst w.words
  match w.record with
  | some (.exc h f) => if n = 0 then [] else [.hostRecord fn dst n h f]
  | some (.stats ws) => if n = 0 then [] else [.hostWrite fn dst ((bytesOfWords ws).take n)]
  | none =>
    let d := widthBytes (fld (wordAt w.words 0) 6 4)
    let bs := w.data.take n
    if bs.isEmpty then []
    else if d = 0 then [.hostWrite fn dst bs]
    else accessWrites fn d (bitAt (wordAt w.words 0) 7) (bs.length / d) dst bs

/-- DMA_WRITE_BACK: the descriptor ends: its data and then its words 6 and 7 are written, RING_HEAD advances, the vector
signals, and a failure writes a record, at most one per 100 ms (R431, R438, R439). `linkFailedAt` is how many bytes were
written before the link or Bus Master Enable failed, where it has. -/
def dmaWriteBack (fn ring : Nat) (linkFailedAt : Option Nat) (s : State) : State :=
  let s := s.begin
  let r := s.ring fn ring
  match r.work with
  | none => s
  | some w =>
    if w.waits then s
    else
      let reach := s.pins.linkUp && !(s.func fn).held
      let cut := if reach ∨ ring = 3 then none else linkFailedAt.bind fun n => if n < w.bytes then some n else none
      let bytes := match cut with | some n => wholeBytes w.words n | none => w.bytes
      let result := if cut.isSome then 2 else w.result
      let back := Out.hostWrite fn (w.addr + 24)
        (bytesOfWords [w32 bytes, w32 (1 + 2 * result)])
      let s := (w.writes fn bytes).foldl State.emit s
      let s := if reach then s.emit back else s
      let s := s.updRing fn ring fun r => { r with work := none, head := if w.past then r.head else (w.idx + 1) % r.size }
      let s := s.endDma fn ring
      let s := if bitAt (wordAt w.words 0) 10 then s.signal fn (1 + ring) else s
      let due := match r.lastFault with | none => true | some t => decide (t + 100000000 ≤ s.now)
      if result = 0 ∨ result = 5 ∨ !due then s
      else (s.updRing fn ring fun r => { r with lastFault := some s.now }).fault 0x19 6 fn (w32 ring) (w32 result)

def execDmaWriteBack (fn ring : Nat) (linkFailedAt : Option Nat) (s : State) : Res :=
  .next (dmaWriteBack fn ring linkFailedAt s)

/-! ### MSI-X, bus master and link (R431, R439, R440) -/

/-- MSIX_UNMASK: a pending vector signals as it is unmasked (R431). -/
def msixUnmask (fn vector : Nat) (s : State) : State :=
  let s := s.begin
  if !s.hostUp || decide (63 < fn) || decide (4 < vector) then s
  else
    let g := s.func fn
    let s := s.setFunc fn { g with msixMask := g.msixMask.set vector false, msixPending := g.msixPending.set vector false }
    if g.msixPending.getD vector false then s.emit (.msix fn vector) else s

def execMsixUnmask (fn vector : Nat) (s : State) : Res := .next (msixUnmask fn vector s)

/-- BUS_MASTER_CHANGE: a function's rings are held while Bus Master Enable is clear or it is in D3hot; a plan fetch that
meets the condition fails (R109, R440). -/
def busMasterChange (fn : Nat) (bme d3hot : Bool) (s : State) : State :=
  let s := s.begin
  if !s.hostUp || decide (63 < fn) then s
  else
    let s := s.setFunc fn { s.func fn with bme := bme, d3hot := d3hot }
    if bme && !d3hot then s
    else { s with loads := s.loads.map fun p => if p.2.fn == fn then (p.1, { p.2 with aborted := true }) else p }

def execBusMasterChange (fn : Nat) (bme d3hot : Bool) (s : State) : Res := .next (busMasterChange fn bme d3hot s)

/-- HOST_LINK_DOWN (R439). -/
def execHostLinkDown (s : State) : Res :=
  .next (let s := s.begin; { s with pins := { s.pins with linkUp := false } })

/-- HOST_LINK_UP: the link trains where the host interface is out of reset (R50, R429). -/
def execHostLinkUp (s : State) : Res :=
  .next (let s := s.begin; { s with pins := { s.pins with linkUp := s.ifUp && !s.freq.pcie.missing } })

end Sys2Proof.Machine
end

