-- ==== Sys2Proof/Machine/Motion.lean ====
section
/-! DEFINITION. The finest search of an encoder core: the rung picture of a band and its reference, predictors, integer and sub-sample
search, the choice of partitions, and the reconstruction that later pictures refer to (R376, R381, R383, R396). -/

namespace Sys2Proof.Machine

/-- Width or height of level `n` of a level-0 dimension (R381). -/
def levelDim (d n : Nat) : Nat := 2 * (d / 2 ^ (n + 1))

/-- A plane's sample with its position clamped to the plane. -/
def clampAt (w h : Nat) (xs : List Nat) (x y : Int) : Nat :=
  let cx := (max 0 (min x ((w : Int) - 1))).toNat
  let cy := (max 0 (min y ((h : Int) - 1))).toNat
  xs.getD (cy * w + cx) 0

/-- Whether vector `a` with cost `ca` is better than `b` with `cb`: ties go to the smaller |x| + |y|, |y|, x (R382). -/
def vecBetter (ca : Nat) (a : Int × Int) (cb : Nat) (b : Int × Int) : Bool :=
  let m := fun (v : Int × Int) => v.1.natAbs + v.2.natAbs
  if ca ≠ cb then decide (ca < cb)
  else if m a ≠ m b then decide (m a < m b)
  else if a.2.natAbs ≠ b.2.natAbs then decide (a.2.natAbs < b.2.natAbs)
  else decide (a.1 < b.1)

/-- All vectors within `rx` and `ry` of a centre. -/
def around (c : Int × Int) (rx ry : Nat) : List (Int × Int) :=
  (List.range (2 * ry + 1)).flatMap fun (j : Nat) => (List.range (2 * rx + 1)).map fun (i : Nat) =>
    (c.1 + i - rx, c.2 + j - ry)

/-! ### What is searched (R376, R381) -/

/-- The luma rows of an output band at a session's level: the composed band at SCALE 0, its 8-bit copy where the session has 8
bits and the output 10; else the pyramid's level, narrowed by the 8-bit rule where the session has 8 bits and the output 10 (R376,
R381). -/
def State.levelRows (s : State) (g : GraphRun) (r : SessionRec) (o : OutputRec) (band : Nat) : List Nat :=
  if r.scale = 0 then
    match s.outNo g.conf g.bank o.output, g.latches.find? o.output with
    | some i, some x =>
      let ks := x.done.getD [] band
      (s.fb (.output i) (ks.getD (b2n (!r.deep && o.deep)) (ks.headD 0))).pic.y
    | _, _ => []
  else
    match s.pyramidOf g o band with
    | none => []
    | some b =>
      let q := (s.fb b.1 b.2).levels.getD (r.scale - 1) {}
      if r.deep || !o.deep then q.y
      else q.y.zipIdx.map fun p => narrowDepth false (4 * p.1) (p.2 % max 1 q.w) (band * 64 / 2 ^ r.scale + p.2 / max 1 q.w)

/-- What a core searches: FORMAT and depth, the band's luma rows with the number of the first one, and the reference picture. -/
structure Search where
  format : Nat
  deep : Bool
  w : Nat
  h : Nat
  top : Nat
  rows : Nat
  src : List Nat
  ref : List Nat

/-- The search of rung band `band` of the picture in progress (R376, R383). -/
def State.searchOf (s : State) (g : GraphRun) (i : Nat) (r : SessionRec) (o : OutputRec) (c : EncPic) (band : Nat) : Search :=
  { format := r.format, deep := r.deep, w := rungDim o.w r.scale, h := rungDim o.h r.scale, top := 64 * band
    rows := bandRows (rungDim o.h r.scale) band
    src := (r.covers o band).flatMap (s.levelRows g r o)
    ref := match c.refFb with | some k => (s.fb (.session i) k).pic.y | none => [] }

/-- A reference sample at a position in quarter samples: of whole samples the reference's own, its edge samples beyond it; between
them by the codec's interpolation, of the 8 x 8 samples around (R383, log entry 131). -/
def Search.refAt (c : Search) (x y : Int) : Nat :=
  let at_ := fun (i j : Int) => clampAt c.w c.h c.ref i j
  if x % 4 = 0 ∧ y % 4 = 0 then at_ (x / 4) (y / 4)
  else min (if c.deep then 1023 else 255)
    (Config.subSample c.format c.deep (x % 4).toNat (y % 4).toNat
      ((List.range 8).flatMap fun (j : Nat) => (List.range 8).map fun (i : Nat) => at_ (x / 4 + i - 3) (y / 4 + j - 3)))

/-- Luma SAD of the block of `n` samples at (x, y) of the rung picture for a vector in quarter samples, over the samples that lie
in the band (R383). -/
def Search.sad (c : Search) (x y n : Nat) (v : Int × Int) : Nat :=
  ((List.range n).flatMap fun j => (List.range n).map fun i => (x + i, y + j)).foldl (fun (a : Nat) p =>
    if c.w ≤ p.1 ∨ c.top + c.rows ≤ p.2 then a
    else a + ((c.src.getD ((p.2 - c.top) * c.w + p.1) 0 : Int) - c.refAt (4 * p.1 + v.1) (4 * p.2 + v.2)).natAbs) 0

/-! ### Search and partitions (R383) -/

/-- A block with its chosen vector in quarter samples. -/
structure Part where
  x : Nat
  y : Nat
  n : Nat
  v : Int × Int
  deriving DecidableEq, Repr, Inhabited

/-- The best of some vectors by SAD plus lambda times the bits of the difference from the predictor `p`, in units of 1/256; equal
costs go as in R382 (R383, log entry 131). -/
def Search.best (c : Search) (qp x y n : Nat) (p : Int × Int) (vs : List (Int × Int)) (b : (Int × Int) × Nat) : (Int × Int) × Nat :=
  vs.foldl (fun (b : (Int × Int) × Nat) (v : Int × Int) =>
    let cost := 256 * c.sad x y n v + Config.motionLambda c.format qp * Config.vectorBits c.format (v.1 - p.1) (v.2 - p.2)
    if vecBetter cost v b.2 b.1 then (v, cost) else b) b

/-- The vector of a block and its cost: whole samples within 8 of the predictors (in whole samples), then the half samples around
the best, then the quarter samples (R383). -/
def Search.vector (c : Search) (qp x y n : Nat) (preds : List (Int × Int)) : (Int × Int) × Nat :=
  let quarter := fun (v : Int × Int) => (4 * v.1, 4 * v.2)
  let p := quarter (preds.headD (0, 0))
  let cost := 256 * c.sad x y n p + Config.motionLambda c.format qp * Config.vectorBits c.format 0 0
  let b := c.best qp x y n p ((preds.flatMap fun q => around q 8 8).map quarter) (p, cost)
  let b := c.best qp x y n p ((around (0, 0) 1 1).map fun d => (b.1.1 + 2 * d.1, b.1.2 + 2 * d.2)) b
  c.best qp x y n p ((around (0, 0) 1 1).map fun d => (b.1.1 + d.1, b.1.2 + d.2)) b

/-- The partition of a block, whole or in quarters as the sum of their costs is the smaller, to a depth (R383). -/
def Search.parts (c : Search) (qp : Nat → Nat → Nat) (preds : Nat → Nat → List (Int × Int)) :
    Nat → Nat → Nat → Nat → List Part × Nat
  | 0, n, x, y =>
    let b := c.vector (qp (x + n / 2) (y + n / 2)) x y n (preds (x + n / 2) (y + n / 2))
    ([{ x := x, y := y, n := n, v := b.1 }], b.2)
  | k + 1, n, x, y =>
    let b := c.vector (qp (x + n / 2) (y + n / 2)) x y n (preds (x + n / 2) (y + n / 2))
    let h := n / 2
    let kids := ([(x, y), (x + h, y), (x, y + h), (x + h, y + h)].filter fun q => decide (q.1 < c.w ∧ q.2 < c.top + c.rows)).map
      fun q => Search.parts c qp preds k h q.1 q.2
    let sum := (kids.map Prod.snd).sum
    if b.2 ≤ sum then ([{ x := x, y := y, n := n, v := b.1 }], b.2) else (kids.flatMap Prod.fst, sum)

/-- The partitions of a band: macroblocks of 16 or quarters of 8 for H.264, blocks of 64 down to 8 for H.265 and AV1 (R383). -/
def Search.bandParts (c : Search) (qp : Nat → Nat → Nat) (preds : Nat → Nat → List (Int × Int)) : List Part :=
  let n := if c.format = 5 then 16 else 64
  let k := if c.format = 5 then 1 else 3
  (List.range (ceilDiv c.rows n)).flatMap fun j => (List.range (ceilDiv c.w n)).flatMap fun i =>
    (c.parts qp preds k n (n * i) (c.top + n * j)).1

/-- The vector of the partition that holds a 16 x 16 block's centre, or where that lies beyond the picture its first sample (log
entry 131). -/
def partVector (ps : List Part) (w bottom x y : Nat) : Int × Int :=
  let cx := if x + 8 < w then x + 8 else x
  let cy := if y + 8 < bottom then y + 8 else y
  match ps.find? fun p => decide (p.x ≤ cx ∧ cx < p.x + p.n ∧ p.y ≤ cy ∧ cy < p.y + p.n) with
  | some p => p.v
  | none => (0, 0)

/-- The entry of the vector field for the level-2 block that holds a position of the rung picture: (x, y, SAD, ACT) (R382, R383). -/
def fieldAt (o : OutputRec) (scale : Nat) (field : List (Int × Int × Nat × Nat)) (x y : Nat) : Int × Int × Nat × Nat :=
  field.getD (y * 2 ^ scale % 64 / 32 * ceilDiv (levelDim o.w 2) 8 + x * 2 ^ scale / 32) (0, 0, 0, 0)

/-- The predictors at a position of the rung picture, in whole samples: the coarse vector of the 16 x 16 block there, times
2^(2 - SCALE) and the distance in pictures, and zero; after a failed coarse search zero and the co-located vector of the picture
before, in the same measure (R383, R396). -/
def State.predictors (s : State) (g : GraphRun) (i : Nat) (r : SessionRec) (o : OutputRec) (c : EncPic) (x y : Nat) :
    List (Int × Int) :=
  let cx := x / 16 * 16 + 8
  let cy := y / 16 * 16 + 8
  let band := cy * 2 ^ r.scale / 64
  let k : Nat := match c.refFb with | some b => (s.sessAt i).enc.pictures + 1 - (s.fb (.session i) b).count | none => 1
  let times := fun (f : Int × Int × Nat × Nat) => ((f.1 * 2 ^ (2 - r.scale) * k, f.2.1 * 2 ^ (2 - r.scale) * k) : Int × Int)
  match s.pyramidOf g o band with
  | some b => [times (fieldAt o r.scale (s.fb b.1 b.2).field cx cy), (0, 0)]
  | none =>
    let old := (s.outNo g.conf g.bank o.output).bind fun n => (s.outAt n).pyr.find? band
    match s.leadNo (s.runPlan g) g.bank o, old with
    | some n, some q => [(0, 0), times (fieldAt o r.scale (s.fb (.pyramid n) q).field cx cy)]
    | _, _ => [(0, 0)]

/-! ### The reconstruction (R377, R387) -/

/-- A plane with the rows from `top` on replaced by some others. -/
def putRows (w h top rows : Nat) (old new : List Nat) : List Nat :=
  (List.range (w * h)).map fun k => if top ≤ k / w ∧ k / w < top + rows then new.getD (k - top * w) 0 else old.getD k 0

/-- Rows of a plane. -/
def takeRows (w top rows : Nat) (xs : List Nat) : List Nat := (xs.drop (top * w)).take (rows * w)

/-- The picture of a band as it is reconstructed: what the coded data gives; of a skip band the reference's rows, or in a key
picture, whose blocks have DC prediction of nothing and no residual, the middle value of each plane (R377, R387, log entry 131).
-/
def reconBand (r : SessionRec) (w top rows : Nat) (c : EncPic) (skip : Bool) (ref given : Picture) : Picture :=
  if !skip then given
  else if c.key then
    let m := if r.deep then 512 else 128
    { w := w, h := rows, deep := r.deep, y := List.replicate (w * rows) m
      cb := List.replicate (w / 2 * (rows / 2)) m, cr := List.replicate (w / 2 * (rows / 2)) m }
  else
    { w := w, h := rows, deep := r.deep, y := takeRows w top rows ref.y
      cb := takeRows (w / 2) (top / 2) (rows / 2) ref.cb, cr := takeRows (w / 2) (top / 2) (rows / 2) ref.cr }

/-- The rung picture of a session with one band written. -/
def putBand (r : SessionRec) (o : OutputRec) (band : Nat) (old q : Picture) : Picture :=
  let w := rungDim o.w r.scale
  let h := rungDim o.h r.scale
  let n := bandRows h band
  { w := w, h := h, deep := r.deep, y := putRows w h (64 * band) n old.y q.y
    cb := putRows (w / 2) (h / 2) (32 * band) (n / 2) old.cb q.cb
    cr := putRows (w / 2) (h / 2) (32 * band) (n / 2) old.cr q.cr }

end Sys2Proof.Machine
end

