-- ==== Sys2Proof/Machine/Encode.lean ====
section
/-! DEFINITION. The encoder array: pyramids and coarse search, coded band records, rate control over bands, statistics records
and the encoder probe (R376 to R397). -/

namespace Sys2Proof.Machine

/-! ### Pyramid levels (R381) -/

/-- The weights of the pyramid filter (R381). -/
def pyrWeight (i : Nat) : Nat := if i = 1 ∨ i = 2 then 3 else 1

/-- The next level of a plane of `w` by `h` samples, of `ow` by `oh` samples (R381). -/
def nextPlane (w h ow oh : Nat) (xs : List Nat) : List Nat :=
  (List.range oh).flatMap fun (y : Nat) => (List.range ow).map fun (x : Nat) =>
    let sum := ((List.range 4).map fun (j : Nat) => ((List.range 4).map fun (i : Nat) =>
      pyrWeight i * pyrWeight j * clampAt w h xs (2 * (x : Int) - 1 + i) (2 * (y : Int) - 1 + j)).sum).sum
    (sum + 32) / 64

/-- Level `n + 1` of a band whose level 0 measures `w` by `h`, from level `n` (R381). -/
def nextLevel (w h n : Nat) (p : Picture) : Picture :=
  let ow := levelDim w (n + 1)
  let oh := levelDim h (n + 1)
  { w := ow, h := oh, deep := p.deep, y := nextPlane p.w p.h ow oh p.y
    cb := nextPlane (p.w / 2) (p.h / 2) (ow / 2) (oh / 2) p.cb, cr := nextPlane (p.w / 2) (p.h / 2) (ow / 2) (oh / 2) p.cr }

/-- Levels 1 to 3 of a band (R381). -/
def pyramidLevels (p : Picture) : List Picture :=
  let l1 := nextLevel p.w p.h 0 p
  let l2 := nextLevel p.w p.h 1 l1
  [l1, l2, nextLevel p.w p.h 2 l2]

/-! ### Coarse search (R382) -/

/-- The positions of an 8 x 8 block that lie in a picture. -/
def blockPos (p : Picture) (bx by_ : Nat) : List (Nat × Nat) :=
  ((List.range 8).flatMap fun j => (List.range 8).map fun i => (8 * bx + i, 8 * by_ + j)).filter fun q =>
    decide (q.1 < p.w) && decide (q.2 < p.h)

/-- Luma SAD of a block against a reference at a vector. Reads beyond the reference band are clamped to it (log entry
30). -/
def blockSad (p q : Picture) (bx by_ : Nat) (v : Int × Int) : Nat :=
  ((blockPos p bx by_).map fun (c : Nat × Nat) =>
    ((p.y.getD (c.2 * p.w + c.1) 0 : Int) - clampAt q.w q.h q.y ((c.1 : Int) + v.1) ((c.2 : Int) + v.2)).natAbs).sum

/-- ACT of a block: its samples' distances from the block mean, rounded down (R382, log entry 32). -/
def blockAct (p : Picture) (bx by_ : Nat) : Nat :=
  let xs := (blockPos p bx by_).map fun (c : Nat × Nat) => p.y.getD (c.2 * p.w + c.1) 0
  let mean := if xs.isEmpty then 0 else xs.sum / xs.length
  (xs.map fun x => ((x : Int) - mean).natAbs).sum

/-- The best of a list of vectors for a block, with its SAD. -/
def bestVec (p q : Picture) (bx by_ : Nat) (vs : List (Int × Int)) : (Int × Int) × Nat :=
  match vs with
  | [] => ((0, 0), blockSad p q bx by_ (0, 0))
  | v :: r => r.foldl (fun (b : (Int × Int) × Nat) (a : Int × Int) =>
      let sa := blockSad p q bx by_ a
      if vecBetter sa a b.2 b.1 then (a, sa) else b) (v, blockSad p q bx by_ v)

/-- The vector field of a band (R382): (x, y, SAD, ACT) by level-2 block in raster order. -/
def vectorField (levels : List Picture) (prev : Option Fb) : List (Int × Int × Nat × Nat) :=
  let l2 := levels.getD 1 {}
  let l3 := levels.getD 2 {}
  let cols := ceilDiv l2.w 8
  let cols3 := ceilDiv l3.w 8
  (List.range (ceilDiv l2.h 8)).flatMap fun by_ => (List.range cols).map fun bx =>
    let act := blockAct l2 bx by_
    match prev with
    | none => (0, 0, act, act)
    | some f =>
      let parent := if bx / 2 < cols3 ∧ by_ / 2 < ceilDiv l3.h 8 then
          (bestVec l3 (f.levels.getD 2 {}) (bx / 2) (by_ / 2) (around (0, 0) 32 16)).1
        else (0, 0)
      let co := f.field.getD (by_ * cols + bx) (0, 0, 0, 0)
      let b := bestVec l2 (f.levels.getD 1 {}) bx by_
        (around (2 * parent.1, 2 * parent.2) 2 2 ++ around (0, 0) 2 2 ++ around (co.1, co.2.1) 2 2)
      (b.1.1, b.1.2, b.2, act)

/-- COARSE_SEARCH_DONE: the band's pyramid rows and vector field are written, the REF mark moves to them, and the core reports
OK (R377, R378, R381, R382). A band that was not composed gives no search: FAILED (R257, log entry 37). -/
def coarseSearchDone (task : Nat) (s : State) : State :=
  let s := s.begin
  match s.live? task with
  | none => s
  | some l =>
    if l.st ≠ .dispatched ∨ l.task.op ≠ 8 ∨ l.reported.isSome then s
    else
      let g := s.runOf l
      let p := s.runPlan g
      let band := fld l.task.param 5 0
      match p.outputRec l.task.ref, s.outNo g.conf g.bank l.task.ref, l.held.head?, l.bufs.head? with
      | some o, some i, some src, some dst =>
        let levels := pyramidLevels (s.fb src.1 src.2).pic
        let old := (s.outAt i).pyr.find? band
        let prev := old.bind fun k =>
          let f := s.fb dst.1 k
          if f.st = .valid then some f else none
        let s := s.updFb dst.1 dst.2 fun f =>
          { f with st := .valid, ref := true, levels := levels, field := vectorField levels prev }
        let s := match old with
          | none => s
          | some k => if k = dst.2 then s else s.updFb dst.1 k fun f => ({ f with ref := false } : Fb).settle
        let s := s.updOut i fun u => { u with pyr := u.pyr.put band dst.2 }
        let s := s.updRun l.run fun g => { g with pyr := g.pyr.put (o.output * 64 + band) dst.2 }
        s.updLive task fun l => { l with reported := some 0 }
      | _, _, _, _ => s.updLive task fun l => { l with reported := some 2 }

def execCoarseSearchDone (task : Nat) (s : State) : Res := .next (coarseSearchDone task s)

/-! ### Coded band records (R387, R390, R391) -/

/-- Packets of a NAL unit or OBU of `n` bytes (R391). -/
def unitPackets (format n : Nat) : Nat :=
  if format = 5 then (if n ≤ 1188 then 1 else ceilDiv (n - 1) 1186)
  else if format = 6 then (if n ≤ 1188 then 1 else ceilDiv (n - 2) 1185)
  else if n ≤ 1187 then 1 else ceilDiv n 1187

/-- Splits coded bytes into units by their lengths. -/
def splitUnits : List Nat → List Nat → List (List Nat)
  | [], _ => []
  | n :: r, bs => bs.take n :: splitUnits r (bs.drop n)

/-- DATA of a coded band record: NAL units after their lengths for FORMAT 5 and 6, OBUs as they are for 7 (R390). -/
def codedData (format : Nat) (units : List Nat) (bs : List Nat) : List Nat :=
  if format = 7 then bs
  else (splitUnits units bs).flatMap fun u => bytesOf (w32 u.length) ++ u

/-- The header of a coded band record (R390). -/
def codedHeader (r : SessionRec) (c : EncPic) (bandsR band length seq packets : Nat) : List Word :=
  [w32 (length + 2 ^ 24 * b2n c.key + 2 ^ 25 * b2n (decide (0 < c.layer)) + 2 ^ 26 * c.layer + 2 ^ 28 * r.rung
      + 2 ^ 30 * b2n (decide (band + 1 = bandsR)) + 2 ^ 31 * b2n (decide (band = 0))),
    w32 c.ts, w32 r.ssrc,
    w32 (seq + 2 ^ 16 * b2n c.squeeze.isSome + 2 ^ 17 * b2n c.skip.isSome + 2 ^ 18 * b2n c.dropped),
    w32 (r.source + 2 ^ 16 * r.format), w32 packets] ++ List.replicate 10 0

/-- Mean block QP of a picture, rounded half up (R394, R397). -/
def EncPic.qpMean (c : EncPic) : Nat := if c.qpCount = 0 then 0 else (2 * c.qpSum + c.qpCount) / (2 * c.qpCount)

/-- A statistics record (R394). -/
def statsWords (conf picture : Nat) (r : SessionRec) (o : OutputRec) (c : EncPic) : List Word :=
  let bx := ceilDiv (rungDim o.w r.scale) 16
  let by_ := ceilDiv (rungDim o.h r.scale) 16
  [w32 (r.session + 2 ^ 16 * conf), w32 picture, w32 c.ts,
    w32 (c.used + 2 ^ 24 * b2n c.key + 2 ^ 25 * b2n c.squeeze.isSome + 2 ^ 26 * b2n c.skip.isSome + 2 ^ 27 * b2n c.dropped
      + 2 ^ 28 * c.layer),
    w32 (bx + 2 ^ 16 * by_), w32 c.qpMean] ++ List.replicate 10 0
    ++ ((List.range (bx * by_)).flatMap fun k => let e := c.blocks.getD k (0, 0); [e.1, e.2])

/-! ### The completion of a band (R388 to R390, R393, R396) -/

/-- Columns and rows of 16 x 16 blocks of a rung band (R394). -/
def SessionRec.blockGrid (r : SessionRec) (o : OutputRec) (band : Nat) : Nat × Nat :=
  (ceilDiv (rungDim o.w r.scale) 16, ceilDiv (bandRows (rungDim o.h r.scale) band) 16)

/-- COMPLEXITY of a block of a rung band: ACT of the level-2 block that holds its centre, over 16, saturating; 0 without a
search (R382, R394, log entry 31). -/
def State.complexity (s : State) (g : GraphRun) (r : SessionRec) (o : OutputRec) (x y : Nat) : Nat :=
  match s.pyramidOf g o (y * 2 ^ r.scale / 64) with
  | none => 0
  | some b => min 255 ((fieldAt o r.scale (s.fb b.1 b.2).field x y).2.2.2 / 16)

/-- Two's complement of 16 bits. -/
def wrap16 (v : Int) : Nat := (v % 65536).toNat

/-- Block data of a band in raster order: its QP and the two words of its entry: the chosen vector with its SAD over the block, or
zero for an intra block, whose SAD the spec does not give; in a skip band of an inter picture the zero vector (R383, R386, R387,
R394). -/
def State.bandBlocks (s : State) (g : GraphRun) (i : Nat) (r : SessionRec) (o : OutputRec) (c : EncPic) (band : Nat) (skip : Bool)
    (intra : List Bool) : List (Nat × Word × Word) :=
  let n := r.blockGrid o band
  let q := s.searchOf g i r o c band
  let ps := q.bandParts (c.blockQp r) (s.predictors g i r o c)
  (List.range n.2).flatMap fun j => (List.range n.1).map fun k =>
    let x := 16 * k
    let y := 64 * band + 16 * j
    let qp := c.blockQp r (x + 8) (y + 8)
    let plain := c.key || (!skip && intra.getD (j * n.1 + k) false)
    let v : Int × Int := if plain || skip then (0, 0) else partVector ps q.w (q.top + q.rows) x y
    let sad := if plain then Config.intraSad r.session (s.sessAt i).enc.pictures ((n.1 * (y / 16)) + k) % 65536 else min 65535 (q.sad x y 16 v)
    (qp, w32 (wrap16 v.1 + 2 ^ 16 * wrap16 v.2), w32 (sad + 2 ^ 16 * s.complexity g r o (x + 8) (y + 8) + 2 ^ 24 * qp))

/-- What a band is coded as: its bytes, its units, and whether as a skip band (R388). -/
def EncPic.coded (c : EncPic) (r : SessionRec) (o : OutputRec) (outBlocks : Nat) (code : BandCode) :
    List Nat × List Nat × Bool :=
  if c.dropped then ([], [], true)
  else if c.bandSkip then (code.skipData, code.skipUnits, true)
  else
    let limit := min (c.budget - c.used - (r.bandsR o - c.band - 1) * r.skipBytes o) (outBlocks * 4096 - 64)
    if limit < code.data.length then (code.skipData, code.skipUnits, true) else (code.data, code.units, false)

/-- The picture's reference buffer takes a band's reconstruction; a dropped picture leaves it (R377, R388). -/
def State.reconstruct (s : State) (i : Nat) (r : SessionRec) (o : OutputRec) (c : EncPic) (band : Nat) (skip : Bool)
    (given : Picture) : State :=
  match c.fb with
  | none => s
  | some k =>
    if c.dropped then s
    else
      let ref := match c.refFb with | some n => (s.fb (.session i) n).pic | none => {}
      let q := reconBand r (rungDim o.w r.scale) (64 * band) (bandRows (rungDim o.h r.scale) band) c skip ref given
      s.updFb (.session i) k fun f => { f with pic := putBand r o band f.pic q }

/-- ENCODE_ROW_DONE: a core completes a band: its record is written to its output blocks, its bytes count against the
picture's budget, the sequence number advances, the core reports its status, and the last band of a picture with statistics
sends a record (R388 to R394, R396). Coded data that does not fill its units, and a skip band above skip_bytes, are not
what a core gives; the command then has no effect. -/
def encodeRowDone (task : Nat) (code : BandCode) (s : State) : State :=
  let s := s.begin
  match s.live? task with
  | none => s
  | some l =>
    if l.st ≠ .dispatched ∨ l.task.op ≠ 9 ∨ l.reported.isSome then s
    else
      let g := s.runOf l
      let p := s.runPlan g
      let band := fld l.task.param 5 0
      match p.sessionRec l.task.session, p.outputRec l.task.ref, s.sessNo g.conf g.bank l.task.session with
      | some r, some o, some i =>
        match (s.sessAt i).enc.pic with
        | none => s.updLive task fun l => { l with reported := some 2 }
        | some c =>
          let x := c.coded r o l.task.outBlocks code
          if code.units.sum ≠ code.data.length ∨ code.skipUnits.sum ≠ code.skipData.length
              ∨ r.skipBytes o < code.skipData.length then s
          else
            let e := (s.sessAt i).enc
            let recoded := x.2.2 && !c.dropped && !c.bandSkip
            let packets := (x.2.1.map (unitPackets r.format)).sum
            let blocks := s.bandBlocks g i r o c band x.2.2 code.intra
            let c1 : EncPic := { c with
              used := c.used + x.1.length
              skip := if recoded then some (c.skip.getD c.band) else c.skip
              sumA := if x.2.2 then c.sumA else c.sumA + x.1.length
              sumE := if x.2.2 then c.sumE else c.sumE + s.est g r o e c.key band c.qp
              qpSum := if c.dropped then c.qpSum else c.qpSum + (blocks.map Prod.fst).sum
              qpCount := if c.dropped then c.qpCount else c.qpCount + blocks.length
              blocks := if c.dropped then c.blocks else
                c.blocks ++ List.replicate ((r.blockGrid o 0).1 * 4 * band - c.blocks.length) (0, 0) ++ blocks.map Prod.snd }
            let words := codedHeader r c1 (r.bandsR o) band x.1.length e.nextSeq packets
              ++ wordsOfBytes (codedData r.format x.2.1 x.1)
            let status := b2n (!c.dropped && r.scale != 0 && s.rowsAbsent g r o band)
            let s := s.reconstruct i r o c band x.2.2 code.recon
            let s := s.updEnc i fun e => { e with pic := some c1, nextSeq := (e.nextSeq + packets) % 65536 }
            let s := s.updLive task fun l => { (l.withOut words) with reported := some status }
            if c1.stats ∧ band + 1 = r.bandsR o then s.statsRecord g.conf (statsWords g.conf (e.pictures + 1) r o c1) else s
      | _, _, _ => s.updLive task fun l => { l with reported := some 2 }

def execEncodeRowDone (task : Nat) (code : BandCode) (s : State) : Res := .next (encodeRowDone task code s)

/-! ### The encoder probe (R397) -/

/-- What the probe shows of a session (R397). -/
def probeOf (sel : Word) (r : SessionRec) (e : EncState) : EncProbe :=
  let c := e.last
  let stats := match e.pic with | some p => p.stats | none => c.stats
  { sel := sel
    status := w32 (2 ^ 31 + 2 ^ 29 * b2n c.key + 2 ^ 28 * b2n c.squeeze.isSome + 2 ^ 27 * b2n c.skip.isSome
      + 2 ^ 26 * b2n c.dropped + 2 ^ 25 * b2n e.refresh + 2 ^ 24 * b2n stats + 2 ^ 18 * (c.squeeze.getD 63)
      + 2 ^ 12 * (c.skip.getD 63) + 2 ^ 6 * c.qpMean)
    picture := w32 e.pictures, spent := w32 c.spent, cap := w32 r.capBytes, lastBytes := w32 c.used
    kKey := w32 e.kKey, kInter := w32 e.kInter }

/-- ENC_SEL_WRITE: a write by PF0 takes a snapshot; the model sets VALID with it (R397). -/
def encSelWrite (fn : Nat) (value : Word) (s : State) : State :=
  let s := s.begin
  if fn ≠ 0 ∨ !s.hostUp then s
  else
    let c := fld value 31 16
    let n := fld value 15 0
    let found := (s.conf c).activeNo.bind fun b =>
      ((s.planD c b).sessionRec n).bind fun r =>
        if r.typ = 3 then (s.sessNo c b n).map fun i => probeOf value r (s.sessAt i).enc else none
    { s with encProbe := found.getD { sel := value, status := 0xC0FFF000 } }

def execEncSelWrite (fn : Nat) (value : Word) (s : State) : Res := .next (encSelWrite fn value s)

end Sys2Proof.Machine
end

