-- ==== Sys2Proof/Machine/HbmOps.lean ====
section
/-! DEFINITION. The operations of the HBM controllers: the line code and tag, page policy, activates and neighbour refresh,
reads, queued writes, and what poison does (R398 to R420). -/

namespace Sys2Proof.Machine

/-! ### The line code (R406, R407) -/

/-- The generator (x^31 + 1)(x^17 + x^3 + 1) (R406). -/
def fireG : Nat := 2 ^ 48 + 2 ^ 34 + 2 ^ 31 + 2 ^ 17 + 2 ^ 3 + 1

/-- The error word of a list of codeword bits: bit `i` is the coefficient of x^(559 - i). -/
def errorWord (flips : List Nat) : Nat :=
  (flips.filter fun i => decide (i < 560)).foldl (fun e i => e ^^^ 2 ^ (559 - i)) 0

/-- The remainder of an error word by the generator: bits `n - 1` down to 48 are removed. -/
def fireRem : Nat → Nat → Nat
  | 0, e => e
  | n + 1, e => fireRem n (if 48 ≤ n ∧ e.testBit n then e ^^^ (fireG * 2 ^ (n - 48)) else e)

/-- Division by x in the field of remainders. -/
def fireDown (t : Nat) : Nat := if t % 2 = 1 then (t ^^^ fireG) / 2 else t / 2

/-- The single burst of at most 16 bits that a syndrome names, as an error word (R407). -/
def burstOf16 : Nat → Nat → Nat → Option Nat
  | 0, _, _ => none
  | n + 1, j, t => if t < 65536 ∧ t * 2 ^ j < 2 ^ 560 then some (t * 2 ^ j) else burstOf16 n (j + 1) (fireDown t)

/-- The data bits that an error word inverts: data bit `i` is the coefficient of x^(559 - i). -/
def dataBits (e : Nat) : Nat := ((List.range 512).filter fun i => e.testBit (559 - i)).foldl (fun d i => d ^^^ 2 ^ i) 0

/-- How a codeword reads: the inverted data bits left, whether a burst was corrected, and whether it is uncorrectable. -/
def decodeLine (flips : List Nat) : Nat × Bool × Bool :=
  let e := errorWord flips
  let syn := fireRem 560 e
  if syn = 0 then (dataBits e, false, false)
  else
    match burstOf16 560 0 syn with
    | some b => (dataBits (e ^^^ b), true, false)
    | none => (dataBits e, false, true)

/-! ### The tag (R408) -/

/-- The tag of a line. -/
def tagOf (l : Line) : Nat :=
  let low := (if l.poison then 15 else 0) + 16 * (l.cls % 16)
  low + 4096 * ((low % 16) ^^^ (low / 16 % 16))

/-- The tag as read: tag bit `j` is flip 560 + j. -/
def tagRead (l : Line) (flips : List Nat) : Nat :=
  (flips.filter fun i => decide (560 ≤ i ∧ i < 576)).foldl (fun t i => t ^^^ 2 ^ (i - 560)) (tagOf l)

/-- A tag fails PARITY or holds a POISON that is neither clean nor poisoned (R408). -/
def tagBad (t : Nat) : Bool :=
  t / 4096 % 16 != ((t % 16) ^^^ (t / 16 % 16) ^^^ (t / 256 % 16)) || (t % 16 != 0 && t % 16 != 15)

/-! ### Real-time ports (R416) -/

/-- A port's panic from its level: it begins below one mark and ends at the other. -/
def panicFrom (was : Bool) (ahead enter leave : Nat) : Bool := if was then decide (ahead < leave) else decide (ahead < enter)

/-- A set of numbers with one in or out. -/
def listSet (xs : List Nat) (n : Nat) (b : Bool) : List Nat := (if b then [n] else []) ++ xs.filter fun x => x != n

/-- The level that a request shows of its port's buffer: the audio engine's input of 64 KiB, or a core's reference rows (R416). -/
def Panic.watch (p : Panic) : RtPort → Panic
  | .audio a => { p with audio := panicFrom p.audio a 16384 32768 }
  | .encoder c a => { p with enc := listSet p.enc c (panicFrom (p.enc.contains c) a 16 32) }
  | _ => p

/-- Whether a request of a port carries panic (R414, R416). -/
def Panic.of (p : Panic) : RtPort → Bool
  | .none => false
  | .sump u => p.sump.contains u
  | .audio _ => p.audio
  | .encoder c _ => p.enc.contains c

/-! ### Rows (R399, R413, R419, R420) -/

/-- The bank and row of a line number. -/
def bankOf (line : Nat) : Nat := line / 16 % 48
def rowOf (line : Nat) : Nat := line / 16 / 48

/-- Lines of a pseudo-channel: 768 MiB. -/
def pchLines : Nat := 12582912

/-- Classes with an open page policy. -/
def openPage (cls : Nat) : Bool := decide (5 ≤ cls) && decide (cls ≤ 8)

/-- ns of 200 HCLK cycles at a set point, after which an idle row closes (R413, R421). -/
def idleNs : Nat → Nat
  | 0 => 87 | 1 => 111 | _ => 167

/-- Rows that a neighbour refresh of a row activates. -/
def neighbours (row : Nat) : List Nat :=
  (([0, 1, 3, 4].map fun d => row + d).filter fun q => decide (2 ≤ q ∧ q < 16386)).map fun q => q - 2

/-- A neighbour refresh of a row: its activates, and the bank's row is closed (R419). -/
def Pch.neighbourRefresh (c : Pch) (bank row : Nat) : Pch :=
  { c with rows := c.rows.del bank, counters := bump (bump c.counters 3 (neighbours row).length) 11 1 }

/-- The entry of the activate table with the lowest count, of equal ones the first (R420). -/
def lowestEntry : FMap Nat → Option (Nat × Nat)
  | [] => none
  | e :: m =>
    match lowestEntry m with
    | none => some e
    | some f => if f.2 < e.2 then some f else some e

/-- The activate table of a vault pseudo-channel counts an activate: the table and the new count (R420). -/
def tableCount (t : FMap Nat) (key : Nat) : FMap Nat × Nat :=
  match t.find? key with
  | some n => (t.put key (n + 1), n + 1)
  | none =>
    if t.length < 512 then (t.put key 1, 1)
    else
      match lowestEntry t with
      | none => (t.put key 1, 1)
      | some e => ((t.del e.1).put key (e.2 + 1), e.2 + 1)

/-- An activate of a row: it is counted, and may trigger a neighbour refresh (R419, R420). -/
def Pch.activate (c : Pch) (vault : Bool) (bank row : Nat) : Pch :=
  let c := { c with counters := bump c.counters 3 1 }
  if vault then
    let key := bank * 16384 + row
    let r := tableCount c.table key
    if c.threshold ≤ r.2 then ({ c with table := r.1.put key 0 } : Pch).neighbourRefresh bank row
    else { c with table := r.1 }
  else
    let w := Config.neighbourDraw c.rng
    let c := { c with rng := w }
    if w.toNat % 2 ^ c.k = 0 then c.neighbourRefresh bank row else c

/-- An access to a line: a hit in the open row, or an activate; then the page policy of its class (R413). -/
def Pch.access (c : Pch) (vault : Bool) (line cls now idle : Nat) : Pch :=
  let bank := bankOf line
  let row := rowOf line
  let hit := match c.rows.find? bank with
    | some r => decide (r.1 = row) && decide (now ≤ r.2 + idle)
    | none => false
  let c := if hit then { c with counters := bump c.counters 2 1 } else
    ({ c with rows := c.rows.del bank } : Pch).activate vault bank row
  if openPage cls then
    if hit || !(c.rows.has bank) then { c with rows := c.rows.put bank (row, now) } else c
  else { c with rows := c.rows.del bank }

/-- The access as a change of the state. -/
def State.pchAccess (s : State) (n line cls : Nat) : State :=
  s.updPch n fun c => c.access (isVault n) line cls s.now (idleNs s.hbm.setPoint)

/-! ### Holds (R422, R424, R425) -/

/-- A training pause holds pseudo-channel `n`: the first of its channel for 1.5 us from the burst's start, the second from
then on until the burst ends (R422). -/
def State.pchPaused (s : State) (n : Nat) : Bool :=
  (s.stack (n / 32)).burst.any fun b =>
    b.channel == n % 32 / 2 && (if n % 2 = 0 then decide (s.now < b.since + 1500) else decide (b.since + 1500 ≤ s.now))

/-- Traffic to pseudo-channel `n` is held: a training pause, a set-point change, or a MEM_RETRAIN of its stack. -/
def State.pchHeld (s : State) (n : Nat) : Bool :=
  s.pchPaused n || s.hbm.changing.isSome
    || (s.stack (n / 32)).retrain.any fun r => r.started.isSome && r.whole

/-! ### Poison (R410) -/

/-- OBJ_ID of a pseudo-channel. -/
def pchId (n : Nat) : Nat := instId 6 n

/-- A media session starts fresh after its state copy was lost (R114, R410): its buffers and its input stay. -/
def State.freshenSess (s : State) (i : Nat) : State :=
  match s.sess.find? i with
  | none => s
  | some x =>
    let keep := fun (b : Fb) => ({ b with ref := false, out := false, conceal := false } : Fb).settle
    let d := s.draw
    let s := if x.typ = 3 then d.2 else s
    let b := (s.conf x.conf).activeNo.getD 0
    let k := initialK ((((s.planD x.conf b).sessionRec x.session).map SessionRec.format).getD 5)
    let s := s.updSess i fun x =>
      { x with
        fresh := true, copyA := [], copyB := [], sel := false, refs := [], source := none, latest := none, prevOut := none
        lastSize := none, fbs := x.fbs.map keep
        enc := if x.typ = 3 then { tsBase := d.1.toNat, kKey := k.1, kInter := k.2 } else x.enc }
    if x.typ = 2 then s.decoderRequest x.conf b x.session true else s

/-- What poison in the placement pool does, by the CLASS of the line's last writer (R410, log entry 47). -/
def State.poisonPool (s : State) (n line cls : Nat) : State :=
  let o := Config.poolOwner n line
  match cls with
  | 0 => s.updLeg o.1 fun g => { g with hist := { g.hist with slots := g.hist.slots.del o.2.1 } }
  | 5 | 6 =>
    let owner := if o.1 % 3 = 0 then FbOwner.session o.2.1 else if o.1 % 3 = 1 then .output o.2.1 else .pyramid o.2.1
    s.updFb owner o.2.2 fun b => if b.st = .free then b else { b with st := .suspect }
  | 7 =>
    if o.1 % 2 = 0 then
      s.updLive o.2.1 fun l => { l with inputs := l.inputs.upd o.2.2 fun x => (2, x.2) }
    else s.freshenSess o.2.1
  | _ => s

/-- The action of R410 on the data of a line, by its place and its CLASS; a poisoned Sump copy is dropped at its fetch. -/
def State.poisonAct (s : State) (n line cls : Nat) : State :=
  let mib := line / 16384
  if isVault n then
    if mib < 43 then s.fatal 6 (w32 (line * 64))
    else if mib < 682 then
      let e := Config.planEntryAt n line
      if (s.conf e.1).exists_ then s.fenceConf e.1 e.2 0 else s
    else s
  else if mib < 3 then s.fenceLeg (180 * (line / 8) + commonIndex n) 0x21 0 0
  else if mib < 9 then s
  else if mib < 682 then s.poisonPool n line cls
  else s

/-- A poisoned line delivered to its reader: the count, the record and the action (R410). -/
def State.poisonDelivered (s : State) (n line cls : Nat) : State :=
  ((s.countPch n 7 1).fault 0x31 7 (pchId n) (w32 (line * 64)) (w32 cls)).poisonAct n line cls

/-! ### Reads from the stack (R407 to R409) -/

/-- What a read of a stack showed: the data, the poison mark, the tag's CLASS, and whether the poison is new. -/
structure LineRead where
  data : Nat
  poison : Bool
  cls : Nat
  newly : Bool
  deriving DecidableEq, Repr, Inhabited

/-- The controller reads a line from the stack: it corrects or poisons it, counts and records, and writes back what it
changed (R407 to R409). -/
def State.readStack (s : State) (n line : Nat) (flips : List Nat) : LineRead × State :=
  let l := (s.pch n).lines.getD {} line
  let d := decodeLine flips
  let tag := tagRead l flips
  let bad := tagBad tag
  let marked := bad || tag % 16 == 15
  let data := l.data ^^^ d.1
  let poison := marked || d.2.2
  let cls := tag / 16 % 16
  let s := s.countPch n 0 1
  let s := if bad then (s.countPch n 6 1).fault 0x32 7 (pchId n) (w32 (line * 64)) (w32 tag) else s
  let s :=
    if d.2.1 then
      (s.countPch n 4 1).updPch n fun c =>
        { c with lines := c.lines.setD {} line { l with data := data }, lastCe := c.lastCe + 1, quietSince := s.now
                 counters := bump c.counters 1 1 }
    else if d.2.2 then
      let s := (s.countPch n 5 1).fault 0x30 7 (pchId n) (w32 (line * 64)) 0
      s.updPch n fun c =>
        { c with lines := c.lines.setD {} line { data := data, poison := true, cls := l.cls }
                 counters := bump c.counters 1 1 }
    else s
  ({ data := data, poison := poison, cls := cls, newly := poison && !l.poison }, s)

/-- The newest write queued for a line (R415). -/
def Pch.queued (c : Pch) (line : Nat) : Option Line :=
  (c.writes.reverse.find? fun w => w.line == line).map QWrite.value

/-! ### Queues (R409, R412, R414, R415) -/

/-- The bytes of `data` that the mask names, over the bytes of `old` (R409). -/
def mergeBytes (old data mask : Nat) : Nat :=
  (List.range 64).foldl (fun d i =>
    d + 256 ^ i * ((if mask.testBit i then data else old) / 256 ^ i % 256)) 0

/-- The line that a read-modify-write merges into: the newest queued one of some writes, or the one in the stack; with what its read
did (R409, R415). -/
def State.mergeBase (s : State) (n line cls : Nat) (ws : List QWrite) (flips : List Nat) : Line × State :=
  match ws.reverse.find? fun w => w.line == line with
  | some w => (w.value, s)
  | none =>
    let r := (s.pchAccess n line cls).readStack n line flips
    ({ data := r.1.data, poison := r.1.poison, cls := r.1.cls }, r.2)

/-- Read-modify-writes that waited for a held pseudo-channel merge, in the order in which they came (R409). -/
def State.mergeWrites (s : State) (n : Nat) : State :=
  if (s.pch n).writes.all fun w => w.merge.isNone then s
  else
    let r := (s.pch n).writes.foldl (fun (x : State × List QWrite) w =>
      match w.merge with
      | none => (x.1, x.2 ++ [w])
      | some m =>
        let b := x.1.mergeBase n w.line w.value.cls x.2 m.2
        let v : Line := { w.value with data := mergeBytes b.1.data w.value.data m.1, poison := w.value.poison || b.1.poison }
        (b.2, x.2 ++ [{ w with value := v, merge := none }])) (s, [])
    r.1.updPch n fun c => { c with writes := r.2 }

/-- The oldest write of a queue goes to the stack (R409, R414). -/
def State.drainWrite (s : State) (n : Nat) : State :=
  match (s.pch n).writes with
  | [] => s
  | w :: rest =>
    (s.pchAccess n w.line w.value.cls).updPch n fun c =>
      { c with writes := rest, lines := c.lines.setD {} w.line w.value, counters := bump c.counters 1 1 }

/-- Writes go first from 48 queued lines on, until 16 are left; while a panic read is queued, only where the queue is full (R414).
-/
def State.drainHigh (s : State) (n : Nat) : State :=
  let k := (s.pch n).writes.length
  if 48 ≤ k ∧ (((s.pch n).reads.any fun q => q.panic) = false ∨ 64 ≤ k) then
    (List.range (k - 16)).foldl (fun (s : State) _ => s.drainWrite n) s
  else s

/-- What a read delivers: from a queued write, from the stack, or poison from a retired pseudo-channel (R407, R410, R415, R423). -/
def State.serveRead (s : State) (n line cls : Nat) (flips : List Nat) : Line × State :=
  if (s.pch n).st = 2 then
    ({ data := Config.retiredLine n line, poison := true }, s.poisonDelivered n line ((s.pch n).lines.getD {} line).cls)
  else
    match (s.pch n).queued line with
    | some l =>
      let s := s.countPch n 9 1
      (l, if l.poison then s.poisonDelivered n line l.cls else s)
    | none =>
      let r := (s.pchAccess n line cls).readStack n line flips
      ({ data := r.1.data, poison := r.1.poison, cls := r.1.cls }, if r.1.poison then r.2.poisonDelivered n line r.1.cls else r.2)

/-- Serves a queued read. -/
def State.serveQueued (s : State) (n : Nat) (q : QRead) : State :=
  let r := (s.updPch n fun c => { c with reads := c.reads.erase q }).serveRead n q.line q.cls q.flips
  r.2.emit (.queuedLine n q.line r.1.data r.1.poison)

/-- A queued read that hits an open row under the open policy (R413, R414). -/
def Pch.opens (c : Pch) (q : QRead) (now idle : Nat) : Bool :=
  openPage q.cls && match c.rows.find? (bankOf q.line) with
    | some r => r.1 == rowOf q.line && decide (now ≤ r.2 + idle)
    | none => false

/-- One request of a pseudo-channel whose traffic is not held, in the order of precedence of R414: a panic read, the oldest first;
the writes from 48 lines on; the oldest request that has waited 2 us, counted; another read, one that hits an open row first;
another write. -/
def State.serveNext (s : State) (n : Nat) : State :=
  let s := s.mergeWrites n
  let c := s.pch n
  let aged := fun (t : Nat) => decide (t + 2000 ≤ s.now)
  match (if c.writes.length < 64 then c.reads.find? fun q => q.panic else none) with
  | some q => s.serveQueued n q
  | none =>
    if 48 ≤ c.writes.length then s.drainHigh n
    else
      match c.reads.head?, c.writes.head? with
      | some q, some w =>
        if aged q.at_ && decide (q.at_ ≤ w.at_) then (s.countPch n 16 1).serveQueued n q
        else if aged w.at_ then (s.countPch n 16 1).drainWrite n
        else s.serveQueued n ((c.reads.find? fun q => c.opens q s.now (idleNs s.hbm.setPoint)).getD q)
      | some q, none =>
        if aged q.at_ then (s.countPch n 16 1).serveQueued n q
        else s.serveQueued n ((c.reads.find? fun q => c.opens q s.now (idleNs s.hbm.setPoint)).getD q)
      | none, some w => if aged w.at_ then (s.countPch n 16 1).drainWrite n else s.drainWrite n
      | none, none => s

/-- A pseudo-channel whose traffic is not held serves one waiting request where nothing else is asked of it (R414). -/
def State.drainIdle (s : State) : State :=
  if !s.portsRun then s
  else s.pchs.foldl (fun (s : State) (p : Nat × Pch) =>
    if (p.2.writes.isEmpty && p.2.reads.isEmpty) || s.pchHeld p.1 then s else s.serveNext p.1) s

end Sys2Proof.Machine
end

