-- ==== Sys2Proof/Machine/Hbm.lean ====
section
/-! DEFINITION. The commands of the HBM controllers: reads, writes, patrol scrub, refresh, neighbour refresh, training, set
points and MEM_RETRAIN (R406 to R426). -/

namespace Sys2Proof.Machine

/-! ### Reads and writes (R407 to R417) -/

/-- HBM_READ: one line for a requester, with panic while its real-time port is in panic (R416, R417). A read of a held
pseudo-channel, or one behind such reads, waits in the read queue of 64 lines, where it has room (R412, R422). -/
def hbmRead (n addr cls : Nat) (port : RtPort) (hostDma : Bool) (flips : List Nat) (s : State) : State :=
  let s := s.begin
  let s := { s with panic := s.panic.watch port }
  let line := addr / 64
  let wait := s.pchHeld n || !(s.pch n).reads.isEmpty
  if !s.portsRun || decide (192 ≤ n) || decide (pchLines ≤ line) || decide (9 < cls) || (s.pch n).st == 1
      || (wait && decide (64 ≤ (s.pch n).reads.length)) then s
  else
    let panic := s.panic.of port
    let s := if panic then s.countPch n 15 1 else s
    let c := if hostDma then 8 else cls
    if wait then
      s.updPch n fun p => { p with reads := p.reads ++ [{ line := line, cls := c, panic := panic, flips := flips, at_ := s.now }] }
    else
      let r := (s.mergeWrites n).serveRead n line c flips
      r.2.emit (.line r.1.data r.1.poison)

def execHbmRead (pch addr cls : Nat) (port : RtPort) (hostDma : Bool) (flips : List Nat) (s : State) : Res :=
  .next (hbmRead pch addr cls port hostDma flips s)

/-- HBM_WRITE: a whole line, or a read-modify-write of the bytes that `mask` names; the write is done for its requester
once it is queued, and a full queue takes none; a read-modify-write of a held pseudo-channel merges once it is free. A retired
pseudo-channel discards it. -/
def hbmWrite (n addr cls : Nat) (mask data : Nat) (poison : Bool) (flips : List Nat) (s : State) : State :=
  let s := s.begin
  let line := addr / 64
  if !s.portsRun || decide (192 ≤ n) || decide (pchLines ≤ line) || decide (9 < cls) || (s.pch n).st != 0
      || decide (64 ≤ (s.pch n).writes.length) then s
  else
    let m := mask % 2 ^ 64
    let whole := m == 2 ^ 64 - 1
    let s := if whole then s else s.countPch n 10 1
    if s.pchHeld n then
      s.updPch n fun c => { c with writes := c.writes ++
        [{ line := line, value := { data := data % 2 ^ 512, poison := poison, cls := cls }, at_ := s.now
           merge := if whole then none else some (m, flips) }] }
    else
      let s := s.mergeWrites n
      let b := if whole then ({ data := 0 }, s) else s.mergeBase n line cls (s.pch n).writes flips
      let v : Line :=
        { data := if whole then data % 2 ^ 512 else mergeBytes b.1.data data m
          poison := poison || (!whole && b.1.poison), cls := cls }
      (b.2.updPch n fun c => { c with writes := c.writes ++ [{ line := line, value := v, at_ := s.now }] }).drainHigh n

def execHbmWrite (pch addr cls : Nat) (mask data : Nat) (poison : Bool) (flips : List Nat) (s : State) : Res :=
  .next (hbmWrite pch addr cls mask data poison flips s)

/-! ### Patrol scrub (R411) -/

/-- The patrol read of one line of a row. -/
def State.patrolLine (n u : Nat) (flips : List (Nat × List Nat)) (s : State) (i : Nat) : State :=
  let line := 16 * u + i
  let s := s.countPch n 8 1
  match (s.pch n).queued line with
  | some _ => s.countPch n 9 1
  | none =>
    let fl := (flips.filter fun p => p.1 == i).flatMap Prod.snd
    let r := s.readStack n line fl
    if r.1.newly then r.2.poisonAct n line r.1.cls else r.2

/-- PATROL_SCRUB_ROW: the next row of 16 lines of a pseudo-channel in service. -/
def patrolScrubRow (n : Nat) (flips : List (Nat × List Nat)) (s : State) : State :=
  let s := s.begin
  if !s.portsRun || !s.pchIn n || s.pchHeld n then s
  else
    let u := (s.pch n).patrol
    let s := s.updPch n fun c => { c with patrol := (u + 1) % (pchLines / 16) }
    (List.range 16).foldl (State.patrolLine n u flips) (s.pchAccess n (16 * u) 9)

def execPatrolScrubRow (pch : Nat) (flips : List (Nat × List Nat)) (s : State) : Res := .next (patrolScrubRow pch flips s)

/-! ### Refresh (R418 to R420) -/

/-- REFRESH_DUE: a bank's refresh is postponed (at most 8), or issued, with one pulled in (at most 8) on request; an issued
refresh closes the bank's row. In RETAIN the stacks refresh themselves. -/
def refreshDue (n bank : Nat) (postpone pullIn : Bool) (s : State) : State :=
  let s := s.begin
  if !s.effMode.status || s.effMode == .retain || !s.pchIn n || decide (48 ≤ bank) then s
  else
    let credit := (s.pch n).credit.getD 0 bank
    if postpone && decide (credit < 8) then
      (s.countPch n 12 1).updPch n fun c => { c with credit := c.credit.setD 0 bank (credit + 1) }
    else
      let next := if postpone then credit else if 0 < credit then credit - 1
        else if pullIn && decide (-8 < credit) then credit - 1 else if credit < 0 && !pullIn then credit + 1 else credit
      s.updPch n fun c => { c with rows := c.rows.del bank, credit := c.credit.setD 0 bank next }

def execRefreshDue (pch bank : Nat) (postpone pullIn : Bool) (s : State) : Res :=
  .next (refreshDue pch bank postpone pullIn s)

/-- HBM_SENSOR_READ: the stack's sensor in 0.125 degrees C; it gives the refresh rate and the early bursts. -/
def hbmSensorRead (stack : Nat) (eighths : Int) (s : State) : State :=
  let s := s.begin
  if stack < 6 ∧ s.modes.mode.status = true then s.updStack stack fun k => { k with eighths := eighths } else s

def execHbmSensorRead (stack : Nat) (eighths : Int) (s : State) : Res := .next (hbmSensorRead stack eighths s)

/-- ACTIVATE_TABLE_CLEAR: every 32 ms a vault pseudo-channel's table is cleared. -/
def activateTableClear (n : Nat) (s : State) : State :=
  let s := s.begin
  if n < 192 ∧ isVault n = true then s.updPch n fun c => { c with table := [] } else s

def execActivateTableClear (pch : Nat) (s : State) : Res := .next (activateTableClear pch s)

/-- NEIGHBOUR_RNG_RESEED: every 1 s the generator of each common pseudo-channel takes a new word. -/
def neighbourRngReseed (words : List Word) (s : State) : State :=
  let s := s.begin
  words.zipIdx.foldl (fun (s : State) (p : Word × Nat) =>
    if p.2 < 192 ∧ isVault p.2 = false then s.updPch p.2 fun c => { c with rng := p.1 } else s) s

def execNeighbourRngReseed (words : List Word) (s : State) : Res := .next (neighbourRngReseed words s)

/-! ### Training bursts (R422, R423) -/

/-- A pseudo-channel is retired in service (R423). -/
def State.retirePch (s : State) (n : Nat) : State :=
  let s := s.updPch n fun c => { c with st := 2, writes := [], rows := [], failRun := 2 }
  let s := s.fault 0x34 7 (pchId n) 1 0
  let s := s.instanceDown 6 n true
  if isVault n then s.fatal 6 (w32 n)
  else
    (s.legs.filter fun (x : Nat × Leg) => legPch x.1 == n).foldl (fun (s : State) (x : Nat × Leg) => s.fenceLeg x.1 0x21 0 0) s

/-- The outcome of a pause for one pseudo-channel at the set point it was gathered at (R423, R424). -/
def State.trained (s : State) (n sp : Nat) (ok : Bool) (value : Nat) : State :=
  let c := s.pch n
  if c.st ≠ 0 then s
  else if ok then s.updPch n fun c => { c with failRun := 0, trained := c.trained.set sp value }
  else
    let run := c.failRun + 1
    let s := (s.countPch n 14 1).fault 0x33 7 (pchId n) (w32 run) (w32 sp)
    if run < 3 then s.updPch n fun c => { c with failRun := run } else s.retirePch n

/-- A set-point change is requested and has not started (R424). -/
def State.changeWaits (s : State) : Bool := s.hbm.request != s.hbm.setPoint && s.hbm.changing.isNone

/-- A burst of a channel is due: 250 ms after the last, or once the sensor has moved 10 degrees C (R422). -/
def Stack.burstDue (k : Stack) (channel now : Nat) : Bool :=
  match k.lastBurst.find? channel with
  | none => true
  | some b => decide (b.2 + 250000000 ≤ now) || decide (80 ≤ (k.eighths - b.1).natAbs)

/-- TRAINING_BURST: a channel's burst starts, unless one runs on the stack or a set-point change waits or runs. -/
def trainingBurst (stack channel : Nat) (result : BurstResult) (s : State) : State :=
  let s := s.begin
  let k := s.stack stack
  let p := 32 * stack + 2 * channel
  if !s.portsRun || decide (6 ≤ stack) || decide (16 ≤ channel) || k.burst.isSome || !k.burstDue channel s.now then s
  else if s.changeWaits || s.hbm.changing.isSome then
    if k.deferred.contains channel then s
    else ((s.updStack stack fun k => { k with deferred := channel :: k.deferred }).countPch p 17 1).countPch (p + 1) 17 1
  else
    let b : Burst := { channel := channel, since := s.now, setPoint := s.hbm.setPoint, result := result }
    (s.updStack stack fun k => { k with burst := some b, lastBurst := k.lastBurst.put channel (k.eighths, s.now),
                                         deferred := k.deferred.filter fun x => x != channel }).countPch
      p 13 1

def execTrainingBurst (stack channel : Nat) (result : BurstResult) (s : State) : Res :=
  .next (trainingBurst stack channel result s)

/-- A MEM_RETRAIN that waits for its first pause starts where no burst and no change holds its stack (R425). -/
def State.startRetrain (s : State) (stack : Nat) : State :=
  let free := (s.stack stack).burst.isNone && s.hbm.changing.isNone && !s.changeWaits
  if free then s.updStack stack fun k => { k with retrain := k.retrain.map fun r =>
    { r with started := some (r.started.getD s.now) } } else s

/-- TRAINING_BURST_END: both pauses have ended; the values of the set point at which they were gathered are kept or
replaced. -/
def trainingBurstEnd (stack : Nat) (s : State) : State :=
  let s := s.begin
  match (s.stack stack).burst with
  | none => s
  | some b =>
    let p := 32 * stack + 2 * b.channel
    let s := s.updStack stack fun k => { k with burst := none }
    let s := s.countPch (p + 1) 13 1
    let s := (s.trained p b.setPoint b.result.ok0 b.result.values0).trained (p + 1) b.setPoint b.result.ok1 b.result.values1
    s.startRetrain stack

def execTrainingBurstEnd (stack : Nat) (s : State) : Res := .next (trainingBurstEnd stack s)

/-! ### Set points (R421, R424) -/

/-- A MEM_RETRAIN ends with a result (R94, R425). -/
def State.endRetrain (s : State) (stack result : Nat) : State :=
  match (s.stack stack).retrain with
  | none => s
  | some r =>
    let s := s.updStack stack fun k => { k with retrain := none }
    match s.welmus.taken.find? r.cmd with
    | none => s
    | some c => s.finish r.cmd c result 7 (fld (c.w 3) 20 0) []

/-- SET_POINT_CHANGE: a requested change starts once no burst is in progress anywhere; every MEM_RETRAIN in progress ends with
DEFERRED. -/
def setPointChange (s : State) : State :=
  let s := s.begin
  if !s.portsRun || !s.changeWaits || (s.towers.any fun p => p.2.burst.isSome) then s
  else
    let s := (List.range 6).foldl (fun (s : State) k => s.endRetrain k rDeferred) s
    { s with hbm := { s.hbm with changing := some (s.hbm.request, s.now) } }

def execSetPointChange (s : State) : Res := .next (setPointChange s)

/-- SET_POINT_CHANGE_DONE: the new set point is in force and traffic resumes. -/
def setPointChangeDone (s : State) : State :=
  let s := s.begin
  match s.hbm.changing with
  | none => s
  | some t => { s with hbm := { s.hbm with setPoint := t.1, changing := none } }

def execSetPointChangeDone (s : State) : Res := .next (setPointChangeDone s)

/-! ### MEM_RETRAIN (R425) -/

/-- SCOPE and INDEX of a MEM_RETRAIN. -/
def retrainWhole (c : Taken) : Bool := bitAt (c.w 3) 0
def retrainIndex (c : Taken) : Nat := fld (c.w 3) 15 8

/-- The stack that a MEM_RETRAIN works on. -/
def retrainStack (c : Taken) : Nat := if retrainWhole c then retrainIndex c else retrainIndex c / 32

/-- MEM_RETRAIN up to its commit point, for one SCOPE. -/
def memRetrainBody (whole : Bool) (id : Nat) (c : Taken) (s : State) : State :=
  let k := retrainStack c
  let bad := !c.lenIs 4 || !zeroFrom (c.w 3) 16 || !zeroIn (c.w 3) 7 1
    || decide ((if retrainWhole c then 6 else 192) ≤ retrainIndex c)
  if retrainWhole c != whole then s
  else
    s.checked id
      [(bad, rBadArg), (c.fn != 0, rDenied), (s.modes.mode == .throttle, rDeferred),
       (!s.serves 0x081 || (whole && s.modes.mode != .maintenance), rWrongMode),
       ((s.stack k).retrain.isSome || s.hbm.changing.isSome, rDeferred)]
      fun s =>
        let s := (s.markCommitted id).commitEntry c rOk 7 (fld (c.w 3) 20 0) 0
        let r : Retrain := { cmd := id, whole := whole, index := retrainIndex c, since := s.now }
        (s.updStack k fun x => { x with retrain := some r }).startRetrain k

/-- MEM_RETRAIN with SCOPE 0. -/
def memRetrainPchBody (id : Nat) (c : Taken) (s : State) : State := memRetrainBody false id c s

def execMemRetrainPch (id : Nat) (s : State) : Res := .next (s.command id 0x081 (memRetrainPchBody id))

/-- MEM_RETRAIN with SCOPE 1. -/
def memRetrainStackBody (id : Nat) (c : Taken) (s : State) : State := memRetrainBody true id c s

def execMemRetrainStack (id : Nat) (s : State) : Res := .next (s.command id 0x081 (memRetrainStackBody id))

/-- The stack whose MEM_RETRAIN is command `id`. -/
def State.retrainOf (s : State) (id : Nat) : Option (Nat × Retrain) :=
  (List.range 6).findSome? fun k =>
    match (s.stack k).retrain with
    | some r => if r.cmd = id then some (k, r) else none
    | none => none

/-- The values of a finished retraining: one pseudo-channel at the set point in force, or all three set points of a stack's
32 pseudo-channels. -/
def State.retrainValues (s : State) (k : Nat) (r : Retrain) (values : List Nat) : State :=
  if r.whole then
    (List.range 32).foldl (fun (s : State) i =>
      s.updPch (32 * k + i) fun c => { c with trained := (List.range 3).map fun p => values.getD (3 * i + p) 0 }) s
  else s.updPch r.index fun c => { c with trained := c.trained.set s.hbm.setPoint (values.getD 0 0) }

/-- MEM_RETRAIN_DONE: the values are replaced where the margins passed, and the command completes with OK. -/
def memRetrainDone (id : Nat) (pass : Bool) (values : List Nat) (s : State) : State :=
  let s := s.begin
  match s.retrainOf id with
  | none => s
  | some (k, r) =>
    if r.started.isNone then s
    else
      let s := if r.whole then s else
        (s.countPch r.index 13 400).countPch (if r.index % 2 = 0 then r.index + 1 else r.index - 1) 13 400
      let s := if pass then s.retrainValues k r values else s
      s.endRetrain k rOk

def execMemRetrainDone (id : Nat) (pass : Bool) (values : List Nat) (s : State) : Res :=
  .next (memRetrainDone id pass values s)

/-- MEM_RETRAIN_START_TIMEOUT: the first pause has not started within 100 ms. -/
def memRetrainStartTimeout (id : Nat) (s : State) : State :=
  let s := s.begin
  match s.retrainOf id with
  | none => s
  | some (k, r) => if r.started.isNone ∧ r.since + 100000000 ≤ s.now then s.endRetrain k rDeferred else s

def execMemRetrainStartTimeout (id : Nat) (s : State) : Res := .next (memRetrainStartTimeout id s)

/-! ### Registers (R426) -/

/-- MEM_PCH_STATUS. -/
def State.memPchStatus (s : State) (n : Nat) : Word :=
  let c := s.pch n
  let v := isVault n
  w32 ((if v then c.threshold else 2 ^ 16 * c.k) + 2 ^ 25 * min c.failRun 2
    + 2 ^ 27 * b2n (decide (680 < (s.stack (n / 32)).eighths)) + 2 ^ 28 * b2n (s.pchPaused n) + 2 ^ 29 * b2n v + 2 ^ 30 * c.st)

/-- MEM_GLOBAL. -/
def State.memGlobal (s : State) : Word :=
  w32 (s.hbm.setPoint + 4 * s.hbm.request
    + 16 * b2n (s.changeWaits && s.towers.any fun p => p.2.burst.isSome) + 32 * b2n s.hbm.changing.isSome
    + 65536 * s.pchs.countP fun p => p.2.st != 0)

end Sys2Proof.Machine
end

