-- ==== Sys2Proof/Machine/Heat.lean ====
section
/-! DEFINITION. Junction temperature, THROTTLE and its steps, and the alarm outputs (R40 to R43, R471 to R473). -/

namespace Sys2Proof.Machine

/-! ### THROTTLE (R40, R41, R471, R472) -/

/-- THROTTLE is entered or left: at once where the arbiter is free, else when it takes the request (R43). -/
def State.throttleReq (s : State) (trigger : Nat) : State :=
  if s.modes.transition.isNone && s.modes.arb.isEmpty then
    if trigger = 8 then s.enterThrottle else s.leaveThrottle
  else if s.modes.arb.any fun r => r.trigger == trigger then s
  else s.setModes { s.modes with arb := s.modes.arb ++ [{ target := .throttle, trigger := trigger }] }

/-- THERMAL_SENSOR_READ: the 24 junction sensors and the case-side one, in 0.125 degrees C, every 100 us. -/
def thermalSensorRead (sensors : List Int) (caseSide : Int) (s : State) : State :=
  let s := s.begin
  if !s.pins.pwrgoodAux then s
  else
    let th := { s.thermal with sensors := (List.range 24).map fun i => sensors.getD i 0, caseSide := caseSide }
    let s : State := { s with thermal := th }
    let hot : Int := s.hottest
    let s : State := { s with thermal := { s.thermal with
      fatalSince := if 840 ≤ hot then some (th.fatalSince.getD s.now) else none
      coldSince := if s.modes.mode = .throttle ∧ hot ≤ 760 then some (th.coldSince.getD s.now) else none } }
    if 800 ≤ hot ∧ s.modes.mode.throttles = true then s.throttleReq 8 else s

def execThermalSensorRead (sensors : List Int) (caseSide : Int) (s : State) : Res :=
  .next (thermalSensorRead sensors caseSide s)

/-- JUNCTION_FATAL: 105 degrees C or more for 1 ms (R42). -/
def junctionFatal (s : State) : State :=
  let s := s.begin
  match s.thermal.fatalSince with
  | none => s
  | some t => if t + 1000000 ≤ s.now then s.fatal 2 (wInt s.hottest) else s

def execJunctionFatal (s : State) : Res := .next (junctionFatal s)

/-- Takes the next step of R472 with its record: steps 3 and 4 ask for HBM set points 1 and 2 (R424). -/
def State.throttleStep (s : State) : State :=
  let k := s.thermal.step + 1
  let request := if k = 3 then 1 else if k = 4 then 2 else s.hbm.request
  { s with thermal := { s.thermal with step := k }, hbm := { s.hbm with request := request } }.fault 0x40 0 0 (w32 k)
    (wInt s.hottest)

/-- THROTTLE_STEP_TEST: every 100 ms counted from entry. -/
def throttleStepTest (s : State) : State :=
  let s := s.begin
  if s.modes.mode ≠ .throttle ∨ s.now < s.thermal.lastTest + 100000000 then s
  else
    let s := { s with thermal := { s.thermal with lastTest := s.thermal.lastTest + 100000000 } }
    if 800 ≤ s.hottest ∧ s.thermal.step < 5 then s.throttleStep else s

def execThrottleStepTest (s : State) : Res := .next (throttleStepTest s)

/-- THERMAL_EXIT: every sensor at 95 degrees C or less for 1 s without a break. -/
def thermalExit (s : State) : State :=
  let s := s.begin
  if s.modes.mode = .throttle ∧ s.thermal.coldSince.any (fun t => decide (t + 1000000000 ≤ s.now)) then s.throttleReq 9
  else s

def execThermalExit (s : State) : Res := .next (thermalExit s)

/-! ### Alarm outputs (R473) -/

/-- What asks for alarm output `k` to be driven low. -/
def State.alarmOn (s : State) (k : Nat) : Bool :=
  match k with
  | 0 => s.modes.mode == .quarantine
  | 1 => s.instDown
  | 2 => decide (s.hottest ≥ 800)
  | _ => false

/-- Alarm output `k`. -/
def State.alarm (s : State) (k : Nat) : Alarm := s.pins.alarms.getD k {}

/-- Whether the device drives alarm output `k` low. -/
def State.alarmLow (s : State) (k : Nat) : Bool := s.alarmOn k && !(s.alarm k).stopped

/-- Changes alarm output `k`. -/
def State.setAlarm (s : State) (k : Nat) (a : Alarm) : State :=
  { s with pins := { s.pins with alarms := s.pins.alarms.set k a } }

/-- A driven output that reads high: the device stops driving it and writes ALARM_SHORT. -/
def State.alarmShorted (s : State) (k : Nat) : State :=
  (s.setAlarm k { stopped := true, lastTry := s.now }).fault 0x50 0 0 (w32 k) 0

/-- ALARM_SHORT. -/
def alarmShort (k : Nat) (readsHigh : Bool) (s : State) : State :=
  let s := s.begin
  if s.pins.pwrgoodAux && s.alarmLow k && readsHigh then s.alarmShorted k else s

def execAlarmShort (output : Nat) (readsHigh : Bool) (s : State) : Res := .next (alarmShort output readsHigh s)

/-- ALARM_RETRY: once per second the device drives a shorted output again; one that still reads high is shorted. -/
def alarmRetry (k : Nat) (readsHigh : Bool) (s : State) : State :=
  let s := s.begin
  let a := s.alarm k
  if !s.pins.pwrgoodAux || !a.stopped || decide (s.now < a.lastTry + 1000000000) then s
  else if s.alarmOn k && readsHigh then s.alarmShorted k
  else s.setAlarm k { stopped := false, lastTry := s.now }

def execAlarmRetry (output : Nat) (readsHigh : Bool) (s : State) : Res := .next (alarmRetry output readsHigh s)

end Sys2Proof.Machine
end

