-- ==== Sys2Proof/Machine/Keys.lean ====
section
/-! DEFINITION. KEY_IMPORT and KEY_ERASE (R80, R208 to R218, R402). -/

namespace Sys2Proof.Machine

/-- Lengths of master key and master salt by profile (R213). -/
def keyLens : Nat → Nat × Nat
  | 2 => (32, 12) | 3 => (16, 14) | 4 => (16, 14) | _ => (16, 12)

/-- WRAP_LENGTH by profile (R80, R213). -/
def wrapLen (profile : Nat) : Nat := if profile = 2 then 56 else 40

/-- The fields of a KEY_IMPORT are out of format or range (R80). -/
def importMalformed (c : Taken) : Bool :=
  let pr := fld (c.w 4) 2 0
  let wl := fld (c.w 4) 15 8
  !zeroFrom (c.w 3) 21 || !zeroIn (c.w 4) 7 3 || !zeroFrom (c.w 4) 16 || decide (pr < 1) || decide (4 < pr)
    || wl != wrapLen pr || !c.lenIs (5 + wl / 4)

/-- Master key and master salt, bytes first to last (R213). -/
structure KeyMat where
  key : List Nat
  salt : List Nat
  deriving DecidableEq, Repr, Inhabited

/-- What KEY_IMPORT unwraps under KIK: the master key followed by the master salt, in the lengths of the profile (R213). -/
def unwrapKey (kik : List Nat) (profile : Nat) (wrapped : List Nat) : Option KeyMat :=
  let l := keyLens profile
  (keyUnwrap kik (l.1 + l.2) wrapped).map fun m => { key := m.take l.1, salt := m.drop l.1 }

/-- The key check value: the leftmost 24 bits of the salt and zeros under the master key, the first byte in KCV [7:0] (R214). -/
def KeyMat.kcv (m : KeyMat) : Nat :=
  let x := beBytes 16 (aesBlock (roundKeys m.key) (beNum (m.salt ++ List.replicate (16 - m.salt.length) 0)))
  x.getD 0 0 + 256 * x.getD 1 0 + 65536 * x.getD 2 0

/-- `n` bytes that the key derivation function of RFC 3711, section 4.3, gives for a label at index 0 (R218). A salt of 12 bytes
stands in the upper bytes of the 14 (PRESUMED from RFC 7714, log entry 4). -/
def KeyMat.derive (m : KeyMat) (label n : Nat) : List Nat :=
  let salt := beNum (m.salt ++ List.replicate (14 - m.salt.length) 0)
  ctrStream (roundKeys m.key) ((salt ^^^ (label * 2 ^ 48)) * 2 ^ 16) 128 n

/-- The session keys of a profile (R218). -/
def KeyMat.session (m : KeyMat) (profile : Nat) : SessionKeys :=
  let auth := if 3 ≤ profile then 20 else 0
  let l := keyLens profile
  { rtpKey := m.derive 0 l.1, rtpAuth := m.derive 1 auth, rtpSalt := m.derive 2 l.2
    rtcpKey := m.derive 3 l.1, rtcpAuth := m.derive 4 auth, rtcpSalt := m.derive 5 l.2 }

/-- Clears the replay state of a receive context (R215 step 4). -/
def Leg.resetReplay (g : Leg) : Leg :=
  { g with
    rx := g.rx.map fun r => { r with started := false, highest := 0, roc := 0, window := 0, seqStarted := false, seqHighest := 0 }
    trunkRx := { g.trunkRx with started := false, highest := 0, roc := 0, window := 0 }
    rtcpHighest := 0, rtcpStarted := false, rtcpWindow := 0 }

/-- The slot record after an import (R215 steps 1 to 3). -/
def Slot.load (r : Slot) (profile : Nat) (m : KeyMat) (kcv : Nat) : Slot :=
  { r with
    keys := some (m.session profile), profile := profile, loaded := true, kcv := kcv
    kcvValid := true, generation := (r.generation + 1) % 256, index := 0, rtcpIndex := 0
    exhausted := false, rtcpExhausted := false, rekeyRaised := false, rtcpRekeyRaised := false }

/-- The commit of an import, with the write into the holder's context (R215). -/
def State.importKey (s : State) (k profile : Nat) (m : KeyMat) (kcv : Nat) : State :=
  let r := (s.slot k).load profile m kcv
  let s := s.updSlot k fun _ => r
  if !r.held then s
  else s.updLeg r.holder fun g =>
    if r.role then { g with txGen := r.generation } else { g.resetReplay with rxGen := r.generation }

/-- KEY_IMPORT: words 5 onward are unwrapped under KIK (R211 to R215). The key check value stands with the integrity checks of
R76. DESIGN CHOICE (log entry 115): the BAD_ARG of R211, which depends on state, comes after DENIED. Whether the write of the
record drops its copy in the key cache, which no rule says, comes with the command (log entry 119). -/
def keyImportBody (dropped : Bool) (id : Nat) (c : Taken) (s : State) : State :=
  let k := (c.w 3).toNat
  let pr := fld (c.w 4) 2 0
  let r := s.slot k
  let unwrapped := unwrapKey s.kik pr (bytesOfWords (c.words.drop 5))
  let m := unwrapped.getD { key := [], salt := [] }
  let kcv := m.kcv
  s.checked id
    [(importMalformed c, rBadArg), (!s.hasSlot c.fn k, rDenied),
      (decide (3 ≤ pr) && r.held && (s.legs.getD {} r.holder).kind == 2, rBadArg), (!s.serves 0x040, rWrongMode),
      (!s.fuses.importSet || unwrapped.isNone, rIntegrity),
      (r.kcvValid && r.kcv == kcv, rIntegrity), ((s.pch (slotPch k)).st == 1, rNoResource)] fun s =>
    let s := s.importKey k pr m kcv
    let s := if dropped then { s with keyCache := s.keyCache.filter fun x => x != k } else s
    s.commitOk id c 3 k [w32 (s.slot k).generation, w32 kcv]

def execKeyImport (id : Nat) (dropped : Bool) (s : State) : Res := .next (s.command id 0x040 (keyImportBody dropped id))

/-- KEY_ERASE (R80, R216): an empty slot is NOT_FOUND. -/
def keyEraseBody (id : Nat) (c : Taken) (s : State) : State :=
  let k := (c.w 3).toNat
  s.checked id
    [(!c.lenIs 4 || !zeroFrom (c.w 3) 21, rBadArg), (!s.hasSlot c.fn k, rDenied), (!s.serves 0x041, rWrongMode),
      (!(s.slot k).loaded, rNotFound)] fun s => (s.updSlot k Slot.erase).commitOk id c 3 k []

def execKeyErase (id : Nat) (s : State) : Res := .next (s.command id 0x041 (keyEraseBody id))

end Sys2Proof.Machine
end

