-- ==== Sys2Proof/Machine/Legs.lean ====
section
/-! DEFINITION. LEG_OPEN, LEG_BIND and LEG_CLOSE (R80, R86, R97, R115, R116, R118, R177, R204, R211, R239, R401). -/

namespace Sys2Proof.Machine

/-! ### LEG_OPEN -/

/-- The SSRCs used in lookup (R80, R177). -/
def openSsrcs (c : Taken) : List Nat :=
  (List.range 4).filterMap fun k => if (c.w 13).toNat.testBit (16 + k) then some (c.w (14 + k)).toNat else none

/-- The lookup keys that a LEG_OPEN inserts: one per SSRC, or a wildcard (R177). -/
def openKeys (c : Taken) (leg : Nat) : List Lookup :=
  let v6 := bitAt (c.w 3) 24
  let addr := fun i => if v6 then netNum (bytesOfWords [c.w i, c.w (i + 1), c.w (i + 2), c.w (i + 3)])
    else netNum (bytesOf (c.w i))
  let key : Option Nat → Lookup := fun x =>
    { v6 := v6, rAddr := addr 9, lAddr := addr 5, rUdp := fld (c.w 4) 31 16, lUdp := fld (c.w 4) 15 0, ssrc := x,
      leg := leg }
  match openSsrcs c with
  | [] => [key none]
  | l => l.map fun x => key (some x)

/-- The fields of a LEG_OPEN are out of format or range (R80, R177, R211). -/
def openMalformed (c : Taken) : Bool :=
  let kind := fld (c.w 3) 26 25
  let xs := openSsrcs c
  !c.lenIs 22 || !zeroIn (c.w 3) 23 23 || !zeroFrom (c.w 3) 27 || kind == 3
    || (!bitAt (c.w 3) 24 && ([6, 7, 8, 10, 11, 12].any fun i => c.w i != 0))
    || !zeroIn (c.w 13) 15 13 || !zeroFrom (c.w 13) 20 || !zeroFrom (c.w 18) 21 || !zeroFrom (c.w 20) 21
    || (kind == 2 && !xs.isEmpty) || decide (xs.eraseDups.length ≠ xs.length) || c.w 18 == c.w 20

/-- Open legs in the conferences of a VF's grant (R86). -/
def State.legCount (s : State) (fn : Nat) : Nat :=
  (s.legs.filter fun p => (s.grants.getD {} fn).coversConf p.2.conf).length

/-- The leg that a LEG_OPEN creates; `stun`: Welmus has a STUN template of it (R171, R177, R179, R211). -/
def State.newLeg (s : State) (c : Taken) (stun : Bool) : Leg :=
  let k := (openKeys c 0).headD default
  { serial := s.legSerial, conf := fld (c.w 3) 15 0, kind := fld (c.w 3) 26 25, port := fld (c.w 3) 22 16, v6 := bitAt (c.w 3) 24
    lUdp := k.lUdp, rUdp := k.rUdp, lAddr := k.lAddr, rAddr := k.rAddr
    vlan := fld (c.w 13) 11 0, vlanValid := bitAt (c.w 13) 12, ssrcValid := fld (c.w 13) 19 16
    ssrcs := [(c.w 14).toNat, (c.w 15).toNat, (c.w 16).toNat, (c.w 17).toNat]
    rxSlot := c.w 18, rxSlotC := c.w 19, txSlot := c.w 20, txSlotC := c.w 21
    rxGen := (s.slot (c.w 18).toNat).generation, txGen := (s.slot (c.w 20).toNat).generation
    stun := stun }

/-- Takes hold of a key slot (R211). -/
def State.holdSlot (s : State) (k leg : Nat) (role : Bool) : State :=
  s.updSlot k fun r => { r with holder := leg, held := true, role := role }

/-- The commit of a LEG_OPEN as leg `n`. -/
def State.openLeg (s : State) (c : Taken) (n : Nat) (stun : Bool) : State :=
  let s := { s with
    legs := s.legs.put n (s.newLeg c stun), legSerial := s.legSerial + 1
    lookups := (placeKeys s.lookups (openKeys c n)).getD s.lookups }
  (s.holdSlot (c.w 18).toNat n false).holdSlot (c.w 20).toNat n true

/-- LEG_OPEN (R80, R177, R204, R211). DESIGN CHOICE (log entry 115): the BAD_ARG of R204, for a KIND 2 leg that names a slot of
profile 3 or 4, hangs on the state and stands after DENIED, before WRONG_MODE. Whether Welmus has a STUN template of the leg,
which no rule says, comes with the command (log entry 114). -/
def legOpenBody (stun : Bool) (id : Nat) (c : Taken) (s : State) : State :=
  let conf := fld (c.w 3) 15 0
  let rx := s.slot (c.w 18).toNat
  let tx := s.slot (c.w 20).toNat
  let keys := openKeys c 0
  let leg := s.lowestLeg 1048576 0
  s.checked id
    [(openMalformed c, rBadArg),
      (!s.hasConf c.fn conf || !s.hasSlot c.fn (c.w 18).toNat || !s.hasSlot c.fn (c.w 20).toNat, rDenied),
      (fld (c.w 3) 26 25 == 2 && (decide (3 ≤ rx.profile) || decide (3 ≤ tx.profile)), rBadArg),
      (!s.serves 0x030, rWrongMode),
      (!pairOk (c.w 18) (c.w 19) || !pairOk (c.w 20) (c.w 21), rIntegrity),
      (!(s.conf conf).exists_ || (s.port? (fld (c.w 3) 22 16)).isNone, rNotFound),
      (!rx.loaded || !tx.loaded, rKeyAbsent),
      (rx.held || tx.held || keys.any (fun k => s.lookups.any fun e => e.sameKey k), rBusy),
      (c.fn != 0 && decide ((s.grants.getD {} c.fn).legQuota < s.legCount c.fn + 1), rExhausted),
      (leg.isNone || (placeKeys s.lookups keys).isNone, rNoResource)] fun s =>
    let n := leg.getD 0
    ((s.openLeg c n stun).commitOk id c 1 conf [w32 n]).legState n 1 0

def execLegOpen (id : Nat) (stun : Bool) (s : State) : Res := .next (s.command id 0x030 (legOpenBody stun id))

/-! ### LEG_BIND -/

/-- The leg bound to slot `k` of conference `c`, if any. -/
def State.boundTo (s : State) (c k : Nat) : Option Nat :=
  (List.find? (fun p : Nat × Leg => p.2.conf == c && p.2.slot == some k) s.legs).map Prod.fst

/-- The lowest spare slot of a kind with no leg bound (R115). -/
def State.spareSlot (s : State) (p : Plan) (kind : Nat) : Option RosterSlot :=
  p.roster.find? fun r => r.spare && r.kind == kind && (s.boundTo p.conf r.slot).isNone

/-- The estimator state at binding: the slot's rate class and its rate (R115, R203). -/
def bindEst (p : Plan) (r : RosterSlot) : Est :=
  { cls := r.rateInit, rate := ((p.classOf r.slot).classRate.getD r.rateInit 0 : Int) * 65536 }

/-- A leg's state as it binds to a slot (R92, R115, R188, R239). -/
def Leg.bindTo (g : Leg) (p : Plan) (r : RosterSlot) (look : Nat) : Leg :=
  { g with
    past := match g.slot with | some k => (k, g.since, look) :: g.past | none => g.past
    slot := some r.slot, since := look, everBound := true, est := bindEst p r
    hist := { depth := (p.classOf r.slot).histDepth }, prevHist := none, histAt := p.blockOffset r, prevHistAt := none
    lastLaunch := if g.everBound then g.lastLaunch else 0 }

/-- The commit of a LEG_BIND (R115, R239). -/
def State.bindLeg (s : State) (leg : Nat) (g : Leg) (p : Plan) (r : RosterSlot) : State :=
  if g.slot = some r.slot then s
  else
    let s := match g.slot with | some k => s.dropScores g.conf k | none => s
    (s.updLeg leg fun g => g.bindTo p r s.lookNo).bindBucket leg (!g.everBound) g.shaperOv (p.shaperOf r.slot)

/-- The slot that a LEG_BIND selects, and whether it is held and free. -/
def State.bindTarget (s : State) (g : Leg) (p : Plan) (k : Nat) : Option RosterSlot :=
  if k = 0xFFFF then s.spareSlot p g.kind else (p.rosterSlot k).filter fun r => r.kind == g.kind

/-- LEG_BIND (R80, R115, R116, R118). -/
def legBindBody (id : Nat) (c : Taken) (s : State) : State :=
  let leg := (c.w 3).toNat
  let k := (c.w 4).toNat
  let g := s.legs.getD {} leg
  let plan := (s.conf g.conf).active
  let r := plan.bind fun p => s.bindTarget g p k
  s.checked id
    [(!c.lenIs 5 || !zeroFrom (c.w 3) 20 || !zeroFrom (c.w 4) 16, rBadArg), (!s.hasLeg c.fn leg, rDenied),
      (!s.serves 0x031, rWrongMode), (g.fenced || (s.legs.has leg && (s.conf g.conf).fenced.isSome), rIntegrity),
      (!(s.legs.has leg) || plan.isNone || (k != 0xFFFF && r.isNone), rNotFound),
      (k != 0xFFFF && g.slot != some k && (s.boundTo g.conf k).isSome, rBusy), (r.isNone, rNoResource)] fun s =>
    match plan, r with
    | some p, some r => ((s.bindLeg leg g p r).commitOk id c 2 leg [w32 r.slot]).legState leg 2 0
    | _, _ => s

def execLegBind (id : Nat) (s : State) : Res := .next (s.command id 0x031 (legBindBody id))

/-! ### LEG_CLOSE -/

/-- LEG_CLOSE (R80, R177, R211). The EV_LEG_STATE follows the response (R91). -/
def legCloseBody (id : Nat) (c : Taken) (s : State) : State :=
  let leg := (c.w 3).toNat
  s.checked id
    [(!c.lenIs 4 || !zeroFrom (c.w 3) 20, rBadArg), (!s.hasLeg c.fn leg, rDenied), (!s.serves 0x032, rWrongMode),
      (!(s.legs.has leg), rNotFound)] fun s =>
    let fn := s.legHolder leg
    (s.commitOk id c 2 leg []).closeLeg leg 0 fn

def execLegClose (id : Nat) (s : State) : Res := .next (s.command id 0x032 (legCloseBody id))

end Sys2Proof.Machine
end

