-- ==== Sys2Proof/Machine/Logs.lean ====
section
/-! DEFINITION. The fault log's writer, RESET_MARK and the last-gasp bank (R447 to R451, R456). -/

namespace Sys2Proof.Machine

/-- The newest record of the same CLASS, OBJ_KIND and OBJ_ID, as its place from the newest (R450). -/
def Log.newestLike (l : Log) (r : FaultRec) : Option Nat :=
  l.recs.findIdx? fun e => fld (wordAt e.words 4) 7 0 == r.cls && fld (wordAt e.words 4) 31 29 == r.objKind
    && fld (wordAt e.words 5) 20 0 == r.objId % 2 ^ 21

/-- Adds one to the REPEAT of the record `i` places from the newest, saturating at 255 (R448, R450). -/
def Log.merge (l : Log) (i : Nat) : Log :=
  { l with recs := l.recs.modify i fun e =>
      let w := wordAt e.words 4
      { e with words := e.words.set 4 (if fld w 24 17 = 255 then w else w + 0x20000) } }

/-- Writes a fault record into the log, with the losses at the writer, and raises EV_FAULT where its class says so
(R447, R451, R452). -/
def State.writeRecord (s : State) (r : FaultRec) : State :=
  let f := s.faults
  let seq := f.log.next
  let s := { s with faults := { f with log := f.log.push { words := r.words 0 f.lost, at_ := s.now }, lost := 0 } }
  if (faultClass r.cls).2.1 then
    let ws := [w32 (r.cls + 2 ^ 29 * r.objKind), w32 (r.objId % 2 ^ 21), seq]
    let s := s.raiseEvent 0 0x100 ws
    match r.fn with
    | none => s
    | some fn => if fn = 0 then s else s.raiseEvent fn 0x100 ws
  else s

/-- The record `i` places from the newest was written less than 1 ms ago (R450). -/
def Log.fresh (l : Log) (i now : Nat) : Bool := decide (now < ((l.recs.getD i default).at_) + 1000000)

/-- FAULT_RECORD_WRITE (R447, R449, R450, R456). `fail` says that the writer port has stopped (0) or that the log's
SRAM has failed the write (1): then a LOG_FAULT record goes to the last-gasp bank. -/
def faultRecordWrite (fail : Option Nat) (s : State) : State :=
  let s := s.begin
  match s.faults.queue with
  | [] => s
  | r :: rest =>
    if !s.logAccepts || s.faults.resetMark.isSome then s
    else
      let s := { s with faults := { s.faults with queue := rest } }
      match fail with
      | some k =>
        let lg := (s.faultRec 0x61 0 0 (w32 k) 0).words s.faults.log.next s.faults.lost
        { s with faults := { s.faults.lastGasp lg with logDown := true, lost := s.faults.lost + 1 } }
      | none =>
        let s := { s with faults := { s.faults with logDown := false } }
        match s.faults.log.newestLike r with
        | none => s.writeRecord r
        | some i =>
          if (faultClass r.cls).2.2 && s.faults.log.fresh i s.now then
            { s with faults := { s.faults with log := s.faults.log.merge i } }
          else s.writeRecord r

def execFaultRecordWrite (fail : Option Nat) (s : State) : Res := .next (faultRecordWrite fail s)

/-- RESET_MARK_WRITE: ahead of every other record, as soon as the log accepts records (R449). -/
def resetMarkWrite (s : State) : State :=
  let s := s.begin
  match s.faults.resetMark with
  | none => s
  | some r =>
    if s.logAccepts then ({ s with faults := { s.faults with resetMark := none } } : State).writeRecord r else s

def execResetMarkWrite (s : State) : Res := .next (resetMarkWrite s)

/-- A write of LG_STATUS: clearing VALID clears MORE, and the bank accepts a new record (R456). -/
def lgStatusWrite (fn : Nat) (value : Word) (s : State) : State :=
  let s := s.begin
  if s.hostUp && fn == 0 && bitAt value 31 then
    { s with faults := { s.faults with lgValid := false, lgMore := 0 } }
  else s

def execLgStatusWrite (fn : Nat) (value : Word) (s : State) : Res := .next (lgStatusWrite fn value s)

end Sys2Proof.Machine
end

