-- ==== Sys2Proof/Machine/Mailbox.lean ====
section
/-! DEFINITION. The mailbox registers and queues: reservations, ring writes, command intake, abandoned reservations,
reads of the event queue and the interrupts of vector 0 (R64 to R71, R88, R90). -/

namespace Sys2Proof.Machine

/-- Ring positions: word `i` of a message at offset `off` (R65). -/
def ringPos (off i : Nat) : Nat := (off + i) % 16384

/-- Restarts the wait at the head of the ring: since now where the head message's word 0 is unwritten (R68). -/
def Mailbox.headWait (m : Mailbox) (now : Nat) : Mailbox :=
  { m with headSince := if m.stalled then some now else none }

/-- A read of CMD_RESERVE that asks for `n` words (R65). -/
def cmdReserveRead (fn n : Nat) (s : State) : State :=
  let s := s.begin
  let m := s.mb fn
  if !s.hostUp || decide (n = 0) || decide (1024 < n) then s
  else if n ≤ 2 then s.emit (.readData 0xC0000000 false)
  else if m.free < n then s.emit (.readData 0x80000000 false)
  else
    let m' := { m with
      resv := m.resv ++ [{ off := m.nextOff, n := n }]
      nextOff := ringPos m.nextOff n
      headSince := if m.resv.isEmpty then some s.now else m.headSince }
    (s.setMb fn m').emit (.readData (w32 m.nextOff) false)

def execCmdReserveRead (fn n : Nat) (s : State) : Res := .next (cmdReserveRead fn n s)

/-- Whether ring offset `off` lies in reservation `r`. -/
def Resv.holds (r : Resv) (off : Nat) : Bool := decide ((off + 16384 - r.off) % 16384 < r.n)

/-- A write of the command ring: stored in a reservation whose word 0 is unwritten, else discarded and counted in
RING_STRAY; the write of word 0 is the doorbell (R66, R67, R69). -/
def cmdRingWrite (fn off : Nat) (value : Word) (poison : Bool) (s : State) : State :=
  let s := s.begin
  let m := s.mb fn
  if !s.hostUp || decide (16383 < off) then s
  else if m.resv.any fun r => r.holds off && !r.written then
    let resv := m.resv.map fun r =>
      if r.off = off && !r.written then { r with written := true } else r
    let m' := { m with ring := m.ring.setD (0, false) off (value, poison), resv := resv }
    s.setMb fn { m' with headSince := if m'.stalled then m.headSince else none }
  else s.countFn fn 2 1

def execCmdRingWrite (fn off : Nat) (value : Word) (poison : Bool) (s : State) : Res :=
  .next (cmdRingWrite fn off value poison s)

/-- Word `i` of the message at the head of a ring, with its poison tag. -/
def Mailbox.headWord (m : Mailbox) (i : Nat) : Word × Bool := m.ring.getD (0, false) (ringPos m.head i)

/-- The message at the head of a function's ring as Welmus reads it; `bad` lists the words whose parity check fails
(R69). -/
def Mailbox.headMessage (m : Mailbox) (fn : Nat) (bad : List Nat) : Taken :=
  let n := (m.resv.headD { off := 0, n := 0 }).n
  let ws := (List.range n).map fun i => ((m.headWord i).1, (m.headWord i).2 || bad.contains i)
  { fn := fn, words := ws.map Prod.fst, poison := ws.any Prod.snd,
    poison0 := (ws.getD 0 (0, false)).2, poison1 := (ws.getD 1 (0, false)).2, poison2 := (ws.getD 2 (0, false)).2 }

/-- Whether Welmus may take the next command of a function now (R48, R88, R90). -/
def State.mayTake (s : State) (fn : Nat) (bad : List Nat) : Bool :=
  let m := s.mb fn
  let c := m.headMessage fn bad
  let mine := s.welmus.taken.filter fun p => p.2.fn == fn
  !m.resv.isEmpty && !m.stalled && decide (mine.length < 32) && mine.all (fun p => !p.2.fence)
    && decide (m.evq.length + m.evReserved + largestResponse c.op ≤ 16384)
    && (!s.modes.fwRestart || (c.op == 0x010 && !c.malformed))

/-- The functions in the order of the turns: PF0 every second turn, the VFs round-robin (R88). -/
def Welmus.order (w : Welmus) : List Nat :=
  let vfs := (List.range 63).map fun i => (w.lastFn + i) % 63 + 1
  if w.pf0Turn then 0 :: vfs else vfs ++ [0]

/-- Welmus takes a function's next command: its words leave the ring, and room for the largest response of its opcode
is reserved (R88). -/
def State.take (s : State) (fn : Nat) (bad : List Nat) : State :=
  let m := s.mb fn
  let c := m.headMessage fn bad
  let n := (((List.range c.words.length).filter fun i => (m.headWord i).2 || bad.contains i)).length
  let c := { c with reserved := largestResponse c.op }
  let m' := ({ m with resv := m.resv.drop 1, evReserved := m.evReserved + c.reserved } : Mailbox).headWait s.now
  let s := ((s.setMb fn m').countFn fn 0 1).countFn fn 3 n
  { s with welmus := { s.welmus with
      taken := s.welmus.taken.put s.welmus.nextId c
      nextId := s.welmus.nextId + 1
      lastFn := if fn = 0 then s.welmus.lastFn else fn
      pf0Turn := fn != 0 } }

/-- COMMAND_TAKE (R88): the first function, in the order of the turns, whose next command may be taken. -/
def commandTake (bad : List Nat) (s : State) : State :=
  let s := s.begin
  match s.welmus.order.find? fun fn => s.mayTake fn bad with
  | none => s
  | some fn => s.take fn bad

def execCommandTake (parityBad : List Nat) (s : State) : Res := .next (commandTake parityBad s)

/-- A reservation whose word 0 stays unwritten for 100 ms at the head of the ring is freed, counted and recorded
(R68). -/
def cmdAbandoned (fn : Nat) (s : State) : State :=
  let s := s.begin
  let m := s.mb fn
  match m.headSince with
  | none => s
  | some t =>
    if !m.stalled || decide (s.now < t + 100000000) then s
    else
      let s := (s.setMb fn (({ m with resv := m.resv.drop 1 } : Mailbox).headWait s.now)).countFn fn 1 1
      s.fault 0x18 6 fn (w32 m.head) 0

def execCmdAbandoned (fn : Nat) (s : State) : Res := .next (cmdAbandoned fn s)

/-- A read of EVQ_DATA (R69, R70). -/
def evqDataRead (fn : Nat) (parityBad : Bool) (s : State) : State :=
  let s := s.begin
  let m := s.mb fn
  if !s.hostUp then s
  else
    match m.evq with
    | [] => ((s.setMb fn { m with underrun := true }).countFn fn 6 1).emit (.readData m.lastRead false)
    | (w, p) :: r =>
      let bad := p || parityBad
      let s := s.setMb fn { m with evq := r, lastRead := w, poison := m.poison || bad }
      let s := if bad then s.countFn fn 3 1 else s
      s.emit (.readData w bad)

def execEvqDataRead (fn : Nat) (parityBad : Bool) (s : State) : Res := .next (evqDataRead fn parityBad s)

/-- A write of EVQ_STATUS clears the W1C bits written with 1 (R13, R64). -/
def evqStatusWrite (fn : Nat) (value : Word) (s : State) : State :=
  let s := s.begin
  if !s.hostUp then s
  else s.updMb fn fun m => { m with
    underrun := m.underrun && !bitAt value 31
    poison := m.poison && !bitAt value 30
    discarded := m.discarded && !bitAt value 29 }

def execEvqStatusWrite (fn : Nat) (value : Word) (s : State) : Res := .next (evqStatusWrite fn value s)

/-- The hold-off signal of vector 0: AVAIL above zero for HOLDOFF us since the last signal or its rise (R71). -/
def msixHoldoffExpiry (fn : Nat) (s : State) : State :=
  let s := s.begin
  let m := s.mb fn
  if m.evq.isEmpty || decide (m.holdoff = 0) || decide (s.now < m.signalRef + m.holdoff * 1000) then s
  else (s.setMb fn { m with signalRef := s.now }).signal fn 0

def execMsixHoldoffExpiry (fn : Nat) (s : State) : Res := .next (msixHoldoffExpiry fn s)

end Sys2Proof.Machine
end

