-- ==== Sys2Proof/Machine/Mgmt.lean ====
section
/-! DEFINITION. The management island: MCTP requests and the SMBus recovery (R53, R484, R495). -/

namespace Sys2Proof.Machine

/-- Answers an MCTP request while the management island runs (R49, R53). -/
def State.mctp (s : State) (ws : List Word) : State := if s.pins.pwrgoodAux then s.emit (.mctp ws) else s

/-- GET_IDENTITY (R53). -/
def execGetIdentity (s : State) : Res := .next (s.begin.mctp s.identityWords)

/-- GET_STATUS (R53): RESET_CAUSE is read without clearing. -/
def execGetStatus (s : State) : Res := .next (s.begin.mctp [s.status0, s.bootStatus, s.boot.resetCause])

/-- GET_TEMPERATURE (R53): the highest junction sensor and the case-side sensor, signed, in 0.125 degrees C. -/
def execGetTemperature (s : State) : Res := .next (s.begin.mctp [wInt s.hottest, wInt s.thermal.caseSide])

/-- GET_POWER (R53): input power in 0.1 W, zero while PWRGOOD_MAIN is low. -/
def execGetPower (deciwatts : Nat) (s : State) : Res :=
  .next (s.begin.mctp [if s.pins.pwrgoodMain then w32 deciwatts else 0])

/-- One try of the recovery of SDA: up to nine SCL pulses and a STOP; one record per episode (R495). -/
def State.sdaTry (s : State) (clocks : Nat) (recovered : Bool) : State :=
  let n := min clocks 9
  let s := s.emit (.sclPulses n)
  let s := if s.smbus.recorded then s else s.fault 0x51 0 0 (w32 n) (w32 (b2n (!recovered)))
  { s with smbus := { stuck := !recovered, recorded := !recovered, lastTry := s.now } }

/-- SMBUS_SDA_STUCK: SDA low for 35 ms (R495). -/
def smbusSdaStuck (clocks : Nat) (recovered : Bool) (s : State) : State :=
  let s := s.begin
  if !s.pins.pwrgoodAux || s.smbus.stuck then s else s.sdaTry clocks recovered

def execSmbusSdaStuck (clocks : Nat) (recovered : Bool) (s : State) : Res := .next (smbusSdaStuck clocks recovered s)

/-- SMBUS_SCL_STUCK: SCL low for 35 ms; the interface is reset (R495). -/
def smbusSclStuck (recovered : Bool) (s : State) : State :=
  let s := s.begin
  if !s.pins.pwrgoodAux || s.smbus.stuck then s
  else
    let s := s.emit .smbusReset
    let s := s.fault 0x51 0 0 0 (w32 (b2n (!recovered)))
    { s with smbus := { stuck := !recovered, recorded := !recovered, lastTry := s.now } }

def execSmbusSclStuck (recovered : Bool) (s : State) : Res := .next (smbusSclStuck recovered s)

/-- SMBUS_RETRY: every 1 s while the bus stays stuck, without a further record (R495). -/
def smbusRetry (clocks : Nat) (recovered : Bool) (s : State) : State :=
  let s := s.begin
  if !s.pins.pwrgoodAux || !s.smbus.stuck || decide (s.now < s.smbus.lastTry + 1000000000) then s
  else s.sdaTry clocks recovered

def execSmbusRetry (clocks : Nat) (recovered : Bool) (s : State) : Res := .next (smbusRetry clocks recovered s)

end Sys2Proof.Machine
end

