-- ==== Sys2Proof/Machine/PlanImage.lean ====
section
/-! DEFINITION. The plan image as words: sections, records and the plan they make (R99 to R106, R182, R189, R241, R249 to
R252, R294, R307, R308, R319, R330 to R332, R353, R356, R357, R359, R375, R500). -/

namespace Sys2Proof.Machine

/-- A section of an image: its identifier, its byte offset and its words. -/
structure Sec where
  id : Nat
  off : Nat
  ws : List Word
  deriving DecidableEq, Repr, Inhabited

/-- A directory entry: its byte offset in the image, and its four words as numbers. -/
structure DirEntry where
  at_ : Nat
  word0 : Nat
  off : Nat
  len : Nat
  crc : Nat
  deriving DecidableEq, Repr, Inhabited

/-- The directory of an image (R99). -/
def directory (img : List Word) : List DirEntry :=
  (List.range (fld (wordAt img 5) 4 0)).map fun i =>
    let w := fun k => (wordAt img (16 + 4 * i + k)).toNat
    { at_ := 64 + 16 * i, word0 := w 0, off := w 1, len := w 2, crc := w 3 }

/-- The section that a directory entry names. -/
def DirEntry.sec (img : List Word) (e : DirEntry) : Sec :=
  { id := e.word0, off := e.off, ws := (img.drop (e.off / 4)).take (e.len / 4) }

/-- The words of a section of an image, none where it is absent. -/
def secOf (secs : List Sec) (id : Nat) : Sec := (secs.find? fun x => x.id == id).getD { id := id, off := 0, ws := [] }

/-- Whether a section is present. -/
def hasSec (secs : List Sec) (id : Nat) : Bool := secs.any fun x => x.id == id

/-- `n` words of a section from word `b` on. -/
def wordsAt (ws : List Word) (b n : Nat) : List Word := (ws.drop b).take n

/-- How many entries a section's first word counts, in bits [hi:0]; none in an absent section. -/
def countOf (ws : List Word) (hi : Nat) : Nat := fld (wordAt ws 0) hi 0

/-! ### ROSTER and FANOUT (R102, R103) -/

/-- A ROSTER entry. -/
def parseSlot (e : List Word) : RosterSlot :=
  { slot := fld (wordAt e 0) 15 0, kind := fld (wordAt e 0) 17 16, spare := bitAt (wordAt e 0) 18
    ladder := fld (wordAt e 1) 15 0, estClass := fld (wordAt e 1) 23 16, rateInit := fld (wordAt e 1) 28 24
    session := fld (wordAt e 2) 15 0, aux := fld (wordAt e 2) 31 16, ref := wordAt e 3 }

/-- The roster. -/
def parseRoster (ws : List Word) : List RosterSlot :=
  (List.range (ws.length / 4)).map fun i => parseSlot (wordsAt ws (4 * i) 4)

/-- SOURCES and LISTS. -/
def fanSources (ws : List Word) : Nat := fld (wordAt ws 0) 15 0
def fanLists (ws : List Word) : Nat := fld (wordAt ws 0) 31 16

/-- The first word of list header `i`. -/
def fanHeader (ws : List Word) (i : Nat) : Nat := 1 + 12 * fanSources ws + 2 * i

/-- The source descriptors. -/
def parseSources (ws : List Word) : List SourceDesc :=
  (List.range (fanSources ws)).map fun i =>
    let e := wordsAt ws (1 + 12 * i) 12
    { home := fld (wordAt e 0) 18 16, audioList := wordAt e 1, layers := wordsAt e 2 9 }

/-- The receiver entries of list `i`. -/
def fanList (ws : List Word) (i : Nat) : List Word :=
  wordsAt ws ((wordAt ws (fanHeader ws i + 1)).toNat / 4) (fld (wordAt ws (fanHeader ws i)) 13 0)

/-- The fan-out lists. -/
def parseLists (ws : List Word) : List (List Nat) :=
  (List.range (fanLists ws)).map fun i => (fanList ws i).map fun w => fld w 15 0

/-! ### LADDER, ESTIMATOR, SHAPER, PLACEMENT (R106, R182, R189, R241) -/

/-- The layer ladders. -/
def parseLadders (ws : List Word) : List Ladder :=
  (List.range (countOf ws 15)).map fun i =>
    let e := wordsAt ws (1 + 12 * i) 12
    { idx := fld (wordAt e 0) 15 0, audioAll := bitAt (wordAt e 0) 16, rungs := bytesOfWords (wordsAt e 1 8) }

/-- Packets of a HISTORY_DEPTH code. -/
def depthOf : Nat → Nat
  | 1 => 128 | 2 => 256 | 3 => 512 | 4 => 1024 | _ => 0

/-- The two PT_MAP entries of a word as halfwords. -/
def halves (w : Word) : List Nat := [fld w 15 0, fld w 31 16]

/-- A class record. -/
def parseClass (e : List Word) : ClassRec :=
  let f := fun i hi lo => fld (wordAt e i) hi lo
  { cls := f 0 7 0, estEn := bitAt (wordAt e 0) 8, upstreamNack := bitAt (wordAt e 0) 9, joinFir := bitAt (wordAt e 0) 10
    replayWindow := f 1 10 0, histDepth := depthOf (f 1 18 16), histAge := f 2 10 0, keyReqInterval := f 2 29 16
    idLevel := f 3 7 0, idFrameMark := f 3 15 8, idDd := f 3 23 16
    ptMap := (((wordsAt e 4 4).flatMap halves).filter fun h => h.testBit 7).map fun h => (h % 128, h / 256 % 16)
    alpha := f 8 15 0, gamma := f 8 31 16, overuseMs := f 9 15 0, holdUpMs := f 9 31 16, beta := f 10 15 0
    eta := f 10 31 16, groupUs := f 11 15 0, lossHigh := f 11 31 16, rMin := f 12 31 0, rMax := f 13 31 0
    classRate := (wordsAt e 14 32).map BitVec.toNat }

/-- The class records. -/
def parseClasses (ws : List Word) : List ClassRec :=
  (List.range (countOf ws 15)).map fun i => parseClass (wordsAt ws (1 + 64 * i) 64)

/-- The conference record of the SHAPER section. -/
def parseConfShaper (ws : List Word) : ShaperRec :=
  { rate := wordAt ws 2, rateC := wordAt ws 3, burst := fld (wordAt ws 4) 24 0 }

/-- The slot entries of the SHAPER section. -/
def parseShaper (ws : List Word) : List ShaperRec :=
  (List.range (countOf ws 15)).map fun i =>
    let e := wordsAt ws (9 + 8 * i) 8
    { slot := fld (wordAt e 0) 15 0, audioClass := fld (wordAt e 0) 18 16, videoClass := fld (wordAt e 0) 22 20
      rtxClass := fld (wordAt e 0) 26 24, legMask := fld (wordAt e 1) 7 0, rate := wordAt e 2, rateC := wordAt e 3
      burst := fld (wordAt e 4) 24 0 }

/-- The PLACEMENT entries. -/
def parseRegions (ws : List Word) : List Region :=
  (List.range (ws.length / 12)).map fun i =>
    let e := wordsAt ws (12 * i) 12
    { cls := fld (wordAt e 0) 7 0, grain := fld (wordAt e 0) 15 8, region := fld (wordAt e 0) 31 16
      size := num64 (wordAt e 1) (wordAt e 2)
      pchMask := (wordsAt e 3 6).foldr (fun w n => w.toNat + 2 ^ 32 * n) 0 }

/-! ### MIX and ROUTE (R307, R308, R319, R359) -/

/-- The first word of bus record `i`. -/
def busAt (i : Nat) : Nat := 34 + 8 * i

/-- A column record. -/
def parseColumn (w : Word) : Column :=
  { srcRate := fld w 1 0, dcEn := bitAt w 2, select := bitAt w 3, rank := if bitAt w 4 then some (fld w 11 8) else none
    source := fld w 31 16 }

/-- A tap record. -/
def parseTap (w : Word) : Tap := { minus := fld w 8 0, outRate := fld w 10 9, clock := fld w 12 11 }

/-- A bus record with its columns and taps. -/
def parseBus (ws : List Word) (i : Nat) : BusRec :=
  let e := wordsAt ws (busAt i) 8
  { bus := fld (wordAt e 0) 11 0, rate := fld (wordAt e 0) 13 12, route := wordAt e 2
    columns := (wordsAt ws ((wordAt e 3).toNat / 4) (fld (wordAt e 1) 8 0)).map parseColumn
    taps := (wordsAt ws ((wordAt e 4).toNat / 4) (fld (wordAt e 1) 25 16)).map parseTap
    words := e ++ wordsAt ws ((wordAt e 3).toNat / 4) (fld (wordAt e 1) 8 0)
      ++ wordsAt ws ((wordAt e 4).toNat / 4) (fld (wordAt e 1) 25 16) }

/-- The MIX section. -/
def parseMix (ws : List Word) : Mix :=
  { k := fld (wordAt ws 1) 4 0, hyst := fld (wordAt ws 2) 15 0, release := fld (wordAt ws 2) 31 16
    pins := ((wordsAt ws 3 8).flatMap halves).take (fld (wordAt ws 1) 12 8)
    rankSessions := (wordsAt ws 11 8).flatMap halves
    scaling := (wordsAt ws 25 9).map BitVec.toNat
    buses := (List.range (countOf ws 12)).map (parseBus ws) }

/-- Places of the audio route entries: the first word and COUNT of each. -/
def routePlaces (ws : List Word) : Nat → Nat → List (Nat × Nat)
  | 0, _ => []
  | n + 1, b =>
    let k := fld (wordAt ws (b + 1)) 24 16
    (b, k) :: routePlaces ws n (b + 2 + 3 * k)

/-- The audio routes' places in a ROUTE section. -/
def routesIn (ws : List Word) : List (Nat × Nat) := routePlaces ws (fld (wordAt ws 0) 15 0) 1

/-- The first word of the layout selections. -/
def selsAt (ws : List Word) : Nat := (routesIn ws).foldl (fun b p => b + 2 + 3 * p.2) 1

/-- The audio routes. -/
def parseRoutes (ws : List Word) : List AudioRoute :=
  (routesIn ws).map fun p =>
    { ref := fld (wordAt ws p.1) 15 0, bus := fld (wordAt ws (p.1 + 1)) 11 0
      coeffs := (List.range p.2).map fun j =>
        let e := wordsAt ws (p.1 + 2 + 3 * j) 3
        (fld (wordAt e 0) 7 0, wordAt e 1, wordAt e 2) }

/-- The layout selections. -/
def parseSels (ws : List Word) : List LayoutSel :=
  (List.range (fld (wordAt ws 0) 31 16)).map fun i =>
    let e := wordsAt ws (selsAt ws + 3 * i) 3
    { ref := fld (wordAt e 0) 15 0, output := fld (wordAt e 1) 15 0, layout := wordAt e 2 }

/-! ### LAYOUT (R353, R356, R357) -/

/-- OUTPUTS and LAYOUTS. -/
def layOutputs (ws : List Word) : Nat := fld (wordAt ws 0) 15 0
def layLayouts (ws : List Word) : Nat := fld (wordAt ws 0) 31 16

/-- The first word of output record `i` and of layout record `i`. -/
def outputAt (i : Nat) : Nat := 1 + 8 * i
def layoutAt (ws : List Word) (i : Nat) : Nat := 1 + 8 * layOutputs ws + 8 * i

/-- The output records. -/
def parseOutputs (ws : List Word) : List OutputRec :=
  (List.range (layOutputs ws)).map fun i =>
    let e := wordsAt ws (outputAt i) 8
    { output := fld (wordAt e 0) 11 0, deep := bitAt (wordAt e 0) 12, dual := bitAt (wordAt e 0) 13
      colour := fld (wordAt e 0) 15 14, w := fld (wordAt e 1) 12 0, h := fld (wordAt e 1) 28 16
      bandFbs := fld (wordAt e 2) 11 0, region := fld (wordAt e 2) 31 16, layout := wordAt e 3 }

/-- A layer record. -/
def parseLayer (e : List Word) : Layer :=
  let f := fun i hi lo => fld (wordAt e i) hi lo
  { source := f 0 2 0, blend := f 0 4 3, colour := f 0 11 10, alpha := f 0 24 16, arg := f 1 15 0, border := f 1 23 16
    x := f 2 12 0, y := f 2 28 16, w := f 3 12 0, h := f 3 28 16, cropX := f 4 15 0, cropY := f 4 31 16
    cropW := f 5 16 0, cropH := f 6 16 0, fill := f 7 29 0 }

/-- LAYERS of a layout record, and the first words of its layers and of its order list. -/
def layLayers (e : List Word) : Nat := fld (wordAt e 1) 6 0
def layersAt (e : List Word) : Nat := (wordAt e 3).toNat / 4
def orderAt (e : List Word) : Nat := (wordAt e 4).toNat / 4

/-- The layout records. -/
def parseLayouts (ws : List Word) : List Layout :=
  (List.range (layLayouts ws)).map fun i =>
    let e := wordsAt ws (layoutAt ws i) 8
    let n := layLayers e
    { layout := fld (wordAt e 0) 15 0, output := fld (wordAt e 0) 31 16, background := fld (wordAt e 2) 29 0
      layers := (List.range n).map fun j => parseLayer (wordsAt ws (layersAt e + 8 * j) 8)
      order := if bitAt (wordAt e 1) 8 then some ((bytesOfWords (wordsAt ws (orderAt e) (ceilDiv n 4))).take n) else none }

/-! ### TASKGRAPH (R249, R250, R252) -/

/-- The first word of graph descriptor `i`. -/
def graphAt (i : Nat) : Nat := 1 + 8 * i

/-- FIRST_TASK and TASK_COUNT of graph descriptor `i`. -/
def firstTask (ws : List Word) (i : Nat) : Nat := (wordAt ws (graphAt i + 5)).toNat
def taskCount (ws : List Word) (i : Nat) : Nat := fld (wordAt ws (graphAt i + 6)) 12 0

/-- How many task records the section holds. -/
def allTasks (ws : List Word) : Nat := ((List.range (countOf ws 12)).map (taskCount ws)).sum

/-- The first word of task record `t`, and of successor entry `e`. -/
def taskAt (ws : List Word) (t : Nat) : Nat := 1 + 8 * countOf ws 12 + 8 * t
def succAt (ws : List Word) (e : Nat) : Nat := taskAt ws (allTasks ws) + 2 * e

/-- A task record with its successor entries. -/
def parseTask (ws : List Word) (t : Nat) : TaskRec :=
  let e := wordsAt ws (taskAt ws t) 8
  let f := fun i hi lo => fld (wordAt e i) hi lo
  { index := f 0 11 0, op := f 0 15 12, prio := f 0 18 16, dep := f 1 11 0, flowValid := bitAt (wordAt e 1) 12
    sessionFlow := bitAt (wordAt e 1) 13, flow := f 1 31 16, session := f 2 15 0, ref := f 2 31 16, budget := f 3 31 0
    outBlocks := f 4 9 0, fbWrite := f 4 17 16, param := wordAt e 5
    succ := (List.range (f 6 11 0)).map fun k =>
      let b := succAt ws ((wordAt e 7).toNat + k)
      (wordAt ws b, wordAt ws (b + 1)) }

/-- A graph descriptor with its tasks. -/
def parseGraph (ws : List Word) (i : Nat) : GraphRec :=
  let e := wordsAt ws (graphAt i) 8
  let f := fun i hi lo => fld (wordAt e i) hi lo
  { graph := f 0 11 0, arrival := bitAt (wordAt e 0) 12, list := f 0 13 13, maxInst := f 0 19 16, num := f 1 31 0
    den := f 2 15 0, session := f 2 31 16, phase := f 3 29 0, deadlineUs := f 4 19 0
    tasks := (List.range (taskCount ws i)).map fun k => parseTask ws (firstTask ws i + k) }

/-- The graphs. -/
def parseGraphs (ws : List Word) : List GraphRec := (List.range (countOf ws 12)).map (parseGraph ws)

/-! ### KERNEL and SESSION (R294, R330 to R332, R375) -/

/-- The first word of kernel descriptor `i`. -/
def kernelAt (i : Nat) : Nat := 1 + 16 * i

/-- The plan kernels. -/
def parseKernels (ws : List Word) : List KernelRec :=
  (List.range (countOf ws 15)).map fun i =>
    let e := wordsAt ws (kernelAt i) 16
    { kernel := fld (wordAt e 0) 15 0
      code := wordsAt ws ((wordAt e 1).toNat / 4) (fld (wordAt e 2) 15 0 / 4)
      consts := wordsAt ws ((wordAt e 3).toNat / 4) (fld (wordAt e 4) 14 0 / 4)
      footprint := fld (wordAt e 5) 17 0, stateBytes := fld (wordAt e 6) 15 0, entry := fld (wordAt e 7) 15 0
      budget := (wordAt e 8).toNat }

/-- The first word of session entry `i`. -/
def sessionAt (i : Nat) : Nat := 1 + 16 * i

/-- A SESSION entry by its TYPE. -/
def parseSession (e : List Word) : SessionRec :=
  let f := fun i hi lo => fld (wordAt e i) hi lo
  let b : SessionRec := { session := f 0 15 0, typ := f 0 19 16, words := e }
  match b.typ with
  | 2 => { b with
      format := f 0 23 20, profile := f 0 27 24, deep := bitAt (wordAt e 0) 28, maxW := f 1 12 0, maxH := f 1 28 16
      stream := f 2 1 0, sDec := f 2 3 2, tDec := f 2 5 4, reassMs := f 3 7 0, fbCount := f 3 15 8, fbRegion := f 3 31 16
      stateRegion := f 4 15 0, ringKib := f 4 31 16, pixelRate := f 5 19 0 }
  | 3 => { b with
      format := f 0 23 20, profile := f 0 27 24, deep := bitAt (wordAt e 0) 28, scale := f 0 30 29
      lead := bitAt (wordAt e 0) 31, output := f 1 11 0, tLayers := f 1 13 12, statsEn := bitAt (wordAt e 1) 14
      source := f 1 31 16, fbCount := f 2 7 0, rung := f 2 9 8, fbRegion := f 2 31 16, stateRegion := f 3 15 0
      keyInterval := f 3 31 16, qpBase := f 4 5 0, qpMin := f 4 13 8, qpMax := f 4 21 16, keyQp := f 4 27 24
      cap := f 5 31 0, windowMs := f 6 13 0, refreshMs := f 6 29 16, ssrc := f 7 31 0, regions := wordsAt e 8 8 }
  | _ => { b with
      kernel := f 1 15 0, stateBytes := f 1 31 16, stateRegion := f 2 15 0, ringKib := f 2 31 16 }

/-- The sessions. -/
def parseSessions (ws : List Word) : List SessionRec :=
  (List.range (countOf ws 15)).map fun i => parseSession (wordsAt ws (sessionAt i) 16)

/-! ### The plan -/

/-- The plan of an image whose sections are `secs`. -/
def parsePlan (img : List Word) (secs : List Sec) : Plan :=
  let w := wordAt img
  let ws := fun id => (secOf secs id).ws
  { conf := fld (w 2) 15 0, epoch := fld (w 2) 31 16, tickPhase := fld (w 4) 13 0, resetOverrides := bitAt (w 4) 16
    tasks := fld (w 6) 18 0, frameBuffers := fld (w 7) 17 0, flows := fld (w 8) 16 0, length := (w 3).toNat
    roster := parseRoster (ws 1), sources := parseSources (ws 2), lists := parseLists (ws 2)
    ladders := parseLadders (ws 3), classes := parseClasses (ws 4), confShaper := parseConfShaper (ws 5)
    shaper := parseShaper (ws 5), regions := parseRegions (ws 6)
    mix := if hasSec secs 7 then parseMix (ws 7) else {}
    routes := parseRoutes (ws 8), layoutSels := parseSels (ws 8), outputs := parseOutputs (ws 9)
    layouts := parseLayouts (ws 9), graphs := parseGraphs (ws 10), kernels := parseKernels (ws 11)
    sessions := parseSessions (ws 12) }

end Sys2Proof.Machine
end

