-- ==== Sys2Proof/Machine/PlanCheck.lean ====
section
/-! DEFINITION. The validation of a plan image, steps 1 to 4 (R99, R100, R105, R108, R182, R183, R188, R189, R241, R249 to R253,
R294, R307 to R309, R319, R330 to R333, R353 to R359, R375, R376, R500). -/

namespace Sys2Proof.Machine

/-! ### Failing words -/

/-- The word of a section at which each failing check stands, as (byte offset in the image, section). -/
def Sec.fails (x : Sec) (checks : List (Bool × Nat)) : List (Nat × Nat) :=
  checks.filterMap fun c => if c.1 then some (x.off + 4 * c.2, x.id) else none

/-- The first failing word of a step: the lowest offset in the image (R108, log entry 45). -/
def firstBad : List (Nat × Nat) → Option (Nat × Nat)
  | [] => none
  | b :: r =>
    match firstBad r with
    | none => some b
    | some c => if c.1 < b.1 then some c else some b

/-- A value lies outside lo to hi. -/
def outside (lo hi v : Nat) : Bool := decide (v < lo) || decide (hi < v)

/-- Reserved fields of the words from `b` on, as (word, high bit, low bit): each must be zero (R11). -/
def reserved (ws : List Word) (b : Nat) (fs : List (Nat × Nat × Nat)) : List (Bool × Nat) :=
  fs.map fun f => (!zeroIn (wordAt ws (b + f.1)) f.2.1 f.2.2, b + f.1)

/-- Reserved words from `lo` to `hi`. -/
def reservedWords (ws : List Word) (b lo hi : Nat) : List (Bool × Nat) :=
  (List.range (hi + 1 - lo)).map fun i => (wordAt ws (b + lo + i) != 0, b + lo + i)

/-- Keys that must rise strictly: each that does not fails at its place. -/
def rising : List (Nat × Nat) → List (Bool × Nat)
  | a :: b :: r => (decide (b.1 ≤ a.1), b.2) :: rising (b :: r)
  | _ => []

/-- Keys that must not repeat: each repeat fails at its place. -/
def unique (seen : List Nat) : List (Nat × Nat) → List (Bool × Nat)
  | [] => []
  | a :: r => (seen.contains a.1, a.2) :: unique (a.1 :: seen) r

/-- The records, lists and blobs of a section, as (first word, words), lie within it, and every word outside all of them
is zero (R500). -/
def covered (ws : List Word) (ext : List (Nat × Nat)) : List (Bool × Nat) :=
  (ext.any fun e => decide (0 < e.2) && decide (ws.length < e.1 + e.2), 0) ::
    ws.zipIdx.map fun p => (p.1 != 0 && !ext.any fun e => decide (e.1 ≤ p.2) && decide (p.2 < e.1 + e.2), p.2)

/-- Records that a count and an offset name, at word `b`, stand before the place `lo` from which the section holds them
(log entry 99). -/
def early (b count lo : Nat) : Bool := decide (0 < count) && decide (b < lo)

/-- The section's length differs from `n` words (R500). -/
def lengthIs (ws : List Word) (n : Nat) : List (Bool × Nat) := [(ws.length != n, 0)]

/-- Checks of each of `n` entries. -/
def each (n : Nat) (f : Nat → List (Bool × Nat)) : List (Bool × Nat) := (List.range n).flatMap f

/-! ### Steps 1 to 3 -/

/-- Step 1: the header (R99). -/
def headerBad (img : List Word) (conf length : Nat) (epoch : Option Nat) : List (Nat × Nat) :=
  let w := wordAt img
  let crc := crc32c (bytesOfWords ((img.take 16).set 10 0))
  ({ id := 0, off := 0, ws := img } : Sec).fails
    ([(w 0 != 0x48544541, 0), (w 1 != 1, 1), (fld (w 2) 15 0 != conf || epoch == some (fld (w 2) 31 16), 2),
      ((w 3).toNat != length, 3), (outside 0 9999 (fld (w 4) 13 0), 4), (outside 1 16 (fld (w 5) 4 0), 5),
      (outside 0 262144 (fld (w 6) 18 0), 6), (outside 0 131072 (fld (w 7) 17 0), 7),
      (outside 0 65536 (fld (w 8) 16 0), 8), ((w 10).toNat != crc, 10)]
    ++ reserved img 0 [(4, 15, 14), (4, 31, 17), (5, 31, 5), (6, 31, 19), (7, 31, 18), (8, 31, 17)]
    ++ reservedWords img 0 11 15)

/-- Two extents of an image share a byte. -/
def DirEntry.meets (a b : DirEntry) : Bool :=
  decide (0 < a.len) && decide (0 < b.len) && decide (a.off < b.off + b.len) && decide (b.off < a.off + a.len)

/-- A directory entry fails by itself or against the entries before it (R99, R100). -/
def DirEntry.bad (e : DirEntry) (length start : Nat) (before : List DirEntry) : Bool :=
  outside 1 12 e.word0 || e.off % 64 != 0 || e.len % 4 != 0 || decide (e.off < start) || decide (length < e.off + e.len)
    || before.any fun b => b.word0 == e.word0 || b.meets e

/-- The failing entries of a directory. -/
def dirEntriesBad (length start : Nat) : List DirEntry → List DirEntry → List (Nat × Nat)
  | _, [] => []
  | before, e :: r =>
    (if e.bad length start before then [(e.at_, 0xFF)] else []) ++ dirEntriesBad length start (e :: before) r

/-- Required sections that are absent (R100). -/
def sectionMissing (d : List DirEntry) : Bool :=
  let has := fun i => d.any fun e => e.word0 == i
  !([1, 2, 3, 4, 5, 6].all has) || ((has 7 || has 9) && !has 8)

/-- Step 2: the directory, and then the bytes outside header, directory and sections (R99, R100, R108, log entry 45). -/
def directoryBad (img : List Word) (length : Nat) : List (Nat × Nat) :=
  let d := directory img
  let start := 64 + 16 * d.length
  let bad := dirEntriesBad length start [] d ++ if sectionMissing d then [(64, 0xFF)] else []
  if !bad.isEmpty then bad
  else img.zipIdx.filterMap fun p =>
    let o := 4 * p.2
    if p.1 != 0 && decide (start ≤ o) && !d.any fun e => decide (e.off ≤ o) && decide (o < e.off + e.len)
    then some (o, 0xFF) else none

/-- Step 3: the sections' CRCs (R99). -/
def crcBad (img : List Word) : List (Nat × Nat) :=
  (directory img).filterMap fun e =>
    if crc32c (bytesOfWords (e.sec img).ws) != e.crc then some (e.off, e.word0) else none

/-! ### Step 4: ROSTER to PLACEMENT -/

/-- ROSTER (R102). -/
def rosterBad (ws : List Word) : List (Bool × Nat) :=
  let rs := (parseRoster ws).zipIdx
  (ws.length % 4 != 0, 0) :: rising (rs.map fun p => (p.1.slot, 4 * p.2)) ++
    rs.flatMap fun p =>
      let b := 4 * p.2
      let r := p.1
      [(r.slot == 0xFFFF || r.kind == 3, b),
       (r.kind != 1 && r.session != 0xFFFF || r.kind == 0 && r.aux != 0 || r.kind == 2 && outside 1 4096 r.aux, b + 2)]
      ++ reserved ws b [(0, 31, 19), (1, 31, 29)]

/-- FANOUT (R103): every list's extent, its length and the uniqueness of its entries. -/
def fanoutBad (ws : List Word) : List (Bool × Nat) :=
  let n := fanSources ws
  let m := fanLists ws
  let ext := (0, 1) :: (1, 12 * n) :: (1 + 12 * n, 2 * m) ::
    (List.range m).map fun i => ((wordAt ws (fanHeader ws i + 1)).toNat / 4, fld (wordAt ws (fanHeader ws i)) 13 0)
  covered ws ext ++
    each n (fun i =>
      let b := 1 + 12 * i
      (fld (wordAt ws b) 15 0 != i, b) :: reserved ws b [(0, 31, 19), (11, 31, 0)]) ++
    each m (fun i =>
      let h := fanHeader ws i
      let b := (wordAt ws (h + 1)).toNat / 4
      let l := (fanList ws i).zipIdx
      (outside 0 8192 (fld (wordAt ws h) 13 0), h) :: ((wordAt ws (h + 1)).toNat % 4 != 0 || early b l.length (1 + 12 * n + 2 * m), h + 1)
        :: reserved ws h [(0, 31, 14)]
        ++ (l.map fun p => (!zeroFrom p.1 16, b + p.2)) ++ unique [] (l.map fun p => (fld p.1 15 0, b + p.2)))

/-- The rungs of a ladder: OFF rungs form a run from class 0, and S_MAX and T_MAX do not decrease after it (R189). -/
def rungsBad (b : Nat) : List (Nat × Nat) → List (Bool × Nat)
  | x :: y :: r =>
    let off := fun n => n.testBit 4
    (off y.1 && !off x.1 || (!off x.1 && !off y.1 &&
      (decide (y.1 % 4 < x.1 % 4) || decide (y.1 / 4 % 4 < x.1 / 4 % 4))), b + 1 + y.2 / 4) :: rungsBad b (y :: r)
  | _ => []

/-- LADDER (R189). -/
def ladderBad (ws : List Word) : List (Bool × Nat) :=
  let ls := (parseLadders ws).zipIdx
  lengthIs ws (1 + 12 * countOf ws 15) ++ reserved ws 0 [(0, 31, 16)]
    ++ rising (ls.map fun p => (p.1.idx, 1 + 12 * p.2)) ++
    ls.flatMap fun p =>
      let b := 1 + 12 * p.2
      (p.1.idx == 0xFFFF, b) :: reserved ws b [(0, 31, 17)] ++ reservedWords ws b 9 11
        ++ (p.1.rungs.zipIdx.map fun q =>
          (q.1 % 4 == 3 || q.1 / 4 % 4 == 3 || decide (32 ≤ q.1), b + 1 + q.2 / 4)) ++ rungsBad b p.1.rungs.zipIdx

/-- The extension IDs in use of a class record's word (R183). -/
def extIds (w : Word) : List Nat := [fld w 7 0, fld w 15 8, fld w 23 16].filter fun n => n != 0

/-- ESTIMATOR (R182, R183). -/
def estimatorBad (ws : List Word) : List (Bool × Nat) :=
  let cs := (parseClasses ws).zipIdx
  lengthIs ws (1 + 64 * countOf ws 15) ++ reserved ws 0 [(0, 31, 16)]
    ++ rising (cs.map fun p => (p.1.cls, 1 + 64 * p.2)) ++
    cs.flatMap fun p =>
      let b := 1 + 64 * p.2
      let c := p.1
      [(outside 64 1024 c.replayWindow || c.replayWindow % 64 != 0 || decide (4 < fld (wordAt ws (b + 1)) 18 16), b + 1),
       (outside 0 2000 c.histAge || outside 100 10000 c.keyReqInterval, b + 2),
       (!(extIds (wordAt ws (b + 3))).Nodup, b + 3), (outside 1000 50000 c.groupUs, b + 11), (decide (c.rMax < c.rMin), b + 13)]
      ++ reserved ws b [(0, 31, 11), (1, 15, 11), (1, 31, 19), (2, 15, 11), (2, 31, 30), (3, 31, 24)]
      ++ ((wordsAt ws (b + 4) 4).zipIdx.map fun q =>
        ((halves q.1).any fun h => decide (4096 ≤ h) || h.testBit 7 && outside 1 7 (h / 256 % 16), b + 4 + q.2))
      ++ unique [] ((((wordsAt ws (b + 4) 4).flatMap halves).zipIdx.filter fun q => q.1.testBit 7).map fun q =>
        (q.1 % 128, b + 4 + q.2 / 2))
      ++ ((c.classRate.zip (c.classRate.drop 1)).zipIdx.map fun q => (decide (q.1.2 < q.1.1), b + 15 + q.2))
      ++ reservedWords ws b 46 63

/-- RATE and BURST out of their ranges (R241). -/
def rateBad (r : ShaperRec) : Bool × Bool :=
  let n := r.rate.toNat
  (n != 0 && outside 64 800000000 n, if r.burst = 0 then n != 0 else outside 1536 16777216 r.burst)

/-- SHAPER (R241). -/
def shaperBad (ws : List Word) : List (Bool × Nat) :=
  let ss := (parseShaper ws).zipIdx
  let c := rateBad (parseConfShaper ws)
  lengthIs ws (9 + 8 * countOf ws 15) ++ reserved ws 0 [(0, 31, 16)] ++ [(c.1, 2), (c.2, 4)]
    ++ reserved ws 1 [(0, 31, 0), (3, 31, 25)] ++ reservedWords ws 1 4 7
    ++ rising (ss.map fun p => (p.1.slot, 9 + 8 * p.2)) ++
    ss.flatMap fun p =>
      let b := 9 + 8 * p.2
      let r := rateBad p.1
      [(p.1.audioClass == 0 || p.1.videoClass == 0 || p.1.rtxClass == 0, b), (p.1.legMask % 2 == 1, b + 1), (r.1, b + 2),
       (r.2, b + 4)]
      ++ reserved ws b [(0, 19, 19), (0, 23, 23), (0, 31, 27), (1, 31, 8), (4, 31, 25)] ++ reservedWords ws b 5 7

/-- PLACEMENT (R106, R188): the sum of the sizes fails at the first entry. -/
def placementBad (ws : List Word) : List (Bool × Nat) :=
  let rs := (parseRegions ws).zipIdx
  (ws.length % 12 != 0 || decide (17179869184 < (rs.map fun p => p.1.size).sum), 0)
    :: unique [] (rs.map fun p => (p.1.region, 12 * p.2))
    ++ unique [] ((rs.filter fun p => p.1.cls == 2).map fun p => (2, 12 * p.2)) ++
    rs.flatMap fun p =>
      let b := 12 * p.2
      [(decide (3 < p.1.cls) || outside 8 16 p.1.grain, b), (p.1.size == 0 || p.1.size % 65536 != 0, b + 1)]
      ++ reservedWords ws b 9 11

/-! ### Step 4: MIX, ROUTE, LAYOUT -/

/-- A bus record with its columns and taps (R308, R309). -/
def busBad (ws : List Word) (i : Nat) : List (Bool × Nat) :=
  let b := busAt i
  let r := parseBus ws i
  let c0 := (wordAt ws (b + 3)).toNat / 4
  let t0 := (wordAt ws (b + 4)).toNat / 4
  let lo := busAt (countOf ws 12)
  [(r.rate == 3, b), (outside 1 256 (fld (wordAt ws (b + 1)) 8 0) || outside 1 1023 (fld (wordAt ws (b + 1)) 25 16), b + 1),
   ((wordAt ws (b + 3)).toNat % 4 != 0 || early c0 r.columns.length lo, b + 3),
   ((wordAt ws (b + 4)).toNat % 4 != 0 || early t0 r.taps.length lo, b + 4),
   (decide (64 < r.taps.countP fun t => t.outRate != r.rate), b)]
  ++ reserved ws b [(0, 31, 14), (1, 15, 9), (1, 31, 26)] ++ reservedWords ws b 5 7
  ++ (r.columns.zipIdx.flatMap fun p =>
    (p.1.srcRate == 3 || p.1.select && p.1.rank.isSome || p.1.rank.isSome && p.1.source != 0xFFFF
      || p.1.select && p.1.source == 0xFFFF, c0 + p.2) :: reserved ws (c0 + p.2) [(0, 15, 12), (0, 7, 5)])
  ++ (r.taps.zipIdx.flatMap fun p =>
    (p.1.outRate == 3 || p.1.clock == 3 || p.1.minus != 0x1FF && decide (r.columns.length ≤ p.1.minus), t0 + p.2)
      :: reserved ws (t0 + p.2) [(0, 31, 13)])

/-- MIX (R307 to R309). -/
def mixBad (ws : List Word) : List (Bool × Nat) :=
  let n := countOf ws 12
  let pins := fld (wordAt ws 1) 12 8
  let ext := (0, 34) :: (34, 8 * n) :: (List.range n).flatMap fun i =>
    let b := busAt i
    [((wordAt ws (b + 3)).toNat / 4, fld (wordAt ws (b + 1)) 8 0), ((wordAt ws (b + 4)).toNat / 4, fld (wordAt ws (b + 1)) 25 16)]
  covered ws ext ++
    [(outside 1 4096 n, 0), (decide (16 < fld (wordAt ws 1) 4 0) || decide (fld (wordAt ws 1) 4 0 < pins), 1),
     (decide (12800 < fld (wordAt ws 2) 15 0) || outside 1 2560 (fld (wordAt ws 2) 31 16), 2)]
    ++ reserved ws 0 [(0, 31, 13), (1, 31, 13), (1, 7, 5)] ++ reservedWords ws 1 18 23
    ++ (((wordsAt ws 3 8).flatMap halves).zipIdx.map fun p => (decide (pins ≤ p.2) && p.1 != 0xFFFF, 3 + p.2 / 2))
    ++ ((wordsAt ws 25 9).zipIdx.map fun p => (outside 1 (2 ^ 30) p.1.toNat, 25 + p.2))
    ++ rising ((List.range n).map fun i => (fld (wordAt ws (busAt i)) 11 0, busAt i)) ++ each n (busBad ws)

/-- ROUTE (R319, R359). -/
def routeBad (ws : List Word) : List (Bool × Nat) :=
  let rs := routesIn ws
  let m := fld (wordAt ws 0) 31 16
  let b0 := selsAt ws
  covered ws [(0, b0 + 3 * m)] ++ unique [] (rs.map fun p => (fld (wordAt ws p.1) 15 0, p.1))
    ++ (rs.flatMap fun p =>
      (outside 1 256 p.2, p.1 + 1) :: reserved ws p.1 [(0, 31, 16), (1, 31, 25), (1, 15, 12)]
        ++ unique [] ((List.range p.2).map fun j => (fld (wordAt ws (p.1 + 2 + 3 * j)) 7 0, p.1 + 2 + 3 * j))
        ++ (List.range p.2).flatMap fun j => reserved ws (p.1 + 2 + 3 * j) [(0, 31, 8)])
    ++ unique [] ((List.range m).map fun i => (fld (wordAt ws (b0 + 3 * i)) 15 0, b0 + 3 * i))
    ++ each m fun i => reserved ws (b0 + 3 * i) [(0, 31, 16), (1, 31, 16)]

/-- An output record (R353). -/
def outputBad (ws : List Word) (p : OutputRec × Nat) : List (Bool × Nat) :=
  let o := p.1
  let b := outputAt p.2
  [(o.dual && !o.deep || o.colour == 3, b), (outside 64 4096 o.w || outside 64 2304 o.h || o.w % 2 == 1 || o.h % 2 == 1, b + 1),
   (outside (3 * bandsOf o.h * (1 + b2n o.dual)) 4095 o.bandFbs, b + 2)]
  ++ reserved ws b [(1, 15, 13), (1, 31, 29), (2, 15, 12)] ++ reservedWords ws b 4 7

/-- A layer record in an output, where the layout's output exists (R357). -/
def layerBad (ws : List Word) (o : Option OutputRec) (b : Nat) : List (Bool × Nat) :=
  let l := parseLayer (wordsAt ws b 8)
  let odd := fun n => n % 2 == 1
  [(decide (4 < l.source) || decide (1 < l.blend) || l.colour == 3 || decide (256 < l.alpha), b),
   ((if l.source = 3 then outside 2 32 l.border || odd l.border else l.border != 0)
     || (l.source == 2 || l.source == 3) && decide (15 < l.arg), b + 1),
   (odd l.x || odd l.y || o.any fun o => decide (o.w < l.x + l.w) || decide (o.h < l.y + l.h), b + 2),
   (odd l.w || odd l.h || decide (l.w < 2) || decide (l.h < 2), b + 3), (outside 1 65536 l.cropW, b + 5),
   (outside 1 65536 l.cropH, b + 6)]
  ++ reserved ws b [(0, 9, 5), (0, 15, 12), (0, 31, 25), (1, 31, 24), (2, 15, 13), (2, 31, 29), (3, 15, 13), (3, 31, 29),
    (5, 31, 17), (6, 31, 17), (7, 31, 30)]

/-- A layout record with its layers and order list (R356, R357). -/
def layoutBad (ws : List Word) (outs : List OutputRec) (p : Layout × Nat) : List (Bool × Nat) :=
  let b := layoutAt ws p.2
  let e := wordsAt ws b 8
  let n := layLayers e
  let valid := bitAt (wordAt e 1) 8
  let o := outs.find? fun o => o.output == p.1.output
  let bytes := bytesOfWords (wordsAt ws (orderAt e) (ceilDiv n 4))
  let lo := layoutAt ws (layLayouts ws)
  [(decide (64 < n), b + 1), ((wordAt e 3).toNat % 4 != 0 || early (layersAt e) n lo, b + 3),
   ((wordAt e 4).toNat % 4 != 0 || !valid && wordAt e 4 != 0 || valid && early (orderAt e) n lo, b + 4),
   (valid && (!((List.range n).all fun k => (bytes.take n).contains k) || (bytes.drop n).any fun x => x != 0), orderAt e)]
  ++ reserved ws b [(1, 7, 7), (1, 31, 9), (2, 31, 30)] ++ reservedWords ws b 5 7
  ++ each n fun j => layerBad ws o (layersAt e + 8 * j)

/-- LAYOUT (R353, R356, R357). -/
def layoutsBad (ws : List Word) : List (Bool × Nat) :=
  let n := layOutputs ws
  let m := layLayouts ws
  let outs := parseOutputs ws
  let ext := (0, 1 + 8 * n + 8 * m) :: (List.range m).flatMap fun i =>
    let e := wordsAt ws (layoutAt ws i) 8
    [(layersAt e, 8 * layLayers e), (orderAt e, if bitAt (wordAt e 1) 8 then ceilDiv (layLayers e) 4 else 0)]
  covered ws ext ++ [(outside 1 1024 n || outside 1 4096 m, 0)]
    ++ rising (outs.zipIdx.map fun p => (p.1.output, outputAt p.2)) ++ outs.zipIdx.flatMap (outputBad ws)
    ++ rising ((List.range m).map fun i => (fld (wordAt ws (layoutAt ws i)) 15 0, layoutAt ws i))
    ++ (parseLayouts ws).zipIdx.flatMap (layoutBad ws outs)

/-! ### Step 4: TASKGRAPH, KERNEL, SESSION -/

/-- A task record, `k` within its graph (R250, R253). -/
def taskBad (ws : List Word) (flows k t : Nat) : List (Bool × Nat) :=
  let b := taskAt ws t
  let r := parseTask ws t
  [(r.index != k || outside 1 9 r.op, b),
   (r.flowValid && r.sessionFlow || r.sessionFlow && r.session == 0xFFFF || r.flowValid && decide (flows ≤ r.flow), b + 1),
   (decide (2 < r.fbWrite), b + 4)]
  ++ reserved ws b [(0, 31, 19), (1, 15, 14), (4, 31, 18), (4, 15, 10), (6, 31, 12)]
  ++ each r.succ.length fun j => reserved ws (succAt ws ((wordAt ws (b + 7)).toNat + j)) [(0, 31, 24)]

/-- A graph descriptor with its tasks (R249). -/
def graphBad (ws : List Word) (flows i : Nat) : List (Bool × Nat) :=
  let b := graphAt i
  let g := parseGraph ws i
  [(g.maxInst == 0 || g.arrival && g.list != 0, b),
   (if g.arrival then g.num != 0 else outside 100000 4000000000 g.num, b + 1),
   (if g.arrival then g.den != 0 else g.den == 0 || g.session != 0xFFFF, b + 2),
   (if g.arrival then false else decide (g.num ≤ g.phase * g.den), b + 3), (outside 1 1000000 g.deadlineUs, b + 4),
   (decide (allTasks ws < firstTask ws i + taskCount ws i), b + 5),
   (outside 1 4096 (taskCount ws i), b + 6)]
  ++ reserved ws b [(0, 15, 14), (0, 31, 20), (3, 31, 30), (4, 31, 20), (6, 31, 13), (7, 31, 0)]
  ++ each (taskCount ws i) fun k => taskBad ws flows k (firstTask ws i + k)

/-- TASKGRAPH (R249, R253): tasks that exceed the claim fail at the section's first word. -/
def graphsBad (ws : List Word) (tasks flows : Nat) : List (Bool × Nat) :=
  let n := countOf ws 12
  let gs := parseGraphs ws
  let ext := (0, 1 + 8 * n) :: (List.range n).flatMap fun i =>
    (taskAt ws (firstTask ws i), 8 * taskCount ws i) :: (List.range (taskCount ws i)).map fun k =>
      let b := taskAt ws (firstTask ws i + k)
      (succAt ws (wordAt ws (b + 7)).toNat, 2 * fld (wordAt ws (b + 6)) 11 0)
  covered ws ext ++ reserved ws 0 [(0, 31, 13)]
    ++ [(outside 1 4096 n || decide (tasks < (gs.map fun g => g.tasks.length * g.maxInst).sum), 0)]
    ++ rising (gs.zipIdx.map fun p => (p.1.graph, graphAt p.2)) ++ each n (graphBad ws flows)

/-- KERNEL (R294). -/
def kernelsBad (ws : List Word) : List (Bool × Nat) :=
  let n := countOf ws 15
  let ks := (parseKernels ws).zipIdx
  let ext := (0, 1 + 16 * n) :: (List.range n).flatMap fun i =>
    let e := wordsAt ws (kernelAt i) 16
    [((wordAt e 1).toNat / 4, fld (wordAt e 2) 15 0 / 4), ((wordAt e 3).toNat / 4, fld (wordAt e 4) 14 0 / 4)]
  covered ws ext ++ reserved ws 0 [(0, 31, 16)] ++ [(outside 1 64 n, 0)]
    ++ rising (ks.map fun p => (p.1.kernel, kernelAt p.2)) ++
    ks.flatMap fun p =>
      let b := kernelAt p.2
      let k := p.1
      let codeLen := fld (wordAt ws (b + 2)) 15 0
      let constLen := fld (wordAt ws (b + 4)) 14 0
      [(outside 0x100 0xFFFE k.kernel || fld (wordAt ws b) 23 16 != 1, b),
       ((wordAt ws (b + 1)).toNat % 64 != 0 || early ((wordAt ws (b + 1)).toNat / 4) codeLen (kernelAt n)
         || !Config.codeLegal k.code, b + 1),
       (outside 16 32768 codeLen || codeLen % 16 != 0 || decide (32768 < codeLen + constLen), b + 2),
       ((wordAt ws (b + 3)).toNat % 64 != 0 || early ((wordAt ws (b + 3)).toNat / 4) constLen (kernelAt n), b + 3), (decide (16384 < constLen) || constLen % 4 != 0, b + 4),
       (outside 4096 131072 k.footprint || k.footprint % 4096 != 0, b + 5),
       (decide (32768 < k.stateBytes) || k.stateBytes % 64 != 0 || decide (k.footprint < k.stateBytes), b + 6),
       (k.entry % 16 != 0 || decide (codeLen ≤ k.entry), b + 7), (outside 1000 18000000 k.budget, b + 8)]
      ++ reserved ws b [(0, 31, 24), (2, 31, 16), (4, 31, 15), (5, 31, 18), (6, 31, 16), (7, 31, 16)]
      ++ reservedWords ws b 9 15

/-- FORMAT, PROFILE and DEPTH10 of a video session do not agree (R332, R333, R375). -/
def SessionRec.codecBad (r : SessionRec) : Bool :=
  match r.format with
  | 5 => decide (2 < r.profile) || r.deep
  | 6 => decide (1 < r.profile) || r.deep && r.profile != 1
  | 7 => r.profile != 0
  | _ => true

/-- An audio session (R331). -/
def audioSessionBad (ws : List Word) (b : Nat) (r : SessionRec) : List (Bool × Nat) :=
  [(decide (32768 < r.stateBytes) || r.stateBytes % 64 != 0, b + 1),
   (if r.typ = 0 then outside 16 1024 r.ringKib else r.ringKib != 0, b + 2)]
  ++ reserved ws b [(0, 31, 20)] ++ reservedWords ws b 3 15

/-- A video decode session (R332, R333). -/
def decodeSessionBad (ws : List Word) (b : Nat) (r : SessionRec) : List (Bool × Nat) :=
  [(r.codecBad, b), (outside 64 4096 r.maxW || outside 64 2304 r.maxH || r.maxW % 2 == 1 || r.maxH % 2 == 1, b + 1),
   (r.stream == 0 || r.sDec == 3 || r.tDec == 3 || r.format != 7 && r.sDec != 0, b + 2),
   (decide (200 < r.reassMs) || outside (if r.format = 7 then 12 else 20) 64 r.fbCount, b + 3),
   (outside 256 16384 r.ringKib, b + 4), (outside 1 1000 r.pixelRate, b + 5)]
  ++ reserved ws b [(0, 31, 29), (1, 15, 13), (1, 31, 29), (2, 31, 6), (5, 31, 20)] ++ reservedWords ws b 6 15

/-- A REGION word (R375). -/
def regionWordBad (w : Word) : Bool :=
  let q := fld w 12 8
  fld w 1 0 == 3 || !zeroFrom w 13 || (decide (12 < q) && decide (q < 20))

/-- A video encode session (R375, R376): FB_COUNT is judged against the output's BANDS where the output exists. -/
def encodeSessionBad (ws : List Word) (outs : List OutputRec) (b : Nat) (r : SessionRec) : List (Bool × Nat) :=
  let bands := (outs.find? fun o => o.output == r.output).map fun o => bandsOf o.h
  let fb := if r.lead then bands.any fun n => outside (4 + 2 * n) (8 + 2 * n) r.fbCount else outside 4 8 r.fbCount
  [(r.codecBad || r.scale == 3, b), (r.tLayers == 0, b + 1), (fb || r.rung == 3, b + 2),
   (decide (51 < r.qpMax) || decide (r.qpBase < r.qpMin) || decide (r.qpMax < r.qpBase), b + 4),
   (outside 64 200000 r.cap, b + 5), (outside 100 10000 r.windowMs || decide (10000 < r.refreshMs), b + 6)]
  ++ reserved ws b [(1, 15, 15), (2, 15, 10), (4, 7, 6), (4, 15, 14), (4, 23, 22), (4, 31, 28), (6, 15, 14), (6, 31, 30)]
  ++ (r.regions.zipIdx.map fun p => (regionWordBad p.1, b + 8 + p.2))

/-- SESSION (R330, R333, R354): frame buffers that exceed the claim fail at the first word. -/
def sessionsBad (ws : List Word) (outs : List OutputRec) (claim : Nat) : List (Bool × Nat) :=
  let n := countOf ws 15
  let ss := parseSessions ws
  covered ws [(0, 1 + 16 * n)] ++ reserved ws 0 [(0, 31, 16)]
    ++ [(outside 1 4096 n || decide (claim < (ss.map SessionRec.fbCount).sum + (outs.map OutputRec.bandFbs).sum), 0)]
    ++ rising (ss.zipIdx.map fun p => (p.1.session, sessionAt p.2)) ++
    ss.zipIdx.flatMap fun p =>
      let b := sessionAt p.2
      (p.1.session == 0xFFFF || decide (3 < p.1.typ), b) ::
        (if p.1.typ = 2 then decodeSessionBad ws b p.1
         else if p.1.typ = 3 then encodeSessionBad ws outs b p.1
         else if p.1.typ < 2 then audioSessionBad ws b p.1 else [])

/-- Step 4: entry fields and section lengths. -/
def fieldsBad (p : Plan) (secs : List Sec) : List (Nat × Nat) :=
  secs.flatMap fun x =>
    x.fails <| match x.id with
      | 1 => rosterBad x.ws
      | 2 => fanoutBad x.ws
      | 3 => ladderBad x.ws
      | 4 => estimatorBad x.ws
      | 5 => shaperBad x.ws
      | 6 => placementBad x.ws
      | 7 => mixBad x.ws
      | 8 => routeBad x.ws
      | 9 => layoutsBad x.ws
          ++ [(!hasSec secs 12 && decide (p.frameBuffers < (p.outputs.map OutputRec.bandFbs).sum), 0)]
      | 10 => graphsBad x.ws p.tasks p.flows
      | 11 => kernelsBad x.ws
      | 12 => sessionsBad x.ws p.outputs p.frameBuffers
      | _ => []

end Sys2Proof.Machine
end

