-- ==== Sys2Proof/Machine/PlanRefs.lean ====
section
/-! DEFINITION. The validation of a plan image, steps 5 to 7: complement pairs, cross-references, task graphs, and what fits
in the device (R100 to R108, R188, R241, R253, R289, R294, R298, R309, R319, R331, R333, R334, R353 to R359, R376 to R379,
R400, R404, R405). -/

namespace Sys2Proof.Machine

/-! ### Step 5 (R105) -/

/-- Every complement pair that the plan carries matches. -/
def Plan.pairsOk (p : Plan) : Bool :=
  (p.roster.all fun r => pair16Ok r.ref)
    && (p.sources.all fun d => pair16Ok d.audioList && d.layers.all pair16Ok)
    && ((p.confShaper :: p.shaper).all fun r => pairOk r.rate r.rateC)
    && (p.mix.buses.all fun b => pair16Ok b.route)
    && (p.routes.all fun r => r.coeffs.all fun c => pairOk c.2.1 c.2.2)
    && (p.layoutSels.all fun x => pair16Ok x.layout) && (p.outputs.all fun o => pair16Ok o.layout)
    && (p.graphs.all fun g => g.tasks.all fun t => t.succ.all fun e => pairOk e.1 e.2)

/-! ### Step 6: sizes -/

/-- Bytes of a Malrurov surface (R368). -/
def surfaceBytes (w h : Nat) (deep : Bool) : Nat :=
  let uc := ceilDiv w 32
  let ur := ceilDiv h 4
  ceilDiv (64 + ur * (64 * ceilDiv uc 64) + uc * ur * (if deep then 256 else 192)) 4096 * 4096

/-- Bytes of the frame buffers that a session keeps in its region (R333, R354, R377). -/
def Plan.sessionFbBytes (p : Plan) (r : SessionRec) : Nat :=
  if r.typ = 2 then r.fbCount * surfaceBytes r.maxW r.maxH r.deep
  else if r.typ = 3 then
    match p.outputRec r.output with
    | none => 0
    | some o =>
      let pyr := if r.lead then 2 * bandsOf o.h else 0
      (r.fbCount - pyr) * surfaceBytes (rungDim o.w r.scale) (rungDim o.h r.scale) r.deep + pyr * surfaceBytes o.w 64 o.deep
  else 0

/-- Bytes that a session needs in its state region (R333, R377). -/
def SessionRec.stateNeed (r : SessionRec) : Nat :=
  if r.typ = 2 then 131072 + 1024 * r.ringKib else if r.typ = 3 then 262144 else 0

/-- A region is absent, of another CLASS, or smaller than what names it needs. -/
def Plan.regionBad (p : Plan) (n cls need : Nat) : Bool :=
  match p.regions.find? fun r => r.region == n with
  | none => true
  | some r => r.cls != cls || decide (r.size < need)

/-- Bytes of the frame buffers that name region `n`. -/
def Plan.fbNeed (p : Plan) (n : Nat) : Nat :=
  ((p.sessions.filter fun r => r.typ ≥ 2 && r.fbRegion == n).map p.sessionFbBytes).sum
    + ((p.outputs.filter fun o => o.region == n).map fun o => o.bandFbs * surfaceBytes o.w 64 o.deep).sum

/-- Bytes of session state that name region `n`. -/
def Plan.stateNeed (p : Plan) (n : Nat) : Nat :=
  ((p.sessions.filter fun r => r.stateRegion == n).map SessionRec.stateNeed).sum

/-! ### Step 6: roster, fan-out, shaper (R100 to R103, R188, R241, R333) -/

/-- The sessions that a roster slot of KIND 1 names. -/
def RosterSlot.sessions (r : RosterSlot) : List Nat := [r.session, r.aux].filter fun n => n != 0xFFFF

/-- The sessions that a slot names break R102. -/
def Plan.slotSessionsBad (p : Plan) (r : RosterSlot) : Bool :=
  let ts := r.sessions.map fun n => (p.sessionRec n).map SessionRec.typ
  r.session == 0xFFFF || ts.any (fun t => t != some 0 && t != some 2) || ts == [some 0, some 0] || ts == [some 2, some 2]

/-- The TYPE 2 sessions that earlier slots of the roster name. -/
def Plan.namedBefore (p : Plan) (i : Nat) : List Nat :=
  ((p.roster.take i).filter fun r => r.kind == 1).flatMap fun r =>
    r.sessions.filter fun n => ((p.sessionRec n).map SessionRec.typ) == some 2

/-- ROSTER. -/
def rosterRefs (p : Plan) (secs : List Sec) : List (Bool × Nat) :=
  let need := p.roster.filter fun r => p.blockBytes r != 0
  let total := (need.map p.blockBytes).sum
  let small := !need.isEmpty && match p.regions.find? fun r => r.cls == 2 with
    | none => true
    | some r => decide (r.size < total)
  p.roster.zipIdx.flatMap fun q =>
    let r := q.1
    let b := 4 * q.2
    let src := r.sources
    [(!(p.shaper.any fun x => x.slot == r.slot) || small && (need.head?.map RosterSlot.slot) == some r.slot
        || r.kind == 1 && !(hasSec secs 10 && hasSec secs 12), b),
     (r.ladder != 0xFFFF && !(p.ladders.any fun l => l.idx == r.ladder) || !(p.classes.any fun c => c.cls == r.estClass), b + 1),
     (r.kind == 1 && (p.slotSessionsBad r || r.sessions.any fun n => (p.namedBefore q.2).contains n), b + 2),
     (src.any fun n => match p.sources[n]? with | none => true | some d => d.home != 0, b + 3)]

/-- FANOUT: lists exist, receivers are slots of the roster, and no list of a descriptor holds the slot that names it. -/
def fanoutRefs (p : Plan) (ws : List Word) : List (Bool × Nat) :=
  let owner := fun i => (p.roster.filter fun r => r.sources.contains i).map RosterSlot.slot
  let absent := fun w => fld w 15 0 != 0xFFFF && decide (p.lists.length ≤ fld w 15 0)
  (p.sources.zipIdx.flatMap fun q =>
    let b := 1 + 12 * q.2
    (absent q.1.audioList, b + 1) :: q.1.layers.zipIdx.map fun l => (absent l.1, b + 2 + l.2))
  ++ p.lists.zipIdx.flatMap fun q =>
    let b := (wordAt ws (fanHeader ws q.2 + 1)).toNat / 4
    let owners := p.sources.zipIdx.flatMap fun d =>
      if (d.1.audioList :: d.1.layers).any fun w => fld w 15 0 == q.2 then owner d.2 else []
    q.1.zipIdx.map fun e => ((p.rosterSlot e.1).isNone || owners.contains e.1, b + e.2)

/-- SHAPER. -/
def shaperRefs (p : Plan) : List (Bool × Nat) :=
  p.shaper.zipIdx.map fun q => ((p.rosterSlot q.1.slot).isNone, 9 + 8 * q.2)

/-! ### Step 6: MIX, ROUTE, LAYOUT (R309, R319, R331, R354, R357, R359) -/

/-- The tasks of the plan with an OP, as (graph, task). -/
def Plan.tasksOf (p : Plan) (op : Nat) : List (GraphRec × TaskRec) :=
  p.graphs.flatMap fun g => (g.tasks.filter fun t => t.op == op).map fun t => (g, t)

/-- MIX: a bus served by no task or by several fails at its record (R298). -/
def mixRefs (p : Plan) (ws : List Word) : List (Bool × Nat) :=
  let n := p.sources.length
  (p.mix.pins.zipIdx.map fun q => (decide (n ≤ q.1), 3 + q.2 / 2))
  ++ (p.mix.rankSessions.zipIdx.map fun q =>
    (q.1 != 0xFFFF && ((p.sessionRec q.1).map SessionRec.typ) != some 0, 11 + q.2 / 2))
  ++ p.mix.buses.zipIdx.flatMap fun q =>
    let b := q.1
    let c0 := (wordAt ws (busAt q.2 + 3)).toNat / 4
    [(((p.tasksOf 5).countP fun t => t.2.ref == b.bus) != 1, busAt q.2),
     (!(p.routes.any fun r => r.ref == fld b.route 15 0 && r.bus == b.bus), busAt q.2 + 2)]
    ++ b.columns.zipIdx.map fun c =>
      (c.1.source != 0xFFFF && decide (n ≤ c.1.source) || c.1.rank.any fun k => decide (p.mix.k ≤ k), c0 + c.2)

/-- ROUTE: buses, columns, outputs, and layouts of the output. -/
def routeRefs (p : Plan) (ws : List Word) : List (Bool × Nat) :=
  ((p.routes.zip (routesIn ws)).flatMap fun q =>
    let cols := ((p.busRec q.1.bus).map fun b => b.columns.length).getD 0
    ((p.busRec q.1.bus).isNone, q.2.1 + 1) :: q.1.coeffs.zipIdx.map fun c =>
      (decide (cols ≤ c.1.1), q.2.1 + 2 + 3 * c.2))
  ++ p.layoutSels.zipIdx.flatMap fun q =>
    let b := selsAt ws + 3 * q.2
    [((p.outputRec q.1.output).isNone, b + 1),
     (((p.layoutRec (fld q.1.layout 15 0)).map Layout.output) != some q.1.output, b + 2)]

/-- Every number below `n` is the band of exactly one of the tasks. -/
def onePerBand (n : Nat) (ts : List TaskRec) : Bool :=
  ts.length == n && (List.range n).all fun k => ts.countP (fun t => fld t.param 5 0 == k) == 1

/-- The encode sessions of an output. -/
def Plan.encoders (p : Plan) (output : Nat) : List SessionRec := p.sessions.filter fun r => r.typ == 3 && r.output == output

/-- An output's compose and coarse-search tasks are wrong in number, or not all of one graph (R355, R378). -/
def Plan.bandTasksBad (p : Plan) (o : OutputRec) : Bool :=
  let comp := (p.tasksOf 7).filter fun t => t.2.ref == o.output
  let coarse := (p.tasksOf 8).filter fun t => t.2.ref == o.output
  let one := match comp with
    | [] => false
    | t :: r => r.all fun u => u.1.graph == t.1.graph
  !onePerBand (bandsOf o.h) (comp.map Prod.snd) || !one
    || !(p.encoders o.output).isEmpty && !onePerBand (bandsOf o.h) (coarse.map Prod.snd)

/-- LAYOUT. -/
def layoutRefs (p : Plan) (ws : List Word) : List (Bool × Nat) :=
  (p.outputs.zipIdx.flatMap fun q =>
    let o := q.1
    let b := outputAt q.2
    let enc := p.encoders o.output
    [(p.bandTasksBad o || !enc.isEmpty && enc.countP SessionRec.lead != 1, b),
     (p.regionBad o.region 0 (p.fbNeed o.region), b + 2),
     (((p.layoutRec (fld o.layout 15 0)).map Layout.output) != some o.output, b + 3)])
  ++ p.layouts.zipIdx.flatMap fun q =>
    let b := layoutAt ws q.2
    let l0 := layersAt (wordsAt ws b 8)
    ((p.outputRec q.1.output).isNone, b) :: q.1.layers.zipIdx.map fun l =>
      (l.1.source == 0 && ((p.sessionRec l.1.arg).map SessionRec.typ) != some 2
        || l.1.source == 4 && (l.1.arg == q.1.output || (p.outputRec l.1.arg).isNone), l0 + 8 * l.2 + 1)

/-! ### Step 6: task graphs (R108, R253, R289, R294, R298, R334, R355, R378, R379) -/

/-- The edges of a graph as (predecessor, successor, input). -/
def GraphRec.edges (g : GraphRec) : List (Nat × Nat × Nat) :=
  g.tasks.flatMap fun t => t.succ.map fun e => (t.index, fld e.1 11 0, fld e.1 23 12)

/-- Removes, `n` times, the tasks without a predecessor among those left. -/
def peel (edges : List (Nat × Nat × Nat)) : Nat → List Nat → List Nat
  | 0, left => left
  | n + 1, left => peel edges n (left.filter fun t => edges.any fun e => e.2.1 == t && left.contains e.1)

/-- A graph is acyclic. -/
def GraphRec.acyclic (g : GraphRec) : Bool := (peel g.edges g.tasks.length (List.range g.tasks.length)).isEmpty

/-- The tasks that precede task `i`. -/
def GraphRec.preds (g : GraphRec) (i : Nat) : List TaskRec := g.tasks.filter fun t => t.succ.any fun e => fld e.1 11 0 == i

/-- A DSP task's kernel is absent, its footprint too small, or its session's STATE_BYTES another (R289, R294). -/
def Plan.dspBad (p : Plan) (t : TaskRec) : Bool :=
  match p.kernelOf t.ref with
  | none => true
  | some k =>
    decide (k.2.1 < ceilDiv (k.1 + t.dep) 16 * 16)
      || (p.sessionRec t.session).any fun r => decide (r.typ < 2) && r.stateBytes != k.1

/-- A MIX_BUS task breaks R298. -/
def Plan.mixTaskBad (p : Plan) (g : GraphRec) (t : TaskRec) : Bool :=
  match p.busRec t.ref with
  | none => true
  | some b =>
    t.param != 0 || t.dep != b.columns.length || t.succ.length != b.taps.length || t.outBlocks != b.taps.length
      || t.fbWrite != 0 || g.arrival || g.num != 10000000 * g.den

/-- A DECODE_PICTURE task breaks R334. -/
def Plan.decodeTaskBad (p : Plan) (g : GraphRec) (t : TaskRec) : Bool :=
  !g.arrival || g.tasks.length != 1 || t.dep != 0 || !t.succ.isEmpty || !t.sessionFlow || t.session != g.session
    || t.ref != 0 || t.param != 0 || t.budget != 0 || t.outBlocks != 0 || t.fbWrite != 1
    || ((p.sessionRec t.session).map SessionRec.typ) != some 2

/-- A COMPOSE_ROW task breaks R355. -/
def Plan.composeTaskBad (p : Plan) (g : GraphRec) (t : TaskRec) : Bool :=
  match p.outputRec t.ref with
  | none => true
  | some o =>
    !zeroFrom t.param 6 || t.fbWrite != 1 + b2n o.dual || t.outBlocks != 0 || t.session != 0xFFFF || t.flowValid
      || t.sessionFlow || g.arrival || g.list != 1

/-- The graph of an output's COMPOSE_ROW tasks. -/
def Plan.composeGraph (p : Plan) (output : Nat) : Option Nat :=
  ((p.tasksOf 7).find? fun x => x.2.ref == output).map fun x => x.1.graph

/-- A COARSE_SEARCH task breaks R378. -/
def Plan.coarseTaskBad (p : Plan) (g : GraphRec) (t : TaskRec) : Bool :=
  let band := fld t.param 5 0
  !zeroFrom t.param 6 || !((p.encoders t.ref).any fun r => r.lead && r.session == t.session) || t.flowValid || t.sessionFlow
    || t.fbWrite != 1 || t.outBlocks != 0 || p.composeGraph t.ref != some g.graph
    || !((g.preds t.index).any fun u => u.op == 7 && u.ref == t.ref && fld u.param 5 0 == band)
    || g.tasks.any fun u => u.op == 9 && (t.succ.any fun e => fld e.1 11 0 == u.index) && decide (u.prio < t.prio)

/-- An ENCODE_ROW task breaks R379. -/
def Plan.encodeTaskBad (p : Plan) (g : GraphRec) (t : TaskRec) : Bool :=
  match (p.sessionRec t.session).filter fun r => r.typ == 3 && r.output == t.ref, p.outputRec t.ref with
  | some r, some o =>
    let pre := g.preds t.index
    !zeroFrom t.param 6 || !t.sessionFlow || p.composeGraph t.ref != some g.graph || t.fbWrite != 1
      || decide (t.outBlocks * 4096 < 64 + r.skipBytes o)
      || !((r.covers o (fld t.param 5 0)).all fun b => pre.any fun u => u.op == 8 && u.ref == t.ref && fld u.param 5 0 == b)
  | _, _ => true

/-- The checks of a task by its OP. -/
def Plan.taskOpBad (p : Plan) (g : GraphRec) (t : TaskRec) : Bool :=
  match t.op with
  | 5 => p.mixTaskBad g t
  | 6 => p.decodeTaskBad g t
  | 7 => p.composeTaskBad g t
  | 8 => p.coarseTaskBad g t
  | 9 => p.encodeTaskBad g t
  | _ => p.dspBad t

/-- A section that a task requires is absent (R100). -/
def taskNeeds (secs : List Sec) (t : TaskRec) : Bool :=
  t.op == 5 && !hasSec secs 7 || t.op == 7 && !hasSec secs 9
    || decide (t.op ≤ 4) && (residentBudget t.ref).isNone && !hasSec secs 11

/-- A task of graph `g` at word `b`: an edge to no task, a wrong dependence count or wrong inputs, an absent session or a
session of TYPE 2 outside its graph (R253, R334), and what its OP requires. -/
def Plan.taskRefs (p : Plan) (secs : List Sec) (ws : List Word) (g : GraphRec) (b : Nat) (t : TaskRec) : List (Bool × Nat) :=
  let ins := (g.edges.filter fun e => e.2.1 == t.index).map fun e => e.2.2
  let s0 := succAt ws (wordAt ws (b + 7)).toNat
  [(taskNeeds secs t, b),
   (ins.length != t.dep || !((List.range t.dep).all fun k => ins.contains k), b + 1),
   (t.session != 0xFFFF && (p.sessionRec t.session).isNone
      || t.op != 6 && ((p.sessionRec t.session).map SessionRec.typ) == some 2 || p.taskOpBad g t, b + 2)]
  ++ t.succ.zipIdx.map fun e => (decide (g.tasks.length ≤ fld e.1.1 11 0), s0 + 2 * e.2)

/-- TASKGRAPH: a cycle fails at the graph's first word (log entry 45). -/
def graphRefs (p : Plan) (secs : List Sec) (ws : List Word) : List (Bool × Nat) :=
  p.graphs.zipIdx.flatMap fun q =>
    let g := q.1
    [(!g.acyclic, graphAt q.2),
     (g.arrival && ((p.sessionRec g.session).isNone
        || ((p.sessionRec g.session).map SessionRec.typ) == some 2
          && !(g.tasks.map TaskRec.op == [6] && (p.graphs.countP fun h => h.arrival && h.session == g.session) == 1)),
      graphAt q.2 + 2)]
    ++ g.tasks.zipIdx.flatMap fun t => p.taskRefs secs ws g (taskAt ws (firstTask ws q.2 + t.2)) t.1

/-! ### Step 6: sessions (R331, R333, R334, R376, R377) -/

/-- Sessions with one SOURCE differ in FORMAT, OUTPUT or T_LAYERS, repeat a RUNG, or lack RUNG 0 (R376). -/
def Plan.rungsWrong (p : Plan) (r : SessionRec) : Bool :=
  let mates := p.sessions.filter fun x => x.typ == 3 && x.source == r.source
  (mates.any fun x => x.format != r.format || x.output != r.output || x.tLayers != r.tLayers)
    || mates.countP (fun x => x.rung == r.rung) != 1 || !mates.any fun x => x.rung == 0

/-- An encode session against its output (R376). -/
def Plan.encoderBad (p : Plan) (r : SessionRec) : Bool :=
  match p.outputRec r.output with
  | none => true
  | some o =>
    decide (rungDim o.w r.scale < 64) || decide (rungDim o.h r.scale < 64) || r.deep && !o.deep
      || !r.deep && r.scale == 0 && o.deep && !o.dual
      || !onePerBand (r.bandsR o) (((p.tasksOf 9).filter fun x => x.2.session == r.session).map Prod.snd)

/-- SESSION. -/
def sessionRefs (p : Plan) : List (Bool × Nat) :=
  p.sessions.zipIdx.flatMap fun q =>
    let r := q.1
    let b := sessionAt q.2
    let state := p.regionBad r.stateRegion 3 (p.stateNeed r.stateRegion)
    let fb := p.regionBad r.fbRegion 0 (p.fbNeed r.fbRegion)
    if r.typ < 2 then
      [((match p.kernelOf r.kernel with | none => true | some k => k.1 != r.stateBytes), b + 1), (state, b + 2)]
    else if r.typ = 2 then
      [((p.sessionSlot r.session).isNone || !p.graphs.any fun g => g.arrival && g.session == r.session, b), (fb, b + 3),
       (state, b + 4)]
    else
      [(p.rungsWrong r, b), (p.encoderBad r || decide (p.sources.length ≤ r.source), b + 1), (fb, b + 2), (state, b + 3)]

/-- Step 6: cross-references. -/
def refsBad (p : Plan) (secs : List Sec) : List (Nat × Nat) :=
  secs.flatMap fun x =>
    x.fails <| match x.id with
      | 1 => rosterRefs p secs
      | 2 => fanoutRefs p x.ws
      | 5 => shaperRefs p
      | 7 => mixRefs p x.ws
      | 8 => routeRefs p x.ws
      | 9 => layoutRefs p x.ws
      | 10 => graphRefs p secs x.ws
      | 12 => sessionRefs p
      | _ => []

/-! ### Step 7 (R108, R333, R404, R405) -/

/-- The plans whose claims count against a load into bank `b` of conference `c`. -/
def State.claims (s : State) (c b : Nat) : List Plan :=
  s.confs.flatMap fun x => x.2.banks.zipIdx.filterMap fun k => if x.1 = c ∧ k.2 = b then none else k.1.plan

/-- Pseudo-channels that may hold the regions of the placement pool: common ones in service (R400, R405). -/
def State.poolPchs (s : State) : List Nat := (List.range 192).filter fun n => !isVault n && s.pchIn n

/-- A mask of numbers. -/
def maskOf (ns : List Nat) : Nat := (ns.map fun n => 2 ^ n).sum

/-- The channel set of a region, as a mask (R405). -/
def State.channelSet (s : State) (mask : Nat) : Nat := maskOf (s.poolPchs.filter fun n => mask.testBit n)

/-- Extents of 64 KiB that an installed region takes on pseudo-channel `n` (R405). -/
def Region.extentsOn (r : Region) (n : Nat) : Nat :=
  if r.pchMask.testBit n then ceilDiv r.size (popCount 192 r.pchMask * 65536) else 0

/-- Extents that plans take on pseudo-channel `n`. -/
def extentsOn (ps : List Plan) (n : Nat) : Nat := ((ps.flatMap Plan.regions).map fun r => r.extentsOn n).sum

/-- The plan with the channel sets of its regions. -/
def State.place (s : State) (p : Plan) : Plan :=
  { p with regions := p.regions.map fun r => { r with pchMask := s.channelSet r.pchMask } }

/-- Vault pseudo-channels in service. -/
def State.vaults (s : State) : Nat := (List.range 192).countP fun n => isVault n && s.pchIn n

/-- A placed plan does not fit beside the others. -/
def State.noRoom (s : State) (others : List Plan) (p : Plan) : Bool :=
  let ps := p :: others
  let pix := fun (q : Plan) => ((q.sessions.filter fun r => r.typ == 2).map SessionRec.pixelRate).sum
  decide (262144 < (ps.map Plan.tasks).sum) || decide (131072 < (ps.map Plan.frameBuffers).sum)
    || decide (65536 < (ps.map Plan.flows).sum) || decide (48000 < (ps.map pix).sum)
    || decide (10224 * s.vaults < (ps.map fun q => ceilDiv q.length 65536).sum)
    || (p.regions.any fun r => r.pchMask == 0)
    || (List.range 192).any fun n => decide (10768 < extentsOn ps n)

/-! ### The validation as a whole (R108) -/

/-- What the validation of an image ends with. -/
inductive PlanEnd where
  | ok (p : Plan)
  | badArg (sec off : Nat)
  | integrity
  | noResource
  deriving DecidableEq, Repr, Inhabited

/-- The first failing word of the first of the steps 1 to 4 and 6 that fails, with step 5 before step 6. -/
def State.validate (s : State) (l : Load) (img : List Word) : PlanEnd :=
  let epoch := ((s.conf l.conf).active).map Plan.epoch
  let step := fun (bad : List (Nat × Nat)) (next : Unit → PlanEnd) =>
    match firstBad bad with
    | some b => .badArg b.2 b.1
    | none => next ()
  step (headerBad img l.conf l.length epoch) fun _ =>
  step (directoryBad img l.length) fun _ =>
  step (crcBad img) fun _ =>
    let secs := (directory img).map (DirEntry.sec img)
    let p := parsePlan img secs
    step (fieldsBad p secs) fun _ =>
      if !p.pairsOk then .integrity
      else step (refsBad p secs) fun _ =>
        let q := s.place p
        if s.noRoom (s.claims l.conf l.bank) q then .noResource else .ok q

end Sys2Proof.Machine
end

