-- ==== Sys2Proof/Machine/Sched.lean ====
section
/-! DEFINITION. The steps of the task scheduler: ticks, releases, deadlines, dispatch, pre-emption, completions, aborts and the
return of fenced instances (R254 to R273, R458). -/

namespace Sys2Proof.Machine

/-! ### Credit (R261) -/

/-- Whose buffers a task of a DSP core can be leased: its session's, or any of its bank's where it has no session with buffers
(R261; DESIGN CHOICE, log entry 125). -/
def State.dspOwners (s : State) (l : Live) : List FbOwner :=
  let g := s.runOf l
  let p := s.runPlan g
  let all := (p.sessions.filterMap fun r => (s.sessNo g.conf g.bank r.session).map FbOwner.session)
    ++ p.outputs.filterMap fun o => (s.outNo g.conf g.bank o.output).map FbOwner.output
  match s.taskSess l with
  | none => all
  | some i => if (s.fbs (.session i)).isEmpty then all else [.session i]

/-- `n` FREE buffers of some owners. -/
def State.freeFbs (s : State) (os : List FbOwner) : Nat → List (FbOwner × Nat) → Option (List (FbOwner × Nat))
  | 0, got => some got
  | n + 1, got =>
    match os.findSome? fun o => (s.freeFb o ((got.filter fun b => b.1 == o).map Prod.snd)).map fun k => (o, k) with
    | none => none
    | some b => s.freeFbs os n (got ++ [b])

/-- The buffers that a task would be leased for writing: none where its credit cannot be reserved (R261, R340, R354, R377,
R379). -/
def State.wantBufs (s : State) (l : Live) : Option (List (FbOwner × Nat)) :=
  let g := s.runOf l
  let p := s.runPlan g
  let one := fun (o : FbOwner) => (s.freeFb o []).map fun k => [(o, k)]
  if l.task.op = 6 then
    match s.taskSess l with | some i => one (.session i) | none => some []
  else if l.task.op = 7 then
    match s.outNo g.conf g.bank l.task.ref with
    | none => some []
    | some i =>
      match s.freeFb (.output i) [] with
      | none => none
      | some k =>
        if l.task.fbWrite < 2 then some [(.output i, k)]
        else (s.freeFb (.output i) [k]).map fun j => [(.output i, k), (.output i, j)]
  else if l.task.op = 8 then
    match (p.outputRec l.task.ref).bind fun o => s.leadNo p g.bank o with
    | some i => one (.pyramid i)
    | none => some []
  else if l.task.op = 9 then
    match s.taskSess l with
    | none => some []
    | some i =>
      match (s.sessAt i).enc.pic with
      | some c => if c.inst = l.run then some ((c.fb.map fun k => [(.session i, k)]).getD []) else one (.session i)
      | none => one (.session i)
  else s.freeFbs (s.dspOwners l) l.task.fbWrite []

/-- Task `u` stands before task `t` in the ready lists of an engine kind (R260). -/
def State.readyBefore (s : State) (kind u t : Nat) : Bool :=
  let q := (List.range 8).flatMap fun p => s.sched.ready.getD [] (kind * 8 + p)
  decide (q.idxOf u < q.idxOf t)

/-- Whether an earlier task of the kind is pinned for a type of credit, 0 blocks, 1 frame buffers: later ones take none (R261). -/
def State.pinnedBy (s : State) (kind typ t : Nat) : Bool :=
  match s.sched.pinned.find? (kind * 2 + typ) with
  | none => false
  | some u => u != t && s.readyBefore kind u t

/-- The buffers of a task whose credit can be reserved at once; else the type of credit that is short (R261). -/
def State.credit (s : State) (t : Nat) (l : Live) : Sum (List (FbOwner × Nat)) Nat :=
  let g := s.runOf l
  let kind := engKind l.task.op
  let blocksOk := l.task.outBlocks == 0 ||
    (!s.pinnedBy kind 0 t && decide (s.poolUsed (g.conf * 2 + g.bank) + l.task.outBlocks ≤ (s.runPlan g).poolBlocks))
  if !blocksOk then .inr 0
  else if l.task.fbWrite ≠ 0 ∧ s.pinnedBy kind 1 t then .inr 1
  else match s.wantBufs l with | some b => .inl b | none => .inr 1

/-- A task skipped for credit: counted once in CREDIT_WAITS, pinned after 64 consecutive skips (R261). -/
def State.skip (s : State) (t typ : Nat) : State :=
  match s.live? t with
  | none => s
  | some l =>
    let s := if l.skips = 0 then s.countSched 9 1 else s
    let s := (s.updLive t fun l => { l with skips := l.skips + 1 }).traceTask 7 t (l.skips + 1)
    let key := engKind l.task.op * 2 + typ
    if 64 ≤ l.skips + 1 ∧ !s.sched.pinned.has key then s.updSched fun x => { x with pinned := x.pinned.put key t } else s

/-! ### Dispatch (R260, R261, R266, R271) -/

/-- The pictures of its own session that a task may refer to: those on a decode session's reference list, and the one that the
picture of an encode session predicts from (R271, R339, R384). -/
def State.refReads (s : State) (l : Live) : List (FbOwner × Nat) :=
  match s.taskSess l with
  | none => []
  | some i =>
    let x := s.sessAt i
    if l.task.op = 6 then x.refs.filterMap fun n => (x.bufOf n).map fun k => (FbOwner.session i, k)
    else if l.task.op = 9 then
      match x.enc.pic with
      | some c => if c.inst = l.run ∧ !c.dropped then (c.refFb.map fun k => (FbOwner.session i, k)).toList else []
      | none => []
    else []

/-- The buffers that a task reads, each held by an FB_READ lease (R271, R360, R373, log entry 51). -/
def State.taskReads (s : State) (l : Live) : List (FbOwner × Nat) :=
  let g := s.runOf l
  let p := s.runPlan g
  (match p.outputRec l.task.ref with
  | none => []
  | some o =>
    let band := fld l.task.param 5 0
    let done := fun b =>
      match s.outNo g.conf g.bank o.output, g.latches.find? o.output with
      | some i, some x => (x.done.getD [] b).map fun k => (FbOwner.output i, k)
      | _, _ => []
    if l.task.op = 7 then s.bandReads g o band
    else if l.task.op = 8 then done band
    else if l.task.op = 9 then
      match p.sessionRec l.task.session with
      | none => []
      | some r => (r.covers o band).flatMap fun b => done b ++ (s.pyramidOf g o b).toList
    else []) ++ s.refReads l

/-- The ready tasks of a flow wait on it once a task of the flow is dispatched (R262). -/
def State.claimFlow (s : State) (t : Nat) (l : Live) : State :=
  match s.flowKey l with
  | none => s
  | some k =>
    let s := s.updSched fun x => { x with flows := x.flows.put k t }
    let others := s.sched.lives.filter fun p => p.1 != t && p.2.st == .ready && s.flowKey p.2 == some k
    others.foldl (fun (s : State) p => (s.updSched fun x => x.unready p.1).waitFlow p.1 k p.2) s

/-- The leases that a dispatch grants (R271); the number of the TASK lease's record. -/
def State.grantAll (s : State) (t : Nat) (l : Live) (kind e : Nat) (held : List (FbOwner × Nat)) : Nat × State :=
  let g := s.runOf l
  let a := s.grant kind e 1 t t 0
  let s := a.2
  let s := match s.flowKey l with | some k => (s.grant kind e 2 (Config.deviceFlow k) t 0).2 | none => s
  let s := l.bufs.foldl (fun (s : State) b => (s.grant kind e 3 b.2 t 0).2) s
  let s := held.foldl (fun (s : State) b => ((s.grant kind e 4 b.2 t 0).2).readFb b) s
  let s := if l.task.outBlocks = 0 then s else (s.grant kind e 5 l.task.outBlocks t (g.conf * 2 + g.bank)).2
  (a.1, s)

/-- Dispatches task `t` on engine `e` with the buffers of its FB_WRITE credit (R260, R261, R266). -/
def State.dispatch (s : State) (t e : Nat) (bufs : List (FbOwner × Nat)) : State :=
  match s.live? t with
  | none => s
  | some l0 =>
    let kind := engKind l0.task.op
    let l : Live := { l0 with st := .dispatched, kind := kind, eng := e, orderNo := s.sched.orderNo, bufs := bufs
                              blocks := l0.task.outBlocks }
    let s := s.updSched fun x => { (x.unready t) with orderNo := x.orderNo + 1 }
    let s := (s.updLive t fun _ => l).claimFlow t l
    let g := s.runOf l
    let s := match (s.runPlan g).outputRec l.task.ref with
      | some o => if l.task.op = 7 then (s.latch l.run o).latchBand l.run o (fld l.task.param 5 0) else s
      | none => s
    let s := bufs.foldl (fun (s : State) b => s.updFb b.1 b.2 fun x =>
      if x.st = .writing then x else { st := .writing }) s
    let s := if l.task.op = 9 then s.encDispatch l.run l.task ((bufs.head?.map Prod.snd).getD 0) else s
    let held := s.taskReads l
    let a := s.grantAll t l kind e held
    let s := a.2
    let ns := s.budgetNs l
    let s := s.putDue 3 (s.launchNs + ns) (.budget t)
    let s := s.updLive t fun l =>
      { l with
        lease := some a.1, held := held, due := some (s.launchNs + ns), budgetNs := ns
        ringAt := ((s.taskSess l).map fun i => (s.sessAt i).ring.length).getD 0
        era := ((s.taskSess l).map fun i => (s.sessAt i).era).getD 0 }
    let s := if kind = 0 then
        match (s.dsp e).freeSlot with | some k => s.dspStart e k t | none => s
      else s
    let s := match s.taskSess l with
      | some i => s.updSched fun x => { x with lastEng := x.lastEng.put (kind * 2 ^ 40 + i) e }
      | none => s
    (s.countSched 3 1).traceTask 3 t l.blocks

/-- The numerically highest priority that THROTTLE's reductions leave in dispatch (R472). -/
def Thermal.limit (t : Thermal) : Nat := if t.step = 0 then 7 else if t.step = 1 then 5 else if t.step < 5 then 3 else 1

/-- The ready tasks of a kind in the order of service (R260); those of priorities that THROTTLE holds back stay in their
lists, but for the audio engine's (R472). -/
def State.readyTasks (s : State) (kind : Nat) : List Nat :=
  ((List.range 8).filter fun p => kind == 1 || decide (p ≤ s.thermal.limit)).flatMap fun p =>
    s.sched.ready.getD [] (kind * 8 + p)

/-- Tries the ready tasks in order: those short of credit are skipped, the first with credit and an engine is dispatched
(R260, R261). -/
def State.tryDispatch (s : State) (kind : Nat) : List Nat → State
  | [] => s
  | t :: r =>
    match s.live? t with
    | none => s.tryDispatch kind r
    | some l =>
      match s.pickEngine kind l.task.prio (s.taskSess l) with
      | none => s
      | some e =>
        match s.credit t l with
        | .inl bufs => s.dispatch t e bufs
        | .inr typ => (s.skip t typ).tryDispatch kind r

/-- TASK_DISPATCH: at most one dispatch of an engine kind (R260), in the modes in which the engines have their clocks (R38). -/
def taskDispatch (kind : Nat) (s : State) : State :=
  let s := s.begin
  if !s.portsRun then s else s.tryDispatch kind (s.readyTasks kind)

def execTaskDispatch (kind : Nat) (s : State) : Res := .next (taskDispatch kind s)

/-! ### Pre-emption (R267, R287) -/

/-- Tasks running on DSP cores, not suspended and not yet ended, that a task of priority `prio` may displace. -/
def State.victims (s : State) (prio : Nat) : List (Nat × Live) :=
  s.sched.lives.filter fun p => p.2.st == .dispatched && p.2.kind == 0 && !p.2.suspended && p.2.reported.isNone
    && decide (prio < p.2.task.prio) && (s.dsp p.2.eng).freeSlot.isSome && s.engUsable 0 p.2.eng

/-- The victim of R267: the numerically highest priority, among equals the task dispatched last. -/
def State.victim (s : State) (prio : Nat) : Option (Nat × Live) :=
  (s.victims prio).foldl (fun (a : Option (Nat × Live)) p =>
    match a with
    | none => some p
    | some q => if q.2.task.prio < p.2.task.prio ∨ (q.2.task.prio = p.2.task.prio ∧ q.2.orderNo < p.2.orderNo) then some p
                else some q) none

/-- The first ready DSP task of priority 0 to 3 that has credit and no idle core (R267). -/
def State.preemptor (s : State) : Option (Nat × Live × List (FbOwner × Nat)) :=
  (s.readyTasks 0).findSome? fun t =>
    match s.live? t with
    | none => none
    | some l =>
      if 3 < l.task.prio ∨ (s.pickEngine 0 l.task.prio (s.taskSess l)).isSome then none
      else match s.credit t l with | .inl b => some (t, l, b) | .inr _ => none

/-- PREEMPT: at an unmasked bundle boundary the victim's core saves its task and starts the pre-empting one (R267, R287,
R288). Its BUDGET stands still; the timer of an abort already requested runs on (R268). -/
def preempt (core : Nat) (s : State) : State :=
  let s := s.begin
  match if s.portsRun then s.preemptor else none with
  | none => s
  | some q =>
    match s.victim q.2.1.task.prio with
    | none => s
    | some v =>
      let masked := match (s.dsp core).running with
        | some k => ((s.dsp core).slot k).pm
        | none => true
      if v.2.eng != core || masked then s
      else
        let left := (v.2.due.getD 0) - s.launchNs
        let s := (s.updLive v.1 fun l => { l with suspended := true, left := left, due := none }).dropDue fun e => e == .budget v.1
        let s := (s.dispatch q.1 core q.2.2).countSched 4 1
        s.traceTask 4 q.1 (v.1 % 65536)

def execPreempt (core : Nat) (s : State) : Res := .next (preempt core s)

/-- RESUME: a suspended task resumes where its core would otherwise take a ready task of the same or a numerically higher
priority, or nothing (R267, R269, R287). -/
def resume (core : Nat) (s : State) : State :=
  let s := s.begin
  let c := s.dsp core
  match c.running, if s.portsRun then c.suspended else [] with
  | none, k :: rest =>
    match (c.slot k).task with
    | none => s
    | some t =>
      match s.live? t with
      | none => s
      | some l =>
        let better := s.engUsable 0 core && (s.readyTasks 0).any fun u =>
          match s.live? u with
          | none => false
          | some m => decide (m.task.prio < l.task.prio) && (match s.credit u m with | .inl _ => true | .inr _ => false)
        if better then s
        else
          let due := s.launchNs + l.left
          let s := s.updDsp core fun x => { x with running := some k, suspended := rest }
          let s := s.updLive t fun l => { l with suspended := false, due := some due }
          let s := if l.abortAt.isSome then s else s.putDue 3 due (.budget t)
          s.traceTask 5 t 0
  | _, _ => s

def execResume (core : Nat) (s : State) : Res := .next (resume core s)

/-! ### Completions (R258, R259) -/

/-- The owner tag of a lease record: word 0 [15:0] (R270). -/
def Lease.tag (x : Lease) : Nat := x.ownerKind * 4096 + x.ownerInst

/-- Whether a completion with an owner tag and a generation is that of the task's TASK lease, which is live (R259). -/
def State.leaseLive (s : State) (t owner gen : Nat) : Bool :=
  (((s.live? t).bind Live.lease).bind fun n => s.sched.leases.find? n).any fun x =>
    x.kind == 1 && x.task == t && x.tag == owner && x.gen == gen

/-- TASK_COMPLETION: a completion is accepted while its lease is live; another is stale (R258, R259). It carries the status with
which its engine has ended the task; before that there is no completion (R289). `records` are the packet records that a kernel
wrote into window 1. -/
def taskCompletion (task owner gen : Nat) (records : List (List Word)) (cycles : Nat) (s : State) : State :=
  let s := s.begin
  match s.live? task with
  | none => s.countSched 14 1
  | some l =>
    if !s.leaseLive task owner gen then s.countSched 14 1
    else
      match l.reported with
      | none => s
      | some st => (s.updLive task fun l => l.withRecords records).completeTask task st cycles

def execTaskCompletion (task owner gen : Nat) (records : List (List Word)) (cycles : Nat) (s : State) : Res :=
  .next (taskCompletion task owner gen records cycles s)

/-! ### Ticks and timers (R254, R256, R263, R264, R268) -/

/-- The entries that a tick at instant `t` takes from delay list `i`, after those left over from the last tick (R264). -/
def Sched.dueOf (x : Sched) (t i : Nat) : List (Nat × Due) :=
  (x.dueQ.filter fun e => e.1 == i) ++ ((x.lists.getD i []).filter fun p => decide (p.1 ≤ t)).map fun p => (i, p.2)

/-- SCHEDULER_TICK: at a tick every entry due is taken, list 2 first, then 3, 0 and 1; entries of the last tick not yet acted on
count an overrun and go first within their list (R264). Ticks fall every TICK_US from launch-clock zero on, a new period from the
next tick on (R274; DESIGN CHOICE, log entry 126); the tick taken is the last one due. -/
def schedulerTick (s : State) : State :=
  let s := s.begin
  let now := s.launchNs
  let x := s.sched
  if now < x.tickAt ∨ !s.time.running then s
  else
    let t := x.tickAt + (now - x.tickAt) / (x.tickUs * 1000) * (x.tickUs * 1000)
    let s := if x.dueQ.isEmpty then s else s.countSched 17 1
    s.updSched fun x =>
      { x with
        tickAt := t + x.tickUs * 1000
        dueQ := [2, 3, 0, 1].flatMap (x.dueOf t)
        lists := x.lists.map fun l => l.filter fun p => decide (t < p.1) }

def execSchedulerTick (s : State) : Res := .next (schedulerTick s)

/-- The entry next in order among those taken. -/
def State.takeDue (s : State) : Option (Due × State) :=
  match s.sched.dueQ with
  | [] => none
  | e :: r => some (e.2, s.updSched fun x => { x with dueQ := r })

/-- Inserts a TICK graph's release number `k` (R263). -/
def State.putRelease (s : State) (c b loadNo : Nat) (d : GraphRec) (k : Nat) : State :=
  s.putDue d.list (d.instant k) (.release c b loadNo d.graph k)

/-- GRAPH_RELEASE: a TICK graph's release is taken, its next one inserted (R254, R255, R264). A bank that has left ACTIVE
releases no more (R114). DESIGN CHOICE (log entry 126): a release due before a switch and taken after it belongs to no bank, since
the new bank's graphs begin at the first instant at or after the switch. -/
def graphRelease (s : State) : State :=
  let s := s.begin
  match s.takeDue with
  | some (.release c b n g k, s) =>
    let bank := (s.conf c).bank b
    match bank.plan with
    | none => s
    | some p =>
      if bank.st ≠ .active ∨ p.loadNo ≠ n then s
      else
        match p.graphRec g with
        | none => s
        | some d =>
          let s := s.putRelease c b n d (k + 1)
          if s.releases then s.release c b d k (d.instant k) none else s
  | _ => s

def execGraphRelease (s : State) : Res := .next (graphRelease s)

/-- INSTANCE_DEADLINE: the undispatched tasks of the instance fail (R256). -/
def instanceDeadline (s : State) : State :=
  let s := s.begin
  match s.takeDue with
  | some (.deadline r, s) => (s.endRun r true).finishRun r
  | _ => s

def execInstanceDeadline (s : State) : Res := .next (instanceDeadline s)

/-- Requests the abort of a dispatched task (R268). -/
def State.requestAbort (s : State) (t : Nat) (revoke : Bool) : State :=
  let s := s.updLive t fun l => { l with abortAt := some s.launchNs, revoking := revoke }
  (s.putDue 3 (s.launchNs + 10000) (.abort t)).traceTask 10 t 0

/-- TASK_BUDGET_EXPIRY: an abort is requested; a decoder conceals instead, within 30 us (R266, R268, R343). -/
def taskBudgetExpiry (s : State) : State :=
  let s := s.begin
  match s.takeDue with
  | some (.budget t, s) =>
    match s.live? t with
    | none => s
    | some l =>
      if l.st ≠ .dispatched then s
      else if l.kind = 2 then
        ((s.updLive t fun l => { l with budgetHit := true }).countConf (s.runOf l).conf 18 1).putDue 3
          (s.launchNs + 30000) (.abort t)
      else s.requestAbort t false
  | _ => s

def execTaskBudgetExpiry (s : State) : Res := .next (taskBudgetExpiry s)

/-- ABORT_ACK within 10 us of the request: the task completes FAILED; an abort at BUDGET counts in ABORTS, one of a revoked instance
revokes its leases (R268, R273). -/
def abortAck (task : Nat) (s : State) : State :=
  let s := s.begin
  match s.live? task with
  | none => s
  | some l =>
    if l.st ≠ .dispatched ∨ !(l.abortAt.any fun t => decide (s.launchNs ≤ t + 10000)) ∨ l.reported.isSome then s
    else if l.revoking then s.revokeTask task
    else (s.countSched 11 1).completeTask task 2 0

def execAbortAck (task : Nat) (s : State) : Res := .next (abortAck task s)

/-- Takes the abort timer of a task where it is next in order. -/
def State.takeAbort (s : State) (t : Nat) : Option State :=
  match s.takeDue with
  | some (.abort u, s') => if u = t then some s' else none
  | _ => none

/-- ABORT_TIMEOUT: an engine that has not acknowledged within 10 us is fenced (R268, R272). -/
def abortTimeout (task : Nat) (s : State) : State :=
  let s := s.begin
  match s.live? task, s.takeAbort task with
  | some l, some s => if l.st = .dispatched ∧ l.abortAt.isSome then s.fenceEngine l.kind l.eng 0 task else s
  | _, _ => s

def execAbortTimeout (task : Nat) (s : State) : Res := .next (abortTimeout task s)

/-- DECODER_OVERRUN: a decoder that has not completed 10 us after its budget concealment is fenced (R343). -/
def decoderOverrun (task : Nat) (s : State) : State :=
  let s := s.begin
  match s.live? task, s.takeAbort task with
  | some l, some s => if l.st = .dispatched ∧ l.budgetHit then s.fenceEngine 2 l.eng 1 task else s
  | _, _ => s

def execDecoderOverrun (task : Nat) (s : State) : Res := .next (decoderOverrun task s)

/-! ### The return of fenced instances (R458) -/

/-- Fences of an instance within the last 24 h. -/
def State.recentFences (s : State) (id : Nat) : Nat :=
  (s.avail.fences.getD [] id).countP fun t => decide (s.now < t + 86400000000000)

/-- FENCED_INSTANCE_RELEASE: 10 ms after a fence the reset is released and the instance tested; it returns if it passes and
this is not its third fence in 24 h (R458, R460). -/
def fencedInstanceRelease (kind inst : Nat) (result : TestResult) (s : State) : State :=
  let s := s.begin
  let id := instId kind inst
  match s.avail.down.find? id with
  | none => s
  | some f =>
    if !f.held ∨ s.avail.lent.has id ∨ s.now < f.since + 10000000 ∨ 5 < kind then s
    else
      let n := s.recentFences id
      let stay := fun (s : State) =>
        { s with avail := { s.avail with down := s.avail.down.put id { f with held := false } } }
      if !result.pass then (stay s).fault 0x2B 7 id (w32 result.detail) 0
      else if 3 ≤ n then stay s
      else (s.fault 0x2C 7 id (w32 n) 0).instanceUp kind inst

def execFencedInstanceRelease (kind inst : Nat) (result : TestResult) (s : State) : Res :=
  .next (fencedInstanceRelease kind inst result s)

end Sys2Proof.Machine
end

