-- ==== Sys2Proof/Machine/Plans.lean ====
section
/-! DEFINITION. PLAN_LOAD, PLAN_COMMIT, the media tick with the epoch switch and the selection of talkers, and the retirement
of banks (R80, R96 to R98, R107 to R114, R118, R119, R188, R239, R273, R314 to R318, R326, R441, R446). -/

namespace Sys2Proof.Machine

/-! ### PLAN_LOAD -/

/-- Ends the DMA lease of one fetch of a function (R441). -/
def State.endFetch (s : State) (fn : Nat) : State :=
  match List.find? (fun x : Nat × Lease => x.2.task == dmaTask fn 4) s.sched.leases with
  | none => s
  | some x => s.updSched fun y => { y with leases := y.leases.del x.1 }

/-- Bytes of the staging area in use (R107). -/
def State.staged (s : State) : Nat := (s.loads.map fun p => p.2.length).sum

/-- The states of the banks forbid a PLAN_LOAD (R98, R188). -/
def State.loadBusy (s : State) (conf : Nat) : Bool :=
  let g := s.conf conf
  let b := g.bank g.standbyNo
  g.banks.any (fun x => x.st == .pending) || b.st == .loading || b.st == .retiring
    || b.leftActive.any fun t => decide (s.now < t + 2000000000)

/-- The commit of a PLAN_LOAD: its bank is LOADING, and the fetch starts (R107, R440, R441). -/
def State.startLoad (s : State) (id fn conf addr length : Nat) : State :=
  let g := s.conf conf
  let b := g.standbyNo
  let l : Load := { conf := conf, bank := b, fn := fn, addr := addr, length := length, aborted := (s.func fn).held }
  let s := s.updConf conf fun g => g.setBank b fun x => { x with st := .loading, prev := x.st }
  ({ s with loads := s.loads.put id l } : State).grantDma fn 4

/-- PLAN_LOAD up to its commit point. -/
def planLoadBody (id : Nat) (c : Taken) (s : State) : State :=
  let conf := fld (c.w 3) 15 0
  let addr := num64 (c.w 4) (c.w 5)
  let len := (c.w 6).toNat
  s.checked id
    [(!c.lenIs 7 || !zeroFrom (c.w 3) 16 || addr % 64 != 0 || outside 4096 268435456 len || len % 64 != 0, rBadArg),
     (!s.hasConf c.fn conf, rDenied), (!s.serves 0x020, rWrongMode), (s.loadBusy conf, rBusy),
     (decide (2 ^ 30 < s.staged + len), rNoResource)]
    fun s => ((s.markCommitted id).commitEntry c rOk 1 conf 0).startLoad id c.fn conf addr len

def execPlanLoad (id : Nat) (s : State) : Res := .next (s.command id 0x020 (planLoadBody id))

/-- The end of a PLAN_LOAD: its PHASE 1 entry and its response (R94, R108). -/
def State.endLoad (s : State) (id conf result : Nat) (payload : List Word) : State :=
  match s.welmus.taken.find? id with
  | none => s
  | some c => s.finish id c result 1 conf payload

/-- The bank of a load leaves LOADING. -/
def State.leaveLoading (s : State) (l : Load) (f : Bank → Bank) : State :=
  s.updConf l.conf fun g => g.setBank l.bank f

/-- Installs an image that passed every check; its blocks are laid out anew, so that what legs left in the bank's blocks is gone
(R188). -/
def State.install (s : State) (l : Load) (p : Plan) : State :=
  let n := s.loadSeq + 1
  let legs := s.legs.map fun (x : Nat × Leg) =>
    if x.2.conf = l.conf then (x.1, { x.2 with prevHist := none, prevHistAt := none }) else x
  ({ s with loadSeq := n, legs := legs } : State).leaveLoading l fun b =>
    { b with st := .standby, plan := some { p with loadNo := n }, sess := [], buses := [], outs := [] }

/-- PLAN_LOAD_FETCH_DONE: the image is checked in order and installed, or the bank returns to what it was; a fetch that
failed empties the bank (R108, R109, R446). -/
def planLoadFetchDone (id : Nat) (fetch : Fetch) (s : State) : State :=
  let s := s.begin
  match s.loads.find? id with
  | none => s
  | some l =>
    let s := ({ s with loads := s.loads.del id } : State).endFetch l.fn
    let back := fun (b : Bank) => { b with st := b.prev }
    match fetch, l.aborted with
    | .image ws, false =>
      match s.validate l ws with
      | .ok p => (s.install l p).endLoad id l.conf rOk [w32 p.epoch]
      | .badArg sec off => (s.leaveLoading l back).endLoad id l.conf rBadArg [w32 sec, w32 off]
      | .integrity => (s.leaveLoading l back).endLoad id l.conf rIntegrity []
      | .noResource => (s.leaveLoading l back).endLoad id l.conf rNoResource []
    | _, _ => (s.leaveLoading l fun b => { b with st := .empty, plan := none }).endLoad id l.conf rFailed []

def execPlanLoadFetchDone (id : Nat) (fetch : Fetch) (s : State) : Res := .next (planLoadFetchDone id fetch s)

/-! ### PLAN_COMMIT (R98, R111) -/

/-- PLAN_COMMIT. -/
def planCommitBody (id : Nat) (c : Taken) (s : State) : State :=
  let conf := fld (c.w 3) 15 0
  let g := s.conf conf
  let b := g.bank g.standbyNo
  let epoch := (b.plan.map Plan.epoch).getD 0
  let busy := b.st != .standby || bitAt (c.w 4) 16 && g.active.map Plan.epoch != some (fld (c.w 4) 15 0)
  s.checked id
    [(!c.lenIs 5 || !zeroFrom (c.w 3) 16 || !zeroFrom (c.w 4) 17, rBadArg), (!s.hasConf c.fn conf, rDenied),
     (!s.serves 0x021, rWrongMode), (b.st == .empty, rNotFound), (busy, rBusy)]
    fun s =>
      let s := s.updConf conf fun g =>
        let g := g.setBank g.standbyNo fun x => { x with st := .pending, commitAt := s.now }
        { g with lastTick := some (g.lastTick.getD s.tb0Ns) }
      s.commitOk id c 1 conf [w32 epoch]

def execPlanCommit (id : Nat) (s : State) : Res := .next (s.command id 0x021 (planCommitBody id))

/-! ### The media tick (R110) -/

/-- The number of a conference's bank that waits for a tick. -/
def Conf.pendingNo (g : Conf) : Option Nat := g.banks.findIdx? fun b => b.st == .pending

/-- The plan that gives a conference's ticks: the ACTIVE one, else the PENDING one. -/
def Conf.tickPlan (g : Conf) : Option Plan :=
  match g.active with
  | some p => some p
  | none => g.pendingNo.bind fun b => (g.bank b).plan

/-- How many tick instants of a phase in us lie at or before a TB0 value in ns. -/
def ticksTo (phase ns : Nat) : Nat := (ns + 10000000 - phase * 1000) / 10000000

/-- A tick instant lies after the last tick and not after now. -/
def State.tickDue (s : State) (g : Conf) : Bool :=
  match g.tickPlan with
  | none => false
  | some p => decide (ticksTo p.tickPhase (g.lastTick.getD s.tb0Ns) < ticksTo p.tickPhase s.tb0Ns)

/-! ### The switch: legs, overrides, shapers (R113, R118, R119, R188, R239) -/

/-- A bound leg keeps or loses its slot at the switch to a plan: it writes from now on into its slot's block in the new bank, whose
contents from an earlier binding under the same image stand (R113, R188). DESIGN CHOICE (log entry 64): a fenced leg whose slot the
new image lacks loses it too, where R118 lets it keep its slot until LEG_CLOSE. -/
def Leg.atSwitch (g : Leg) (p : Plan) (look : Nat) : Leg :=
  match g.slot with
  | none => g
  | some k =>
    match (p.rosterSlot k).filter fun r => r.kind == g.kind with
    | some r =>
      { g with
        hist := { g.prevHist.getD {} with depth := (p.classOf r.slot).histDepth, sources := g.hist.sources }
        prevHist := some g.hist, histAt := p.blockOffset r, prevHistAt := g.histAt }
    | none => { g with slot := none, past := (k, g.since, look) :: g.past }

/-- A conference's overrides at the switch to a plan (R119): those whose objects the image lacks go, and with
RESET_OVERRIDES all of them; a gain that goes steps at a zero crossing, unless one is pending. -/
def Conf.carryOverrides (g : Conf) (p : Plan) (t : Nat) : Conf :=
  let reset := p.resetOverrides
  let held := fun k => (p.busRec (k / 65536)).any fun b => decide (k % 65536 < b.columns.length)
  let gains := g.gainOv.filter fun x => held x.1
  let pend := if reset then gains.foldl (fun (m : FMap (Word × Nat × Nat)) x =>
    if m.has x.1 then m else m.put x.1 (0x80000000, t + 10000000, t)) g.gainPend else g.gainPend
  { g with
    routeOv := g.routeOv.filter fun x => !reset && p.routes.any fun r => r.ref == x.2 && r.bus == x.1
    layoutOv := g.layoutOv.filter fun x =>
      !reset && (p.outputRec x.1).isSome && p.layoutSels.any fun l => l.ref == x.2 && l.output == x.1
    gainOv := gains, gainPend := pend, shaperOv := g.shaperOv && !reset
    fenced := g.fenced.filter fun n => decide (p.loadNo ≤ n) }

/-- The buckets of a conference and of its bound legs take the values of the plan where they differ and no override holds
(R239). -/
def State.shapeSwitch (s : State) (c : Nat) (p : Plan) : State :=
  let s := if (s.conf c).shaperOv || !(s.bucket 1 c).differs p.confShaper then s
    else s.shape 1 c p.confShaper.rate p.confShaper.rateC p.confShaper.burst
  s.legs.foldl (fun (s : State) (x : Nat × Leg) =>
    match x.2.slot with
    | none => s
    | some k =>
      if x.2.conf ≠ c ∨ x.2.shaperOv = true then s
      else
        let r := p.shaperOf k
        if (s.bucket 0 x.1).differs r then s.shape 0 x.1 r.rate r.rateC r.burst else s) s

/-! ### The switch: sessions, buses, outputs (R114, R326, R354) -/

/-- Pyramid buffers of a session (R377). -/
def Plan.pyramidBufs (p : Plan) (r : SessionRec) : Nat :=
  if r.lead then 2 * bandsOf (((p.outputRec r.output).map OutputRec.h).getD 0) else 0

/-- A session that starts fresh (R114, R339, R377, R389, R392). -/
def Plan.freshSess (p : Plan) (r : SessionRec) (tsBase : Nat) : Sess :=
  let k := initialK r.format
  let n := if r.typ = 3 then p.pyramidBufs r else 0
  { conf := p.conf, session := r.session, typ := r.typ
    fbs := List.replicate (r.fbCount - n) {}, pyramid := List.replicate n {}
    enc := if r.typ = 3 then { tsBase := tsBase, kKey := k.1, kInter := k.2 } else {} }

/-- The device session that session `r` carries on, if any (R114). -/
def carriedSess (old : Option (Plan × Bank)) (r : SessionRec) : Option Nat :=
  old.bind fun o => if (o.1.sessionRec r.session).map SessionRec.words = some r.words then o.2.sess.find? r.session else none

/-- The device bus that bus `r` carries on, if any (R326). -/
def carriedBus (old : Option (Plan × Bank)) (r : BusRec) : Option Nat :=
  old.bind fun o => if (o.1.busRec r.bus).map BusRec.words = some r.words then o.2.buses.find? r.bus else none

/-- The device output that output `r` carries on, if any (R354, log entry 46). -/
def carriedOut (old : Option (Plan × Bank)) (r : OutputRec) : Option Nat :=
  old.bind fun o => if o.1.outputRec r.output = some r then o.2.outs.find? r.output else none

/-- The sources of encode sessions that start fresh. -/
def freshSources (old : Option (Plan × Bank)) (p : Plan) : List Nat :=
  ((p.sessions.filter fun r => r.typ == 3 && (carriedSess old r).isNone).map SessionRec.source).dedup

/-- Gives session `r` of the new bank its device session: the one it carries on, or a fresh one. -/
def State.bindSess (old : Option (Plan × Bank)) (p : Plan) (bases : FMap Nat) (s : State) (r : SessionRec) (m : FMap Nat) :
    State × FMap Nat :=
  match carriedSess old r with
  | some i => (s, m.put r.session i)
  | none =>
    let i := s.mediaSerial
    ({ s with mediaSerial := i + 1, sess := s.sess.put i (p.freshSess r (bases.getD 0 r.source)) }, m.put r.session i)

/-- Gives bus `r` of the new bank its device bus; a fresh one keeps the route, the crossfade and what is asked of the bus of
that number, and a bus of a new number begins under its DEFAULT_ROUTE (R119, R320, R326). -/
def State.bindBus (old : Option (Plan × Bank)) (p : Plan) (s : State) (r : BusRec) (m : FMap Nat) : State × FMap Nat :=
  match carriedBus old r with
  | some i => (s, m.put r.bus i)
  | none =>
    let i := s.mediaSerial
    let was := (old.bind fun o => (o.2.buses.find? r.bus).bind fun j => s.buses.find? j).getD { route := (p.defaultRoute r).getD {} }
    ({ s with
        mediaSerial := i + 1
        buses := s.buses.put i { conf := p.conf, route := was.route, xfade := was.xfade, asked := was.asked } },
      m.put r.bus i)

/-- Gives output `r` of the new bank its device output. -/
def State.bindOut (old : Option (Plan × Bank)) (s : State) (r : OutputRec) (m : FMap Nat) : State × FMap Nat :=
  match carriedOut old r with
  | some i => (s, m.put r.output i)
  | none =>
    let i := s.mediaSerial
    ({ s with mediaSerial := i + 1, outs := s.outs.put i { fbs := List.replicate r.bandFbs {} } }, m.put r.output i)

/-- The device objects of bank `b` of a conference. -/
def State.bindObjects (s : State) (c b : Nat) (old : Option (Plan × Bank)) (p : Plan) : State :=
  let srcs := freshSources old p
  let d := s.drawMany srcs.length
  let bases := (srcs.zip d.1).foldl (fun (m : FMap Nat) x => m.put x.1 x.2) []
  let a := p.sessions.foldl (fun (x : State × FMap Nat) r => x.1.bindSess old p bases r x.2) (d.2, [])
  let e := p.mix.buses.foldl (fun (x : State × FMap Nat) r => x.1.bindBus old p r x.2) (a.1, [])
  let o := p.outputs.foldl (fun (x : State × FMap Nat) r => x.1.bindOut old r x.2) (e.1, [])
  o.1.updConf c fun g => g.setBank b fun k => { k with sess := a.2, buses := e.2, outs := o.2 }

/-- What fresh sessions do at the switch: a decoder asks for a key picture (R114, R348); a fresh LEAD session has no
pyramid of an earlier picture. -/
def State.freshStart (s : State) (c b : Nat) (old : Option (Plan × Bank)) (p : Plan) : State :=
  (p.sessions.filter fun r => (carriedSess old r).isNone).foldl (fun (s : State) r =>
    if r.typ = 2 then s.decoderRequest c b r.session true
    else if r.lead then
      match s.outNo c b r.output with
      | none => s
      | some i => s.updOut i fun x => { x with pyr := [] }
    else s) s

/-- A bus whose route in force differs under the new bank crossfades in 5 ms, unless a crossfade runs or is asked for
(R119, R321). -/
def State.routeSwitch (before : List (Nat × Option Resolved)) (c b : Nat) (p : Plan) (s : State) (r : BusRec) : State :=
  match s.busNo c b r.bus, List.find? (fun x : Nat × Option Resolved => x.1 == r.bus) before with
  | some i, some x =>
    let now := s.routeInForce p r
    if x.2.isNone || now.isNone || x.2 == now then s
    else s.updBus i fun y => if y.xfade.isSome || y.asked.isSome then y else { y with asked := some (5, s.launchNs, true) }
  | _, _ => s

/-- The first releases of the TICK graphs of a bank that becomes ACTIVE; entries of its earlier time go (R114, R254). -/
def State.startGraphs (s : State) (c b : Nat) (p : Plan) : State :=
  let s := s.dropDue fun e => match e with | .release c' b' _ _ _ => c' == c && b' == b | _ => false
  (p.graphs.filter fun g => !g.arrival).foldl (fun (s : State) g =>
    s.putRelease c b p.loadNo g (g.firstRelease s.launchNs)) s

/-- A leg that keeps its slot keeps its score, under the source number that the new image gives the slot; a slot that becomes
unbound loses it (R315, R326). The published set, the ranks and the level table go on by source number (DESIGN CHOICE, log entry
129). -/
def State.carryScores (s : State) (c : Nat) (was p : Plan) : State :=
  let ks := s.legs.filterMap fun (x : Nat × Leg) => if x.2.conf = c then (x.2.atSwitch p 0).slot else none
  let moved := ks.flatMap fun k => ((was.rosterSlot k).map RosterSlot.sources).getD [] |>.zip
    (((p.rosterSlot k).map RosterSlot.sources).getD [])
  s.updConf c fun g =>
    { g with scores := moved.foldl (fun (m : FMap Nat) x => match g.scores.find? x.1 with | some v => m.put x.2 v | none => m) [] }

/-- The switch of a conference to its PENDING bank `b` at instant T (R111). -/
def State.switch (s : State) (c b : Nat) (p : Plan) : State :=
  let g := s.conf c
  let old := g.activeNo.bind fun a => (g.bank a).plan.map fun q => (q, g.bank a)
  let before := match old with
    | none => []
    | some o => o.1.mix.buses.map fun r => (r.bus, s.routeInForce o.1 r)
  let lost := (s.legs.filter fun (x : Nat × Leg) => x.2.conf == c && x.2.slot.isSome && (x.2.atSwitch p s.lookNo).slot.isNone).map Prod.fst
  let s := match old with | some o => s.carryScores c o.1 p | none => s
  let s := { s with legs := s.legs.map fun (x : Nat × Leg) => if x.2.conf == c then (x.1, x.2.atSwitch p s.lookNo) else x }
  let s := s.updConf c fun g => g.carryOverrides p s.launchNs
  let s := s.shapeSwitch c p
  let s := s.updConf c fun g => { g with banks := g.banks.zipIdx.map fun (x : Bank × Nat) =>
    if x.2 = b then { x.1 with st := .active, leftActive := none }
    else if x.1.st = .active then { x.1 with st := .retiring, leftActive := some s.now }
    else x.1 }
  let s := s.bindObjects c b old p
  let s := p.mix.buses.foldl (State.routeSwitch before c b p) s
  let s := s.startGraphs c b p
  let s := s.raiseEvent (s.confHolder c) 0x104 [w32 c, w32 (p.epoch + 65536 * b)]
  let s := lost.foldl (fun (s : State) l => s.legState l ((s.legs.getD {} l).stateCode) 0) s
  s.freshStart c b old p

/-! ### Selection (R314 to R318) -/

/-- The bound roster slots of a conference. -/
def State.boundSlots (s : State) (c : Nat) (p : Plan) : List RosterSlot :=
  (s.legs.filterMap fun (x : Nat × Leg) => if x.2.conf = c then x.2.slot else none).filterMap p.rosterSlot

/-- The candidates of a conference, ascending (R314). -/
def State.candidates (s : State) (c : Nat) (p : Plan) : List Nat :=
  let srcs := (s.boundSlots c p).flatMap RosterSlot.sources
  (List.range p.sources.length).filter fun n => srcs.contains n

/-- A candidate's score at a tick (R315). -/
def Conf.score (g : Conf) (us release n : Nat) : Nat :=
  let e := match g.levels.find? n with
    | some v => if us ≤ v.2.2 + 60000 then (v.1, v.2.1) else (127, false)
    | none => (127, false)
  let x := if e.2 then (127 - e.1) * 256 else 0
  let old := g.scores.getD 0 n
  if old ≤ x then x else max x (old - release)

/-- The sources of a list by score, the highest first; of equal ones the lower number first. -/
def byScore (score : Nat → Nat) (ns : List Nat) : List Nat :=
  ns.insertionSort fun a b => decide (score b < score a) || (score a == score b && decide (a ≤ b))

/-- The member with the lowest score, of equal ones the lowest number. -/
def lowest (score : Nat → Nat) (ns : List Nat) : Option Nat :=
  (ns.insertionSort fun a b => decide (score a < score b) || (score a == score b && decide (a ≤ b))).head?

/-- The challenge rounds of R315: the members that are not pinned, and (newcomer, the member it replaced). -/
def challenge (score : Nat → Nat) (hyst : Nat) : Nat → List Nat → List Nat → FMap Nat → List Nat × FMap Nat
  | 0, members, _, repl => (members, repl)
  | n + 1, members, rest, repl =>
    match (byScore score rest).head?, lowest score members with
    | some c, some w =>
      if score w + hyst ≤ score c then
        challenge score hyst n (members.map fun x => if x = w then c else x) (w :: rest.filter fun x => x != c)
          (repl.put c w)
      else (members, repl)
    | _, _ => (members, repl)

/-- The selected set of a tick, and who replaced whom (R315). -/
def selectSet (m : Mix) (score : Nat → Nat) (cands previous : List Nat) : List Nat × FMap Nat :=
  let pins := m.pins
  let live := cands.filter fun n => decide (0 < score n) && !pins.contains n
  let kept := (byScore score (live.filter fun n => previous.contains n)).take (m.k - pins.length)
  let fill := (byScore score (live.filter fun n => !kept.contains n)).take (m.k - pins.length - kept.length)
  let rest := live.filter fun n => !kept.contains n && !fill.contains n
  let r := challenge score m.hyst m.k (kept ++ fill) rest []
  (pins ++ r.1, r.2)

/-- The lowest free rank below `k`. -/
def freeRank (ranks : FMap Nat) (k : Nat) : Option Nat := (List.range k).find? fun r => !ranks.has r

/-- The rank of the member whose place newcomer `n` has, through those that had it between within one tick (R315, R318). -/
def replacedRank (old : FMap Nat) (repl : FMap Nat) : Nat → Nat → Option Nat
  | 0, _ => none
  | f + 1, n =>
    match repl.find? n with
    | none => none
    | some w =>
      match List.find? (fun x : Nat × Nat => x.2 == w) old with
      | some x => some x.1
      | none => replacedRank old repl f w

/-- The ranks after a tick (R318): members keep theirs, a newcomer takes that of the member it replaced, and the others, pinned ones
among them, then take the lowest free ones. -/
def newRanks (k : Nat) (old : FMap Nat) (set : List Nat) (repl : FMap Nat) : FMap Nat :=
  let keep : FMap Nat := old.filter fun x => decide (x.1 < k) && set.contains x.2
  let held := keep.map Prod.snd
  let new := set.filter fun n => !held.contains n
  let placed : FMap Nat := new.foldl (fun (m : FMap Nat) n =>
    match replacedRank old repl k n with
    | some r => if m.has r || decide (k ≤ r) then m else m.put r n
    | none => m) keep
  let has := placed.map Prod.snd
  (new.filter fun n => !has.contains n).foldl (fun (m : FMap Nat) n =>
    match freeRank m k with | some q => m.put q n | none => m) placed

/-- A rank's session starts anew for another holder (R318). -/
def State.handover (s : State) (c b : Nat) (m : Mix) (r : Nat) : State :=
  let s := s.countConf c 9 1
  match (if m.rankSessions.getD r 0xFFFF = 0xFFFF then none else s.sessNo c b (m.rankSessions.getD r 0xFFFF)) with
  | none => s
  | some i => s.updSess i fun x => { x with ring := [], ringBytes := 0, copyA := [], copyB := [], sel := false, era := x.era + 1 }

/-- Publishes the selected set that a tick computed: packets looked up and frames released from now on use it, and each rank whose
holder changes is handed over (R316, R318). -/
def State.publish (s : State) (c : Nat) : State :=
  match (s.conf c).nextSel with
  | none => s
  | some (_, set, ranks) =>
    let g := s.conf c
    let moved := (List.range 16).filter fun k => g.ranks.find? k != ranks.find? k
    let s := s.updConf c fun g =>
      { g with nextSel := none, prevSel := (g.selected, g.ranks), pubLook := s.lookNo, pubAt := s.launchNs
               selected := set, ranks := ranks }
    match g.activeNo, g.active with
    | some b, some p => moved.foldl (fun (s : State) k => s.handover c b p.mix k) s
    | _, _ => s

/-- Publishes the sets whose instant has come (R316). -/
def State.publishDue (s : State) : State :=
  s.confs.foldl (fun (s : State) x => if x.2.nextSel.any fun n => decide (n.1 ≤ s.now) then s.publish x.1 else s) s

/-- The selection at a media tick: a set still to be published is published first, and the new one 20 us after the tick, the
latest that the rule allows and from when on a frame released then uses it (R315, R316; DEDUCED, log entry 130). -/
def State.select (s : State) (c : Nat) : State :=
  let s := s.publish c
  match (s.conf c).active with
  | some p =>
    let g := s.conf c
    let m := p.mix
    let due := s.now + 20000
    if m.k = 0 then s.updConf c fun g => { g with nextSel := some (due, [], []) }
    else
      let s := s.fenceRefs c (s.boundSlots c p)
      let cands := s.candidates c p
      let scores := cands.foldl (fun (t : FMap Nat) n => t.put n (g.score s.tb0Us m.release n)) []
      let r := selectSet m (scores.getD 0) cands g.selected
      let s := s.updConf c fun g => { g with scores := scores, nextSel := some (due, r.1, newRanks m.k g.ranks r.1 r.2) }
      s.countConf c 8 (r.1.countP fun n => !g.selected.contains n)
  | none => s

/-- MEDIA_TICK: the switch to a bank PENDING for at least 20 us, and the selection (R25, R110, R111, R315). -/
def mediaTick (conf : Nat) (s : State) : State :=
  let s := s.begin
  let g := s.conf conf
  if !s.tickDue g then s
  else
    let s := s.updConf conf fun g => { g with lastTick := some s.tb0Ns }
    let s := match g.pendingNo with
      | none => s
      | some b =>
        match (g.bank b).plan with
        | none => s
        | some p => if (g.bank b).commitAt + 20000 ≤ s.now then s.switch conf b p else s
    s.select conf

def execMediaTick (conf : Nat) (s : State) : Res := .next (mediaTick conf s)

/-! ### The retirement of a bank (R112, R273) -/

/-- The number of a conference's RETIRING bank. -/
def Conf.retiringNo (g : Conf) : Option Nat := g.banks.findIdx? fun b => b.st == .retiring

/-- A copy latched to a bank. -/
def Copy.latched (c : Copy) (conf bank : Nat) : Bool := c.conf == conf && c.bank == bank

/-- A job of an egress pipeline latched to a bank. -/
def Job.latched (conf bank : Nat) : Job → Bool
  | .tx c => c.latched conf bank
  | .rx .. => false

/-- A packet latched to the bank is in the replicator or an egress pipeline (R112). -/
def State.latchedPackets (s : State) (conf bank : Nat) : Bool :=
  (s.replQ.any fun q => q.2.any fun p => p.conf == conf && p.bank == bank)
    || (s.egressQ.any fun q => q.2.any fun c => c.latched conf bank)
    || (s.txJobs.any fun q => q.2.any fun j => j.latched conf bank)
    || s.cores.any fun q => q.2.jobs.any fun x => x.job.latched conf bank

/-- The instances that run under a bank. -/
def State.bankRuns (s : State) (conf bank : Nat) : List Nat :=
  (s.sched.runs.filter fun r => r.2.conf == conf && r.2.bank == bank).map Prod.fst

/-- A RETIRING bank returns to STANDBY: device objects that no bank in use names go. -/
def State.retire (s : State) (c b : Nat) : State :=
  let g := s.conf c
  let bank := g.bank b
  let other := g.bank (1 - b)
  let gone := fun (mine theirs : FMap Nat) => (mine.map Prod.snd).filter fun i => !(theirs.map Prod.snd).contains i
  let drop := fun {α : Type} (is : List Nat) (m : FMap α) => m.filter fun x => !is.contains x.1
  let s := { s with
    sess := drop (gone bank.sess other.sess) s.sess
    buses := drop (gone bank.buses other.buses) s.buses
    outs := drop (gone bank.outs other.outs) s.outs }
  s.updConf c fun g => g.setBank b fun x => { x with st := .standby, sess := [], buses := [], outs := [] }

/-- PLAN_BANK_RETIRED: nothing of the bank is left; from 1 s after the switch packets no longer hold it (R112). -/
def planBankRetired (conf : Nat) (s : State) : State :=
  let s := s.begin
  match (s.conf conf).retiringNo with
  | none => s
  | some b =>
    let late := ((s.conf conf).bank b).leftActive.any fun t => decide (t + 1000000000 ≤ s.now)
    if !(s.bankRuns conf b).isEmpty || s.latchedPackets conf b && !late then s else s.retire conf b

def execPlanBankRetired (conf : Nat) (s : State) : Res := .next (planBankRetired conf s)

/-- Revokes an instance (R273): its undispatched tasks fail, an abort is requested of the others; an abort already requested becomes
that of a revoked task. -/
def State.revokeRun (s : State) (r : Nat) : State :=
  let s := s.endRun r false
  match s.run? r with
  | none => s
  | some g =>
    let s := g.tasks.foldl (fun (s : State) t =>
      match s.live? t with
      | none => s
      | some l =>
        if l.st ≠ .dispatched then s
        else if l.abortAt.isNone then s.requestAbort t true
        else s.updLive t fun l => { l with revoking := true }) s
    s.finishRun r

/-- PLAN_RETIRE_TIMEOUT: 1 s after the switch the instances still running under the bank are revoked; the bank returns
at once where none of their tasks is left, else once the last has completed (R112). -/
def planRetireTimeout (conf : Nat) (s : State) : State :=
  let s := s.begin
  match (s.conf conf).retiringNo with
  | none => s
  | some b =>
    if ((s.conf conf).bank b).leftActive.any fun t => decide (t + 1000000000 ≤ s.now) then
      let s := (s.bankRuns conf b).foldl State.revokeRun s
      if (s.bankRuns conf b).isEmpty then s.retire conf b else s
    else s

def execPlanRetireTimeout (conf : Nat) (s : State) : Res := .next (planRetireTimeout conf s)

end Sys2Proof.Machine
end

