-- ==== Sys2Proof/Machine/TimeUnit.lean ====
section
/-! DEFINITION. The time unit: time bases, servos, holdover, PPS, the TCLK source, the latch, the frequency monitor, and
the commands TIME_CONFIG and TIME_OFFSET (R28, R110, R143 to R159, R162, R487). -/

namespace Sys2Proof.Machine

/-- Changes the time unit. -/
def State.setTime (s : State) (t : TimeUnit) : State := { s with time := t }

/-- Changes time base `n`. -/
def State.updTb (s : State) (n : Nat) (f : TimeBase → TimeBase) : State :=
  s.setTime { s.time with bases := s.time.bases.modify n f }

/-- Round a rational to the nearest integer, ties away from zero (R144). -/
def roundAway (q : Rat) : Int := if q < 0 then -((-q + 1 / 2).floor) else (q + 1 / 2).floor

/-- RATE_LIMIT in ppb as units of 2^-40 (R144). -/
def limitUnits (ppb : Nat) : Int := roundAway ((ppb : Rat) * 2 ^ 40 / 1000000000)

/-- A frequency clamped to the rate limit, taken as a fraction (R154). -/
def clampFreq (q : Rat) (ppb : Nat) : Rat :=
  let l : Rat := (limitUnits ppb : Rat) / 2 ^ 40
  max (-l) (min q l)

/-- The RATE word of a frequency (R144). -/
def rateWord (q : Rat) (ppb : Nat) : Int :=
  max (-limitUnits ppb) (min (roundAway (q * 2 ^ 40)) (limitUnits ppb))

/-- One TCLK cycle: every time base adds 1 ns and its RATE (R143). -/
def TimeUnit.tick (t : TimeUnit) : TimeUnit :=
  if t.running then
    { t with
      elapsed := t.elapsed + 1
      bases := t.bases.map fun b => { b with value := ((b.value : Int) + 2 ^ 40 + b.rate).toNat } }
  else t

/-- Whole seconds of a time base's value. -/
def tbSeconds (v : Nat) : Nat := v / (2 ^ 40 * 1000000000)

/-- Steps time base `n` by `d` units of 2^-40 ns: a step of TB0 enters the step sum, moves the media ticks and is traced; the PPS
output waits for the next whole second (R110, R147, R158, R162, R276). DESIGN CHOICE (log entry 109): a servo step whose result
lies below zero leaves the value at zero, while the step sum of TB0 takes the whole step. -/
def State.stepTb (s : State) (n : Nat) (d : Int) : State :=
  let v := (((s.tb n).value : Int) + d).toNat
  let s := s.updTb n fun b => { b with value := v, lastStep := (s.time.elapsed : Int) }
  let s := if s.time.ppsOutEn ∧ s.time.ppsOutTb = n then s.setTime { s.time with ppsNext := tbSeconds v + 1 } else s
  if n = 0 then
    let ns := v / 2 ^ 40
    ({ s.setTime { s.time with stepSum := s.time.stepSum + d } with
      confs := s.confs.map fun p => (p.1, { p.2 with lastTick := p.2.lastTick.map fun t => min t ns }) } : State).traceSync
  else s

/-! ### Holdover (R156) -/

/-- Enters holdover for a cause (0 timeout, 1 PPS, 2 TCLK change): RATE is the frequency term (R156). -/
def State.enterHoldover (s : State) (n cause : Nat) : State :=
  let b := s.tb n
  let s := s.updTb n fun b => { b with causes := b.causes ||| 2 ^ cause }
  if b.state = .holdover then s
  else
    let s := s.updTb n fun b => { b with
      state := .holdover, rate := rateWord b.freq b.cfg.rateLimit, runIn := 0, runOut := 0, cause := cause }
    (s.fault 0x10 5 n 1 (w32 cause)).raiseEvent 0 0x106 [w32 (n + 256)]

/-- Leaves holdover into state `st` (R155, R156). -/
def State.leaveHoldover (s : State) (n : Nat) (st : ServoState) : State :=
  let c := (s.tb n).cause
  let s := s.updTb n fun b => { b with state := st, causes := 0, runIn := 0, runOut := 0 }
  (s.fault 0x10 5 n 0 (w32 c)).raiseEvent 0 0x106 [w32 n]

/-- HOLDOVER_TIMEOUT (R156). -/
def holdoverTimeout (n : Nat) (s : State) : State :=
  let s := s.begin
  let b := s.tb n
  if !s.time.running || decide (7 < n) || b.source == 0 || b.causes.testBit 0
      || decide (s.time.elapsed < b.lastOffset + b.cfg.holdoverTimeout * 1000000) then s
  else s.enterHoldover n 0

def execHoldoverTimeout (tb : Nat) (s : State) : Res := .next (holdoverTimeout tb s)

/-- PPS_INPUT_ABSENT: a SOURCE 2 base without an accepted edge for 1.5 s (R156). -/
def ppsInputAbsent (n : Nat) (s : State) : State :=
  let s := s.begin
  let b := s.tb n
  let last := match s.time.ppsInLast with | some e => e | none => b.lastOffset
  if !s.time.running || decide (7 < n) || b.source != 2 || b.causes.testBit 1
      || decide (s.time.elapsed < last + 1500000000) then s
  else s.enterHoldover n 1

def execPpsInputAbsent (tb : Nat) (s : State) : Res := .next (ppsInputAbsent tb s)

/-! ### The servo (R154, R155) -/

/-- The runs of R155 after an offset of `theta`. -/
def TimeBase.countRun (b : TimeBase) (theta : Rat) : TimeBase :=
  let inside := decide (|theta| ≤ (b.cfg.lockWindow : Rat))
  let b := { b with runIn := if inside then b.runIn + 1 else 0, runOut := if inside then 0 else b.runOut + 1 }
  if b.state = .acquire ∧ 4 ≤ b.runIn then { b with state := .locked, runIn := 0, runOut := 0 }
  else if b.state = .locked ∧ 4 ≤ b.runOut then { b with state := .acquire, samples := 2, runIn := 0, runOut := 0 }
  else b

/-- The frequency term and sample count after an offset (R154). -/
def TimeBase.servoFreq (b : TimeBase) (theta : Rat) (t : Int) : TimeBase :=
  let dt : Rat := ((t - b.tPrev : Int) : Rat)
  if b.samples = 1 then { b with freq := clampFreq (b.freq - (theta - b.thetaPrev) / dt) b.cfg.rateLimit, samples := 2 }
  else { b with freq := clampFreq (b.freq - (b.cfg.ki : Rat) / 65536 * theta / dt) b.cfg.rateLimit }

/-- The RATE that an offset gives without a step (R154). -/
def TimeBase.servoRate (b : TimeBase) (theta : Rat) (dt : Rat) : Int :=
  rateWord (clampFreq (b.freq - (b.cfg.kp : Rat) / 65536 * theta / dt) b.cfg.rateLimit) b.cfg.rateLimit

/-- The servo's handling of an accepted offset of `theta` ns measured at `t` (R154). RATE stays at the last rate while
a TCLK source change keeps the base in holdover (R156). DESIGN CHOICE (log entry 109): a step made meanwhile leaves the base in
holdover, where R155 has every step return the servo to ACQUIRE. -/
def State.servoApply (s : State) (n : Nat) (theta : Rat) (t : Int) : State :=
  let b := s.tb n
  let frozen := b.state == .holdover
  if b.samples = 0 then
    s.updTb n fun b => { b with thetaPrev := theta, tPrev := t, samples := 1 }
  else
    let dt : Rat := ((t - b.tPrev : Int) : Rat)
    let step := b.cfg.stepThreshold != 0 && decide ((b.cfg.stepThreshold : Rat) ≤ |theta|)
    let s := s.updTb n fun b => b.servoFreq theta t
    let b := s.tb n
    let s :=
      if step then
        (s.stepTb n (-(roundAway (theta * 2 ^ 40)))).updTb n fun b => { b with
          rate := if frozen then b.rate else rateWord b.freq b.cfg.rateLimit
          state := if frozen then b.state else .acquire, runIn := 0, runOut := 0 }
      else if frozen then s
      else s.updTb n fun b' => { b' with rate := b.servoRate theta dt }
    s.updTb n fun b => { b with thetaPrev := theta, tPrev := t }

/-- An offset reaches the servo (R154 to R156): discarded if measured before the last step or not after the offset
before it; an accepted one ends holdover once its causes have ended. -/
def State.servoOffset (s : State) (n : Nat) (theta : Rat) (t : Int) : State :=
  let b := s.tb n
  if t < b.lastStep ∨ (0 < b.samples ∧ t ≤ b.tPrev) then s
  else
    let s := s.updTb n fun b => { b with lastOffset := s.time.elapsed, causes := b.causes &&& 4 }
    let s := if b.state = .holdover ∧ (s.tb n).causes = 0 then s.leaveHoldover n .acquire else s
    let s := s.updTb n fun b => b.countRun theta
    s.servoApply n theta t

/-! ### PPS (R157, R158) -/

/-- The offset of an accepted PPS edge for a base, from the nanosecond field of its stamp minus DELAY_CORR (R157). -/
def TimeBase.ppsTheta (b : TimeBase) : Int :=
  let v : Int := (b.value : Int) - b.cfg.delayCorr * 2 ^ 24
  let ns : Int := v / 2 ^ 40 % 1000000000
  if ns < 500000000 then ns else ns - 1000000000

/-- Whether a PPS edge is accepted (R157). DESIGN CHOICE (log entry 109): the first edge after C6 is accepted however soon it
comes. -/
def State.ppsAccepts (s : State) : Bool :=
  match s.time.ppsInLast with
  | none => true
  | some e =>
    let gap := s.time.elapsed - e
    decide (1500000000 ≤ gap) || (decide (900000000 ≤ gap) && decide (gap ≤ 1100000000))

/-- PPS_INPUT_EDGE (R157). -/
def ppsInputEdge (s : State) : State :=
  let s := s.begin
  if !s.time.running then s
  else if s.ppsAccepts then
    let s := s.setTime { s.time with ppsInLast := some s.time.elapsed }
    (List.range 8).foldl (fun s n =>
      if (s.tb n).source = 2 then s.servoOffset n ((s.tb n).ppsTheta : Rat) s.time.elapsed else s) s
  else
    s.fault 0x11 0 0 (w32 (min (s.time.elapsed - s.time.ppsInLast.getD 0) 0xFFFFFFFF)) 0

def execPpsInputEdge (s : State) : Res := .next (ppsInputEdge s)

/-- PPS_OUTPUT_RISE: the driving time base has passed a whole second; an edge within 500 ms of the one before is
suppressed (R158). -/
def ppsOutputRise (s : State) : State :=
  let s := s.begin
  let sec := tbSeconds (s.tb s.time.ppsOutTb).value
  if !s.time.running || !s.time.ppsOutEn || decide (sec < s.time.ppsNext) then s
  else
    let s := s.setTime { s.time with ppsNext := sec + 1 }
    if s.time.ppsLastRise.any fun e => decide (s.time.elapsed < e + 500000000) then s
    else (s.setTime { s.time with ppsLevel := true, ppsLastRise := some s.time.elapsed }).emit (.pps true)

def execPpsOutputRise (s : State) : Res := .next (ppsOutputRise s)

/-- PPS_OUTPUT_FALL: 100 ms after the rise (R158). -/
def ppsOutputFall (s : State) : State :=
  let s := s.begin
  match s.time.ppsLastRise with
  | none => s
  | some e =>
    if s.time.ppsLevel && decide (e + 100000000 ≤ s.time.elapsed) then
      (s.setTime { s.time with ppsLevel := false }).emit (.pps false)
    else s

def execPpsOutputFall (s : State) : Res := .next (ppsOutputFall s)

/-! ### The TCLK source (R146) -/

/-- Starts a change of the TCLK source: every time base enters holdover, and the change is recorded (R28, R146). -/
def State.startTclk (s : State) (to10 : Bool) : State :=
  let s := s.setTime { s.time with changing := some (to10, s.time.elapsed) }
  let s := (List.range 8).foldl (fun s n => s.enterHoldover n 2) s
  s.fault 0x12 0 0 s.timeStatus 0

/-- The 10 MHz input has been present for 10 s without a break (R146). -/
def State.ref10Ready (s : State) : Bool :=
  !s.freq.ref10m.missing && s.time.refSince.any fun t => decide (t + 10000000000 ≤ s.now)

/-- TCLK_SOURCE_CHANGE: on loss of the 10 MHz input, or on its return (R146). -/
def tclkSourceChange (s : State) : State :=
  let s := s.begin
  if !s.time.running || s.time.changing.isSome then s
  else if s.time.tclkRef10 && s.freq.ref10m.missing then s.startTclk false
  else if !s.time.tclkRef10 && s.ref10Ready then s.startTclk true
  else s

def execTclkSourceChange (s : State) : Res := .next (tclkSourceChange s)

/-- REF10M_RETURN_TIMER (R146). -/
def ref10mReturnTimer (s : State) : State :=
  let s := s.begin
  if s.time.running && s.time.changing.isNone && !s.time.tclkRef10 && s.ref10Ready then s.startTclk true else s

def execRef10mReturnTimer (s : State) : Res := .next (ref10mReturnTimer s)

/-- A base at the end of a TCLK source change (R146, R156). -/
def endTclk (s : State) (n : Nat) : State :=
  let b := s.tb n
  let s := s.updTb n fun b => { b with causes := b.causes &&& 3 }
  if b.state = .holdover ∧ b.source = 0 then s.leaveHoldover n .free else s

/-- TCLK_SOURCE_CHANGE_DONE (R146, R156). -/
def tclkSourceChangeDone (s : State) : State :=
  let s := s.begin
  match s.time.changing with
  | none => s
  | some (to10, _) =>
    (List.range 8).foldl endTclk (s.setTime { s.time with tclkRef10 := to10, changing := none })

def execTclkSourceChangeDone (s : State) : Res := .next (tclkSourceChangeDone s)

/-! ### The latch (R148) -/

/-- TIME_LATCH (R148): PF0's register. -/
def timeLatch (fn : Nat) (s : State) : State :=
  let s := s.begin
  if s.hostUp && fn == 0 then
    s.setTime { s.time with
      latchTimes := s.time.bases.map TimeBase.value
      latchRates := s.time.bases.map TimeBase.rate
      latchSteps := Int.tdiv s.time.stepSum (2 ^ 40) }
  else s

def execTimeLatch (fn : Nat) (s : State) : Res := .next (timeLatch fn s)

/-! ### The frequency monitor (R28, R487) -/

/-- A reference after a window of `permille` of its nominal cycles (R487). -/
def RefState.window (r : RefState) (permille : Nat) : RefState :=
  if permille < 850 ∨ 1150 < permille then { missing := true, goodWindows := 0 }
  else if 950 ≤ permille ∧ permille ≤ 1050 then
    if r.missing then
      if 99 ≤ r.goodWindows then { missing := false, goodWindows := 0 }
      else { r with goodWindows := r.goodWindows + 1 }
    else r
  else { r with goodWindows := 0 }

/-- A SerDes reference has gone: the ports of its lane groups leave UP and wait (R487). -/
def State.sdrefLost (s : State) (q : Nat) : State :=
  let s := s.fault 0x0C 7 (instId 8 (4 * q)) 0 0
  (s.ports.filter fun p => p.1 / 16 == q && p.2.st != 0 && p.2.st != 5).foldl
    (fun s p => (s.portDark p.1).updPort p.1 fun q => { q with refHeld := true }) s

/-- A SerDes reference is back: its ports restart from WAIT_SIGNAL (R487). -/
def State.sdrefBack (s : State) (q : Nat) : State :=
  { s with ports := s.ports.map fun p => if p.1 / 16 == q then (p.1, { p.2 with refHeld := false }) else p }

/-- FREQ_MONITOR_WINDOW (R28, R50, R146, R487). -/
def freqMonitorWindow (ref : Ref) (permille : Nat) (s : State) : State :=
  let s := s.begin
  if !s.pins.pwrgoodAux then s
  else
    match ref with
    | .sysclk =>
      let r := s.freq.sysclk.window permille
      let s := { s with freq := { s.freq with sysclk := r } }
      if r.missing then s.fatal 1 0 else s
    | .sdref q =>
      let old := s.freq.sdref.getD q {}
      let r := old.window permille
      let s := { s with freq := { s.freq with sdref := s.freq.sdref.set q r } }
      if r.missing && !old.missing then
        (if s.modes.mode = .calibrate then s.calRefLost q else if s.portsRun then s.sdrefLost q else s)
      else if !r.missing && old.missing then s.sdrefBack q
      else s
    | .pcie =>
      let old := s.freq.pcie
      let r := old.window permille
      let s := { s with freq := { s.freq with pcie := r } }
      if r.missing && !old.missing then
        ({ s with pins := { s.pins with linkUp := false } } : State).fault 0x0C 7 0 2 0
      else if !r.missing && old.missing then { s with pins := { s.pins with pcieRef := true } }
      else s
    | .ref10m =>
      let old := s.freq.ref10m
      let r := old.window permille
      let s := { s with freq := { s.freq with ref10m := r } }
      if r.missing && !old.missing then (s.setTime { s.time with refSince := none }).fault 0x0C 7 0 1 0
      else if !r.missing && old.missing then s.setTime { s.time with refSince := some s.now }
      else s

def execFreqMonitorWindow (ref : Ref) (permille : Nat) (s : State) : Res := .next (freqMonitorWindow ref permille s)

/-! ### TIME_CONFIG and TIME_OFFSET (R80, R147, R151, R153, R155, R158) -/

/-- The servo parameters of a TIME_CONFIG: the defaults with PARAM_WORDS 0 (R151). -/
def servoCfgOf (c : Taken) : ServoCfg :=
  if fld (c.w 4) 15 0 = 0 then {}
  else
    { ptpPort := fld (c.w 5) 6 0, ptpEn := bitAt (c.w 5) 7, domain := fld (c.w 5) 15 8, transport := fld (c.w 5) 17 16,
      peerDelay := bitAt (c.w 5) 18, kp := fld (c.w 6) 15 0, ki := fld (c.w 6) 31 16, stepThreshold := (c.w 7).toNat,
      rateLimit := fld (c.w 8) 19 0, holdoverTimeout := fld (c.w 9) 15 0, lockWindow := fld (c.w 9) 31 16,
      delayCorr := int32 (c.w 11) }

/-- FREQ_VALID of a TIME_CONFIG. -/
def freqValid (c : Taken) : Bool := fld (c.w 4) 15 0 == 8 && bitAt (c.w 5) 19

/-- The format and range checks of TIME_CONFIG (R80, R151). -/
def timeConfigBad (c : Taken) : Bool :=
  let pw := fld (c.w 4) 15 0
  let g := servoCfgOf c
  let src := fld (c.w 3) 5 4
  !c.lenIs (5 + pw) || !zeroIn (c.w 3) 3 3 || !zeroIn (c.w 3) 7 6 || !zeroFrom (c.w 3) 9 || !zeroFrom (c.w 4) 16
    || src == 3 || (pw != 0 && pw != 8)
    || (pw == 8 && (!zeroFrom (c.w 5) 20 || g.transport == 3 || decide (1000000000 < g.stepThreshold)
      || !zeroFrom (c.w 8) 20 || g.rateLimit == 0 || decide (500000 < g.rateLimit)
      || decide (g.holdoverTimeout < 100) || decide (60000 < g.holdoverTimeout) || g.lockWindow == 0
      || (freqValid c && decide (limitUnits g.rateLimit < |int32 (c.w 10)|)) || c.w 12 != 0))
    || (g.ptpEn && src != 1)

/-- Another time base uses the same PTP port and domain (R151). -/
def State.ptpClash (s : State) (n : Nat) (g : ServoCfg) : Bool :=
  (List.range 8).any fun k => k != n && (s.tb k).cfg.ptpEn && (s.tb k).cfg.ptpPort == g.ptpPort
    && (s.tb k).cfg.domain == g.domain

/-- The PPS output after a TIME_CONFIG of base `n` (R158). -/
def State.ppsConfig (s : State) (n : Nat) (on : Bool) : State :=
  if on then
    s.setTime { s.time with ppsOutEn := true, ppsOutTb := n, ppsNext := tbSeconds (s.tb n).value + 1 }
  else if s.time.ppsOutEn ∧ s.time.ppsOutTb = n then
    let s' := s.setTime { s.time with ppsOutEn := false, ppsLevel := false }
    if s.time.ppsLevel then s'.emit (.pps false) else s'
  else s

/-- The effect of TIME_CONFIG (R151, R155, R158). -/
def State.timeConfig (s : State) (n src : Nat) (pps : Bool) (g : ServoCfg) (freq : Option Int) : State :=
  let was := (s.tb n).state
  let s := s.ppsConfig n pps
  let s := s.updTb n fun b =>
    let f : Rat := match freq with | some q => (q : Rat) / 2 ^ 40 | none => b.freq
    { b with source := src, cfg := g, freq := f, rate := rateWord f g.rateLimit }
  let st : ServoState := if src = 0 then .free else .acquire
  let s := if was = .holdover then s.leaveHoldover n st else s
  s.updTb n fun b => { b with
    state := st, causes := 0, runIn := 0, runOut := 0, ptp := {}
    samples := if src = 0 then b.samples else 0
    lastOffset := s.time.elapsed }

def timeConfigBody (id : Nat) (c : Taken) (s : State) : State :=
  let n := fld (c.w 3) 2 0
  let g := servoCfgOf c
  s.checked id
    [(timeConfigBad c, rBadArg), (c.fn != 0, rDenied), (!s.serves 0x051, rWrongMode),
      (g.ptpEn && (s.port? g.ptpPort).isNone, rNotFound), (g.ptpEn && s.ptpClash n g, rBusy)] fun s =>
    (s.commitOk id c 5 n []).timeConfig n (fld (c.w 3) 5 4) (bitAt (c.w 3) 8) g
      (if freqValid c then some (int32 (c.w 10)) else none)

def execTimeConfig (id : Nat) (s : State) : Res := .next (s.command id 0x051 (timeConfigBody id))

/-- OFFSET of TIME_OFFSET, in units of 2^-16 ns (R80). -/
def offsetOf (c : Taken) : Int := int64 (c.w 4) (c.w 5)

/-- The format checks that both uses of TIME_OFFSET share (R80, R153). -/
def timeOffsetBad (c : Taken) : Bool :=
  !c.lenIs 6 || !zeroIn (c.w 3) 7 3 || !zeroFrom (c.w 3) 9 || decide (2 ^ 63 ≤ |offsetOf c|)

/-- TIME_OFFSET with STEP 1 (R147). -/
def timeOffsetStepBody (id : Nat) (c : Taken) (s : State) : State :=
  let n := fld (c.w 3) 2 0
  let v : Int := (s.tb n).value + offsetOf c * 2 ^ 24
  if !bitAt (c.w 3) 8 then s
  else
    s.checked id
      [(timeOffsetBad c || decide (v < 0) || decide (2 ^ 48 * 1000000000 * 2 ^ 40 ≤ v), rBadArg), (c.fn != 0, rDenied),
        (!s.serves 0x052, rWrongMode)] fun s =>
      (s.commitOk id c 5 n []).stepTb n (offsetOf c * 2 ^ 24)

def execTimeOffsetStep (id : Nat) (s : State) : Res := .next (s.command id 0x052 (timeOffsetStepBody id))

/-- TIME_OFFSET with STEP 0: an offset for the servo, measured at the commit point (R153, R154). -/
def timeOffsetServoBody (id : Nat) (c : Taken) (s : State) : State :=
  let n := fld (c.w 3) 2 0
  if bitAt (c.w 3) 8 then s
  else
    s.checked id
      [(timeOffsetBad c || (s.tb n).source != 1, rBadArg), (c.fn != 0, rDenied), (!s.serves 0x052, rWrongMode),
        ((s.tb n).cfg.ptpEn, rBusy)] fun s =>
      (s.commitOk id c 5 n []).servoOffset n ((offsetOf c : Rat) / 65536) s.time.elapsed

def execTimeOffsetServo (id : Nat) (s : State) : Res := .next (s.command id 0x052 (timeOffsetServoBody id))

end Sys2Proof.Machine
end

