-- ==== Sys2Proof/Machine/Ptp.lean ====
section
/-! DEFINITION. The firmware PTP stack: a slave-only ordinary clock for each time base with PTP_EN set (R135, R149 to R152). The
spec names IEEE 1588-2019 and gives none of its rules: what is taken from there is PRESUMED (log entry 111). -/

namespace Sys2Proof.Machine

/-! ### Frames (R151, R152) -/

/-- The identity of the port of the device's clock that serves time base `n`. -/
def ptpIdentity (n : Nat) : Nat := Config.clockIdentity * 65536 + n + 1

/-- The TRANSPORT of a frame that holds a PTP message (R151). -/
def ptpTransport (f : Frame) : Nat := match f.ip with | none => 0 | some ip => if ip.v6 then 2 else 1

/-- Bytes of a PTP message that the device sends. -/
def ptpLen (m : PtpMsg) : Nat := match m.kind with | .delayReq => 44 | _ => 54

/-- The frame of a PTP message: peer messages go to the link-local group, others to the domain's, event messages to UDP port 319 and
general ones to 320. -/
def ptpFrame (transport : Nat) (sa : Nat) (m : PtpMsg) : Frame :=
  let peer := m.kind != .delayReq
  let port := if m.kind = .pdelayRespFollowUp then 320 else 319
  if transport = 0 then
    { da := if peer then 0x0180C200000E else 0x011B19000000, sa := sa, etype := 0x88F7, length := max 64 (18 + ptpLen m)
      app := .ptp m }
  else
    let v6 := transport == 2
    let dst := if v6 then (if peer then 0xFF02 * 2 ^ 112 + 0x6B else 0xFF0E * 2 ^ 112 + 0x181)
      else if peer then 0xE000006B else 0xE0000181
    { da := if v6 then 0x333300000000 + dst % 2 ^ 32 else 0x01005E000000 + dst % 2 ^ 23, sa := sa
      etype := if v6 then 0x86DD else 0x0800, length := max 64 (udpFrameLen v6 (ptpLen m))
      ip := some { v6 := v6, headerLen := if v6 then 40 else 20, src := Config.ptpAddress v6, dst := dst, dscp := 48, df := true
                   ttl := if peer then 1 else 64 }
      udp := some { sport := port, dport := port }, app := .ptp m }

/-- Welmus sends a PTP message for time base `n` in class 0, with a stamp request where `stamp` numbers one (R150, R232). -/
def State.ptpSend (s : State) (n : Nat) (m : PtpMsg) (stamp : Option Nat) : State :=
  let g := (s.tb n).cfg
  let sa := (((s.port? g.ptpPort).getD {}).cfg.addrs.headD (0, 0)).1
  let f := ptpFrame g.transport sa { m with domain := g.domain, source := ptpIdentity n }
  s.sendClass0 g.ptpPort { frame := f, length := f.length, asap := true, stamp := stamp } none

/-- Changes the PTP stack of time base `n`. -/
def State.updPtp (s : State) (n : Nat) (f : PtpState → PtpState) : State := s.updTb n fun b => { b with ptp := f b.ptp }

/-! ### The masters (R152) -/

/-- `a` comes before `b` in lexicographic order. -/
def ranksBefore : List Nat → List Nat → Bool
  | [], _ => true
  | _, [] => false
  | a :: r, b :: t => decide (a < b) || (a == b && ranksBefore r t)

/-- An Announce message received at `at_`: intervals of 2^-7 s to 16 s count. -/
def PtpState.announce (x : PtpState) (m : PtpMsg) (at_ : Nat) : PtpState :=
  let ns := if m.logInterval < 0 then 1000000000 / 2 ^ m.logInterval.natAbs else 1000000000 * 2 ^ m.logInterval.natAbs
  let old := x.masters.find? fun y => y.id == m.source
  let new : PtpMaster :=
    { id := m.source, rank := m.gm ++ [m.steps, m.source], last := at_, before := old.map PtpMaster.last, interval := ns }
  { x with masters := (x.masters.filter fun y => y.id != m.source) ++ [new] }

/-- The masters that count at `now`: heard within three intervals, and twice within four. -/
def PtpState.heard (x : PtpState) (now : Nat) : List PtpMaster :=
  x.masters.filter fun y => decide (now < y.last + 3 * y.interval) && y.before.any fun b => decide (y.last ≤ b + 4 * y.interval)

/-- The best master by the comparison of data sets. -/
def PtpState.best (x : PtpState) (now : Nat) : Option PtpMaster :=
  (x.heard now).foldl (fun (a : Option PtpMaster) y =>
    match a with
    | none => some y
    | some b => if ranksBefore y.rank b.rank then some y else some b) none

/-! ### Offsets (R152) -/

/-- A time on the base in ns. -/
def stampNs (v : Nat) : Rat := (v : Rat) / 2 ^ 40

/-- A correction in ns. -/
def corrNs (c : Int) : Rat := (c : Rat) / 65536

/-- Delivers the offset that a Sync and a path delay give: the base's time of receipt less the master's time of sending, the delay,
the corrections and DELAY_CORR (R151, R152). -/
def State.ptpOffset (s : State) (n : Nat) (y : PtpSync) (sent : Nat) (delay : Rat) : State :=
  s.servoOffset n (stampNs y.stamp - (sent : Rat) - corrNs y.correction - delay - corrNs (s.tb n).cfg.delayCorr) y.at_

/-- A Sync whose master's time is known: where Welmus asks for a delay measurement, a delay request goes out, with a stamp request
and an originTimestamp of `origin`. -/
def State.ptpRequest (s : State) (n : Nat) (ask : Bool) (origin : Nat) : State :=
  if !ask then s
  else
  let x := (s.tb n).ptp
  let kind : PtpKind := if (s.tb n).cfg.peerDelay then .pdelayReq else .delayReq
  let s := s.updPtp n fun x => { x with req := some (x.nextSeq, none), resp := none, nextSeq := (x.nextSeq + 1) % 65536 }
  s.ptpSend n { kind := kind, seq := x.nextSeq, time := origin } (some (n * 65536 + x.nextSeq))

/-- The response to a delay request: the mean path delay is half of the two one-way times, corrected. -/
def State.ptpDelayResp (s : State) (n : Nat) (m : PtpMsg) : State :=
  match (s.tb n).ptp.sync, (s.tb n).ptp.req with
  | some y, some (q, some t3) =>
    match y.sent with
    | none => s
    | some t1 =>
      if q ≠ m.seq ∨ m.requester ≠ ptpIdentity n then s
      else
        let s := s.updPtp n fun x => { x with req := none }
        s.ptpOffset n y t1
          ((stampNs y.stamp - stampNs t3 + ((m.time : Rat) - (t1 : Rat)) - corrNs y.correction - corrNs m.correction) / 2)
  | _, _ => s

/-- The peer's response: `turn` is its time between receipt and response in ns, with its corrections; `back` the response's receive
stamp. -/
def State.ptpPeerDelay (s : State) (n : Nat) (back : Nat) (turn : Rat) : State :=
  match (s.tb n).ptp.sync, (s.tb n).ptp.req with
  | some y, some (_, some t1p) =>
    match y.sent with
    | none => s
    | some t1 =>
      let s := s.updPtp n fun x => { x with req := none, resp := none }
      s.ptpOffset n y t1 ((stampNs back - stampNs t1p - turn) / 2)
  | _, _ => s

/-- Whether a response answers the request in hand of time base `n`. -/
def State.ptpAnswers (s : State) (n : Nat) (m : PtpMsg) : Bool :=
  m.requester == ptpIdentity n && (s.tb n).ptp.req.any fun q => q.1 == m.seq

/-- A PTP message for time base `n`, with its receive stamp on the base (R152). IEEE 1588-2019 leaves open at which Syncs a clock
asks for a delay measurement, and what it gives as the request's originTimestamp: both come with the command (log entry 111). -/
def State.ptpTake (s : State) (n : Nat) (m : PtpMsg) (stamp at_ : Nat) (ask : Bool) (origin : Nat) : State :=
  let b := s.tb n
  let best := (b.ptp.best at_).any fun y => y.id == m.source
  match m.kind with
  | .announce => s.updPtp n fun x => x.announce m at_
  | .sync =>
    if !best ∨ m.logInterval < -7 ∨ 4 < m.logInterval then s
    else
      let y : PtpSync := { seq := m.seq, stamp := stamp, at_ := at_, correction := m.correction }
      if m.twoStep then s.updPtp n fun x => { x with sync := some y }
      else (s.updPtp n fun x => { x with sync := some { y with sent := some m.time } }).ptpRequest n ask origin
  | .followUp =>
    match b.ptp.sync with
    | none => s
    | some y =>
      if !best ∨ y.seq ≠ m.seq ∨ y.sent.isSome then s
      else (s.updPtp n fun x =>
        { x with sync := some { y with sent := some m.time, correction := y.correction + m.correction } }).ptpRequest n ask origin
  | .delayResp => if best ∧ b.cfg.peerDelay = false then s.ptpDelayResp n m else s
  | .pdelayResp =>
    if b.cfg.peerDelay = false ∨ s.ptpAnswers n m = false then s
    else if m.twoStep then s.updPtp n fun x => { x with resp := some (m.time, stamp, m.correction) }
    else s.ptpPeerDelay n stamp (corrNs m.correction)
  | .pdelayRespFollowUp =>
    match b.ptp.resp with
    | none => s
    | some r =>
      if b.cfg.peerDelay = false ∨ s.ptpAnswers n m = false then s
      else s.ptpPeerDelay n r.2.1 ((m.time : Rat) - (r.1 : Rat) + corrNs r.2.2 + corrNs m.correction)
  | .pdelayReq =>
    if b.cfg.peerDelay = false then s
    else
      let s := s.updPtp n fun x => { x with answers := (x.answers.filter fun a => a.1 != m.seq) ++ [(m.seq, m.source)] }
      s.ptpSend n { kind := .pdelayResp, seq := m.seq, twoStep := true, time := stamp / 2 ^ 40, requester := m.source
                    correction := -((stamp / 2 ^ 24 % 65536 : Nat) : Int) } (some (2 ^ 20 + n * 65536 + m.seq))
  | .delayReq | .other => s

/-- The time base that a PTP message received on a port is for: by DOMAIN and TRANSPORT (R151). -/
def State.ptpBase (s : State) (port : Nat) (f : Frame) (m : PtpMsg) : Option Nat :=
  (List.range 8).find? fun n =>
    let b := s.tb n
    b.cfg.ptpEn && b.source == 1 && b.cfg.ptpPort == port && b.cfg.domain == m.domain && b.cfg.transport == ptpTransport f

/-- PTP_MESSAGE: the PTP stack of a time base takes the frame at the head of the time queue of its port; one that is for no base
yields nothing, and one for another base stays for that base (R135, R152). -/
def ptpMessage (n : Nat) (ask : Bool) (origin : Nat) (s : State) : State :=
  let s := s.begin
  let b := s.tb n
  if !s.welmusRuns || !s.time.running || decide (7 < n) || !b.cfg.ptpEn || b.source != 1 then s
  else
    match (s.port? b.cfg.ptpPort).map Port.timeQ with
    | some (r :: rest) =>
      let gone := s.updPort b.cfg.ptpPort fun q => { q with timeQ := rest }
      match r.frame.app with
      | .ptp m =>
        match s.ptpBase b.cfg.ptpPort r.frame m with
        | none => gone
        | some k => if k = n then gone.ptpTake n m (r.stamps.getD n 0) r.at_ ask origin else s
      | _ => gone
    | _ => s

def execPtpMessage (tb : Nat) (ask : Bool) (origin : Nat) (s : State) : Res := .next (ptpMessage tb ask origin s)

/-! ### Transmit stamps (R149, R150) -/

/-- The stamp set of a frame that Welmus sent with a stamp request: the request's own time, or the Follow_Up of a peer's answer. -/
def State.stampBack (s : State) (k : Nat) (stamps : List Nat) : State :=
  let n := k / 65536 % 8
  let t := stamps.getD n 0
  if k < 2 ^ 20 then
    s.updPtp n fun x => { x with req := x.req.map fun q => if q.1 = k % 65536 then (q.1, some t) else q }
  else
    match (s.tb n).ptp.answers.find? fun a => a.1 == k % 65536 with
    | none => s
    | some a =>
      let s := s.updPtp n fun x => { x with answers := x.answers.filter fun b => b.1 != a.1 }
      s.ptpSend n { kind := .pdelayRespFollowUp, seq := a.1, time := t / 2 ^ 40, requester := a.2
                    correction := ((t / 2 ^ 24 % 65536 : Nat) : Int) } none

/-- MAC_FRAME_START (R140, R160 to R166): the wire must be idle and the port not held by pause. A frame
with a stamp request returns its stamp set (R150). -/
def macFrameStart (p : Nat) (s : State) : State :=
  let s := s.begin
  match s.port? p with
  | none => s
  | some q =>
    let t := s.now * 1000
    if !s.portsRun || q.st != 4 || decide (t < q.gapUntil) || q.heldAt 8 t then s
    else
      let r := (q.markHeads s.launchClock).pick s.launchClock (s.tb0 / 2 ^ 24) s.now (List.range 8)
      match r.2 with
      | none => (s.updPort p fun _ => r.1).admitWaiting p
      | some f =>
        let b := bytePs q.speedRun
        let q' := { r.1 with
          busyUntil := t + f.wirePs q.speedRun, gapUntil := t + f.wirePs q.speedRun + 12 * b
          counters := bump (bump r.1.counters 16 1) 17 f.length }
        let s := ((s.updPort p fun _ => q').emit (.wire p f.frame f.bad)).admitWaiting p
        match f.stamp with
        | none => s
        | some k => s.stampBack k (s.txStamps q.speedRun)

def execMacFrameStart (port : Nat) (s : State) : Res := .next (macFrameStart port s)

/-! ### The other readers of the receive queues (R134, R135) -/

/-- A port whose time queue no PTP stack reads. -/
def State.noStack (s : State) (p : Nat) : Bool :=
  (List.range 8).all fun n => !((s.tb n).cfg.ptpEn && (s.tb n).source == 1 && (s.tb n).cfg.ptpPort == p)

/-- Welmus takes a frame from the MAC control queue of each port, and one from the time queue of each port that has no PTP stack;
neither has a further effect (R134, R135; log entry 1). -/
def State.welmusReads (s : State) : State :=
  if !s.welmusRuns then s
  else { s with ports := s.ports.map fun p =>
    (p.1, { p.2 with ctlQ := p.2.ctlQ.drop 1, timeQ := if s.noStack p.1 then p.2.timeQ.drop 1 else p.2.timeQ }) }

end Sys2Proof.Machine
end

