-- ==== Sys2Proof/Machine/Registers.lean ====
section
/-! DEFINITION. REGISTER_WRITE: the registers of BAR0 that a write only sets, by access type (R13, R64, R274, R431, R433,
R434). -/

namespace Sys2Proof.Machine

/-- A write of a ring's base or size; ignored while the ring runs (R434). -/
def Ring.setReg (r : Ring) (off : Nat) (value : Word) : Ring :=
  if r.enable then r
  else
    match off with
    | 0x00 => { r with baseLo := value }
    | 0x04 => { r with baseHi := value }
    | 0x08 => { r with size := value.toNat }
    | _ => r

/-- A write of a word of the MSI-X table: 16 bytes a vector, address, upper address, data and vector control, whose bit 0 masks
(R431; the entry's layout is PRESUMED from PCI Express, log entry 49). -/
def State.msixWrite (s : State) (fn v k : Nat) (value : Word) : State :=
  let g := s.func fn
  if k = 3 then
    if bitAt value 0 then s.setFunc fn { g with msixMask := g.msixMask.set v true } else s
  else s.setFunc fn { g with msixWords := g.msixWords.setD 0 (4 * v + k) value }

/-- LANTERN_MATCH; its reserved bits read zero (R274). -/
def State.lanternMatch (s : State) (value : Word) : State :=
  s.updSched fun x => { x with lantern := { x.lantern with matchReg := value &&& 0xFF80FFFF } }

/-- REGISTER_WRITE: an aligned write of 4 bytes; any other size, and registers that are read-only, absent or written by commands
of their own, take no effect here (R64, R430). -/
def registerWrite (fn off size : Nat) (value : Word) (s : State) : State :=
  let s := s.begin
  if !s.hostUp || decide (63 < fn) || decide (size ≠ 4) || decide (off % 4 ≠ 0) then s
  else if off = 0x100C then s.updMb fn fun m => { m with mask := fld value 8 0 }
  else if off = 0x1010 then s.updMb fn fun m => { m with threshold := fld value 14 0, holdoff := fld value 31 16 }
  else if off = 0x3408 then (if fn = 0 then s.lanternMatch value else s)
  else if 0x4000 ≤ off ∧ off < 0x4080 then
    s.updRing fn ((off - 0x4000) / 32) fun r => r.setReg ((off - 0x4000) % 32) value
  else if 0x5000 ≤ off ∧ off < 0x5050 then s.msixWrite fn ((off - 0x5000) / 16) ((off - 0x5000) % 16 / 4) value
  else s

def execRegisterWrite (fn off size : Nat) (value : Word) (s : State) : Res := .next (registerWrite fn off size value s)

end Sys2Proof.Machine
end

