-- ==== Sys2Proof/Machine/Selftest.lean ====
section
/-! DEFINITION. SELFTEST: the instances lent, their drains and tests, eye scans, and the test of the whole device (R80, R224,
R269, R458 to R462). -/

namespace Sys2Proof.Machine

/-! ### Operands (R80, R453, R459) -/

/-- SCOPE and INSTANCE. -/
def testScope (c : Taken) : Nat := fld (c.w 3) 3 0
def testInst (c : Taken) : Nat := fld (c.w 3) 15 8

/-- Instances of a SCOPE. -/
def scopeCount : Nat → Nat
  | 0 => 1 | 1 => 144 | 2 => 48 | 3 => 32 | 4 => 16 | 5 => 40 | 6 => 128 | _ => 0

/-- The kind of R453 of a SCOPE. -/
def scopeKind : Nat → Nat
  | 2 => 2 | 3 => 4 | 4 => 3 | 5 => 5 | 6 => 7 | _ => 0

/-- Test time of a SCOPE in ns (R459). -/
def scopeNs : Nat → Nat
  | 1 => 20000000 | 2 => 30000000 | 3 => 30000000 | 4 => 10000000 | 5 => 2000000 | 6 => 50000000 | _ => 3000000000

/-- Instances of a kind of R453. -/
def kindCount : Nat → Nat
  | 0 => 144 | 1 => 1 | 2 => 48 | 3 => 16 | 4 => 32 | 5 => 40 | 7 => 128 | _ => 0

/-- The checks of SELFTEST that come before those of the instance (R76, R78, R80, R41). -/
def testChecks (c : Taken) (s : State) : List (Bool × Nat) :=
  [(!c.lenIs 4 || !zeroFrom (c.w 3) 16 || !zeroIn (c.w 3) 7 4 || decide (scopeCount (testScope c) ≤ testInst c), rBadArg),
   (c.fn != 0, rDenied), (s.modes.mode == .throttle, rDeferred),
   (!s.serves 0x080 || (testScope c == 0 && s.modes.mode != .maintenance), rWrongMode)]

/-- Whether an instance of a kind is lent, to a test of its own or to that of the whole device (R459, R462). -/
def State.kindLent (s : State) (kind : Nat) : Bool :=
  s.avail.lent.any fun p => p.1 / 65536 == kind || p.1 == wholeTest

/-- Whether an instance of a kind other than `i` is unavailable. -/
def State.otherDown (s : State) (kind i : Nat) : Bool :=
  s.avail.down.any fun p => p.1 / 65536 == kind && p.1 != instId kind i

/-- The declared PIXEL_RATE of all banks (R459). -/
def State.declaredPixels (s : State) : Nat :=
  let one := fun (p : Plan) => ((p.sessions.filter fun r => r.typ == 2).map SessionRec.pixelRate).sum
  (s.confs.map fun (x : Nat × Conf) => (x.2.banks.map fun b => (b.plan.map one).getD 0).sum).sum

/-- The lane shows signal at a port (R126, R459). -/
def State.laneSignal (s : State) (lane : Nat) : Bool :=
  s.ports.any fun (p : Nat × Port) =>
    decide (p.1 ≤ lane) && decide (lane < p.1 + lanesOf p.2.cfg.speed) && p.2.signal.testBit (lane - p.1)

/-- The condition under which an instance of a SCOPE is lent (R224, R459). -/
def State.mayLend (s : State) (scope i : Nat) : Bool :=
  match scope with
  | 2 => !s.otherDown 2 i
    && decide (s.declaredPixels ≤ ((List.range 48).countP (fun k => !s.avail.down.has (instId 2 k)) - 1) * 1000)
  | 5 => (List.range 5).all fun k => i / 5 * 5 + k == i || !s.avail.down.has (instId 5 (i / 5 * 5 + k))
  | 6 => s.laneSignal i
  | _ => !s.otherDown (scopeKind scope) i

/-- The instance holds no work: its test can start (R269, R459). -/
def State.idleInst (s : State) (scope i : Nat) : Bool :=
  match scope with
  | 5 => (s.core i).jobs.isEmpty
  | 6 => true
  | _ => (s.engTasks (scopeKind scope) i).isEmpty

/-! ### The commands (R459, R462) -/

/-- The commit of SELFTEST: the instance is lent; it is tested at once where it is unavailable or idle, and drained
otherwise (R94, R269, R460). -/
def State.lend (s : State) (id : Nat) (c : Taken) (key scope : Nat) (now : Bool) : State :=
  let s := (s.markCommitted id).commitEntry c rOk 7 (fld (c.w 3) 20 0) 0
  let x : Lent := { cmd := id, since := s.now, started := if now then some s.now else none, testNs := scopeNs scope }
  { s with avail := { s.avail with lent := s.avail.lent.put key x } }

/-- SELFTEST of one instance of a SCOPE: the conditions do not apply to one that is unavailable (R76, R459, R460). -/
def lendBody (id : Nat) (c : Taken) (s : State) : State :=
  let scope := testScope c
  let i := testInst c
  let key := instId (scopeKind scope) i
  let down := s.avail.down.has key
  s.checked id
    (testChecks c s ++ [(s.kindLent (scopeKind scope), rBusy),
      (!down && !s.mayLend scope i, if scope = 5 then rDeferred else rNoResource)]) fun s =>
    s.lend id c key scope (down || s.idleInst scope i)

/-- SELFTEST with SCOPE 1 to 5; a SCOPE that does not exist is turned away here. -/
def selftestInstanceBody (id : Nat) (c : Taken) (s : State) : State :=
  if testScope c = 0 ∨ testScope c = 6 then s else lendBody id c s

def execSelftestInstance (id : Nat) (s : State) : Res := .next (s.command id 0x080 (selftestInstanceBody id))

/-- SELFTEST with SCOPE 6. -/
def selftestEyeScanBody (id : Nat) (c : Taken) (s : State) : State := if testScope c = 6 then lendBody id c s else s

def execSelftestEyeScan (id : Nat) (s : State) : Res := .next (s.command id 0x080 (selftestEyeScanBody id))

/-- SELFTEST with SCOPE 0: while it runs, every kind counts as lent (R462). -/
def selftestDeviceBody (id : Nat) (c : Taken) (s : State) : State :=
  if testScope c ≠ 0 then s
  else s.checked id (testChecks c s ++ [(!s.avail.lent.isEmpty, rBusy)]) fun s => s.lend id c wholeTest 0 true

def execSelftestDevice (id : Nat) (s : State) : Res := .next (s.command id 0x080 (selftestDeviceBody id))

/-! ### The ends of a test (R458, R460 to R462) -/

/-- The lent instance of command `id`. -/
def State.lentBy (s : State) (id : Nat) : Option (Nat × Lent) :=
  List.find? (fun p : Nat × Lent => p.2.cmd == id) s.avail.lent

/-- The instance is no longer lent. -/
def State.unlend (s : State) (key : Nat) : State := { s with avail := { s.avail with lent := s.avail.lent.del key } }

/-- The PHASE 1 entry and the response of a SELFTEST. -/
def State.testReply (s : State) (id result : Nat) (payload : List Word) : State :=
  match s.welmus.taken.find? id with
  | none => s
  | some c => s.finish id c result 7 (fld (c.w 3) 20 0) payload

/-- An unavailable instance whose test passed returns to service (R458, R460). -/
def State.returnInst (s : State) (key : Nat) : State :=
  if s.avail.down.has key then
    (s.fault 0x2C 7 key (w32 (s.recentFences key)) 0).instanceUp (key / 65536) (key % 65536)
  else s

/-- An instance whose test failed is unavailable from now on (R460). -/
def State.failInst (s : State) (key detail : Nat) : State :=
  (s.instanceDown (key / 65536) (key % 65536) false).fault 0x2B 7 key (w32 detail) 0

/-- The fence of a cipher core: it leaves dispatch with whatever it holds (R458, R460). -/
def State.fenceCore (s : State) (core : Nat) : State :=
  let id := instId 5 core
  let s := s.instanceDown 5 core false
  let s := { s with avail := { s.avail with fences := s.avail.fences.put id (s.now :: s.avail.fences.getD [] id) } }
  let s := (s.countSched 12 1).trace 11 0 7 0 0 0x3FFFF 0xFFFF (8 * 4096 + core)
  (s.updCore core fun q => { q with jobs := [] }).fault 0x28 7 id 2 0x3FFFF

/-- DETAIL of an eye scan (R460, R461). -/
def eyeDetail (e : EyeScan) : Nat :=
  if !e.signal then 0x11
  else if (List.range 3).any fun k => decide (e.heights.getD k 0 < 12) || decide (e.widths.getD k 0 < 150) then 0x10
  else 0

/-- Words 5 to 8 of the response of SCOPE 6 (R461). -/
def eyeWords (e : EyeScan) : List Word :=
  ((List.range 3).map fun k => w32 (e.heights.getD k 0 % 65536 + 65536 * (e.widths.getD k 0 % 65536))) ++ [w32 (e.snr % 65536)]

/-- An eye scan has ended; the lane carries on as it did (R459, R461). -/
def State.scanDone (s : State) (id key detail : Nat) (eye : EyeScan) : State :=
  let s := s.unlend key
  let s := if detail = 0 then s else s.fault 0x2B 7 key (w32 detail) 0
  s.testReply id rOk (w32 (b2n (decide (detail = 0)) + 256 * detail) :: eyeWords eye)

/-- A fenced instance stays unavailable: its reset is not released for a test (R460). -/
def State.stayDown (s : State) (key : Nat) : State :=
  { s with avail := { s.avail with down := s.avail.down.put key { since := s.now, held := false } } }

/-- One failure of the test of the whole device: an engine whose test did not end in time was fenced (R460, R462). -/
def State.deviceFailure (s : State) (f : Nat × Nat) : State :=
  let kind := f.1 / 65536
  let i := f.1 % 65536
  if kind = 7 then s.fault 0x2B 7 f.1 (w32 f.2) 0
  else if f.2 = 3 then
    ((if kind = 5 then s.fenceCore i else s.fenceEngine kind i 2 0x3FFFF).stayDown f.1).fault 0x2B 7 f.1 (w32 f.2) 0
  else s.failInst f.1 f.2

/-- An instance that SCOPE 0 tests: those of SCOPES 1 to 5, and lanes (R462). -/
def testable (id : Nat) : Bool := decide (id / 65536 ≠ 1) && decide (id % 65536 < kindCount (id / 65536))

/-- The test of the whole device has ended: every failure has its record, and the unavailable instances that passed return
(R460, R462). -/
def State.deviceDone (s : State) (id : Nat) (failures : List (Nat × Nat)) : State :=
  let bad := (failures.filter fun f => testable f.1).foldl
    (fun (l : List (Nat × Nat)) f => if l.any (fun g => g.1 == f.1) then l else l ++ [f]) []
  let s := bad.foldl State.deviceFailure (s.unlend wholeTest)
  let back := s.avail.down.keys.filter fun k =>
    testable k && decide (k / 65536 ≠ 7) && !bad.any (fun f => f.1 == k)
  let s := back.foldl State.returnInst s
  s.testReply id rOk [w32 (b2n bad.isEmpty + 256 * min bad.length 255)]

/-- SELFTEST_DONE: a test that ends within twice its test time; the instance returns to dispatch if it passed. -/
def selftestDone (id : Nat) (result : TestResult) (eye : EyeScan) (failures : List (Nat × Nat)) (s : State) : State :=
  let s := s.begin
  match s.lentBy id with
  | none => s
  | some (key, x) =>
    match x.started with
    | none => s
    | some t =>
      if t + 2 * x.testNs < s.now then s
      else if key = wholeTest then s.deviceDone id failures
      else if key / 65536 = 7 then s.scanDone id key (eyeDetail eye) eye
      else if result.pass then ((s.unlend key).returnInst key).testReply id rOk [1]
      else ((s.unlend key).failInst key result.detail).testReply id rOk [w32 (256 * (result.detail % 256))]

def execSelftestDone (id : Nat) (result : TestResult) (eye : EyeScan) (failures : List (Nat × Nat)) (s : State) : Res :=
  .next (selftestDone id result eye failures s)

/-- DRAIN_TIMEOUT: an instance that is not idle 100 ms after its command was taken returns to dispatch (R269). -/
def drainTimeout (id : Nat) (s : State) : State :=
  let s := s.begin
  match s.lentBy id with
  | none => s
  | some (key, x) =>
    if x.started.isSome ∨ s.now < x.since + 100000000 then s else (s.unlend key).testReply id rDeferred []

def execDrainTimeout (id : Nat) (s : State) : Res := .next (drainTimeout id s)

/-- SELFTEST_TIMEOUT: a test that has not ended within twice its test time fences the instance, and fails (R460). -/
def selftestTimeout (id : Nat) (s : State) : State :=
  let s := s.begin
  match s.lentBy id with
  | none => s
  | some (key, x) =>
    if key = wholeTest ∨ !(x.started.any fun t => decide (t + 2 * x.testNs < s.now)) then s
    else if key / 65536 = 7 then s.scanDone id key 3 { heights := [], widths := [], snr := 0, signal := false }
    else if key / 65536 = 5 then ((s.unlend key).fenceCore (key % 65536)).selftestFailed key id 3
    else s.fenceEngine (key / 65536) (key % 65536) 2 0x3FFFF

def execSelftestTimeout (id : Nat) (s : State) : Res := .next (selftestTimeout id s)

end Sys2Proof.Machine
end

