-- ==== Sys2Proof/Machine/Shaper.lean ====
section
/-! DEFINITION. SHAPER_SET and the bucket probe (R80, R118, R238, R242, R248). -/

namespace Sys2Proof.Machine

/-- Whether the bucket that a level and index name exists (R233, R242). -/
def State.bucketExists (s : State) (level idx : Nat) : Bool :=
  match level with
  | 0 => s.legs.has idx
  | 1 => (s.conf idx).activeNo.isSome
  | 2 => (s.port? (idx / 8)).isSome
  | _ => (s.port? idx).isSome

/-- Rights to a level and index: VFs have them at the leg and conference levels only (R78, R84). -/
def State.hasBucket (s : State) (fn level idx : Nat) : Bool :=
  match level with
  | 0 => s.hasLeg fn idx
  | 1 => s.hasConf fn idx
  | _ => fn == 0

/-- The fields of a SHAPER_SET are out of format or range (R80, R242). -/
def shaperMalformed (c : Taken) : Bool :=
  let level := fld (c.w 3) 1 0
  let idx := fld (c.w 3) 23 4
  let rate := (c.w 4).toNat
  let burst := (c.w 6).toNat
  !c.lenIs 7 || !zeroIn (c.w 3) 3 2 || !zeroFrom (c.w 3) 24
    || (rate != 0 && (decide (rate < 64) || decide (800000000 < rate)))
    || (burst != 0 && (decide (burst < 1536) || decide (16777216 < burst)))
    || (level == 1 && decide (65535 < idx)) || (level == 2 && decide (1023 < idx)) || (level == 3 && decide (127 < idx))

/-- The ceiling that a SHAPER_SET sets (R242). -/
def burstOf (b : Bucket) (burst : Nat) : Nat := if burst ≠ 0 then burst else if b.rate = 0 then 65536 else b.ceil

/-- Marks the override that a SHAPER_SET leaves (R119). -/
def State.markShaper (s : State) (level idx : Nat) : State :=
  match level with
  | 0 => s.updLeg idx fun g => { g with shaperOv := true }
  | 1 => s.updConf idx fun g => { g with shaperOv := true }
  | _ => s

/-- The audit object of a SHAPER_SET (R94). -/
def shaperKind : Nat → Nat
  | 0 => 2 | 1 => 1 | _ => 4

/-- SHAPER_SET (R242). -/
def shaperSetBody (id : Nat) (c : Taken) (s : State) : State :=
  let level := fld (c.w 3) 1 0
  let idx := fld (c.w 3) 23 4
  s.checked id
    [(shaperMalformed c, rBadArg), (!s.hasBucket c.fn level idx, rDenied), (!s.serves 0x060, rWrongMode),
      (!pairOk (c.w 4) (c.w 5), rIntegrity), (level == 1 && (s.conf idx).fenced.isSome, rIntegrity),
      (!s.bucketExists level idx, rNotFound)] fun s =>
    let seq := s.audit.next
    let s := (s.shape level idx (c.w 4) (c.w 5) (burstOf (s.bucket level idx) (c.w 6).toNat)).markShaper level idx
    (s.commitEntry c 0 (shaperKind level) idx (w32 level)).complete id rOk seq []

def execShaperSet (id : Nat) (s : State) : Res := .next (s.command id 0x060 (shaperSetBody id))

/-! ### The probe (R248) -/

/-- A lead in ns saturating at plus and minus 2^31 - 1, from units of 2^-16 ns (R248). -/
def leadWord (v : Int) : Word := wInt (max (-(2 ^ 31 - 1)) (min (2 ^ 31 - 1) (v.tdiv 65536)))

/-- The copies that a probe's level and index select. -/
def probeSelects (level idx : Nat) (c : Stored) : Bool :=
  match level with
  | 0 => c.leg == idx
  | 1 => c.copy.conf == idx
  | 2 => c.port * 8 + c.cls == idx
  | _ => c.port == idx

/-- PROBE_HEAD_LATE (R248), from launch times in ns. -/
def State.headLate (s : State) (level idx : Nat) : Nat :=
  if level ≠ 2 then 0
  else
    match s.launchHead (idx / 8) (idx % 8) with
    | none => 0
    | some p => ((s.launchClock / 65536) - p.2.launch).toNat

/-- PROBE_SEL_WRITE (R248): only PF0 has the probe; reserved bits are ignored. -/
def probeSelWrite (fn : Nat) (value : Word) (s : State) : State :=
  let s := s.begin
  if fn ≠ 0 ∨ !s.hostUp then s
  else
    let sel := value &&& 0x00FFFFF3
    let level := fld sel 1 0
    let idx := fld sel 23 4
    if !s.bucketExists level idx then { s with probe := { sel := sel, valid := true, absent := true } }
    else
      let b := s.bucket level idx
      { s with probe := {
        sel := sel, valid := true, absent := false, compFault := !pairOk b.rate b.rateC
        rate := if b.limits then w32 (s.rateOf level idx) else 0
        ceiling := w32 b.ceil
        lead := if b.rate = 0 then 0 else leadWord (b.vt - s.launchClock)
        depth := w32 (s.cellsOf (probeSelects level idx))
        headLate := w32 (s.headLate level idx)
        time := w32 (s.tb0Ns % 1000000000)
        grottoFree := w32 s.grottoFree, sumpFree := w32 s.sumpFree, sumpCells := w32 s.hbm.sumpCells } }

def execProbeSelWrite (fn : Nat) (value : Word) (s : State) : Res := .next (probeSelWrite fn value s)

end Sys2Proof.Machine
end

