-- ==== Sys2Proof/Machine/Sram.lean ====
section
/-! DEFINITION. The on-die SRAMs: corrections, storms, and what an uncorrectable word does, by array (R454, R455). Arrays are
numbered by the rows of R455's table, from 0. -/

namespace Sys2Proof.Machine

/-- The first frame of a receive queue of a port is lost: 0 pipeline, 1 time, 2 exception, 3 control (R133, R455). -/
def Port.dropRx (q : Port) (k : Nat) : Port :=
  match k with
  | 0 => { q with pipeQ := q.pipeQ.tail }
  | 1 => { q with timeQ := q.timeQ.tail }
  | 2 => { q with excQ := q.excQ.tail }
  | _ => { q with ctlQ := q.ctlQ.tail }

/-- Whether a receive queue of a port holds a frame. -/
def Port.hasRx (q : Port) (k : Nat) : Bool :=
  match k with
  | 0 => !q.pipeQ.isEmpty
  | 1 => !q.timeQ.isEmpty
  | 2 => !q.excQ.isEmpty
  | _ => !q.ctlQ.isEmpty

/-- The first frame of a transmit queue will be sent with an inverted FCS (R455). -/
def Port.spoilTx (q : Port) (cls : Nat) : Port :=
  { q with txq := q.txq.modify cls fun l => match l with
    | [] => []
    | f :: r => { f with bad := true } :: r }

/-- A live task completes FAILED and its leases are revoked; its engine is not fenced (R272, R455). -/
def State.loseTask (s : State) (t : Nat) : State :=
  match s.live? t with
  | none => s
  | some l =>
    match l.st with
    | .completed => s
    | .dispatched => s.revokeTask t
    | _ => (s.updSched fun x => x.unready t).completeTask t 2 0

/-- A media engine met an uncorrectable word at a task: FAILED, but a decoder conceals (R344, R455). -/
def State.engineUe (s : State) (t : Nat) : State :=
  match s.live? t with
  | none => s
  | some l =>
    if l.st ≠ .dispatched ∨ l.reported.isSome then s
    else if l.kind = 2 then s.updLive t fun l => { l with damaged := true }
    else if l.kind = 3 ∨ l.kind = 4 then s.updLive t fun l => { l with reported := some 2 }
    else s

/-- Marks both halves of a 64-bit word of a log record (R69, R455): 64-bit word `a` of a log's SRAM belongs to the record with
sequence number `a / 4` modulo 65,536. -/
def Log.spoil (l : Log) (a : Nat) : Log :=
  let i := (l.next.toNat + 2 ^ 32 - 1 - a / 4) % 65536
  { l with recs := l.recs.modify i fun r => { r with poison := [2 * (a % 4), 2 * (a % 4) + 1] ++ r.poison } }

/-- What an uncorrectable word of an array does (R455). `a` is the word's address and `obj` what lies there: a leg; 16 times a
conference or leg and the row of R117; a charged copy; a port and 128 times its queue; a live task; a DSP core; a log. -/
def State.sramUe (s : State) (array a obj : Nat) : State :=
  match array with
  | 0 => s.fatal 6 (w32 a)
  | 1 => s.fatal 6 (w32 a)
  | 2 => if s.modes.mode.status then s.watchdog else s
  | 3 => s.fenceLeg obj 0x21 1 0
  | 4 =>
    if obj % 16 = 2 ∨ obj % 16 = 4 then s.fenceLegPair (obj / 16) (obj % 16)
    else if (s.conf (obj / 16)).exists_ then s.fenceConf (obj / 16) (obj % 16) 0 else s
  | 5 =>
    match s.store.find? obj with
    | none => s
    | some c => if c.sump then s else { s with store := s.store.del obj }.countTo c.leg c.copy.ctx.serial 34 1
  | 6 =>
    match s.port? (obj % 128) with
    | none => s
    | some q =>
      if q.hasRx (obj / 128) then
        ((s.updPort (obj % 128) fun q => q.dropRx (obj / 128)).countPort (obj % 128) 2 1).pauseCheck (obj % 128) q.fill
      else s
  | 7 => s.updPort (obj % 128) fun q => q.spoilTx (obj / 128)
  | 8 => s.loseTask obj
  | 9 => s.kernelFault obj
  | 10 => s.engineUe obj
  | 11 => (s.updSched fun x => { x with lantern := { x.lantern with lost := x.lantern.lost + 1 } }).countSched 16 1
  | _ =>
    if obj = 0 then { s with faults := { s.faults with log := s.faults.log.spoil a } }
    else { s with audit := s.audit.spoil a }

/-- More than 64 corrections in 1 s: a record at most once per array and minute (R454). -/
def State.sramStorm (s : State) (array corrected : Nat) : State :=
  let soon := (s.sram.getD {} array).lastStorm.any fun t => decide (s.now < t + 60000000000)
  if corrected ≤ 64 ∨ soon = true then s
  else
    let s := s.fault 0x38 7 (instId 11 array) (w32 corrected) 0
    { s with sram := s.sram.put array { lastStorm := some s.now } }

/-- SRAM_SWEEP of one of the 13 arrays: the words corrected in the last 1 s, and the uncorrectable word met, if any. -/
def sramSweep (array corrected : Nat) (uncorrectable : Option Nat) (object : Nat) (s : State) : State :=
  let s := s.begin
  if !s.mainUp || decide (12 < array) then s
  else
    let s := s.sramStorm array corrected
    match uncorrectable with
    | none => s
    | some a => (s.fault 0x39 7 (instId 11 array) (w32 a) 0).sramUe array a object

def execSramSweep (array corrected : Nat) (uncorrectable : Option Nat) (object : Nat) (s : State) : Res :=
  .next (sramSweep array corrected uncorrectable object s)

end Sys2Proof.Machine
end

