-- ==== Sys2Proof/Machine/Stats.lean ====
section
/-! DEFINITION. STATS_READ: the counter sets, read and zeroed in one step (R15, R80, R142, R207, R230, R247, R278, R327, R427). -/

namespace Sys2Proof.Machine

/-- The counters of an object of a set. -/
def State.statsSet (s : State) (set i : Nat) : List Nat :=
  match set with
  | 0 => ((s.port? i).map Port.counters).getD []
  | 1 => ((s.legs.find? i).map Leg.counters).getD []
  | 2 => (s.conf i).counters
  | 3 => (s.mb i).counters
  | 4 => (s.core i).counters
  | 5 => (s.pch i).counters
  | _ => s.sched.counters

/-- Counters at zero. -/
def zeroed (l : List Nat) : List Nat := l.map fun _ => 0

/-- Zeroes the counters of an object of a set (R15). -/
def State.statsClear (s : State) (set i : Nat) : State :=
  match set with
  | 0 => s.updPort i fun q => { q with counters := zeroed q.counters }
  | 1 => s.updLeg i fun g => { g with counters := zeroed g.counters }
  | 2 => s.updConf i fun g => { g with counters := zeroed g.counters }
  | 3 => s.updMb i fun m => { m with counters := zeroed m.counters }
  | 4 => s.updCore i fun q => { q with counters := zeroed q.counters }
  | 5 => s.updPch i fun c => { c with counters := zeroed c.counters }
  | _ => s.updSched fun x => { x with counters := zeroed x.counters }

/-- Objects of a set: INDEX lies below this (R16, R80). -/
def statsBound : Nat → Nat
  | 0 => 128 | 1 => 1048576 | 2 => 65536 | 3 => 64 | 4 => 40 | 5 => 192 | 6 => 1 | _ => 0

/-- Whether function `fn` may read a set of an object (R78, R80, R84). -/
def State.statsRight (s : State) (fn set i : Nat) : Bool :=
  fn == 0 ||
    match set with
    | 1 => s.hasLeg fn i
    | 2 => s.hasConf fn i
    | 3 => fn == i
    | _ => false

/-- Whether the object of a set exists (R142, R207, R327). -/
def State.statsExists (s : State) (set i : Nat) : Bool :=
  match set with
  | 0 => (s.port? i).isSome
  | 1 => (s.legs.find? i).isSome
  | 2 => (s.conf i).exists_
  | _ => true

/-- COUNT and the counters, two words each (R80). -/
def counterWords (l : List Nat) : List Word := w32 l.length :: l.flatMap words64

/-- STATS_READ. -/
def statsReadBody (id : Nat) (c : Taken) (s : State) : State :=
  let set := fld (c.w 3) 3 0
  let i := (c.w 4).toNat
  s.checked id
    [(!c.lenIs 5 || !zeroFrom (c.w 3) 4 || decide (statsBound set ≤ i), rBadArg), (!s.statsRight c.fn set i, rDenied),
     (!s.serves 0x070, rWrongMode), (!s.statsExists set i, rNotFound)] fun s =>
    (s.statsClear set i).complete id rOk 0xFFFFFFFF (plain (counterWords (s.statsSet set i)))

def execStatsRead (id : Nat) (s : State) : Res := .next (s.command id 0x070 (statsReadBody id))

end Sys2Proof.Machine
end

