-- ==== Sys2Proof/Machine/Survey.lean ====
section
/-! DEFINITION. The Survey monitors, the core voltage, and the margins that follow the ageing of the silicon (R423, R465 to R470,
R488). -/

namespace Sys2Proof.Machine

/-! ### Monitors (R465 to R468) -/

/-- The region of monitor `m`. -/
def monitorRegion (m : Nat) : Nat := m % 32 / 4

/-- The clock of a region in MHz (R28, R465). -/
def regionClock : Nat → Nat
  | 0 => 1600 | 1 => 1200 | 2 => 1800 | 3 => 2000 | 4 => 2300 | 5 => 1000 | r => Config.regionMHz r

/-- PRESENT: the mean of the last 1,024 normalised samples, the C5 mean standing for those not taken yet (R466). -/
def Monitor.present (x : Monitor) : Nat := (x.samples.sum + (1024 - x.samples.length) * x.c5) / 1024

/-- The drift of monitor `m` in 0.01 %, rounded towards zero (R465); 0 for an excluded one (R466). -/
def Monitor.drift (x : Monitor) (m : Nat) : Int :=
  if x.excluded then 0
  else
    let d : Int := (x.baseline : Int) - x.present
    if 32 ≤ m then (d * regionClock (monitorRegion m)).tdiv 100
    else if x.baseline = 0 then Config.zeroBaseDrift m x.present
    else (d * 10000).tdiv x.baseline

/-- Monitor `m`. -/
def State.monitor (s : State) (m : Nat) : Monitor := s.survey.getD {} m

/-- The two words of SURVEY_READ (R467). -/
def Monitor.words (x : Monitor) (m : Nat) : List Word :=
  [w32 (x.present % 65536 + 65536 * (x.baseline % 65536)),
   w32 ((wInt (x.drift m)).toNat % 65536 + 65536 * monitorRegion m + 2 ^ 19 * b2n (decide (32 ≤ m)) + 2 ^ 20 * b2n x.excluded
     + 2 ^ 21 * b2n x.volatile)]

/-- SURVEY_READ (R80, R467). -/
def surveyReadBody (id : Nat) (c : Taken) (s : State) : State :=
  let first := fld (c.w 3) 5 0
  let n := fld (c.w 4) 6 0
  s.checked id
    [(!c.lenIs 5 || !zeroFrom (c.w 3) 6 || !zeroFrom (c.w 4) 7 || decide (n = 0) || decide (64 < n)
        || decide (64 < first + n), rBadArg),
     (c.fn != 0, rDenied), (!s.serves 0x073, rWrongMode)] fun s =>
    s.complete id rOk 0xFFFFFFFF (plain ((List.range n).flatMap fun i => (s.monitor (first + i)).words (first + i)))

def execSurveyRead (id : Nat) (s : State) : Res := .next (s.command id 0x073 (surveyReadBody id))

/-- A sample of monitor `m`; EV_SURVEY and a record as its drift rises to a new multiple of 50 (R466, R468). -/
def State.sampleMonitor (values : List Nat) (railMv : Nat) (s : State) (m : Nat) : State :=
  match s.survey.find? m with
  | none => s
  | some x =>
    let v := Config.normalise m (values.getD m 0) s.hottest railMv
    let x := { x with samples := (v :: x.samples).take 1024 }
    let d := x.drift m
    let k := d / 50
    if 0 < k ∧ x.raised < k then
      let s := { s with survey := s.survey.put m { x with raised := k } }
      (s.fault 0x48 7 (instId 9 m) (wInt d) 0).raiseEvent 0 0x107 [w32 m, wInt d]
    else { s with survey := s.survey.put m x }

/-- SURVEY_SAMPLE: once per second, all 64 monitors. -/
def surveySample (values : List Nat) (railMv : Nat) (s : State) : State :=
  let s := s.begin
  if s.welmusRuns then (List.range 64).foldl (State.sampleMonitor values railMv) s else s

def execSurveySample (values : List Nat) (railMv : Nat) (s : State) : Res := .next (surveySample values railMv s)

/-! ### The core voltage (R469, R488) -/

/-- The largest drift of some monitors that are not excluded, with its monitor. -/
def State.worstOf (s : State) (ms : List Nat) : Option (Int × Nat) :=
  ms.foldl (fun best m =>
    let x := s.monitor m
    if x.excluded || !s.survey.has m then best
    else
      match best with
      | none => some (x.drift m, m)
      | some b => if b.1 < x.drift m then some (x.drift m, m) else best) none

/-- ceil(max(d, 0) / 10). -/
def tenths (d : Int) : Nat := ceilDiv d.toNat 10

/-- A voltage at most 5 mV nearer to a target. -/
def nearer (mv target : Nat) : Nat := if mv < target then min target (mv + 5) else max target (mv - 5)

/-- The guard that the replicas of regions 0 to 4 ask for; it never falls (R469). -/
def State.guardWanted (s : State) : Nat :=
  let d := (s.worstOf ((List.range 20).map fun i => 32 + i)).map Prod.fst
  max s.vdd.guard (10 + 2 * tenths (d.getD 0))

/-- SURVEY_LIMIT, at most once per 24 h, on the monitor of the largest drift (R469). -/
def State.surveyLimit (s : State) (wanted : Nat) : State :=
  let soon := s.vdd.lastLimit.any fun t => decide (s.now < t + 86400000000000)
  if wanted ≤ 800 ∨ soon = true then s
  else
    let m := ((s.worstOf ((List.range 20).map fun i => 32 + i)).map Prod.snd).getD 32
    { s with vdd := { s.vdd with lastLimit := some s.now } }.fault 0x49 7 (instId 9 m) (w32 wanted) 0

/-- GUARD_REPLAN: once an hour. `ack` says whether the regulator acknowledges the command. -/
def guardReplan (ack : Bool) (s : State) : State :=
  let s := s.begin
  let early := s.vdd.lastPlan.any fun t => decide (s.now < t + 3600000000000)
  if !s.welmusRuns || s.survey.isEmpty || early then s
  else
    let guard := s.guardWanted
    let wanted := s.fuses.baseMv + guard
    let mv := nearer s.vdd.acked (min wanted 800)
    let s := { s with vdd := { s.vdd with guard := guard, lastPlan := some s.now } }
    let s := if mv = s.vdd.acked then s else s.avsCommand mv 1 ack
    s.surveyLimit wanted

def execGuardReplan (ack : Bool) (s : State) : Res := .next (guardReplan ack s)

/-- AVS_RETRY: 1 ms after a command that was not acknowledged, at most three times. -/
def avsRetry (ack : Bool) (s : State) : State :=
  let s := s.begin
  match s.vdd.command with
  | none => s
  | some (mv, tries, t) =>
    if s.mainUp && decide (t + 1000000 ≤ s.now) then s.avsCommand mv (tries + 1) ack else s

def execAvsRetry (ack : Bool) (s : State) : Res := .next (avsRetry ack s)

/-! ### HBM margins (R470) -/

/-- The re-plan of one pseudo-channel: more neighbour refreshes after many corrections, fewer after a day without. -/
def Pch.replan (c : Pch) (now : Nat) : Pch :=
  if 16 ≤ c.lastCe then { c with k := max 6 (c.k - 1), threshold := max 1024 (c.threshold / 2), lastCe := 0 }
  else if c.quietSince + 86400000000000 ≤ now then
    { c with k := min 10 (c.k + 1), threshold := min 4096 (c.threshold * 2), lastCe := 0, quietSince := now }
  else { c with lastCe := 0 }

/-- The margin floor in per cent of its fused value. -/
def State.floorPct (s : State) : Nat :=
  let d := (s.worstOf [60, 61, 62, 63]).map Prod.fst
  100 + min 20 (5 * ((d.getD 0).toNat / 100))

/-- HBM_MARGIN_REPLAN: once per minute. -/
def hbmMarginReplan (s : State) : State :=
  let s := s.begin
  if !s.welmusRuns then s
  else { s with
    hbm := { s.hbm with marginFloor := s.floorPct }
    pchs := s.pchs.map fun p => (p.1, p.2.replan s.now) }

def execHbmMarginReplan (s : State) : Res := .next (hbmMarginReplan s)

end Sys2Proof.Machine
end

