-- ==== Sys2Proof/Machine/VideoDecode.lean ====
section
/-! DEFINITION. The completion of a picture by a decoder: its content, marks, counters and key requests (R339 to R349). -/

namespace Sys2Proof.Machine

/-- Mid-grey of a size and depth (R346). -/
def midGrey (w h : Nat) (deep : Bool) : Picture :=
  let v := if deep then 512 else 128
  { w := w, h := h, deep := deep, y := List.replicate (w * h) v, cb := List.replicate (w / 2 * (h / 2)) v
    cr := List.replicate (w / 2 * (h / 2)) v }

/-- What a whole picture is concealed from: the concealment source at the session's last accepted size, else mid-grey (R344,
R346). -/
def Sess.concealed (x : Sess) (r : SessionRec) : Picture :=
  let size := x.lastSize.getD (r.maxW, r.maxH)
  match x.source.bind x.bufOf with
  | none => midGrey size.1 size.2 r.deep
  | some k =>
    let p := (x.fbs.getD k {}).pic
    if (p.w, p.h) = size then p else midGrey size.1 size.2 r.deep

/-- Whether the picture with a count is marked concealed. -/
def Sess.marked (x : Sess) (count : Nat) : Bool :=
  match x.bufOf count with
  | some k => (x.fbs.getD k {}).concealed
  | none => false

/-- The session after the pictures with the counts `outs` have been output, in order (R341). -/
def Sess.output (x : Sess) (outs : List Nat) : Sess :=
  outs.foldl (fun (x : Sess) n => { x with prevOut := x.latest, latest := some n }) x

/-- Key requests of a picture, one for each cause (R348). -/
def State.requests (s : State) (c b session : Nat) (fresh : Bool) : Nat → State
  | 0 => s
  | n + 1 => (s.decoderRequest c b session fresh).requests c b session fresh n

/-- DECODE_PICTURE_DONE (a reference whose picture has no VALID buffer is missing too, R346): the picture's buffer becomes VALID
with its marks, the session's state is written and its copy flips, and the decoder reports OK or CONCEALED. Which streams are
rejected (R328, R329) comes with the result (R340 to R348). -/
def decodePictureDone (task : Nat) (res : DecodeResult) (s : State) : State :=
  let s := s.begin
  match s.live? task with
  | none => s
  | some l =>
    if l.st ≠ .dispatched ∨ l.task.op ≠ 6 ∨ l.reported.isSome then s
    else
      let g := s.runOf l
      let p := s.runPlan g
      match p.sessionRec l.task.session, s.sessNo g.conf g.bank l.task.session, l.bufs.head? with
      | some r, some i, some b =>
        let x := s.sessAt i
        let whole := res.rejected || res.noHeader
        let cut := l.budgetHit || res.boundsAt.isSome
        let missing := res.refsMissing + res.refsRead.countP fun k => (x.bufOf k).isNone
        let marked := whole || cut || l.damaged || res.regionConcealed || decide (0 < missing) || res.refsRead.any x.marked
        let n := x.count + 1
        let pic := if whole then x.concealed r else res.pic
        let au := g.au.getD { ts := 0, first := 0 }
        let s := s.updFb b.1 b.2 fun f =>
          { f with st := .valid, pic := pic, concealed := marked, ts := au.ts, arrival := au.arrival, count := n }
        let s := s.updSess i fun y =>
          ({ (y.output res.outputs) with
            count := n, refs := res.refs, fresh := false, sel := !y.sel
            source := if marked then y.source else some n
            lastSize := if whole then y.lastSize else some (res.pic.w, res.pic.h) } : Sess).remark
        let s := s.countConf g.conf (if marked then 16 else 15) 1
        let s := s.countConf g.conf 17 missing
        let s := if res.rejected then s.countConf g.conf 20 1 else s
        let s := match res.boundsAt with
          | some off => (s.countConf g.conf 19 1).fault 0x2A 1 g.conf (w32 l.task.session) (w32 off)
          | none => s
        let s := s.requests g.conf g.bank l.task.session false
          (b2n au.damaged + missing + b2n cut + b2n res.rejected)
        s.updLive task fun l => { l with reported := some (b2n marked) }
      | _, _, _ => s.updLive task fun l => { l with reported := some 2 }

def execDecodePictureDone (task : Nat) (result : DecodeResult) (s : State) : Res :=
  .next (decodePictureDone task result s)

end Sys2Proof.Machine
end

