-- ==== Sys2Proof/Machine/Dispatch.lean ====
section
/-! DEFINITION. Which meaning each command has: one arm per constructor. -/

namespace Sys2Proof.Machine

/-- The effect of a command on everything but the queue. -/
def exec (i : Instr) (s : State) : Host.Outcome State Fault Refusal :=
  match i with
  | .deviceIdentify id => Sys2Proof.Machine.execDeviceIdentify id s
  | .deviceModeSet id => Sys2Proof.Machine.execDeviceModeSet id s
  | .tenantGrant id => Sys2Proof.Machine.execTenantGrant id s
  | .planLoad id => Sys2Proof.Machine.execPlanLoad id s
  | .planLoadFetchDone id fetch => Sys2Proof.Machine.execPlanLoadFetchDone id fetch s
  | .planCommit id => Sys2Proof.Machine.execPlanCommit id s
  | .legOpen id stun => Sys2Proof.Machine.execLegOpen id stun s
  | .legBind id => Sys2Proof.Machine.execLegBind id s
  | .legClose id => Sys2Proof.Machine.execLegClose id s
  | .keyImport id dropped => Sys2Proof.Machine.execKeyImport id dropped s
  | .keyErase id => Sys2Proof.Machine.execKeyErase id s
  | .portConfig id => Sys2Proof.Machine.execPortConfig id s
  | .timeConfig id => Sys2Proof.Machine.execTimeConfig id s
  | .timeOffsetStep id => Sys2Proof.Machine.execTimeOffsetStep id s
  | .timeOffsetServo id => Sys2Proof.Machine.execTimeOffsetServo id s
  | .shaperSet id => Sys2Proof.Machine.execShaperSet id s
  | .routeSetAudio id => Sys2Proof.Machine.execRouteSetAudio id s
  | .routeSetLayout id => Sys2Proof.Machine.execRouteSetLayout id s
  | .gainSet id => Sys2Proof.Machine.execGainSet id s
  | .statsRead id => Sys2Proof.Machine.execStatsRead id s
  | .logRead id => Sys2Proof.Machine.execLogRead id s
  | .auditRead id => Sys2Proof.Machine.execAuditRead id s
  | .surveyRead id => Sys2Proof.Machine.execSurveyRead id s
  | .selftestInstance id => Sys2Proof.Machine.execSelftestInstance id s
  | .selftestEyeScan id => Sys2Proof.Machine.execSelftestEyeScan id s
  | .selftestDevice id => Sys2Proof.Machine.execSelftestDevice id s
  | .selftestDone id result eye failures => Sys2Proof.Machine.execSelftestDone id result eye failures s
  | .memRetrainPch id => Sys2Proof.Machine.execMemRetrainPch id s
  | .memRetrainStack id => Sys2Proof.Machine.execMemRetrainStack id s
  | .memRetrainDone id pass values => Sys2Proof.Machine.execMemRetrainDone id pass values s
  | .unknownOpcode id => Sys2Proof.Machine.execUnknownOpcode id s
  | .malformedMessage id => Sys2Proof.Machine.execMalformedMessage id s
  | .cmdReserveRead fn n => Sys2Proof.Machine.execCmdReserveRead fn n s
  | .cmdRingWrite fn off value poison => Sys2Proof.Machine.execCmdRingWrite fn off value poison s
  | .commandTake parityBad => Sys2Proof.Machine.execCommandTake parityBad s
  | .cmdAbandoned fn => Sys2Proof.Machine.execCmdAbandoned fn s
  | .evqDataRead fn parityBad => Sys2Proof.Machine.execEvqDataRead fn parityBad s
  | .evqStatusWrite fn value => Sys2Proof.Machine.execEvqStatusWrite fn value s
  | .msixHoldoffExpiry fn => Sys2Proof.Machine.execMsixHoldoffExpiry fn s
  | .modeArbiterTake => Sys2Proof.Machine.execModeArbiterTake s
  | .modeTransitionDone => Sys2Proof.Machine.execModeTransitionDone s
  | .drainDeadlineExpiry => Sys2Proof.Machine.execDrainDeadlineExpiry s
  | .quarantineEntry => Sys2Proof.Machine.execQuarantineEntry s
  | .powerOn smbAddr => Sys2Proof.Machine.execPowerOn smbAddr s
  | .mainPowerLoss sramKept => Sys2Proof.Machine.execMainPowerLoss sramKept s
  | .pinWarmReset lowNs taken => Sys2Proof.Machine.execPinWarmReset lowNs taken s
  | .railOutOfWindow rail lowNs => Sys2Proof.Machine.execRailOutOfWindow rail lowNs s
  | .mainResetRelease bootSrc railsOk sysclkOk heldNs => Sys2Proof.Machine.execMainResetRelease bootSrc railsOk sysclkOk heldNs s
  | .perst => Sys2Proof.Machine.execPerst s
  | .pf0Flr => Sys2Proof.Machine.execPf0Flr s
  | .vfFlr fn => Sys2Proof.Machine.execVfFlr fn s
  | .testReset => Sys2Proof.Machine.execTestReset s
  | .jtagInstruction code => Sys2Proof.Machine.execJtagInstruction code s
  | .watchdogExpiry => Sys2Proof.Machine.execWatchdogExpiry s
  | .fwRestartDone => Sys2Proof.Machine.execFwRestartDone s
  | .bootImageCheck read => Sys2Proof.Machine.execBootImageCheck read s
  | .imageAuthenticated digestOk signatureOk bodyRead => Sys2Proof.Machine.execImageAuthenticated digestOk signatureOk bodyRead s
  | .bootWindowWrite off value => Sys2Proof.Machine.execBootWindowWrite off value s
  | .bootDoorbell length => Sys2Proof.Machine.execBootDoorbell length s
  | .loadComplete load => Sys2Proof.Machine.execLoadComplete load s
  | .calibrationStepDone step => Sys2Proof.Machine.execCalibrationStepDone step s
  | .resetMarkWrite => Sys2Proof.Machine.execResetMarkWrite s
  | .resetCauseWrite fn value => Sys2Proof.Machine.execResetCauseWrite fn value s
  | .getIdentity => Sys2Proof.Machine.execGetIdentity s
  | .getStatus => Sys2Proof.Machine.execGetStatus s
  | .getTemperature => Sys2Proof.Machine.execGetTemperature s
  | .getPower deciwatts => Sys2Proof.Machine.execGetPower deciwatts s
  | .smbusSdaStuck clocks recovered => Sys2Proof.Machine.execSmbusSdaStuck clocks recovered s
  | .smbusSclStuck recovered => Sys2Proof.Machine.execSmbusSclStuck recovered s
  | .smbusRetry clocks recovered => Sys2Proof.Machine.execSmbusRetry clocks recovered s
  | .freqMonitorWindow ref permille => Sys2Proof.Machine.execFreqMonitorWindow ref permille s
  | .tclkSourceChange => Sys2Proof.Machine.execTclkSourceChange s
  | .tclkSourceChangeDone => Sys2Proof.Machine.execTclkSourceChangeDone s
  | .ref10mReturnTimer => Sys2Proof.Machine.execRef10mReturnTimer s
  | .timeLatch fn => Sys2Proof.Machine.execTimeLatch fn s
  | .ptpMessage tb ask origin => Sys2Proof.Machine.execPtpMessage tb ask origin s
  | .ppsInputEdge => Sys2Proof.Machine.execPpsInputEdge s
  | .ppsInputAbsent tb => Sys2Proof.Machine.execPpsInputAbsent tb s
  | .holdoverTimeout tb => Sys2Proof.Machine.execHoldoverTimeout tb s
  | .ppsOutputRise => Sys2Proof.Machine.execPpsOutputRise s
  | .ppsOutputFall => Sys2Proof.Machine.execPpsOutputFall s
  | .mediaTick conf => Sys2Proof.Machine.execMediaTick conf s
  | .planBankRetired conf => Sys2Proof.Machine.execPlanBankRetired conf s
  | .planRetireTimeout conf => Sys2Proof.Machine.execPlanRetireTimeout conf s
  | .portSignalDetect port lane signal => Sys2Proof.Machine.execPortSignalDetect port lane signal s
  | .waitSignalTimeout port => Sys2Proof.Machine.execWaitSignalTimeout port s
  | .trainDone port inverted => Sys2Proof.Machine.execTrainDone port inverted s
  | .trainTimeout port => Sys2Proof.Machine.execTrainTimeout port s
  | .alignDone port order skewPs => Sys2Proof.Machine.execAlignDone port order skewPs s
  | .alignTimeout port => Sys2Proof.Machine.execAlignTimeout port s
  | .bringupRetryExpiry port => Sys2Proof.Machine.execBringupRetryExpiry port s
  | .linkLoss port lanesLost => Sys2Proof.Machine.execLinkLoss port lanesLost s
  | .laneShorted lane => Sys2Proof.Machine.execLaneShorted lane s
  | .frameReceive port frame fecCorrected fecBad symbols => Sys2Proof.Machine.execFrameReceive port frame fecCorrected fecBad symbols s
  | .pauseHoldExpiry port which => Sys2Proof.Machine.execPauseHoldExpiry port which s
  | .pauseWatchdogInterval port => Sys2Proof.Machine.execPauseWatchdogInterval port s
  | .pauseTxRepeat port => Sys2Proof.Machine.execPauseTxRepeat port s
  | .ingressTakeFrame p => Sys2Proof.Machine.execIngressTakeFrame p s
  | .localInject p => Sys2Proof.Machine.execLocalInject p s
  | .localStarved task => Sys2Proof.Machine.execLocalStarved task s
  | .cipherTake group unit victim => Sys2Proof.Machine.execCipherTake group unit victim s
  | .decryptComplete group unit => Sys2Proof.Machine.execDecryptComplete group unit s
  | .reassemblyTimeout conf session => Sys2Proof.Machine.execReassemblyTimeout conf session s
  | .stunRequest => Sys2Proof.Machine.execStunRequest s
  | .consentExpiry leg => Sys2Proof.Machine.execConsentExpiry leg s
  | .keyReqIntervalEnd leg => Sys2Proof.Machine.execKeyReqIntervalEnd leg s
  | .rrSend leg => Sys2Proof.Machine.execRrSend leg s
  | .upstreamNackSend leg => Sys2Proof.Machine.execUpstreamNackSend leg s
  | .replicatorWalk p => Sys2Proof.Machine.execReplicatorWalk p s
  | .egressAssemble p => Sys2Proof.Machine.execEgressAssemble p s
  | .egressCharge p => Sys2Proof.Machine.execEgressCharge p s
  | .sumpSpill copy => Sys2Proof.Machine.execSumpSpill copy s
  | .sumpFetch copy poisoned => Sys2Proof.Machine.execSumpFetch copy poisoned s
  | .launchHandoff port cls => Sys2Proof.Machine.execLaunchHandoff port cls s
  | .macFrameStart port => Sys2Proof.Machine.execMacFrameStart port s
  | .probeSelWrite fn value => Sys2Proof.Machine.execProbeSelWrite fn value s
  | .graphRelease => Sys2Proof.Machine.execGraphRelease s
  | .schedulerTick => Sys2Proof.Machine.execSchedulerTick s
  | .instanceDeadline => Sys2Proof.Machine.execInstanceDeadline s
  | .taskDispatch kind => Sys2Proof.Machine.execTaskDispatch kind s
  | .preempt core => Sys2Proof.Machine.execPreempt core s
  | .resume core => Sys2Proof.Machine.execResume core s
  | .taskCompletion task owner gen records cycles => Sys2Proof.Machine.execTaskCompletion task owner gen records cycles s
  | .taskBudgetExpiry => Sys2Proof.Machine.execTaskBudgetExpiry s
  | .abortAck task => Sys2Proof.Machine.execAbortAck task s
  | .abortTimeout task => Sys2Proof.Machine.execAbortTimeout task s
  | .decoderOverrun task => Sys2Proof.Machine.execDecoderOverrun task s
  | .drainTimeout id => Sys2Proof.Machine.execDrainTimeout id s
  | .fencedInstanceRelease kind inst result => Sys2Proof.Machine.execFencedInstanceRelease kind inst result s
  | .schedTickWrite fn value => Sys2Proof.Machine.execSchedTickWrite fn value s
  | .lanternCtrlWrite fn value => Sys2Proof.Machine.execLanternCtrlWrite fn value s
  | .lanternSync => Sys2Proof.Machine.execLanternSync s
  | .pmForcedUnmask core => Sys2Proof.Machine.execPmForcedUnmask core s
  | .rep bundle count fromD endAt => Sys2Proof.Machine.execRep bundle count fromD endAt s
  | .brk bundle => Sys2Proof.Machine.execBrk bundle s
  | .dspBranch bundle kind target legal => Sys2Proof.Machine.execDspBranch bundle kind target legal s
  | .dspLoadStore bundle acc uncorrectable => Sys2Proof.Machine.execDspLoadStore bundle acc uncorrectable s
  | .dspMac bundle acc a0 b0 a1 b1 => Sys2Proof.Machine.execDspMac bundle acc a0 b0 a1 b1 s
  | .sinit bundle isMax => Sys2Proof.Machine.execSinit bundle isMax s
  | .max bundle dreg => Sys2Proof.Machine.execMax bundle dreg s
  | .min bundle dreg => Sys2Proof.Machine.execMin bundle dreg s
  | .nrw bundle acc sh w dreg => Sys2Proof.Machine.execNrw bundle acc sh w dreg s
  | .pmsk bundle => Sys2Proof.Machine.execPmsk bundle s
  | .punm bundle => Sys2Proof.Machine.execPunm bundle s
  | .dmaq bundle channel dregs => Sys2Proof.Machine.execDmaq bundle channel dregs s
  | .dmaw bundle channel => Sys2Proof.Machine.execDmaw bundle channel s
  | .dspDmaComplete core slot channel windowData => Sys2Proof.Machine.execDspDmaComplete core slot channel windowData s
  | .dspEnd bundle status => Sys2Proof.Machine.execDspEnd bundle status s
  | .mixBusFrame task => Sys2Proof.Machine.execMixBusFrame task s
  | .gainStepTimeout conf bus col => Sys2Proof.Machine.execGainStepTimeout conf bus col s
  | .decodePictureDone task result => Sys2Proof.Machine.execDecodePictureDone task result s
  | .composeRowDone task => Sys2Proof.Machine.execComposeRowDone task s
  | .coarseSearchDone task => Sys2Proof.Machine.execCoarseSearchDone task s
  | .encodeRowDone task code => Sys2Proof.Machine.execEncodeRowDone task code s
  | .encSelWrite fn value => Sys2Proof.Machine.execEncSelWrite fn value s
  | .hbmRead pch addr cls port hostDma flips => Sys2Proof.Machine.execHbmRead pch addr cls port hostDma flips s
  | .hbmWrite pch addr cls mask data poison flips => Sys2Proof.Machine.execHbmWrite pch addr cls mask data poison flips s
  | .patrolScrubRow pch flips => Sys2Proof.Machine.execPatrolScrubRow pch flips s
  | .refreshDue pch bank postpone pullIn => Sys2Proof.Machine.execRefreshDue pch bank postpone pullIn s
  | .hbmSensorRead stack eighths => Sys2Proof.Machine.execHbmSensorRead stack eighths s
  | .activateTableClear pch => Sys2Proof.Machine.execActivateTableClear pch s
  | .neighbourRngReseed words => Sys2Proof.Machine.execNeighbourRngReseed words s
  | .trainingBurst stack channel result => Sys2Proof.Machine.execTrainingBurst stack channel result s
  | .setPointChange => Sys2Proof.Machine.execSetPointChange s
  | .dmaDescriptorTake fn ring desc data srcEnd frame => Sys2Proof.Machine.execDmaDescriptorTake fn ring desc data srcEnd frame s
  | .dmaWriteBack fn ring linkFailedAt => Sys2Proof.Machine.execDmaWriteBack fn ring linkFailedAt s
  | .ringTailWrite fn ring value => Sys2Proof.Machine.execRingTailWrite fn ring value s
  | .ringCtrlWrite fn ring value => Sys2Proof.Machine.execRingCtrlWrite fn ring value s
  | .ringStatusWrite fn ring value => Sys2Proof.Machine.execRingStatusWrite fn ring value s
  | .msixUnmask fn vector => Sys2Proof.Machine.execMsixUnmask fn vector s
  | .busMasterChange fn bme d3hot => Sys2Proof.Machine.execBusMasterChange fn bme d3hot s
  | .exceptionDelivery port => Sys2Proof.Machine.execExceptionDelivery port s
  | .faultRecordWrite fail => Sys2Proof.Machine.execFaultRecordWrite fail s
  | .lgStatusWrite fn value => Sys2Proof.Machine.execLgStatusWrite fn value s
  | .sramSweep array corrected uncorrectable object => Sys2Proof.Machine.execSramSweep array corrected uncorrectable object s
  | .surveySample values railMv => Sys2Proof.Machine.execSurveySample values railMv s
  | .guardReplan ack => Sys2Proof.Machine.execGuardReplan ack s
  | .avsRetry ack => Sys2Proof.Machine.execAvsRetry ack s
  | .hbmMarginReplan => Sys2Proof.Machine.execHbmMarginReplan s
  | .thermalSensorRead sensors caseSide => Sys2Proof.Machine.execThermalSensorRead sensors caseSide s
  | .junctionFatal => Sys2Proof.Machine.execJunctionFatal s
  | .throttleStepTest => Sys2Proof.Machine.execThrottleStepTest s
  | .thermalExit => Sys2Proof.Machine.execThermalExit s
  | .alarmShort output readsHigh => Sys2Proof.Machine.execAlarmShort output readsHigh s
  | .alarmRetry output readsHigh => Sys2Proof.Machine.execAlarmRetry output readsHigh s
  | .registerWrite fn off size value => Sys2Proof.Machine.execRegisterWrite fn off size value s
  | .auxPowerLoss => Sys2Proof.Machine.execAuxPowerLoss s
  | .perstRelease pcieRef => Sys2Proof.Machine.execPerstRelease pcieRef s
  | .hostLinkDown => Sys2Proof.Machine.execHostLinkDown s
  | .hostLinkUp => Sys2Proof.Machine.execHostLinkUp s
  | .setPointChangeDone => Sys2Proof.Machine.execSetPointChangeDone s
  | .trainingBurstEnd stack => Sys2Proof.Machine.execTrainingBurstEnd stack s
  | .selftestTimeout id => Sys2Proof.Machine.execSelftestTimeout id s
  | .memRetrainStartTimeout id => Sys2Proof.Machine.execMemRetrainStartTimeout id s

end Sys2Proof.Machine
end

