-- ==== Sys2Proof/Machine/Idle.lean ====
section
/-! DEFINITION. What passes without a command: one cycle of TCLK (DESIGN CHOICE, log entry 1). -/

namespace Sys2Proof.Machine

/-- One TCLK cycle of 1 ns: the oscillator and the time bases advance, Welmus reads the MAC control and time queues, idle HBM
pseudo-channels drain one queued write each, selected sets are published and crossfades end when their instants have come, and the
leads of Sump copies raise and clear panic (R134, R135, R143, R144, R316, R321, R414, R416). -/
def State.idle (s : State) : State :=
  let s := s.begin
  ({ s with now := s.now + 1, time := s.time.tick } : State).welmusReads.drainIdle.publishDue.endXfades.sumpPanic

end Sys2Proof.Machine
end

