-- ==== Sys2Proof/Machine/Surface.lean ====
section
/-! DEFINITION. Malrurov surfaces: the lossless form in which a frame buffer's picture stands in its slots (R368, R369). State
holds the picture; its surface is computed from it. -/

namespace Sys2Proof.Machine

/-! ### Prediction and residuals (R369) -/

/-- The prediction of the next sample of a component `cols` wide, from the samples before it in coding order: `a` to the left,
`b` above, `c` above-left. -/
def predictNext (d cols : Nat) (done : List Nat) : Nat :=
  let k := done.length
  let at_ := fun (i : Nat) => done.getD (k - i) 0
  if k = 0 then 2 ^ (d - 1)
  else if k < cols then at_ 1
  else if k % cols = 0 then at_ cols
  else
    let a := at_ 1
    let b := at_ cols
    let c := at_ (cols + 1)
    if max a b ≤ c then min a b else if c ≤ min a b then max a b else a + b - c

/-- The residual of sample `s` under prediction `p`, as the number `u` that is written. -/
def residual (d s p : Nat) : Nat :=
  let r : Int := ((s : Int) - p + 2 ^ (d - 1)) % 2 ^ d - 2 ^ (d - 1)
  if 0 ≤ r then (2 * r).toNat else (-2 * r - 1).toNat

/-- The sample that `u` gives under prediction `p`. -/
def unresidual (d u p : Nat) : Nat :=
  let r : Int := if u % 2 = 0 then (u / 2 : Nat) else -((u / 2 + 1 : Nat) : Int)
  (((p : Int) + r) % 2 ^ d).toNat

/-- The residuals of a component's samples, after those in `done`. -/
def codeComp (d cols : Nat) (done : List Nat) : List Nat → List Nat
  | [] => []
  | s :: r => residual d s (predictNext d cols done) :: codeComp d cols (done ++ [s]) r

/-- The samples that residuals give, after those in `done`. -/
def readComp (d cols : Nat) (done : List Nat) : List Nat → List Nat
  | [] => done
  | u :: r => readComp d cols (done ++ [unresidual d u (predictNext d cols done)]) r

/-! ### Groups of four (R369) -/

/-- A number in `w` bits, bit 0 first (R8, log entry 50). -/
def bitsOf (w n : Nat) : List Bool := (List.range w).map fun i => n.testBit i

/-- The number that bits spell, bit 0 first. -/
def numOfBits (bs : List Bool) : Nat := bs.foldr (fun b n => b2n b + 2 * n) 0

/-- The bit length of a number. -/
def bitLength (n : Nat) : Nat := if n = 0 then 0 else Nat.log2 n + 1

/-- A group's bits: the width of its largest member in four bits, then its members in that width. -/
def groupBits (us : List Nat) : List Bool :=
  let w := bitLength (us.foldl max 0)
  bitsOf 4 w ++ us.flatMap (bitsOf w)

/-- The bits of the groups of four that residuals form, in coding order. -/
def codeGroups : Nat → List Nat → List Bool
  | 0, _ => []
  | n + 1, us => groupBits (us.take 4) ++ codeGroups n (us.drop 4)

/-- The residuals of `n` groups read from bits. -/
def readGroups : Nat → List Bool → List Nat
  | 0, _ => []
  | n + 1, bs =>
    let w := numOfBits (bs.take 4)
    let body := bs.drop 4
    ((List.range 4).map fun i => numOfBits ((body.drop (i * w)).take w)) ++ readGroups n (body.drop (4 * w))

/-! ### Units (R368, R369) -/

/-- A unit: its metadata, SECTORS and RAW, and the bits that its slot begins with. -/
structure SurfaceUnit where
  sectors : Nat
  raw : Bool
  bits : List Bool
  deriving DecidableEq, Repr, Inhabited

/-- Bytes of a unit's slot (R368). -/
def slotBytes (deep : Bool) : Nat := if deep then 256 else 192

/-- Bits of a sample. -/
def sampleBits (deep : Bool) : Nat := if deep then 10 else 8

/-- The unit that codes 192 samples: 128 of Y, 32 of Cb, 32 of Cr, each row by row (R369). -/
def codeUnit (deep : Bool) (xs : List Nat) : SurfaceUnit :=
  let d := sampleBits deep
  let us := codeComp d 32 [] (xs.take 128) ++ codeComp d 16 [] ((xs.drop 128).take 32) ++ codeComp d 16 [] (xs.drop 160)
  let bits := codeGroups 48 us
  let n := ceilDiv bits.length 256
  if slotBytes deep / 32 ≤ n then { sectors := if deep then 8 else 6, raw := true, bits := xs.flatMap (bitsOf d) }
  else { sectors := n, raw := false, bits := bits }

/-- The 192 samples that a reader takes from a unit whose slot begins with `bits` (R369). -/
def readUnit (deep raw : Bool) (bits : List Bool) : List Nat :=
  let d := sampleBits deep
  if raw then (List.range 192).map fun i => numOfBits ((bits.drop (i * d)).take d)
  else
    let us := readGroups 48 bits
    readComp d 32 [] (us.take 128) ++ readComp d 16 [] ((us.drop 128).take 32) ++ readComp d 16 [] (us.drop 160)

/-- A unit's metadata byte: SECTORS in [3:0], RAW in [7] (R368). -/
def SurfaceUnit.metaByte (u : SurfaceUnit) : Nat := u.sectors + 128 * b2n u.raw

/-- A plane's sample, the last column and then the last row repeated beyond the picture (R368). -/
def planeAt (plane : List Nat) (w h x y : Nat) : Nat := plane.getD (min y (h - 1) * w + min x (w - 1)) 0

/-- The 192 samples of unit (`i`, `j`) of a picture (R368). -/
def unitSamples (p : Picture) (i j : Nat) : List Nat :=
  let part := fun (plane : List Nat) (w h rows cols : Nat) =>
    (List.range (rows * cols)).map fun k => planeAt plane w h (cols * j + k % cols) (rows * i + k / cols)
  part p.y p.w p.h 4 32 ++ part p.cb (p.w / 2) (p.h / 2) 2 16 ++ part p.cr (p.w / 2) (p.h / 2) 2 16

/-- A picture's units, row by row (R368). -/
def surfaceUnits (p : Picture) : List SurfaceUnit :=
  (List.range (ceilDiv p.h 4)).flatMap fun i =>
    (List.range (ceilDiv p.w 32)).map fun j => codeUnit p.deep (unitSamples p i j)

/-- The metadata of one unit row's pitch, and the offset of the payload in a surface (R368). -/
def metaPitch (w : Nat) : Nat := 64 * ceilDiv (ceilDiv w 32) 64
def payloadOffset (w h : Nat) : Nat := 64 + ceilDiv h 4 * metaPitch w

/-- The header of a picture's surface (R368). -/
def surfaceHeader (p : Picture) : List Word :=
  [0x56524C4D, w32 (p.w + 65536 * p.h), w32 (b2n p.deep), w32 (payloadOffset p.w p.h),
    w32 (ceilDiv p.w 32 + 65536 * ceilDiv p.h 4)] ++ List.replicate 11 0

/-- Byte offsets of a unit's metadata and of its slot in a surface (R368). -/
def metaAt (w i j : Nat) : Nat := 64 + i * metaPitch w + j
def slotAt (w h : Nat) (deep : Bool) (i j : Nat) : Nat := payloadOffset w h + (i * ceilDiv w 32 + j) * slotBytes deep

end Sys2Proof.Machine
end

