-- ==== Sys2Proof/Safety.lean ====
section
/-! DEFINITION. What a safe run is, in the terms that statements use: runs, and the invariants of the state that every step
keeps. -/

namespace Sys2Proof.Machine

/-- `n` steps lead from `s` to `t` without a stop. -/
def Runs : Nat → State → State → Prop
  | 0, s, t => t = s
  | n + 1, s, t => ∃ u, step s = .next u ∧ Runs n u t

/-- The tables of objects stand in the canonical form: keys strictly rising. -/
def State.tablesSorted (s : State) : Bool :=
  FMap.sorted s.mbx && FMap.sorted s.funcs && FMap.sorted s.grants && FMap.sorted s.ports && FMap.sorted s.legs
    && FMap.sorted s.slots && FMap.sorted s.confs && FMap.sorted s.cores && FMap.sorted s.pchs

/-- Command `id` is one that Welmus took, carries opcode `op`, is well formed, came without poison, has not committed, and may
commit now (R67, R69, R89, R90); its function has not been reset since (R47). -/
def State.waits (s : State) (id op : Nat) (c : Taken) : Prop :=
  s.welmus.taken.find? id = some c ∧ c.op = op ∧ c.committed = false ∧ c.malformed = false ∧ c.poison = false
    ∧ c.orphan = false ∧ s.eligible id c = true

/-- Command `id` has committed and waits for its completion; its function has not been reset since (R47, R94). -/
def State.runs (s : State) (id op : Nat) (c : Taken) : Prop :=
  s.welmus.taken.find? id = some c ∧ c.op = op ∧ c.committed = true ∧ c.orphan = false

/-- A response message as the words of an event queue, its payload with the poison tags given (R67, R69, R73). -/
def replyWith (c : Taken) (result : Nat) (seq : Word) (payload : List (Word × Bool)) : List (Word × Bool) :=
  plain [lengthWord (payload.length + 4), w32 (c.op + 65536 * result), c.tag, seq] ++ payload

/-- A response message as words of an event queue, none with a poison tag (R67, R73). -/
def reply (c : Taken) (result : Nat) (seq : Word) (payload : List Word) : List (Word × Bool) :=
  plain ([lengthWord (payload.length + 4), w32 (c.op + 65536 * result), c.tag, seq] ++ payload)

/-- `t` differs from `s` at most in mailboxes, interrupts, commands in progress and what was sent out. -/
def State.onlyAnswers (s t : State) : Prop :=
  t = { s with mbx := t.mbx, funcs := t.funcs, welmus := t.welmus, out := t.out }

/-- `t` is `s` but that command `id` is no longer in progress and its function has the message `ws` at the end of its event
queue, in the room that was reserved for it (R73, R88, R91); vector 0 may have been signalled (R71). No other function's mailbox or
interrupts change. -/
def State.answered (s t : State) (id : Nat) (c : Taken) (ws : List (Word × Bool)) : Prop :=
  s.onlyAnswers t ∧ t.welmus = { s.welmus with taken := s.welmus.taken.del id } ∧
    t.mb c.fn = { s.mb c.fn with
      evq := (s.mb c.fn).evq ++ ws
      evReserved := (s.mb c.fn).evReserved - c.reserved
      signalRef := (t.mb c.fn).signalRef } ∧
    ∀ i, i ≠ c.fn → t.mb i = s.mb i ∧ t.func i = s.func i

/-! ### Invariants -/

/-- Every addressed memory of the block stands in its one canonical form: HBM lines, the boot window, the command rings, the DSP
cores' local memories, the sessions' state copies and the tasks' output windows. -/
def State.memWf (s : State) : Bool :=
  (s.pchs.all fun p => p.2.lines.wf {}) && s.boot.window.wf 0 && (s.mbx.all fun p => p.2.ring.wf (0, false))
    && (s.dsps.all fun p => p.2.slots.all fun x => x.ldm.wf 0) && (s.sched.lives.all fun p => p.2.out.wf 0)
    && (s.sess.all fun p => p.2.copyA.wf 0 && p.2.copyB.wf 0)

/-- The modes that THROTTLE may return to (R40, R41): those that enter it, and those that a DEVICE_MODE_SET makes the return
mode. -/
def Mode.mayReturn : Mode → Bool
  | .ready | .service | .degraded | .drain | .maintenance | .retain | .calibrate => true
  | _ => false

/-- The transitions that may be in progress, but for QUARANTINE: those of DEVICE_MODE_SET other than RESET, and the end of DRAIN,
which waits for the traffic to go (R40, R44). -/
def Mode.commanded : Mode → Mode → Bool
  | .ready, .service | .ready, .degraded | .service, .drain | .degraded, .drain | .drain, .service | .drain, .degraded
  | .drain, .ready
  | .ready, .maintenance | .maintenance, .ready | .ready, .retain | .retain, .calibrate => true
  | _, _ => false

/-- The table of R40, with every mode's staying as it is. -/
def Mode.mayGo (a b : Mode) : Bool :=
  a == b || b == .reset || (a != .reset && b == .quarantine) || a.commanded b || (a.throttles && b == .throttle)
    || (a == .throttle && b.mayReturn)
    || match a, b with
      | .reset, .identify | .identify, .load | .load, .calibrate | .calibrate, .ready | .service, .degraded
      | .degraded, .service | .drain, .ready => true
      | _, _ => false

/-- What the mode arbiter holds fits the mode in force: nothing in QUARANTINE, a return mode in THROTTLE, and a transition in
progress that R40 gives from the mode in force or, in THROTTLE, from its return mode (R40, R41, R43, R44). -/
def State.modesWf (s : State) : Prop :=
  (s.modes.mode = .quarantine → s.modes.arb = [] ∧ s.modes.transition = none) ∧
  (s.modes.mode = .throttle → s.modes.returnMode.mayReturn = true) ∧
  ∀ r, s.modes.transition = some r → r.target = .quarantine ∨ s.effMode.commanded r.target = true

/-- The resets that take the device out of QUARANTINE (R39, R46). -/
def isReset : Instr → Bool
  | .powerOn _ | .auxPowerLoss | .mainPowerLoss _ | .pinWarmReset _ _ => true
  | _ => false

end Sys2Proof.Machine
end

