-- ==== Sys2Proof/Certificates/Slice0/Obligations.lean ====
section
/-! DEFINITION. The statements for the provers. -/

open Sys2Proof Sys2Proof.Machine

/-! ### The queue, the clock and reset -/

/-- A step runs the command at the front of the queue on the state with the queue's rest; on an empty queue one TCLK cycle
passes (the model's choice, log entry 1).

No table word spells a command, so placing one leaves the state as it is. -/
def Obligations.StepRunsTheFrontCommand : Prop :=
  ((∀ (c : Instr) (rest : List Instr) (s : State),
    step { s with pending := c :: rest } = exec c { s with pending := rest }) ∧
  ∀ s : State, s.pending = [] → step s = .next s.idle ∧ s.idle.now = s.now + 1) ∧
  (∀ (nbits w : Nat) (s : State), decodeTableWord nbits w = none ∧ s.withFetchWord nbits w = s)

/-- Right after reset the device is in RESET with nothing on: no port, leg, key slot, plan or mailbox message, and the status
registers and the registers of every mailbox at the values the spec gives.

The invariants hold right after reset. -/
def Obligations.ResetLeavesTheDeviceEmpty : Prop :=
  (State.reset.modes.mode = .reset ∧ State.reset.status0 = 0 ∧ State.reset.bootStatus = 0 ∧ State.reset.boot.resetCause = 1 ∧
  State.reset.boot.fwVersion = 0 ∧ State.reset.ports = [] ∧ State.reset.legs = [] ∧ State.reset.slots = [] ∧
  State.reset.confs = [] ∧ State.reset.pending = [] ∧
  ∀ fn, (State.reset.mb fn).cmdqStatus = 16384 ∧ (State.reset.mb fn).evqStatus = 0 ∧ (State.reset.mb fn).mask = 0 ∧
    (State.reset.mb fn).holdoff = 100 ∧ (State.reset.mb fn).threshold = 1) ∧
  (State.reset.memWf = true ∧ State.reset.modesWf ∧ State.reset.tablesSorted = true)

/-! ### Host commands on the device and the logs -/

/-- DEVICE_IDENTIFY answers its function with the identity words, STATUS0, SVN_STATE and the caller's number, and changes
nothing else.

Reads of the logs and of the Survey monitors answer PF0 and change nothing else; LOG_READ and AUDIT_READ give FIRST, NEXT,
LOST and the records with their poison tags, SURVEY_READ two words for each monitor asked for.

A message that is malformed and one whose opcode the catalogue lacks complete with BAD_ARG, or with INTEGRITY where a word
came poisoned, and change nothing else. -/
def Obligations.ReadsAndBadMessagesAnswer : Prop :=
  (∀ (s : State) (id : Nat) (c : Taken), s.waits id 0x010 c → c.lenIs 3 = true →
    ∃ t, exec (.deviceIdentify id) s = .next t ∧
      s.answered t id c (reply c rOk 0xFFFFFFFF (s.identityWords ++ [s.status0, s.svnState, w32 c.fn]))) ∧
  (∀ (s : State) (id : Nat) (c : Taken), c.fn = 0 → c.lenIs 5 = true →
    (s.waits id 0x071 c → 1 ≤ (c.w 4).toNat → (c.w 4).toNat ≤ 127 → s.effMode.status = true ∨ s.effMode = .quarantine →
      ∃ t, exec (.logRead id) s = .next t ∧
        let r := s.faults.log.read (c.w 3) (c.w 4).toNat
        s.answered t id c (replyWith c rOk 0xFFFFFFFF (plain [r.1, r.2.1, r.2.2.1] ++ r.2.2.2.flatten))) ∧
    (s.waits id 0x072 c → 1 ≤ (c.w 4).toNat → (c.w 4).toNat ≤ 127 → s.effMode.status = true ∨ s.effMode = .quarantine →
      ∃ t, exec (.auditRead id) s = .next t ∧
        let r := s.audit.read (c.w 3) (c.w 4).toNat
        s.answered t id c (replyWith c rOk 0xFFFFFFFF (plain [r.1, r.2.1, r.2.2.1] ++ r.2.2.2.flatten))) ∧
    (s.waits id 0x073 c → (c.w 3).toNat < 64 → 1 ≤ (c.w 4).toNat → (c.w 3).toNat + (c.w 4).toNat ≤ 64 →
      s.effMode.status = true →
      ∃ t, exec (.surveyRead id) s = .next t ∧
        s.answered t id c (reply c rOk 0xFFFFFFFF
          ((List.range (c.w 4).toNat).flatMap fun i => (s.monitor ((c.w 3).toNat + i)).words ((c.w 3).toNat + i))))) ∧
  (∀ (s : State) (id : Nat) (c : Taken), s.welmus.taken.find? id = some c → c.orphan = false → s.eligible id c = true →
    (c.malformed = true → ∃ t, exec (.malformedMessage id) s = .next t ∧
      s.answered t id c (reply c (if c.poison then rIntegrity else rBadArg) 0xFFFFFFFF [])) ∧
    (c.malformed = false → catalogue.contains c.op = false → ∃ t, exec (.unknownOpcode id) s = .next t ∧
      s.answered t id c (reply c (if c.poison then rIntegrity else rBadArg) 0xFFFFFFFF [])))

/-- STATS_READ answers COUNT and the counters, two words each, and zeroes exactly the counters it returned: those of every
other set and object, and the rest of the device, stay. No counter passes 2^64 - 1. -/
def Obligations.StatsReadReturnsAndZeroes : Prop :=
  (∀ (cs : List Nat) (i k : Nat), (∀ x ∈ cs, x ≤ 2 ^ 64 - 1) → ∀ x ∈ bump cs i k, x ≤ 2 ^ 64 - 1) ∧
  (∀ (cs : List Nat) (i k : Nat), cs.getD i 0 = 2 ^ 64 - 1 → (bump cs i k).getD i 0 = 2 ^ 64 - 1) ∧
  ∀ (s : State) (id : Nat) (c : Taken), s.waits id 0x070 c → c.lenIs 5 = true → zeroFrom (c.w 3) 4 = true →
    (c.w 4).toNat < statsBound (fld (c.w 3) 3 0) → s.statsRight c.fn (fld (c.w 3) 3 0) (c.w 4).toNat = true →
    s.effMode.status = true → s.statsExists (fld (c.w 3) 3 0) (c.w 4).toNat = true →
    ∃ t, exec (.statsRead id) s = .next t ∧
      (s.statsClear (fld (c.w 3) 3 0) (c.w 4).toNat).answered t id c
        (reply c rOk 0xFFFFFFFF (counterWords (s.statsSet (fld (c.w 3) 3 0) (c.w 4).toNat))) ∧
      t.statsSet (fld (c.w 3) 3 0) (c.w 4).toNat = (s.statsSet (fld (c.w 3) 3 0) (c.w 4).toNat).map (fun _ => 0) ∧
      (∀ set i, i < statsBound set → ¬ (set = fld (c.w 3) 3 0 ∧ i = (c.w 4).toNat) → t.statsSet set i = s.statsSet set i) ∧
      t = { s with
        out := t.out, mbx := t.mbx, funcs := t.funcs, welmus := t.welmus, confs := t.confs, ports := t.ports, legs := t.legs,
        cores := t.cores, pchs := t.pchs, sched := t.sched } ∧ t.welmus.taken = s.welmus.taken.del id

/-- TENANT_GRANT from PF0 replaces the function's grant and no other, and answers with OK and the number of its audit entry;
legs of conferences and loaded key slots that leave the grant are closed and erased, every other leg stays, and every other
slot stays loaded. -/
def Obligations.TenantGrantReplacesTheGrant : Prop :=
  ∀ (s : State) (id : Nat) (c : Taken), s.waits id 0x012 c → c.fn = 0 → c.lenIs 9 = true → s.effMode.working = true →
    1 ≤ (c.w 3).toNat → (c.w 3).toNat ≤ 63 → (grantOf c).confBase ≤ 65535 → (grantOf c).slotBase ≤ 2097151 →
    (grantOf c).legQuota ≤ 1048576 → (grantOf c).confBase + (grantOf c).confCount ≤ 65536 →
    (grantOf c).slotBase + (grantOf c).slotCount ≤ 2097152 → s.grantClash (c.w 3).toNat (grantOf c) = false →
    ∃ t, exec (.tenantGrant id) s = .next t ∧ t = { s with
      out := t.out, modes := t.modes, mbx := t.mbx, funcs := t.funcs, welmus := t.welmus, grants := t.grants,
      audit := t.audit, confs := t.confs, legs := t.legs, gone := t.gone, lookups := t.lookups, slots := t.slots,
      buckets := t.buckets } ∧ t.welmus.taken = s.welmus.taken.del id ∧
      (∃ more, (t.mb 0).evq = (s.mb 0).evq ++ reply c rOk s.audit.next [] ++ more) ∧
      t.grants = (if (grantOf c).confCount = 0 ∧ (grantOf c).slotCount = 0 then s.grants.del (c.w 3).toNat
        else s.grants.put (c.w 3).toNat (grantOf c)) ∧
      (∀ l g, (l, g) ∈ s.legs → (s.grants.getD {} (c.w 3).toNat).coversConf g.conf = true →
        (grantOf c).coversConf g.conf = false → t.legs.find? l = none) ∧
      (∀ l, (∀ g, (l, g) ∈ s.legs → (s.grants.getD {} (c.w 3).toNat).coversConf g.conf = true →
        (grantOf c).coversConf g.conf = true) → t.legs.find? l = s.legs.find? l) ∧
      (∀ k r, (k, r) ∈ s.slots → r.loaded = true → (s.grants.getD {} (c.w 3).toNat).coversSlot k = true →
        (grantOf c).coversSlot k = false → (t.slot k).loaded = false) ∧
      (∀ k, (∀ r, (k, r) ∈ s.slots → r.loaded = true → (s.grants.getD {} (c.w 3).toNat).coversSlot k = true →
        (grantOf c).coversSlot k = true) → (t.slot k).loaded = (s.slot k).loaded)

/-! ### Mailboxes -/

/-- A read of CMD_RESERVE that asks for 3 to 1,024 words reserves them at the next ring offset where they are free, and is
turned away with 0x80000000 where they are not; one that asks for 1 or 2 words gets 0xC0000000.

A write of the command ring is stored, with its poison tag, where it lies in a reservation whose word 0 is unwritten, and the
write of word 0 makes its message whole; any other write is discarded and counted. Welmus then takes the head message of the
function whose turn it is: its words leave the ring and room for its response is reserved. A reservation whose word 0 stays
unwritten at the head of the ring for 100 ms is freed, counted and recorded. -/
def Obligations.CommandsReachWelmusThroughTheRing : Prop :=
  (∀ (s : State) (fn n : Nat), s.hostUp = true → 1 ≤ n → n ≤ 1024 →
    ∃ t, exec (.cmdReserveRead fn n) s = .next t ∧ t = { s with mbx := t.mbx, out := t.out } ∧
      (n ≤ 2 → t.mbx = s.mbx ∧ t.out = [.readData 0xC0000000 false]) ∧
      (3 ≤ n → (s.mb fn).free < n → t.mbx = s.mbx ∧ t.out = [.readData 0x80000000 false]) ∧
      (3 ≤ n → n ≤ (s.mb fn).free → t.out = [.readData (w32 (s.mb fn).nextOff) false] ∧
        (t.mb fn).resv = (s.mb fn).resv ++ [{ off := (s.mb fn).nextOff, n := n }] ∧
        (t.mb fn).nextOff = ((s.mb fn).nextOff + n) % 16384 ∧ (t.mb fn).used = (s.mb fn).used + n ∧
        (∀ i, i ≠ fn → t.mb i = s.mb i))) ∧
  ((∀ (s : State) (fn off : Nat) (v : Word) (p : Bool), s.hostUp = true → off < 16384 →
    ∃ t, exec (.cmdRingWrite fn off v p) s = .next t ∧ t = { s with mbx := t.mbx, out := [] } ∧
      (∀ r, r ∈ (s.mb fn).resv → r.holds off = true → r.written = false →
        (t.mb fn).ring.getD (0, false) off = (v, p) ∧
        (∀ i, i ≠ off → (t.mb fn).ring.getD (0, false) i = (s.mb fn).ring.getD (0, false) i) ∧
        (t.mb fn).resv = (s.mb fn).resv.map (fun q => if q.off = off && !q.written then { q with written := true } else q) ∧
        (t.mb fn).counters = (s.mb fn).counters) ∧
      ((∀ r ∈ (s.mb fn).resv, r.holds off = true → r.written = true) →
        (t.mb fn).ring = (s.mb fn).ring ∧ (t.mb fn).resv = (s.mb fn).resv ∧
        (t.mb fn).counters = bump (s.mb fn).counters 2 1) ∧
      (∀ i, i ≠ fn → t.mb i = s.mb i)) ∧
  (∀ (s : State) (bad : List Nat) (fn : Nat), s.welmus.order.find? (fun fn => s.mayTake fn bad) = some fn →
    ∃ t, exec (.commandTake bad) s = .next t ∧ t = { s with mbx := t.mbx, welmus := t.welmus, out := [] } ∧
      t.welmus.nextId = s.welmus.nextId + 1 ∧ t.welmus.pf0Turn = (fn != 0) ∧
      (∃ c, t.welmus.taken.find? s.welmus.nextId = some c ∧ c.fn = fn ∧
        c.words = ((s.mb fn).headMessage fn bad).words ∧ c.reserved = largestResponse c.op ∧ c.committed = false) ∧
      (t.mb fn).resv = (s.mb fn).resv.drop 1 ∧ (t.mb fn).evq = (s.mb fn).evq ∧
      (t.mb fn).evReserved = (s.mb fn).evReserved + largestResponse ((s.mb fn).headMessage fn bad).op ∧
      (t.mb fn).counters.getD 0 0 = (bump (s.mb fn).counters 0 1).getD 0 0 ∧ (∀ i, i ≠ fn → t.mb i = s.mb i)) ∧
  ∀ (s : State) (fn since : Nat), (s.mb fn).headSince = some since → (s.mb fn).stalled = true →
    since + 100000000 ≤ s.now → s.faults.queue.length < 256 →
    ∃ t, exec (.cmdAbandoned fn) s = .next t ∧ t = { s with mbx := t.mbx, faults := t.faults, out := [] } ∧
      (t.mb fn).resv = (s.mb fn).resv.drop 1 ∧ (t.mb fn).counters = bump (s.mb fn).counters 1 1 ∧
      (∀ i, i ≠ fn → t.mb i = s.mb i) ∧
      ∃ r, t.faults.queue = s.faults.queue ++ [r] ∧ r.cls = 0x18 ∧ r.objKind = 6 ∧ r.objId = fn ∧
        r.d0 = w32 (s.mb fn).head)

/-- A read of EVQ_DATA returns and consumes the oldest readable word, with its poison tag; with none it returns the last word
read and sets UNDERRUN. A write of EVQ_STATUS clears the bits written with 1. Vector 0 signals again when words have waited
for the hold-off time; a masked vector becomes pending, and while the host link is down no message leaves (the model's choice,
log entry 107). -/
def Obligations.EventQueueReadsInOrder : Prop :=
  (∀ (s : State) (fn : Nat) (bad : Bool), s.hostUp = true →
    ∃ t, exec (.evqDataRead fn bad) s = .next t ∧ t = { s with mbx := t.mbx, out := t.out } ∧
      (∀ i, i ≠ fn → t.mb i = s.mb i) ∧
      (∀ w p rest, (s.mb fn).evq = (w, p) :: rest →
        t.out = [.readData w (p || bad)] ∧ (t.mb fn).evq = rest ∧ (t.mb fn).lastRead = w ∧
        (t.mb fn).underrun = (s.mb fn).underrun ∧ (t.mb fn).poison = ((s.mb fn).poison || (p || bad))) ∧
      ((s.mb fn).evq = [] → t.out = [.readData (s.mb fn).lastRead false] ∧ (t.mb fn).evq = [] ∧
        (t.mb fn).underrun = true ∧ (t.mb fn).counters = bump (s.mb fn).counters 6 1)) ∧
  (∀ (s : State) (fn : Nat) (v : Word), s.hostUp = true →
    ∃ t, exec (.evqStatusWrite fn v) s = .next t ∧ t = { s with mbx := t.mbx, out := [] } ∧
      (t.mb fn).underrun = ((s.mb fn).underrun && !bitAt v 31) ∧ (t.mb fn).poison = ((s.mb fn).poison && !bitAt v 30) ∧
      (t.mb fn).discarded = ((s.mb fn).discarded && !bitAt v 29) ∧ (t.mb fn).evq = (s.mb fn).evq ∧
      (∀ i, i ≠ fn → t.mb i = s.mb i)) ∧
  ∀ (s : State) (fn : Nat), (s.mb fn).evq ≠ [] → (s.mb fn).holdoff ≠ 0 →
    (s.mb fn).signalRef + (s.mb fn).holdoff * 1000 ≤ s.now →
    ∃ t, exec (.msixHoldoffExpiry fn) s = .next t ∧ t = { s with mbx := t.mbx, funcs := t.funcs, out := t.out } ∧
      (t.mb fn).signalRef = s.now ∧
      (if (s.func fn).msixMask.getD 0 false then t.out = [] ∧ (t.func fn).msixPending = (s.func fn).msixPending.set 0 true
        else t.funcs = s.funcs ∧ t.out = (if s.hostUp then [.msix fn 0] else []))

/-! ### Modes and resets -/

/-- DEVICE_MODE_SET from PF0 puts its target before the mode arbiter: RESET and QUARANTINE after the command's completion,
every other target with the command, which then waits.

The arbiter's table: a DEVICE_MODE_SET that it takes outside THROTTLE, from a mode that R40 gives a transition to, commits
with its entry and puts that transition in progress; one that names no transition of the table completes with WRONG_MODE.

When a commanded transition to SERVICE, DEGRADED, MAINTENANCE or, with the traffic gone, READY is done outside THROTTLE, MODE
takes the new value, where SERVICE and DEGRADED are chosen by instance availability, TRANSIT clears, and the command completes
with OK and the mode reached. -/
def Obligations.CommandedModeChanges : Prop :=
  (∀ (s : State) (id : Nat) (c : Taken) (m : Mode), s.waits id 0x011 c → c.fn = 0 → c.lenIs 5 = true →
    (c.w 3).toNat < 16 → targetOf (c.w 3).toNat = some m → (c.w 4).toNat ≤ 86400 →
    ((c.w 4).toNat = 0 ∨ m = .drain) → (s.effMode.working = true ∨ s.effMode = .retain) →
    s.modes.arb = [] → s.modes.transition = none →
    ∃ t, exec (.deviceModeSet id) s = .next t ∧ t = { s with
      out := t.out, modes := t.modes, mbx := t.mbx, funcs := t.funcs, welmus := t.welmus,
      audit := t.audit } ∧ t.modes.mode = s.modes.mode ∧
      (m = .reset ∨ m = .quarantine →
        t.modes.arb = [{ target := m, trigger := 0, deadline := (c.w 4).toNat }] ∧ t.welmus.taken = s.welmus.taken.del id ∧
        t.audit.next = s.audit.next + 2) ∧
      (m ≠ .reset → m ≠ .quarantine →
        t = { s with out := [], modes := { s.modes with
          arb := [{ target := m, trigger := 0, cmd := some id, deadline := (c.w 4).toNat }] } })) ∧
  (∀ (s : State) (r : ModeReq) (id : Nat) (c : Taken), s.modes.arb = [r] → r.cmd = some id → r.trigger = 0 →
    r.target ≠ .reset → r.target ≠ .quarantine → s.modes.transition = none → s.modes.mode ≠ .throttle →
    s.welmus.taken.find? id = some c → c.orphan = false →
    ∃ t, exec .modeArbiterTake s = .next t ∧
      t = { s with modes := t.modes, audit := t.audit, welmus := t.welmus, mbx := t.mbx, funcs := t.funcs, out := t.out } ∧
      t.modes.mode = s.modes.mode ∧ t.modes.arb = [] ∧
      (∀ m, s.commandTarget s.modes.mode r.target = some m →
        t.modes.transition = some { r with target := m } ∧ t.audit.next = s.audit.next + 1 ∧
        t.welmus.taken.find? id = some { c with committed := true }) ∧
      (s.commandTarget s.modes.mode r.target = none →
        t.modes.transition = none ∧ t.audit = s.audit ∧ t.welmus.taken.find? id = none ∧
        (t.mb c.fn).evq = (s.mb c.fn).evq ++ reply c rWrongMode 0xFFFFFFFF [])) ∧
  (∀ (s : State) (r : ModeReq) (id : Nat) (c : Taken), s.modes.transition = some r → r.cmd = some id → r.trigger = 0 →
    (r.target = .service ∨ r.target = .degraded ∨ r.target = .maintenance ∨ r.target = .ready ∧ s.trafficGone = true) →
    s.modes.mode ≠ .throttle →
    s.welmus.taken.find? id = some c → c.orphan = false →
    ∃ t, exec .modeTransitionDone s = .next t ∧ t = { s with
      out := t.out, modes := t.modes, boot := t.boot, mbx := t.mbx, funcs := t.funcs, welmus := t.welmus, audit := t.audit,
      faults := t.faults, avail := t.avail, ports := t.ports, buckets := t.buckets,
      waitQ := t.waitQ } ∧ t.modes.transition = none ∧
      t.modes.mode = (if r.target = .service ∨ r.target = .degraded then (if s.instDown then .degraded else .service)
        else r.target) ∧
      t.welmus.taken = s.welmus.taken.del id ∧ t.audit.next = s.audit.next + 2 ∧
      (t.mb c.fn).evq = (s.mb c.fn).evq ++ reply c rOk (s.audit.next + 1) [w32 t.modes.mode.code] ∧
      t.legs = s.legs ∧ t.slots = s.slots ∧ t.ports = s.ports ∧ t.confs = s.confs)

/-- A fatal condition asks the mode arbiter for QUARANTINE with its row of R42's list: a main rail out of its window for 2 us,
a junction at 105 degrees C or more for 1 ms, a second watchdog expiry within 60 s. One that follows while such a request
stands writes its record and asks for nothing more. The detail is the model's choice (log entry 16).

A first watchdog expiry restarts the application cores: FW_RESTART reads 1, RESET_CAUSE takes WATCHDOG, its record is written,
and every command in progress completes; the end of the restart clears FW_RESTART.

Entry into QUARANTINE stops the data path, the media engines and the time bases and zeroises every key; every command in
progress completes; a fatal condition leaves its record in the last-gasp bank where it was free. Nothing is entered while a
request for RESET waits.

At the drain deadline every remaining leg is closed; the device, with no leg open, has left DRAIN where no traffic is left,
and leaves it else when that is gone (log entry 106). -/
def Obligations.FatalConditionsAndQuarantine : Prop :=
  ((∀ s : State, s.modes.mode ≠ .quarantine → s.modes.mode ≠ .reset → s.modes.quarantines = [] →
    (∀ rail lowNs, s.pins.pwrgoodMain = true → 2000 ≤ lowNs → rail < 7 →
      ∃ t, exec (.railOutOfWindow rail lowNs) s = .next t ∧ t = { s with modes := t.modes, out := [] } ∧
        t.modes = { s.modes with arb := s.modes.arb ++
          [{ target := .quarantine, trigger := 10, cause := 3, detail := w32 rail }] }) ∧
    (∀ since, s.thermal.fatalSince = some since → since + 1000000 ≤ s.now →
      ∃ t, exec .junctionFatal s = .next t ∧ t = { s with modes := t.modes, out := [] } ∧
        t.modes = { s.modes with arb := s.modes.arb ++
          [{ target := .quarantine, trigger := 10, cause := 2, detail := wInt s.hottest }] }) ∧
    (∀ last, last ∈ s.modes.watchdogs → s.now < last + 60000000000 → s.modes.mode.status = true →
      ∃ t, exec .watchdogExpiry s = .next t ∧ t = { s with
        out := t.out, modes := t.modes, boot := t.boot, mbx := t.mbx, funcs := t.funcs, welmus := t.welmus, audit := t.audit,
        faults := t.faults, avail := t.avail, loads := t.loads, confs := t.confs,
        towers := t.towers } ∧ t.modes.mode = s.modes.mode ∧ t.modes.fwRestart =
        s.modes.fwRestart ∧ (s.faults.queue.length < 256 → ∃ n : Nat, 1 < n ∧ t.faults.queue = s.faults.queue ++
        [s.faultRec 0x58 0 0 (w32 n) 0]) ∧ ∃ r, t.modes.arb = s.modes.arb ++ [r] ∧ r.target = .quarantine ∧ r.trigger = 10 ∧
          r.cause = 4)) ∧
  ∀ (s : State) (since : Nat), s.modes.mode ≠ .quarantine → s.modes.mode ≠ .reset →
    (∃ r ∈ s.modes.quarantines, r.trigger = 10) → s.thermal.fatalSince = some since → since + 1000000 ≤ s.now →
    s.faults.queue.length < 256 →
    ∃ t, exec .junctionFatal s = .next t ∧
      t = { s with out := [], faults := { s.faults with queue := s.faults.queue ++ [s.faultRec 0x60 0 0 2 (wInt s.hottest)] }
        }) ∧
  ((∀ s : State, s.modes.mode.status = true → (∀ u ∈ s.modes.watchdogs, u + 60000000000 ≤ s.now) →
    ∃ t, exec .watchdogExpiry s = .next t ∧ t = { s with
      out := t.out, modes := t.modes, boot := t.boot, mbx := t.mbx, funcs := t.funcs, welmus := t.welmus, audit := t.audit,
      faults := t.faults, avail := t.avail, loads := t.loads, confs := t.confs,
      towers := t.towers } ∧ t.modes.fwRestart = true ∧ t.modes.mode = s.modes.mode ∧
      t.modes.watchdogs = [s.now] ∧ bitAt t.boot.resetCause 5 = true ∧ (s.faults.queue.length < 256 →
      t.faults.queue = s.faults.queue ++ [s.faultRec 0x58 0 0 1 0]) ∧ (∀ i, t.welmus.taken.find? i = none) ∧
      t.legs = s.legs ∧ t.ports = s.ports ∧ t.slots = s.slots) ∧
  ∀ s : State, ∃ t, exec .fwRestartDone s = .next t ∧ t = { s with modes := { s.modes with fwRestart := false }, out := [] }) ∧
  (∀ (s : State) (r : ModeReq), s.modes.transition = some r → r.target = .quarantine → s.modes.mode ≠ .quarantine →
    s.modes.mode ≠ .reset →
    (s.modes.resetAsked = true → ∃ t, exec .quarantineEntry s = .next t ∧ t = { s with out := [] }) ∧
    (s.modes.resetAsked = false →
    ∃ t, exec .quarantineEntry s = .next t ∧ t = { s with
      out := t.out, modes := t.modes, mbx := t.mbx, funcs := t.funcs, welmus := t.welmus, audit := t.audit,
      faults := t.faults, loads := t.loads, confs := t.confs, ports := t.ports, time := t.time, gone := t.gone,
      slots := t.slots, keyCache := t.keyCache, storageKey := t.storageKey, kik := t.kik, cores := t.cores, hmacs := t.hmacs,
      rxJobs := t.rxJobs, txJobs := t.txJobs, replQ := t.replQ, egressQ := t.egressQ, localQ := t.localQ, stunQ := t.stunQ,
      store := t.store, pchs := t.pchs, towers := t.towers, waitQ := t.waitQ, sched := t.sched, sess := t.sess,
      buses := t.buses, outs := t.outs, dsps := t.dsps } ∧ t.modes.mode = .quarantine ∧ t.modes.transition = none ∧
      t.modes.arb = [] ∧
      t.time = { s.time with running := false } ∧ t.slots = [] ∧ t.keyCache = [] ∧ t.storageKey = [] ∧ t.kik = [] ∧
      (∀ k, (t.core k).jobs = []) ∧ t.hmacs = [] ∧
      t.rxJobs = [] ∧ t.txJobs = [] ∧ t.replQ = [] ∧ t.egressQ = [] ∧ t.store = [] ∧ t.dsps = [] ∧ t.sched.lives = [] ∧
      (∀ i, t.welmus.taken.find? i = none) ∧ t.legs = s.legs ∧
      ((r.trigger = 10 ∨ ∃ q ∈ s.modes.arb, q.target = .quarantine ∧ q.trigger = 10) → s.faults.lgValid = false →
        t.faults.lgValid = true ∧ fld (wordAt t.faults.lgRecord 4) 7 0 = 0x60))) ∧
  (∀ (s : State) (d : Nat), s.modes.drainDeadline = some d → d ≤ s.now → s.modes.mode = .drain →
    s.modes.transition = none → s.modes.arb = [] → s.legs ≠ [] →
    ∃ t, exec .drainDeadlineExpiry s = .next t ∧ t = { s with
      out := t.out, modes := t.modes, mbx := t.mbx, funcs := t.funcs, audit := t.audit, confs := t.confs, legs := t.legs,
      gone := t.gone, lookups := t.lookups, slots := t.slots, buckets := t.buckets } ∧ (∀ l, t.legs.find? l = none) ∧
      (if s.trafficGone then t.modes.mode = .ready ∧ t.modes.transition = none else t.modes.mode = .drain ∧
        t.modes.transition = some { target := .ready, trigger := 7 }) ∧
      t.modes.drainDeadline = none ∧ t.now = s.now ∧ t.fuses = s.fuses)

/-- The resets: power-on and the loss of PWRGOOD_AUX reset everything but the fuses; the loss of PWRGOOD_MAIN and SYS_RESET_N
low for 10 us reset the main domain, with their bits of RESET_CAUSE; the audit log stays, with its numbers starting again, but
where VDD_SRAM was lost with main power.

PERST_N low and a function-level reset of PF0 reset every function, one of a VF that function only: its mailbox is empty but
for its counters, its rings and interrupts are reset, and its commands that have not committed are abandoned. PERST_N high
with the reference present brings the host interface out of reset; the host reaches it once the link is up.

TRST_N and JTAG reach the test logic only: outside RESET every instruction but IDCODE shifts zero. The numbers of the
instructions are the model's choice (log entry 21). -/
def Obligations.ResetsReachTheirScope : Prop :=
  ((∀ (s : State) (a : Nat), ∃ t, exec (.powerOn a) s = .next t ∧
    t = { State.reset with pending := s.pending, now := s.now, fresh := s.fresh, fuses := s.fuses, pins := t.pins } ∧
    t.pins.pwrgoodAux = true ∧ t.pins.smbAddr = a % 4) ∧
  (∀ s : State, ∃ t, exec .auxPowerLoss s = .next t ∧
    t = { State.reset with pending := s.pending, now := s.now, fresh := s.fresh, fuses := s.fuses, pins := t.pins } ∧
    t.pins.pwrgoodAux = false) ∧
  (∀ (s : State) (kept : Bool), s.pins.pwrgoodAux = true → s.pins.pwrgoodMain = true →
    ∃ t, exec (.mainPowerLoss kept) s = .next t ∧
      t = { State.reset with
        pending := s.pending, now := s.now, fresh := s.fresh, fuses := s.fuses, pins := t.pins, boot := t.boot,
          modes := t.modes,
        audit := t.audit, faults := t.faults, thermal := t.thermal, smbus := s.smbus, freq := s.freq, jtag := s.jtag,
        vdd := t.vdd } ∧
      t.modes.mode = .reset ∧ t.modes.bootCount = s.modes.bootCount ∧
      bitAt t.boot.resetCause 1 = true ∧ t.pins.pwrgoodMain = false ∧ t.legs = [] ∧ t.slots = [] ∧ t.ports = [] ∧
      t.fuses = s.fuses ∧ (if kept then t.audit = { s.audit with next := 0 } else t.audit = {})) ∧
  ∀ (s : State) (lowNs : Nat) (taken : Bool), s.pins.pwrgoodAux = true → 10000 ≤ lowNs →
    ∃ t, exec (.pinWarmReset lowNs taken) s = .next t ∧
      t = { State.reset with
        pending := s.pending, now := s.now, fresh := s.fresh, fuses := s.fuses, pins := t.pins, boot := t.boot,
          modes := t.modes,
        audit := t.audit, faults := t.faults, thermal := t.thermal, smbus := s.smbus, freq := s.freq, jtag := s.jtag,
        vdd := t.vdd } ∧
      t.modes.mode = .reset ∧
      t.modes.bootCount = min (s.modes.bootCount + 1) 0xFFFF ∧ bitAt t.boot.resetCause 2 = true ∧
      bitAt t.boot.resetCause 6 = (decide (s.modes.mode = .quarantine) || bitAt s.boot.resetCause 6) ∧
      t.legs = [] ∧ t.slots = [] ∧ t.ports = [] ∧ t.audit = { s.audit with next := 0 } ∧ t.fuses = s.fuses) ∧
  ((∀ (s : State), s.pins.pwrgoodAux = true →
    ∃ t, exec .perst s = .next t ∧ t = { s with
      out := t.out, modes := t.modes, pins := t.pins, boot := t.boot, mbx := t.mbx, funcs := t.funcs, welmus := t.welmus,
      loads := t.loads, waitQ := t.waitQ, sched := t.sched } ∧ t.pins.perstN = false ∧ t.hostUp = false ∧ bitAt
      t.boot.resetCause 4 = true ∧
      ∀ fn, fn < 64 → t.mb fn = { ({} : Mailbox) with counters := (s.mb fn).counters } ∧ t.func fn = {}) ∧
  (∀ (s : State), ∃ t, exec .pf0Flr s = .next t ∧ t = { s with
    out := t.out, modes := t.modes, mbx := t.mbx, funcs := t.funcs, welmus := t.welmus, loads := t.loads, waitQ := t.waitQ,
    sched := t.sched } ∧ t.pins = s.pins ∧ t.modes.mode = s.modes.mode ∧
    ∀ fn, fn < 64 → t.mb fn = { ({} : Mailbox) with counters := (s.mb fn).counters } ∧ t.func fn = {}) ∧
  (∀ (s : State) (fn : Nat), 1 ≤ fn → fn < 64 → FMap.sorted s.welmus.taken = true →
    ∃ t, exec (.vfFlr fn) s = .next t ∧ t = { s with
      out := t.out, modes := t.modes, mbx := t.mbx, funcs := t.funcs, welmus := t.welmus, loads := t.loads, waitQ := t.waitQ,
      sched := t.sched } ∧ t.mb fn = { ({} : Mailbox) with counters := (s.mb fn).counters } ∧ t.func fn = {} ∧
      (∀ i, i ≠ fn → t.mb i = s.mb i ∧ t.func i = s.func i) ∧
      (∀ i c, s.welmus.taken.find? i = some c → c.fn = fn → c.committed = false → t.welmus.taken.find? i = none) ∧
      (∀ i c, s.welmus.taken.find? i = some c → c.fn ≠ fn → t.welmus.taken.find? i = some c) ∧
      t.legs = s.legs ∧ t.slots = s.slots ∧ t.confs = s.confs ∧ t.ports = s.ports) ∧
  ∀ (s : State), s.pins.pwrgoodAux = true → s.freq.pcie.missing = false →
    ∃ t, exec (.perstRelease true) s = .next t ∧ t = { s with out := t.out, pins := t.pins } ∧ t.ifUp = true ∧ t.hostUp =
      s.pins.linkUp ∧
      t.mbx = s.mbx ∧ t.modes = s.modes) ∧
  ((∀ s : State, ∃ t, exec .testReset s = .next t ∧ t = { s with jtag := 1, out := [] }) ∧
  ∀ (s : State) (code : Nat), s.pins.pwrgoodAux = true → s.modes.mode ≠ .reset →
    ∃ t, exec (.jtagInstruction code) s = .next t ∧ t = { s with jtag := t.jtag, out := t.out } ∧
      t.out = [.jtag (if code = 1 then w32 (1 + 2 ^ 12 * 0x0B08 + 2 ^ 28 * (s.fuses.rev / 16 % 16)) else 0)])

/-! ### Boot, calibration and the management island -/

/-- From RESET to LOAD: the release of the main domain samples BOOT_SRC and enters IDENTIFY; the next slot's header is
checked, with result BAD_MAGIC for a slot that holds no image; an image whose digest and signature are right is run, and one
whose signature is wrong leaves SIGNATURE as its result.

While the boot window is open, writes into it are stored and BOOT_DOORBELL starts the check of the pushed image; writes of 1
clear bits of RESET_CAUSE; nothing else changes.

LOAD ends with the mailbox queues empty, the import key derived, a storage key of 512 bits drawn and the first voltage target,
fused base plus guard and at most 800 mV, commanded, and enters CALIBRATE; a pushed provisioning image has burned
IMPORT_SECRET, once. Step C6 takes the 10 MHz reference where the monitor shows it. The last of the calibration steps enters
READY, and the first READY under an image that carries ADVANCE raises the fused minimum SVN to the image's. A failed PLL is
fatal. -/
def Obligations.BootEndsInReady : Prop :=
  ((∀ (s : State) (src held : Nat), s.pins.pwrgoodAux = true → s.modes.mode = .reset → s.freq.sysclk.missing = false →
    2000000 ≤ held → src < 4 →
    ∃ t, exec (.mainResetRelease src true true held) s = .next t ∧ t = { s with
      out := t.out, modes := t.modes, pins := t.pins, boot := t.boot, funcs := t.funcs,
      audit := t.audit } ∧ t.modes.mode = .identify ∧ t.pins.bootSrc = src ∧
      t.boot.toTry = (if src = 1 then [] else if src = 3 then [2, 1] else [1, 2]) ∧ t.pins.pwrgoodMain = true ∧
      (src = 1 → s.boot.checking = none → t.boot.pushReady = true)) ∧
  (∀ (s : State) (src : Nat) (rest : List Nat), s.modes.mode = .identify → s.boot.checking = none → s.boot.toTry = src :: rest →
    (∀ h : BootHeader, h.magic = 0x534D4C57 → fld h.word1 15 0 = 1 → h.reservedZero = true → s.fuses.svnMin ≤ fld h.word2 7 0 →
      fld h.word2 7 0 ≤ 64 → 1 ≤ h.bodyLength → h.bodyLength ≤ 12582912 → s.fuses.revoked0 = false → s.fuses.revoked1 = false →
      ∃ t, exec (.bootImageCheck (.header h)) s = .next t ∧ t = { s with out := t.out, boot := t.boot } ∧ t.boot.checking =
        some (src, h) ∧ t.boot.toTry = rest ∧
        t.modes = s.modes ∧ t.fuses = s.fuses) ∧
    (∃ t, exec (.bootImageCheck .noImage) s = .next t ∧ t = { s with out := t.out, boot := t.boot } ∧ t.boot.checking = none ∧
      t.boot.toTry = rest ∧ t.modes = s.modes ∧
      (src = 1 → t.boot.resultA = 2) ∧ (src = 2 → t.boot.resultB = 2))) ∧
  ∀ (s : State) (src : Nat) (h : BootHeader), s.modes.mode = .identify → s.boot.checking = some (src, h) →
    s.modes.ending = false →
    (∃ t, exec (.imageAuthenticated true true true) s = .next t ∧ t = { s with
      out := t.out, modes := t.modes, boot := t.boot, funcs := t.funcs,
      audit := t.audit } ∧ t.modes.mode = .load ∧ t.boot.source = src ∧
      t.boot.fwVersion = h.fwVersion ∧ t.boot.image = some h ∧ t.boot.pushReady = false ∧ (src = 2 → t.boot.resultB = 1)) ∧
    (∃ t, exec (.imageAuthenticated true false true) s = .next t ∧ t = { s with
      out := t.out, modes := t.modes, boot := t.boot, funcs := t.funcs,
      audit := t.audit } ∧ t.modes.mode = .identify ∧ t.boot.checking = none ∧
      t.boot.image = s.boot.image ∧ (src = 1 → t.boot.resultA = 4) ∧ (src = 2 → t.boot.resultB = 4))) ∧
  (∀ s : State, s.hostUp = true →
    (∀ (off : Nat) (v : Byte), s.boot.pushReady = true → off < 12587008 →
      ∃ t, exec (.bootWindowWrite off v) s = .next t ∧ t = { s with boot := { s.boot with window := t.boot.window }, out := []
        } ∧
        t.boot.window.getD 0 off = v ∧ ∀ i, i ≠ off → t.boot.window.getD 0 i = s.boot.window.getD 0 i) ∧
    (∀ n : Word, s.boot.pushReady = true → ∃ t, exec (.bootDoorbell n) s = .next t ∧
      t = { s with boot := { s.boot with pushed := true, pushLength := n.toNat }, out := [] }) ∧
    (∀ (fn : Nat) (v : Word), ∃ t, exec (.resetCauseWrite fn v) s = .next t ∧
      t = { s with boot := { s.boot with resetCause := t.boot.resetCause }, out := [] } ∧
      ∀ i, bitAt t.boot.resetCause i = (bitAt s.boot.resetCause i && !bitAt v i))) ∧
  ((∀ (s : State) (ack : Bool) (provision : Option (List Nat)), s.modes.mode = .load → s.modes.ending = false →
    ∃ t, exec (.loadComplete ⟨ack, provision⟩) s = .next t ∧ t = { s with
      out := t.out, fresh := t.fresh, modes := t.modes, boot := t.boot, fuses := t.fuses, mbx := t.mbx, funcs := t.funcs,
      welmus := t.welmus, audit := t.audit, vdd := t.vdd, storageKey := t.storageKey,
      kik := t.kik } ∧ t.modes.mode = .calibrate ∧ t.boot.calDone = [] ∧ t.vdd.guard = 10 ∧
      (∀ fn, (t.mb fn).evq = [] ∧ (t.mb fn).resv = []) ∧ t.welmus.taken = [] ∧ t.storageKey.length = 16 ∧
      (provision = none → t.fuses = s.fuses) ∧
      (∀ secret, provision = some secret → secret.length = 32 → s.boot.source = 3 → s.fuses.importSet = false →
        t.fuses = { s.fuses with importSecret := secret, importSet := true }) ∧
      t.kik = importKeyOf t.fuses ∧ Out.avs (min (s.fuses.baseMv + 10) 800) ∈ t.out ∧
      (ack = true → t.vdd.acked = min (s.fuses.baseMv + 10) 800)) ∧
  (∀ s : State, s.modes.mode = .calibrate → s.modes.resuming = false → s.modes.arb = [] → s.modes.resumeCmd = none →
    s.modes.transition = none →
    (s.boot.calDone = [1] → ∃ t, exec (.calibrationStepDone (.c2 true)) s = .next t ∧
      t = { s with boot := { s.boot with calDone := [2, 1] }, out := [] }) ∧
    (s.boot.calDone = [] → ∃ t, exec (.calibrationStepDone (.c1 false)) s = .next t ∧ t = { s with
      out := t.out, modes := t.modes, boot := t.boot, fuses := t.fuses, mbx := t.mbx, funcs := t.funcs, welmus := t.welmus,
      audit := t.audit, faults := t.faults, avail := t.avail, survey := t.survey, time := t.time, pchs := t.pchs,
      towers := t.towers, hbm := t.hbm, sched := t.sched } ∧ t.modes.mode = .calibrate ∧
      ∃ r, t.modes.arb = [r] ∧ r.target = .quarantine ∧ r.cause = 5) ∧
    (s.boot.calDone = [2, 1] → ∃ t, exec (.calibrationStepDone (.c6 true)) s = .next t ∧ t = { s with
      out := t.out, modes := t.modes, boot := t.boot, fuses := t.fuses, mbx := t.mbx, funcs := t.funcs, welmus := t.welmus,
      audit := t.audit, faults := t.faults, avail := t.avail, survey := t.survey, time := t.time, pchs := t.pchs,
      towers := t.towers, hbm := t.hbm, sched := t.sched } ∧
      t.modes = s.modes ∧ t.boot.calDone = [6, 2, 1] ∧ t.time.running = true ∧ t.time.tclkRef10 = !s.freq.ref10m.missing) ∧
    (∀ h : BootHeader, s.boot.calDone = [6, 5, 3, 2, 1] → s.boot.readyUnderImage = false → s.boot.image = some h →
      ∃ t, exec (.calibrationStepDone (.c4 [])) s = .next t ∧ t = { s with
        out := t.out, modes := t.modes, boot := t.boot, fuses := t.fuses, mbx := t.mbx, funcs := t.funcs, welmus := t.welmus,
        audit := t.audit, faults := t.faults, avail := t.avail, survey := t.survey, time := t.time, pchs := t.pchs,
        towers := t.towers, hbm := t.hbm, sched := t.sched } ∧ t.modes.mode = .ready ∧ t.boot.readyUnderImage = true ∧
        t.fuses.svnMin = (if bitAt h.word2 8 then max s.fuses.svnMin (fld h.word2 7 0) else s.fuses.svnMin) ∧
        t.fuses.revoked0 = (s.fuses.revoked0 || (bitAt h.word2 9 && bitAt h.word2 10)) ∧
        t.ports = s.ports ∧ t.confs = s.confs ∧ t.pchs = s.pchs)))

/-- The MCTP requests answer in every mode with the words of their table and change nothing else.

A stuck SMBus line is recovered with at most nine clocks or a reset of the interface; the episode leaves one SMBUS_STUCK
record, and a bus that stays stuck is tried again every second without a further record.

A driven alarm output that reads high is driven no longer, with an ALARM_SHORT record; once a second the device drives it
again. -/
def Obligations.ManagementAndAlarms : Prop :=
  (∀ s : State, s.pins.pwrgoodAux = true →
    exec .getIdentity s = .next { s with out := [.mctp s.identityWords] } ∧
    exec .getStatus s = .next { s with out := [.mctp [s.status0, s.bootStatus, s.boot.resetCause]] } ∧
    exec .getTemperature s = .next { s with out := [.mctp [wInt s.hottest, wInt s.thermal.caseSide]] } ∧
    ∀ p, exec (.getPower p) s = .next { s with out := [.mctp [if s.pins.pwrgoodMain then w32 p else 0]] }) ∧
  (∀ s : State, s.pins.pwrgoodAux = true → s.faults.queue.length < 256 →
    (∀ n ok, s.smbus.stuck = false → s.smbus.recorded = false →
      ∃ t, exec (.smbusSdaStuck n ok) s = .next t ∧ t = { s with
        smbus := t.smbus, faults := t.faults, out := [.sclPulses (min n 9)] } ∧
        t.smbus = { stuck := !ok, recorded := !ok, lastTry := s.now } ∧
        ∃ r, t.faults.queue = s.faults.queue ++ [r] ∧ r.cls = 0x51 ∧ r.d0 = w32 (min n 9) ∧ r.d1 = (if ok then 0 else 1)) ∧
    (∀ ok, s.smbus.stuck = false →
      ∃ t, exec (.smbusSclStuck ok) s = .next t ∧ t = { s with smbus := t.smbus, faults := t.faults, out := [.smbusReset] } ∧
        t.smbus = { stuck := !ok, recorded := !ok, lastTry := s.now } ∧
        ∃ r, t.faults.queue = s.faults.queue ++ [r] ∧ r.cls = 0x51 ∧ r.d0 = 0 ∧ r.d1 = (if ok then 0 else 1)) ∧
    (∀ n ok, s.smbus.stuck = true → s.smbus.recorded = true → s.smbus.lastTry + 1000000000 ≤ s.now →
      ∃ t, exec (.smbusRetry n ok) s = .next t ∧ t = { s with smbus := t.smbus, out := [.sclPulses (min n 9)] } ∧
        t.smbus = { stuck := !ok, recorded := !ok, lastTry := s.now })) ∧
  (∀ (s : State) (k : Nat), s.pins.pwrgoodAux = true → k < 3 → s.pins.alarms.length = 3 → s.faults.queue.length < 256 →
    (s.alarmOn k = true → (s.alarm k).stopped = false →
      ∃ t, exec (.alarmShort k true) s = .next t ∧ t = { s with pins := t.pins, faults := t.faults, out := [] } ∧
        t.alarmLow k = false ∧ t.alarm k = { stopped := true, lastTry := s.now } ∧
        ∃ r, t.faults.queue = s.faults.queue ++ [r] ∧ r.cls = 0x50 ∧ r.d0 = w32 k) ∧
    ((s.alarm k).stopped = true → (s.alarm k).lastTry + 1000000000 ≤ s.now →
      ∃ t, exec (.alarmRetry k false) s = .next t ∧ t = { s with pins := t.pins, out := [] } ∧
        t.alarm k = { stopped := false, lastTry := s.now } ∧ t.alarmLow k = s.alarmOn k))

/-! ### The time unit -/

/-- TIME_CONFIG sets a time base's source and servo parameters and starts it in FREE-RUN or ACQUIRE; TIME_OFFSET with STEP 1
steps the time base by its offset, and a step of TB0 enters the step sum of the launch clock.

A write of TIME_LATCH by PF0 latches all time bases and their RATE words at once. The PPS output rises at the whole second of
its time base, not within 500 ms of the rise before, and falls 100 ms after its rise.

An offset of a PTP exchange, of a TIME_OFFSET with STEP 0 or of an accepted PPS edge reaches the servo of its time base, which
keeps it as its last one; a PPS edge too soon after the last accepted one is discarded with a record. The offset that a
Delay_Resp completes is the one of IEEE 1588-2019 (PRESUMED, log entry 111). -/
def Obligations.TimeBasesFollowCommands : Prop :=
  (∀ (s : State) (id : Nat) (c : Taken), c.fn = 0 → s.effMode.working = true → s.time.bases.length = 8 →
    (s.waits id 0x051 c → timeConfigBad c = false →
      ((servoCfgOf c).ptpEn = true → (s.port? (servoCfgOf c).ptpPort).isSome = true ∧
        s.ptpClash (fld (c.w 3) 2 0) (servoCfgOf c) = false) →
      ∃ t, exec (.timeConfig id) s = .next t ∧ t = { s with
        out := t.out, mbx := t.mbx, funcs := t.funcs, welmus := t.welmus, audit := t.audit, faults := t.faults,
        time := t.time } ∧ t.welmus.taken = s.welmus.taken.del id ∧ t.audit.next = s.audit.next + 1 ∧
        (∃ more, (t.mb 0).evq = (s.mb 0).evq ++ reply c rOk s.audit.next [] ++ more) ∧
        (t.tb (fld (c.w 3) 2 0)).source = fld (c.w 3) 5 4 ∧ (t.tb (fld (c.w 3) 2 0)).cfg = servoCfgOf c ∧
        (t.tb (fld (c.w 3) 2 0)).state = (if fld (c.w 3) 5 4 = 0 then .free else .acquire) ∧
        (t.tb (fld (c.w 3) 2 0)).value = (s.tb (fld (c.w 3) 2 0)).value ∧
        (∀ i, i ≠ fld (c.w 3) 2 0 → t.tb i = s.tb i) ∧
        (bitAt (c.w 3) 8 = true → t.time.ppsOutEn = true ∧ t.time.ppsOutTb = fld (c.w 3) 2 0)) ∧
    (s.waits id 0x052 c → timeOffsetBad c = false → bitAt (c.w 3) 8 = true →
      0 ≤ ((s.tb (fld (c.w 3) 2 0)).value : Int) + offsetOf c * 2 ^ 24 →
      ((s.tb (fld (c.w 3) 2 0)).value : Int) + offsetOf c * 2 ^ 24 < 2 ^ 48 * 1000000000 * 2 ^ 40 →
      ∃ t, exec (.timeOffsetStep id) s = .next t ∧ t = { s with
        out := t.out, mbx := t.mbx, funcs := t.funcs, welmus := t.welmus, audit := t.audit, confs := t.confs, time := t.time,
        sched := t.sched } ∧ t.welmus.taken = s.welmus.taken.del id ∧ t.audit.next = s.audit.next + 1 ∧
        (t.mb 0).evq = (s.mb 0).evq ++ reply c rOk s.audit.next [] ∧
        ((t.tb (fld (c.w 3) 2 0)).value : Int) = (s.tb (fld (c.w 3) 2 0)).value + offsetOf c * 2 ^ 24 ∧
        (∀ i, i ≠ fld (c.w 3) 2 0 → t.tb i = s.tb i) ∧
        t.time.stepSum = s.time.stepSum + (if fld (c.w 3) 2 0 = 0 then offsetOf c * 2 ^ 24 else 0))) ∧
  ((∀ s : State, s.hostUp = true →
    ∃ t, exec (.timeLatch 0) s = .next t ∧ t = { s with time := t.time, out := [] } ∧
      t.time.latchTimes = s.time.bases.map TimeBase.value ∧ t.time.latchRates = s.time.bases.map TimeBase.rate ∧
      t.time.bases = s.time.bases) ∧
  (∀ s : State, s.time.running = true → s.time.ppsOutEn = true →
    s.time.ppsNext ≤ (s.tb s.time.ppsOutTb).value / (2 ^ 40 * 1000000000) →
    ∃ t, exec .ppsOutputRise s = .next t ∧ t = { s with time := t.time, out := t.out } ∧
      t.time.ppsNext = (s.tb s.time.ppsOutTb).value / (2 ^ 40 * 1000000000) + 1 ∧
      ((∀ e, s.time.ppsLastRise = some e → e + 500000000 ≤ s.time.elapsed) →
        t.out = [.pps true] ∧ t.time.ppsLevel = true ∧ t.time.ppsLastRise = some s.time.elapsed) ∧
      (∀ e, s.time.ppsLastRise = some e → s.time.elapsed < e + 500000000 → t.out = [] ∧ t.time.ppsLevel = s.time.ppsLevel)) ∧
  ∀ (s : State) (e : Nat), s.time.ppsLastRise = some e → s.time.ppsLevel = true → e + 100000000 ≤ s.time.elapsed →
    ∃ t, exec .ppsOutputFall s = .next t ∧ t = { s with time := { s.time with ppsLevel := false }, out := [.pps false] }) ∧
  ((∀ (s : State) (n : Nat) (q : Port) (f : RxFrame) (rest : List RxFrame) (m : PtpMsg) (y : PtpSync) (t1 t3 : Nat) (ask : Bool)
    (origin : Nat),
    s.welmusRuns = true → s.time.running = true → n < 8 → s.time.bases.length = 8 → (s.tb n).cfg.ptpEn = true →
    (s.tb n).source = 1 → (s.tb n).cfg.peerDelay = false → s.port? (s.tb n).cfg.ptpPort = some q → q.timeQ = f :: rest →
    f.frame.app = .ptp m → m.kind = .delayResp → s.ptpBase (s.tb n).cfg.ptpPort f.frame m = some n →
    ((s.tb n).ptp.best f.at_).any (fun x => x.id == m.source) = true → (s.tb n).ptp.sync = some y → y.sent = some t1 →
    (s.tb n).ptp.req = some (m.seq, some t3) → m.requester = ptpIdentity n → (s.tb n).lastStep ≤ y.at_ →
    ((s.tb n).samples = 0 ∨ (s.tb n).tPrev < y.at_) →
    ∃ t, exec (.ptpMessage n ask origin) s = .next t ∧ t = { s with
      out := t.out, mbx := t.mbx, funcs := t.funcs, faults := t.faults, confs := t.confs, ports := t.ports, time := t.time,
      buckets := t.buckets, waitQ := t.waitQ, sched := t.sched } ∧
      (t.tb n).thetaPrev = stampNs y.stamp - (t1 : Rat) - corrNs y.correction -
        (stampNs y.stamp - stampNs t3 + ((m.time : Rat) - (t1 : Rat)) - corrNs y.correction - corrNs m.correction) / 2 -
        corrNs (s.tb n).cfg.delayCorr ∧
      (t.tb n).tPrev = y.at_ ∧ (t.tb n).lastOffset = s.time.elapsed ∧ (t.tb n).ptp.req = none ∧ (∀ i, i ≠ n → t.tb i = s.tb i) ∧
      ∃ q', t.port? (s.tb n).cfg.ptpPort = some q' ∧ q'.timeQ = rest) ∧
  (∀ (s : State) (id : Nat) (c : Taken), s.waits id 0x052 c → timeOffsetBad c = false → bitAt (c.w 3) 8 = false → c.fn = 0 →
    s.effMode.working = true → (s.tb (fld (c.w 3) 2 0)).source = 1 → (s.tb (fld (c.w 3) 2 0)).cfg.ptpEn = false →
    s.time.bases.length = 8 → (s.tb (fld (c.w 3) 2 0)).lastStep ≤ s.time.elapsed →
    ((s.tb (fld (c.w 3) 2 0)).samples = 0 ∨ (s.tb (fld (c.w 3) 2 0)).tPrev < s.time.elapsed) →
    ∃ t, exec (.timeOffsetServo id) s = .next t ∧ t = { s with
      out := t.out, mbx := t.mbx, funcs := t.funcs, welmus := t.welmus, audit := t.audit, faults := t.faults,
      confs := t.confs, time := t.time, sched := t.sched } ∧ t.welmus.taken = s.welmus.taken.del id ∧ t.audit.next =
      s.audit.next + 1 ∧
      (t.tb (fld (c.w 3) 2 0)).thetaPrev = (offsetOf c : Rat) / 65536 ∧ (t.tb (fld (c.w 3) 2 0)).tPrev = s.time.elapsed ∧
      (t.tb (fld (c.w 3) 2 0)).lastOffset = s.time.elapsed) ∧
  ∀ s : State, s.time.running = true → s.time.bases.length = 8 →
    (s.time.ppsInLast = none ∨ (∃ e, s.time.ppsInLast = some e ∧ e + 900000000 ≤ s.time.elapsed ∧ s.time.elapsed ≤ e +
      1100000000) →
      ∃ t, exec .ppsInputEdge s = .next t ∧ t = { s with
        out := t.out, mbx := t.mbx, funcs := t.funcs, faults := t.faults, confs := t.confs, time := t.time,
        sched := t.sched } ∧ t.time.ppsInLast = some s.time.elapsed ∧
        ∀ n, n < 8 → (s.tb n).source = 2 → (s.tb n).lastStep ≤ s.time.elapsed →
          ((s.tb n).samples = 0 ∨ (s.tb n).tPrev < s.time.elapsed) →
          (t.tb n).thetaPrev = ((s.tb n).ppsTheta : Rat) ∧ (t.tb n).tPrev = s.time.elapsed ∧ (t.tb n).lastOffset =
            s.time.elapsed) ∧
    (∀ e, s.time.ppsInLast = some e → e ≤ s.time.elapsed → s.time.elapsed < e + 900000000 → s.faults.queue.length < 256 →
      ∃ t, exec .ppsInputEdge s = .next t ∧ t = { s with faults := t.faults, out := [] } ∧
        ∃ r, t.faults.queue = s.faults.queue ++ [r] ∧ r.cls = 0x11 ∧ r.d0 = w32 (s.time.elapsed - e)))

/-- The loss of the 10 MHz reference, or its return for 10 s, changes the source of TCLK: every time base is in holdover while
the change runs, and time bases that run free leave it when the change is done.

A time base whose servo has had no offset for its holdover timeout, and a PPS base without an accepted edge for 1.5 s, enters
holdover, its RATE the frequency term; time itself does not jump.

The frequency monitor: a reference outside its window for one interval is missing; the loss of the system reference is fatal,
that of the PCIe reference takes the link down, and one of a SerDes reference in CALIBRATE makes its lanes unavailable. A
missing one is back after 100 good windows. -/
def Obligations.ReferencesAndHoldover : Prop :=
  ((∀ s : State, s.time.running = true → s.time.changing = none → s.time.tclkRef10 = true → s.freq.ref10m.missing = true →
    s.time.bases.length = 8 →
    ∃ t, exec .tclkSourceChange s = .next t ∧ t = { s with
      out := t.out, mbx := t.mbx, funcs := t.funcs, faults := t.faults, time := t.time } ∧ t.time.changing = some (false,
      s.time.elapsed) ∧
      ∀ n, n < 8 → (t.tb n).state = .holdover ∧ (t.tb n).causes.testBit 2 = true ∧ (t.tb n).value = (s.tb n).value) ∧
  (∀ (s : State) (since : Nat), s.time.running = true → s.time.changing = none → s.time.tclkRef10 = false →
    s.freq.ref10m.missing = false → s.time.refSince = some since → since + 10000000000 ≤ s.now → s.time.bases.length = 8 →
    ∃ t, exec .ref10mReturnTimer s = .next t ∧ t = { s with
      out := t.out, mbx := t.mbx, funcs := t.funcs, faults := t.faults, time := t.time } ∧ t.time.changing = some (true,
      s.time.elapsed) ∧
      ∀ n, n < 8 → (t.tb n).state = .holdover ∧ (t.tb n).causes.testBit 2 = true) ∧
  ∀ (s : State) (to10 : Bool) (since : Nat), s.time.changing = some (to10, since) → s.time.bases.length = 8 →
    ∃ t, exec .tclkSourceChangeDone s = .next t ∧ t = { s with
      out := t.out, mbx := t.mbx, funcs := t.funcs, faults := t.faults,
      time := t.time } ∧ t.time.changing = none ∧ t.time.tclkRef10 = to10 ∧
      ∀ n, n < 8 → (t.tb n).value = (s.tb n).value ∧ (t.tb n).causes.testBit 2 = false ∧
        ((s.tb n).source = 0 → (s.tb n).state = .holdover → (t.tb n).state = .free)) ∧
  (∀ (s : State) (n : Nat), s.time.running = true → n < 8 → s.time.bases.length = 8 → (s.tb n).state ≠ .holdover →
    ((s.tb n).source ≠ 0 → (s.tb n).causes.testBit 0 = false →
      (s.tb n).lastOffset + (s.tb n).cfg.holdoverTimeout * 1000000 ≤ s.time.elapsed →
      ∃ t, exec (.holdoverTimeout n) s = .next t ∧ t = { s with
        out := t.out, mbx := t.mbx, funcs := t.funcs, faults := t.faults,
        time := t.time } ∧ (t.tb n).state = .holdover ∧ (t.tb n).cause = 0 ∧
        (t.tb n).rate = rateWord (s.tb n).freq (s.tb n).cfg.rateLimit ∧ (t.tb n).value = (s.tb n).value ∧
        (∀ i, i ≠ n → t.tb i = s.tb i)) ∧
    (∀ e, (s.tb n).source = 2 → (s.tb n).causes.testBit 1 = false → s.time.ppsInLast = some e → e + 1500000000 ≤
      s.time.elapsed →
      ∃ t, exec (.ppsInputAbsent n) s = .next t ∧ t = { s with
        out := t.out, mbx := t.mbx, funcs := t.funcs, faults := t.faults,
        time := t.time } ∧ (t.tb n).state = .holdover ∧ (t.tb n).cause = 1 ∧
        (t.tb n).rate = rateWord (s.tb n).freq (s.tb n).cfg.rateLimit ∧ (t.tb n).value = (s.tb n).value ∧
        (∀ i, i ≠ n → t.tb i = s.tb i))) ∧
  (∀ s : State, s.pins.pwrgoodAux = true →
    (∀ p, p < 850 ∨ 1150 < p → s.modes.mode ≠ .quarantine → s.modes.mode ≠ .reset → s.modes.arb = [] →
      s.modes.transition = none →
      ∃ t, exec (.freqMonitorWindow .sysclk p) s = .next t ∧ t = { s with
        out := t.out, modes := t.modes, pins := t.pins, funcs := t.funcs, faults := t.faults, avail := t.avail,
        freq := t.freq, ports := t.ports, time := t.time, buckets := t.buckets,
        waitQ := t.waitQ } ∧ t.freq.sysclk.missing = true ∧
        ∃ r, t.modes.arb = [r] ∧ r.target = .quarantine ∧ r.cause = 1) ∧
    (∀ p, p < 850 ∨ 1150 < p → s.freq.pcie.missing = false →
      ∃ t, exec (.freqMonitorWindow .pcie p) s = .next t ∧ t = { s with
        out := t.out, modes := t.modes, pins := t.pins, funcs := t.funcs, faults := t.faults, avail := t.avail,
        freq := t.freq, ports := t.ports, time := t.time, buckets := t.buckets,
        waitQ := t.waitQ } ∧ t.freq.pcie.missing = true ∧ t.pins.linkUp = false ∧
        t.modes = s.modes) ∧
    (∀ q p l, p < 850 ∨ 1150 < p → q < 8 → s.freq.sdref.length = 8 → (s.freq.sdref.getD q {}).missing = false →
      s.modes.mode = .calibrate → l ∈ refLanes q →
      ∃ t, exec (.freqMonitorWindow (.sdref q) p) s = .next t ∧ t = { s with
        out := t.out, modes := t.modes, pins := t.pins, funcs := t.funcs, faults := t.faults, avail := t.avail,
        freq := t.freq, ports := t.ports, time := t.time, buckets := t.buckets, waitQ := t.waitQ } ∧
        (t.freq.sdref.getD q {}).missing = true ∧ t.avail.down.has (instId 7 l) = true ∧ t.modes = s.modes) ∧
    (∀ p, 950 ≤ p → p ≤ 1050 → s.freq.ref10m.missing = true → s.freq.ref10m.goodWindows = 99 →
      ∃ t, exec (.freqMonitorWindow .ref10m p) s = .next t ∧ t = { s with
        out := t.out, modes := t.modes, pins := t.pins, funcs := t.funcs, faults := t.faults, avail := t.avail,
        freq := t.freq, ports := t.ports, time := t.time, buckets := t.buckets,
        waitQ := t.waitQ } ∧ t.freq.ref10m.missing = false ∧ t.time.refSince = some s.now ∧
        t.modes = s.modes))

/-! ### Logs, registers and SRAM -/

/-- The log's writer takes the oldest record that waits: the log gains it as its newest record with the losses before it, or a
record of the same class and object less than 1 ms old counts one more repetition where the class is coalesced. A write that
fails leaves a LOG_FAULT record in the last-gasp bank. RESET_MARK goes ahead of every waiting record, and clearing VALID of
LG_STATUS frees the bank. -/
def Obligations.FaultLogWritesRecords : Prop :=
  (∀ (s : State) (r : FaultRec) (rest : List FaultRec), s.logAccepts = true → s.faults.resetMark = none →
    s.faults.queue = r :: rest →
    ((s.faults.log.newestLike r = none ∨ ∃ i e, s.faults.log.newestLike r = some i ∧ s.faults.log.recs[i]? = some e ∧
      ((faultClass r.cls).2.2 = false ∨ e.at_ + 1000000 ≤ s.now)) → ∃ t, exec (.faultRecordWrite none) s = .next t ∧
      t = { s with faults := t.faults, mbx := t.mbx, funcs := t.funcs, out := t.out } ∧ t.faults.queue = rest ∧
      t.faults.log.next = s.faults.log.next + 1 ∧ t.faults.lost = 0 ∧
      t.faults.log.recs.head? = some { words := r.words 0 s.faults.lost, at_ := s.now }) ∧
    (∀ i e, s.faults.log.newestLike r = some i → (faultClass r.cls).2.2 = true → s.faults.log.recs[i]? = some e →
      s.now < e.at_ + 1000000 → e.words.length = 8 → ∃ t, exec (.faultRecordWrite none) s = .next t ∧
        t = { s with faults := t.faults, out := [] } ∧ t.faults.queue = rest ∧ t.faults.log.next = s.faults.log.next ∧
        (∀ j, j ≠ i → t.faults.log.recs[j]? = s.faults.log.recs[j]?) ∧
        fld (wordAt (t.faults.log.recs.getD i default).words 4) 24 17 = min 255 (fld (wordAt e.words 4) 24 17 + 1)) ∧
    (∀ k, s.faults.lgValid = false → ∃ t, exec (.faultRecordWrite (some k)) s = .next t ∧
      t = { s with faults := t.faults, out := [] } ∧ t.faults.queue = rest ∧ t.faults.lost = s.faults.lost + 1 ∧
      t.faults.log = s.faults.log ∧ t.faults.lgValid = true ∧ fld (wordAt t.faults.lgRecord 4) 7 0 = 0x61)) ∧
  (∀ (s : State) (r : FaultRec), s.logAccepts = true → s.faults.resetMark = some r →
    ∃ t, exec .resetMarkWrite s = .next t ∧ t = { s with faults := t.faults, mbx := t.mbx, funcs := t.funcs, out := t.out } ∧
      t.faults.resetMark = none ∧ t.faults.queue = s.faults.queue ∧ t.faults.log.next = s.faults.log.next + 1 ∧
      t.faults.log.recs.head? = some { words := r.words 0 s.faults.lost, at_ := s.now }) ∧
  ∀ (s : State) (v : Word), s.hostUp = true → ∃ t, exec (.lgStatusWrite 0 v) s = .next t ∧
    t = { s with faults := (if bitAt v 31 then { s.faults with lgValid := false, lgMore := 0 } else s.faults), out := [] }

/-- A write of 4 aligned bytes sets the event mask, the interrupt moderation, LANTERN_MATCH, the base and the size of a ring
that is not enabled, or an MSI-X mask of its function; a write of any other size, and one of a running ring's base or size,
changes no register. -/
def Obligations.RegisterWritesSetTheirRegister : Prop :=
  ∀ (s : State) (fn : Nat) (v : Word), s.hostUp = true → fn < 64 →
    (∃ t, exec (.registerWrite fn 0x100C 4 v) s = .next t ∧ t = { s with mbx := t.mbx, out := [] } ∧
      t.mb fn = { s.mb fn with mask := v.toNat % 512 } ∧ ∀ i, i ≠ fn → t.mb i = s.mb i) ∧
    (∃ t, exec (.registerWrite fn 0x1010 4 v) s = .next t ∧ t = { s with mbx := t.mbx, out := [] } ∧
      t.mb fn = { s.mb fn with threshold := v.toNat % 32768, holdoff := v.toNat / 65536 } ∧ ∀ i, i ≠ fn → t.mb i = s.mb i) ∧
    (∃ t, exec (.registerWrite fn 0x3408 4 v) s = .next t ∧ t = { s with sched := t.sched, out := [] } ∧
      t.sched.lantern.matchReg = (if fn = 0 then v &&& 0xFF80FFFF else s.sched.lantern.matchReg)) ∧
    (∀ r, r < 4 → (s.func fn).rings.length = 4 →
      ∃ t, exec (.registerWrite fn (0x4000 + 32 * r + 8) 4 v) s = .next t ∧ t = { s with funcs := t.funcs, out := [] } ∧
        t.ring fn r = (if (s.ring fn r).enable then s.ring fn r else { s.ring fn r with size := v.toNat }) ∧
        ∀ i, i ≠ fn → t.func i = s.func i) ∧
    (∀ r, r < 4 → (s.func fn).rings.length = 4 →
      ∃ t, exec (.registerWrite fn (0x4000 + 32 * r) 4 v) s = .next t ∧ t = { s with funcs := t.funcs, out := [] } ∧
        t.ring fn r = (if (s.ring fn r).enable then s.ring fn r
          else { s.ring fn r with baseLo := v }) ∧
        ∀ i, i ≠ fn → t.func i = s.func i) ∧
    (∀ r, r < 4 → (s.func fn).rings.length = 4 →
      ∃ t, exec (.registerWrite fn (0x4000 + 32 * r + 4) 4 v) s = .next t ∧ t = { s with funcs := t.funcs, out := [] } ∧
        t.ring fn r = (if (s.ring fn r).enable then s.ring fn r else { s.ring fn r with baseHi := v }) ∧
        ∀ i, i ≠ fn → t.func i = s.func i) ∧
    (∀ k, k < 5 → bitAt v 0 = true → (s.func fn).msixMask.length = 5 →
      ∃ t, exec (.registerWrite fn (0x5000 + 16 * k + 12) 4 v) s = .next t ∧ t = { s with funcs := t.funcs, out := [] } ∧
        (t.func fn).msixMask.getD k false = true ∧ (t.func fn).msixPending = (s.func fn).msixPending) ∧
    ∀ off size, size ≠ 4 → exec (.registerWrite fn off size v) s = .next { s with out := [] }

/-- A sweep of an on-die SRAM: more than 64 corrections in a second leave one SRAM_CE_STORM record, at most one a minute; an
uncorrectable word of the key cache or of the control cluster's code memory is fatal, one of the context cache fences its leg,
one of Grotto loses that copy only, each after its SRAM_UE record. -/
def Obligations.SramSweepActsOnTheWordsOwner : Prop :=
  ∀ s : State, s.modes.mode ≠ .reset → s.faults.queue.length < 255 →
    (∀ array n obj, array < 13 → 64 < n → s.sram.find? array = none →
      ∃ t, exec (.sramSweep array n none obj) s = .next t ∧ t = { s with sram := t.sram, faults := t.faults, out := [] } ∧
        t.sram.find? array = some { lastStorm := some s.now } ∧
        ∃ r, t.faults.queue = s.faults.queue ++ [r] ∧ r.cls = 0x38 ∧ r.d0 = w32 n) ∧
    (∀ array n obj x u, array < 13 → s.sram.find? array = some x → x.lastStorm = some u → s.now < u + 60000000000 →
      exec (.sramSweep array n none obj) s = .next { s with out := [] }) ∧
    (∀ array n obj, array < 13 → n ≤ 64 → exec (.sramSweep array n none obj) s = .next { s with out := [] }) ∧
    (∀ array a obj, array < 2 → s.modes.mode ≠ .quarantine → s.modes.arb = [] → s.modes.transition = none →
      ∃ t, exec (.sramSweep array 0 (some a) obj) s = .next t ∧ t = { s with modes := t.modes, faults := t.faults, out := [] } ∧
        (∃ q, t.modes.arb = [q] ∧ q.target = .quarantine ∧ q.cause = 6) ∧
        ∃ r, t.faults.queue = s.faults.queue ++ [r] ∧ r.cls = 0x39 ∧ r.d0 = w32 a) ∧
    (∀ a l g, s.legs.find? l = some g → g.fenced = false →
      ∃ t, exec (.sramSweep 3 0 (some a) l) s = .next t ∧
        t = { s with legs := t.legs, faults := t.faults, audit := t.audit, mbx := t.mbx, funcs := t.funcs, out := t.out } ∧
        t.legs.find? l = some { g with fenced := true } ∧ (∀ i, i ≠ l → t.legs.find? i = s.legs.find? i) ∧
        t.audit.next = s.audit.next + 1 ∧
        ∃ r q, t.faults.queue = s.faults.queue ++ [r, q] ∧ r.cls = 0x39 ∧ q.cls = 0x21 ∧ q.objId = l) ∧
    ∀ a k c, s.store.find? k = some c → c.sump = false →
      ∃ t, exec (.sramSweep 5 0 (some a) k) s = .next t ∧ t = { s with
        store := t.store, legs := t.legs, faults := t.faults, out := [] } ∧
        t.store.find? k = none ∧ (∀ i, i ≠ k → t.store.find? i = s.store.find? i) ∧
        ∃ r, t.faults.queue = s.faults.queue ++ [r] ∧ r.cls = 0x39

/-! ### The Survey, the core voltage and heat -/

/-- Once per second every Survey monitor takes a normalised sample into its window of 1,024, and notes its drift as it reaches
a new multiple of 50; an event and a record leave only then, and nothing else of the device moves. How a reading is normalised
is open (log entry 6).

The hourly re-plan of the core voltage: the guard never falls, the voltage moves by at most 5 mV towards the fused base plus
the guard and never passes 800 mV; a command that was not acknowledged is tried again after 1 ms, three times at most. The
re-plan of the HBM margins sets each pseudo-channel's neighbour refresh by its corrections. -/
def Obligations.VoltageFollowsTheSurvey : Prop :=
  (∀ (s : State) (values : List Nat) (rail : Nat), s.welmusRuns = true →
    ∃ t, exec (.surveySample values rail) s = .next t ∧
      t = { s with survey := t.survey, faults := t.faults, mbx := t.mbx, funcs := t.funcs, out := t.out } ∧
      ((∀ m x, m < 64 → s.survey.find? m = some x →
        let y : Monitor := { x with samples := (Config.normalise m (values.getD m 0) s.hottest rail :: x.samples).take 1024 }
        ¬ (0 < y.drift m / 50 ∧ x.raised < y.drift m / 50)) → t = { s with survey := t.survey, out := [] }) ∧
      ∀ m x, m < 64 → s.survey.find? m = some x →
        let y : Monitor := { x with samples := (Config.normalise m (values.getD m 0) s.hottest rail :: x.samples).take 1024 }
        t.survey.find? m = some { y with
          raised := if 0 < y.drift m / 50 ∧ x.raised < y.drift m / 50 then y.drift m / 50 else x.raised }) ∧
  ((∀ (s : State) (ack : Bool), s.welmusRuns = true → s.survey ≠ [] →
    (∀ u, s.vdd.lastPlan = some u → u + 3600000000000 ≤ s.now) → s.vdd.acked ≤ 800 →
    ∃ t, exec (.guardReplan ack) s = .next t ∧ t = { s with vdd := t.vdd, faults := t.faults, out := t.out } ∧
      s.vdd.guard ≤ t.vdd.guard ∧ t.vdd.lastPlan = some s.now ∧ t.vdd.acked ≤ 800 ∧
      t.vdd.acked ≤ s.vdd.acked + 5 ∧ s.vdd.acked ≤ t.vdd.acked + 5 ∧
      (ack = true → s.vdd.acked + 5 ≤ s.fuses.baseMv + s.guardWanted → s.vdd.acked + 5 ≤ 800 →
        t.vdd.acked = s.vdd.acked + 5 ∧ t.out = [.avs (s.vdd.acked + 5)])) ∧
  (∀ (s : State) (ack : Bool) (mv tries u : Nat), s.vdd.command = some (mv, tries, u) → s.modes.mode ≠ .reset →
    u + 1000000 ≤ s.now →
    ∃ t, exec (.avsRetry ack) s = .next t ∧ t = { s with vdd := t.vdd, out := [.avs mv] } ∧
      (ack = true → t.vdd.acked = mv ∧ t.vdd.command = none) ∧
      (ack = false → t.vdd.acked = s.vdd.acked ∧
        t.vdd.command = (if tries < 3 then some (mv, tries + 1, s.now) else none))) ∧
  ∀ s : State, s.welmusRuns = true →
    ∃ t, exec .hbmMarginReplan s = .next t ∧ t = { s with hbm := t.hbm, pchs := t.pchs, out := [] } ∧
      t.hbm = { s.hbm with marginFloor := s.floorPct } ∧ 100 ≤ t.hbm.marginFloor ∧ t.hbm.marginFloor ≤ 120 ∧
      ∀ p, t.pchs.find? p = (s.pchs.find? p).map fun c => c.replan s.now)

/-- Junction temperature: at 100 degrees C or more on any sensor the device enters THROTTLE from the modes that allow it, with
the mode left as its return mode and step 1; every 100 ms a further step follows while it stays hot; after 1 s at 95 degrees C
or less it returns. -/
def Obligations.HeatDrivesThrottle : Prop :=
  (∀ (s : State) (xs : List Int) (cs : Int), s.pins.pwrgoodAux = true → xs.length = 24 →
    s.modes.mode.throttles = true → s.modes.arb = [] → s.modes.transition = none →
    ((∃ x ∈ xs, 800 ≤ x) → ∃ t, exec (.thermalSensorRead xs cs) s = .next t ∧ t = { s with
      out := t.out, modes := t.modes, boot := t.boot, mbx := t.mbx, funcs := t.funcs, audit := t.audit, faults := t.faults,
      avail := t.avail, thermal := t.thermal, hbm := t.hbm } ∧ t.modes.mode = .throttle ∧
      t.modes.returnMode = s.modes.mode ∧ t.thermal.step = 1 ∧ t.thermal.lastTest = s.now ∧ t.thermal.sensors = xs ∧
      t.audit.next = s.audit.next + 1 ∧ t.legs = s.legs ∧ t.ports = s.ports) ∧
    ((∀ x ∈ xs, x < 800) → ∃ t, exec (.thermalSensorRead xs cs) s = .next t ∧ t = { s with thermal := t.thermal, out := [] } ∧
      t.thermal.sensors = xs ∧ t.thermal.caseSide = cs ∧ t.thermal.fatalSince = none)) ∧
  (∀ s : State, s.modes.mode = .throttle → s.thermal.lastTest + 100000000 ≤ s.now → s.faults.queue.length < 256 →
    (800 ≤ s.hottest → s.thermal.step < 5 → ∃ t, exec .throttleStepTest s = .next t ∧
      t = { s with thermal := t.thermal, hbm := t.hbm, faults := t.faults, out := [] } ∧
      t.thermal.step = s.thermal.step + 1 ∧ t.thermal.lastTest = s.thermal.lastTest + 100000000 ∧
      (t.thermal.step = 3 → t.hbm.request = 1) ∧ (t.thermal.step = 4 → t.hbm.request = 2) ∧
      ∃ r, t.faults.queue = s.faults.queue ++ [r] ∧ r.cls = 0x40 ∧ r.d0 = w32 t.thermal.step) ∧
    (s.hottest < 800 → exec .throttleStepTest s = .next { s with
      thermal := { s.thermal with lastTest := s.thermal.lastTest + 100000000 }, out := [] })) ∧
  ∀ (s : State) (u : Nat), s.modes.mode = .throttle → s.thermal.coldSince = some u → u + 1000000000 ≤ s.now →
    s.modes.arb = [] → s.modes.transition = none →
    ∃ t, exec .thermalExit s = .next t ∧ t = { s with
      out := t.out, modes := t.modes, boot := t.boot, mbx := t.mbx, funcs := t.funcs, audit := t.audit, faults := t.faults,
      avail := t.avail, thermal := t.thermal,
      hbm := t.hbm } ∧ t.modes.mode = s.modes.returnMode ∧ t.thermal.step = 0 ∧ t.hbm.request = 0 ∧
      t.modes.returnMode = .reset ∧ t.audit.next = s.audit.next + 1

/-! ### Plans -/

/-- PLAN_LOAD commits with its entry, takes its bank to LOADING and waits for its image. When the fetch is done, an image that
passes every check is installed in STANDBY and the command completes with its EPOCH; an image that fails one leaves the bank
as it was, with the section and offset of the failing word or the code of the failing check; a fetch that failed empties the
bank. PLAN_COMMIT takes a STANDBY bank to PENDING, with CHECK_EPOCH only where the ACTIVE image has the EPOCH named.

A RETIRING bank returns to STANDBY once no instance runs under it and no packet latched to it is left; until then the command
changes nothing in the first second. After that second its instances are revoked, and the bank returns where none is left. -/
def Obligations.PlansAreLoadedAndRetired : Prop :=
  ((∀ (s : State) (id conf len : Nat) (c : Taken), s.waits id 0x020 c → s.hasConf c.fn conf = true → c.lenIs 7 = true →
    s.effMode.working = true →
    (c.w 3).toNat = conf → conf < 65536 → (c.w 6).toNat = len → num64 (c.w 4) (c.w 5) % 64 = 0 → 4096 ≤ len → len ≤ 268435456 →
    len % 64 = 0 → s.loadBusy conf = false → s.staged + len ≤ 1073741824 → (s.conf conf).banks.length = 2 →
    ∃ t, exec (.planLoad id) s = .next t ∧ t = { s with
      out := t.out, mbx := t.mbx, funcs := t.funcs, welmus := t.welmus, audit := t.audit, loads := t.loads, confs := t.confs,
      sched := t.sched } ∧ t.mbx = s.mbx ∧ t.audit.next = s.audit.next + 1 ∧
      t.welmus.taken.find? id = some { c with committed := true } ∧
      t.loads.find? id = some
        { conf := conf, bank := (s.conf conf).standbyNo, fn := c.fn, addr := num64 (c.w 4) (c.w 5), length := len,
          aborted := (s.func c.fn).held } ∧
      ((t.conf conf).bank (s.conf conf).standbyNo).st = .loading ∧
      (∀ b, b ≠ (s.conf conf).standbyNo → (t.conf conf).bank b = (s.conf conf).bank b) ∧
      ∀ i, i ≠ conf → t.conf i = s.conf i) ∧
  (∀ (s : State) (id : Nat) (c : Taken) (l : Load), s.runs id 0x020 c → s.loads.find? id = some l → (s.conf
    l.conf).banks.length = 2 →
    l.bank < 2 →
    (∀ ws p, l.aborted = false → s.validate l ws = .ok p → ∃ t, exec (.planLoadFetchDone id (.image ws)) s = .next t ∧
      t = { s with
        out := t.out, mbx := t.mbx, funcs := t.funcs, welmus := t.welmus, audit := t.audit, loads := t.loads,
        loadSeq := t.loadSeq, confs := t.confs, legs := t.legs,
        sched := t.sched } ∧ ((t.conf l.conf).bank l.bank).st = .standby ∧
      ((t.conf l.conf).bank l.bank).plan = some { p with loadNo := s.loadSeq + 1 } ∧ t.loads.find? id = none ∧
      t.welmus.taken = s.welmus.taken.del id ∧ t.audit.next = s.audit.next + 1 ∧
      (t.mb c.fn).evq = (s.mb c.fn).evq ++ reply c rOk s.audit.next [w32 p.epoch]) ∧
    (∀ ws result payload, l.aborted = false →
      (∃ sec off, s.validate l ws = .badArg sec off ∧ result = rBadArg ∧ payload = [w32 sec, w32 off]) ∨
        s.validate l ws = .integrity ∧ result = rIntegrity ∧ payload = [] ∨
        s.validate l ws = .noResource ∧ result = rNoResource ∧ payload = [] →
      ∃ t, exec (.planLoadFetchDone id (.image ws)) s = .next t ∧ t = { s with
        out := t.out, mbx := t.mbx, funcs := t.funcs, welmus := t.welmus, audit := t.audit, loads := t.loads,
        loadSeq := t.loadSeq, confs := t.confs, legs := t.legs, sched := t.sched } ∧ t.legs = s.legs ∧
        (t.conf l.conf).bank l.bank = { (s.conf l.conf).bank l.bank with st := ((s.conf l.conf).bank l.bank).prev } ∧
        t.loads.find? id = none ∧ t.welmus.taken = s.welmus.taken.del id ∧ t.audit.next = s.audit.next + 1 ∧
        (t.mb c.fn).evq = (s.mb c.fn).evq ++ reply c result s.audit.next payload) ∧
    (∀ f, l.aborted = true ∨ f = .failed → ∃ t, exec (.planLoadFetchDone id f) s = .next t ∧ t = { s with
      out := t.out, mbx := t.mbx, funcs := t.funcs, welmus := t.welmus, audit := t.audit, loads := t.loads,
      loadSeq := t.loadSeq, confs := t.confs, legs := t.legs, sched := t.sched } ∧
      t.legs = s.legs ∧ ((t.conf l.conf).bank l.bank).st = .empty ∧ ((t.conf l.conf).bank l.bank).plan = none ∧
      t.loads.find? id = none ∧ t.welmus.taken = s.welmus.taken.del id ∧ t.audit.next = s.audit.next + 1 ∧
      (t.mb c.fn).evq = (s.mb c.fn).evq ++ reply c rFailed s.audit.next [])) ∧
  ∀ (s : State) (id conf : Nat) (c : Taken) (p : Plan), s.waits id 0x021 c → s.hasConf c.fn conf = true → c.lenIs 5 = true →
    s.effMode.working = true → (c.w 3).toNat = conf → conf < 65536 → zeroFrom (c.w 4) 17 = true →
    (bitAt (c.w 4) 16 = true → (s.conf conf).active.map Plan.epoch = some (fld (c.w 4) 15 0)) →
    (s.conf conf).banks.length = 2 → ((s.conf conf).bank (s.conf conf).standbyNo).st = .standby →
    ((s.conf conf).bank (s.conf conf).standbyNo).plan = some p →
    ∃ t, exec (.planCommit id) s = .next t ∧ t = { s with
      out := t.out, mbx := t.mbx, funcs := t.funcs, welmus := t.welmus, audit := t.audit,
      confs := t.confs } ∧ t.welmus.taken = s.welmus.taken.del id ∧
      t.audit.next = s.audit.next + 1 ∧ (t.mb c.fn).evq = (s.mb c.fn).evq ++ reply c rOk s.audit.next [w32 p.epoch] ∧
      ((t.conf conf).bank (s.conf conf).standbyNo).st = .pending ∧
      ((t.conf conf).bank (s.conf conf).standbyNo).plan = some p ∧
      ((t.conf conf).bank (s.conf conf).standbyNo).commitAt = s.now ∧
      (∀ b, b ≠ (s.conf conf).standbyNo → (t.conf conf).bank b = (s.conf conf).bank b) ∧ ∀ i, i ≠ conf → t.conf i = s.conf i) ∧
  (∀ (s : State) (conf b : Nat), (s.conf conf).retiringNo = some b → (s.conf conf).banks.length = 2 →
    (s.bankRuns conf b = [] → s.latchedPackets conf b = false →
      ∃ t, exec (.planBankRetired conf) s = .next t ∧ t = { s with
        out := t.out, confs := t.confs, sess := t.sess, buses := t.buses,
        outs := t.outs } ∧ ((t.conf conf).bank b).st = .standby ∧
        ((t.conf conf).bank b).plan = ((s.conf conf).bank b).plan ∧
        (t.conf conf).bank (1 - b) = (s.conf conf).bank (1 - b) ∧ ∀ i, i ≠ conf → t.conf i = s.conf i) ∧
    (s.latchedPackets conf b = true → (∀ u, ((s.conf conf).bank b).leftActive = some u → s.now < u + 1000000000) →
      exec (.planBankRetired conf) s = .next { s with out := [] }) ∧
    ∀ u, ((s.conf conf).bank b).leftActive = some u → u + 1000000000 ≤ s.now →
      ∃ t, exec (.planRetireTimeout conf) s = .next t ∧ t = { s with
        out := t.out, audit := t.audit, faults := t.faults, confs := t.confs, sched := t.sched, sess := t.sess,
        buses := t.buses, outs := t.outs } ∧
        ((t.conf conf).bank b).st = (if t.bankRuns conf b = [] then .standby else .retiring))

/-- At a media tick a bank that has been PENDING for 20 us becomes ACTIVE and the bank ACTIVE before it RETIRING. The set that
the tick selects holds every pinned source and never more members than K or than the pins, or none with K = 0; it is published
20 us after the tick (log entry 130), and is then the set and the ranks in force. -/
def Obligations.MediaTickSwitchesAndSelects : Prop :=
  (∀ (s : State) (conf : Nat), s.tickDue (s.conf conf) = true → (s.conf conf).banks.length = 2 →
    (∀ b p, (s.conf conf).pendingNo = some b → ((s.conf conf).bank b).plan = some p →
      ((s.conf conf).bank b).commitAt + 20000 ≤ s.now →
      ∃ t, exec (.mediaTick conf) s = .next t ∧ t = { s with
        out := t.out, fresh := t.fresh, mbx := t.mbx, funcs := t.funcs, audit := t.audit, faults := t.faults,
        confs := t.confs, legs := t.legs, egressQ := t.egressQ, buckets := t.buckets, sched := t.sched, sess := t.sess,
        buses := t.buses, outs := t.outs, mediaSerial := t.mediaSerial } ∧ (t.conf conf).activeNo = some b ∧
        ((t.conf conf).bank b).plan = some p ∧ ((t.conf conf).bank b).leftActive = none ∧
        (∀ a, (s.conf conf).activeNo = some a →
          ((t.conf conf).bank a).st = .retiring ∧ ((t.conf conf).bank a).leftActive = some s.now) ∧
        (t.conf conf).lastTick = some s.tb0Ns) ∧
    ((s.conf conf).pendingNo = none → ∃ t, exec (.mediaTick conf) s = .next t ∧ t = { s with
      out := t.out, fresh := t.fresh, mbx := t.mbx, funcs := t.funcs, audit := t.audit, faults := t.faults, confs := t.confs,
      legs := t.legs, egressQ := t.egressQ, buckets := t.buckets, sched := t.sched, sess := t.sess, buses := t.buses,
      outs := t.outs, mediaSerial := t.mediaSerial } ∧
      t.legs = s.legs ∧ (t.conf conf).banks = (s.conf conf).banks ∧ (t.conf conf).lastTick = some s.tb0Ns ∧
      (∀ i, i ≠ conf → t.conf i = s.conf i) ∧
      ∀ p, (s.conf conf).active = some p →
        ∃ set ranks, (t.conf conf).nextSel = some (s.now + 20000, set, ranks) ∧
          (p.mix.k = 0 → set = [] ∧ ranks = []) ∧
          (p.mix.k ≠ 0 → (∀ n ∈ p.mix.pins, n ∈ set) ∧ set.length ≤ max p.mix.k p.mix.pins.length))) ∧
  ∀ (s : State) (conf : Nat) (due : Nat) (set : List Nat) (ranks : FMap Nat), (s.conf conf).nextSel = some (due, set, ranks) →
    ((s.publish conf).conf conf).selected = set ∧ ((s.publish conf).conf conf).ranks = ranks ∧
    ((s.publish conf).conf conf).nextSel = none ∧ ∀ i, i ≠ conf → (s.publish conf).conf i = s.conf i

/-! ### Legs and keys -/

/-- LEG_OPEN takes the lowest free leg number, holds the leg's two key slots, places its lookup entries and answers with the
number.

LEG_BIND binds an open leg to the roster slot it names, or with 0xFFFF to the lowest spare slot of its kind that no leg has;
LEG_CLOSE removes a leg with its lookup entries, its bucket and its hold on its key slots. Both answer with OK and write their
entry. -/
def Obligations.LegsAreOpenedBoundAndClosed : Prop :=
  (∀ (s : State) (id n conf : Nat) (c : Taken) (stun : Bool), s.waits id 0x030 c → openMalformed c = false →
    fld (c.w 3) 15 0 = conf → s.hasConf c.fn conf = true → s.hasSlot c.fn (c.w 18).toNat = true →
    s.hasSlot c.fn (c.w 20).toNat = true →
    (c.fn = 0 ∨ s.legCount c.fn + 1 ≤ (s.grants.getD {} c.fn).legQuota) →
    (fld (c.w 3) 26 25 = 2 → (s.slot (c.w 18).toNat).profile < 3 ∧ (s.slot (c.w 20).toNat).profile < 3) →
    s.effMode.working = true → s.effMode ≠ .drain → c.w 19 = ~~~(c.w 18) → c.w 21 = ~~~(c.w 20) →
    (s.conf conf).exists_ = true → (s.port? (fld (c.w 3) 22 16)).isSome = true →
    (s.slot (c.w 18).toNat).loaded = true → (s.slot (c.w 20).toNat).loaded = true →
    (s.slot (c.w 18).toNat).held = false → (s.slot (c.w 20).toNat).held = false →
    (∀ k ∈ openKeys c 0, ∀ e ∈ s.lookups, e.sameKey k = false) → s.lowestLeg 1048576 0 = some n →
    (placeKeys s.lookups (openKeys c 0)).isSome = true →
    ∃ t, exec (.legOpen id stun) s = .next t ∧ t = { s with
      out := t.out, mbx := t.mbx, funcs := t.funcs, welmus := t.welmus, audit := t.audit, legs := t.legs,
      legSerial := t.legSerial, lookups := t.lookups, slots := t.slots } ∧ s.legs.find? n = none ∧
      t.legs.find? n = some (s.newLeg c stun) ∧ (∀ l, l ≠ n → t.legs.find? l = s.legs.find? l) ∧
      t.lookups = (placeKeys s.lookups (openKeys c n)).getD s.lookups ∧
      (t.slot (c.w 18).toNat).held = true ∧ (t.slot (c.w 18).toNat).holder = n ∧ (t.slot (c.w 18).toNat).role = false ∧
      (t.slot (c.w 20).toNat).held = true ∧ (t.slot (c.w 20).toNat).holder = n ∧ (t.slot (c.w 20).toNat).role = true ∧
      (∀ k, k ≠ (c.w 18).toNat → k ≠ (c.w 20).toNat → t.slot k = s.slot k) ∧
      t.welmus.taken = s.welmus.taken.del id ∧ t.audit.next = s.audit.next + 1 ∧
      ∃ more, (t.mb c.fn).evq = (s.mb c.fn).evq ++ reply c rOk s.audit.next [w32 n] ++ more) ∧
  ((∀ (s : State) (id l : Nat) (c : Taken) (g : Leg) (p : Plan) (r : RosterSlot), s.waits id 0x031 c → s.hasLeg c.fn l = true →
    c.lenIs 5 = true → (c.w 3).toNat = l → l < 1048576 → (c.w 4).toNat < 65536 → s.effMode.working = true →
    s.effMode ≠ .drain → s.legs.find? l = some g → g.fenced = false → (s.conf g.conf).fenced = none →
    (s.conf g.conf).active = some p → s.bindTarget g p (c.w 4).toNat = some r →
    (s.boundTo g.conf r.slot = none ∨ g.slot = some r.slot) →
    ∃ t, exec (.legBind id) s = .next t ∧ t = { s with
      out := t.out, mbx := t.mbx, funcs := t.funcs, welmus := t.welmus, audit := t.audit, confs := t.confs, legs := t.legs,
      buckets := t.buckets } ∧ (∃ g', t.legs.find? l = some g' ∧ g'.slot = some r.slot ∧
        g'.conf = g.conf ∧ (g.slot ≠ some r.slot → g'.everBound = true) ∧ g'.counters = g.counters ∧ g'.rxSlot = g.rxSlot ∧
        g'.txSlot = g.txSlot) ∧
      (∀ k, k ≠ l → t.legs.find? k = s.legs.find? k) ∧ t.welmus.taken = s.welmus.taken.del id ∧
      t.audit.next = s.audit.next + 1 ∧
      ∃ more, (t.mb c.fn).evq = (s.mb c.fn).evq ++ reply c rOk s.audit.next [w32 r.slot] ++ more) ∧
  ∀ (s : State) (id l : Nat) (c : Taken) (g : Leg), s.waits id 0x032 c → s.hasLeg c.fn l = true → c.lenIs 4 = true →
    (c.w 3).toNat = l → l < 1048576 → s.effMode.working = true → s.legs.find? l = some g →
    ∃ t, exec (.legClose id) s = .next t ∧ t = { s with
      out := t.out, modes := t.modes, mbx := t.mbx, funcs := t.funcs, welmus := t.welmus, audit := t.audit, confs := t.confs,
      legs := t.legs, gone := t.gone, lookups := t.lookups, slots := t.slots, buckets := t.buckets } ∧ t.legs.find? l = none ∧
      (∀ k, k ≠ l → t.legs.find? k = s.legs.find? k) ∧ (∀ e ∈ t.lookups, e.leg ≠ l) ∧
      (∀ e ∈ s.lookups, e.leg ≠ l → e ∈ t.lookups) ∧ t.buckets.find? l = none ∧
      (t.slot (fld g.rxSlot 20 0)).held = false ∧ (t.slot (fld g.txSlot 20 0)).held = false ∧
      (∀ k, (t.slot k).keys = (s.slot k).keys) ∧ t.welmus.taken = s.welmus.taken.del id ∧
      (s.effMode ≠ .drain → t.audit.next = s.audit.next + 1) ∧
      ∃ more, (t.mb c.fn).evq = (s.mb c.fn).evq ++ reply c rOk s.audit.next [] ++ more)

/-- KEY_IMPORT loads the key that unwraps under KIK into its slot with the next generation, index zero and its key check
value, and answers with both; a leg that holds the slot takes the generation, and with the receive slot its replay state
starts anew. The same key again is refused with INTEGRITY, as is one that does not unwrap. KEY_ERASE zeroises a loaded slot
and raises its generation. Every other slot stays as it is. -/
def Obligations.KeysAreImportedAndErased : Prop :=
  (∀ (s : State) (id k pr : Nat) (c : Taken) (dropped : Bool), s.waits id 0x040 c → s.hasSlot c.fn k = true → importMalformed
    c = false →
    (c.w 3).toNat = k → fld (c.w 4) 2 0 = pr → s.effMode.working = true →
    (3 ≤ pr → (s.slot k).held = true → (s.legs.getD {} (s.slot k).holder).kind ≠ 2) →
    (∀ m, s.fuses.importSet = true → unwrapKey s.kik pr (bytesOfWords (c.words.drop 5)) = some m → (s.pch (slotPch k)).st ≠ 1 →
      (s.slot k).kcvValid = false ∨ (s.slot k).kcv ≠ m.kcv →
      ∃ t, exec (.keyImport id dropped) s = .next t ∧ t = { s with
        out := t.out, mbx := t.mbx, funcs := t.funcs, welmus := t.welmus, audit := t.audit, legs := t.legs, slots := t.slots,
        keyCache := t.keyCache } ∧ t.slot k = (s.slot k).load pr m m.kcv ∧
        (t.slot k).generation = ((s.slot k).generation + 1) % 256 ∧ (t.slot k).index = 0 ∧ (t.slot k).loaded = true ∧
        (∀ i, i ≠ k → t.slot i = s.slot i) ∧
        t.keyCache = (if dropped then s.keyCache.filter fun x => x != k else s.keyCache) ∧
        ((s.slot k).held = false → t.legs = s.legs) ∧
        (∀ g, (s.slot k).held = true → s.legs.find? (s.slot k).holder = some g →
          t.legs.find? (s.slot k).holder = some (if (s.slot k).role then { g with txGen := (t.slot k).generation }
            else { g.resetReplay with rxGen := (t.slot k).generation })) ∧
        (∀ l, l ≠ (s.slot k).holder → t.legs.find? l = s.legs.find? l) ∧
        t.welmus.taken = s.welmus.taken.del id ∧ t.audit.next = s.audit.next + 1 ∧
        (t.mb c.fn).evq = (s.mb c.fn).evq ++ reply c rOk s.audit.next [w32 (t.slot k).generation, w32 m.kcv]) ∧
    ((s.fuses.importSet = false ∨ unwrapKey s.kik pr (bytesOfWords (c.words.drop 5)) = none ∨
        ∃ m, unwrapKey s.kik pr (bytesOfWords (c.words.drop 5)) = some m ∧ (s.slot k).kcvValid = true ∧ (s.slot k).kcv =
          m.kcv) →
      ∃ t, exec (.keyImport id dropped) s = .next t ∧ s.answered t id c (reply c rIntegrity 0xFFFFFFFF []))) ∧
  ∀ (s : State) (id k : Nat) (c : Taken), s.waits id 0x041 c → s.hasSlot c.fn k = true → c.lenIs 4 = true → (c.w 3).toNat = k →
    k < 2097152 → s.effMode.working = true → (s.slot k).loaded = true →
    ∃ t, exec (.keyErase id) s = .next t ∧ t = { s with
      out := t.out, mbx := t.mbx, funcs := t.funcs, welmus := t.welmus, audit := t.audit,
      slots := t.slots } ∧ (t.slot k).loaded = false ∧ (t.slot k).keys = none ∧
      (t.slot k).index = 0 ∧ (t.slot k).generation = ((s.slot k).generation + 1) % 256 ∧
      (∀ i, i ≠ k → t.slot i = s.slot i) ∧ t.welmus.taken = s.welmus.taken.del id ∧ t.audit.next = s.audit.next + 1 ∧
      (t.mb c.fn).evq = (s.mb c.fn).evq ++ reply c rOk s.audit.next []

/-! ### Ports -/

/-- PORT_CONFIG from PF0 brings a port into being in WAIT_SIGNAL, changes the settings of a port that is UP at the same speed
without taking it down, and with SPEED 0 removes the port. It answers with OK and writes its entry; every other port stays as
it is. -/
def Obligations.PortConfigMakesThePort : Prop :=
  ∀ (s : State) (id p : Nat) (c : Taken) (g : PortCfg), s.waits id 0x050 c → c.fn = 0 → portCfgOf c = some g →
    fld (c.w 3) 6 0 = p → s.effMode.working = true → s.lanesTaken p g.speed = false → s.lanesGone p g.speed = false →
    (g.speed ≠ 0 → s.port? p = none → (∀ w ∈ s.waitQ, w.port ≠ p) → ∃ t q, exec (.portConfig id) s = .next t ∧
      t = { s with
        out := t.out, modes := t.modes, mbx := t.mbx, funcs := t.funcs, welmus := t.welmus, audit := t.audit,
        faults := t.faults, avail := t.avail, ports := t.ports, shorted := t.shorted, buckets := t.buckets,
        waitQ := t.waitQ } ∧ t.port? p = some q ∧ q.cfg = g ∧ q.st = 1 ∧ q.stSince = s.now ∧ q.speedRun = 0 ∧ q.reduced =
        false ∧
      (∀ i, i ≠ p → t.port? i = s.port? i) ∧ t.welmus.taken = s.welmus.taken.del id ∧ t.audit.next = s.audit.next + 1 ∧
      (t.mb 0).evq = (s.mb 0).evq ++ reply c rOk s.audit.next []) ∧
    (∀ q, s.port? p = some q → q.st = 4 → q.cfg.speed = g.speed → q.speedRun = g.speed → q.active = laneBits g.speed →
      g.speed ≠ 0 →
      ∃ t, exec (.portConfig id) s = .next t ∧ t = { s with
        out := t.out, modes := t.modes, mbx := t.mbx, funcs := t.funcs, welmus := t.welmus, audit := t.audit,
        faults := t.faults, avail := t.avail, ports := t.ports, shorted := t.shorted, buckets := t.buckets, waitQ := t.waitQ } ∧
        t.port? p = some { q with cfg := g, openLanes := q.openLanes &&& laneBits g.speed } ∧
        (∀ i, i ≠ p → t.port? i = s.port? i) ∧ t.faults = s.faults ∧ t.buckets = s.buckets ∧
        t.welmus.taken = s.welmus.taken.del id ∧ t.audit.next = s.audit.next + 1 ∧
        (t.mb 0).evq = (s.mb 0).evq ++ reply c rOk s.audit.next []) ∧
    (g.speed = 0 → ∃ t, exec (.portConfig id) s = .next t ∧ t = { s with
      out := t.out, modes := t.modes, mbx := t.mbx, funcs := t.funcs, welmus := t.welmus, audit := t.audit,
      faults := t.faults, avail := t.avail, ports := t.ports, shorted := t.shorted, buckets := t.buckets,
      waitQ := t.waitQ } ∧ t.port? p = none ∧
      (∀ i, i ≠ p → t.port? i = s.port? i) ∧ t.welmus.taken = s.welmus.taken.del id ∧
      ∃ more, (t.mb 0).evq = (s.mb 0).evq ++ reply c rOk s.audit.next [] ++ more)

/-- Bring-up: a lane that shows signal, or loses it, is noted, and the 100 ms run while some lane shows signal; with signal on
every lane and no lane fault the port trains at its configured speed; a trained port aligns, with the inverted lanes
corrected; an aligned one with at most 180 ns of skew goes UP and is recorded. No other port changes.

Bring-up that fails: TRAIN for 500 ms, ALIGN for 10 ms and more than 180 ns of skew arm the retry of 100 ms, whose end returns
the port to WAIT_SIGNAL; a port UP that loses its link goes back to WAIT_SIGNAL with its transmit queues emptied, a count and
a record; while ports run, a shorted lane takes a port of one lane to HELD. -/
def Obligations.PortsComeUpAndFailBack : Prop :=
  (∀ (s : State) (p : Nat) (q : Port), s.port? p = some q → s.portsRun = true →
    (∀ lane on, q.st = 1 → q.refHeld = false → lane < lanesOf q.cfg.speed → s.shorted.contains (p + lane) = false →
      ∃ t sig, exec (.portSignalDetect p lane on) s = .next t ∧ t = { s with ports := t.ports, out := [] } ∧
        t.port? p = some { q with
          signal := sig, signalSince := if sig = 0 then none else some (q.signalSince.getD s.now) } ∧
        sig = (if on then q.signal ||| 2 ^ lane else q.signal &&& (15 - 2 ^ lane)) ∧ ∀ i, i ≠ p → t.port? i = s.port? i) ∧
    (∀ u, q.st = 1 → q.refHeld = false → q.signalSince = some u → q.openLanes = 0 → q.retryAt = none → 0 < lanesOf q.cfg.speed →
      (∀ i, i < lanesOf q.cfg.speed → q.signal.testBit i = true ∧ s.shorted.contains (p + i) = false) →
      ∃ t q', exec (.waitSignalTimeout p) s = .next t ∧ t = { s with
        out := t.out, funcs := t.funcs, faults := t.faults, ports := t.ports, buckets := t.buckets,
        waitQ := t.waitQ } ∧ t.faults = s.faults ∧ t.port? p = some q' ∧
        q'.st = 2 ∧ q'.stSince = s.now ∧ q'.speedRun = q.cfg.speed ∧ q'.active = laneBits q.cfg.speed ∧ q'.cfg = q.cfg ∧
        ∀ i, i ≠ p → t.port? i = s.port? i) ∧
    (∀ inv, q.st = 2 → q.retryAt = none →
      ∃ t q', exec (.trainDone p inv) s = .next t ∧ t = { s with
        out := t.out, funcs := t.funcs, faults := t.faults, ports := t.ports, buckets := t.buckets,
        waitQ := t.waitQ } ∧ t.faults = s.faults ∧ t.port? p = some q' ∧
        q'.st = 3 ∧ q'.stSince = s.now ∧ q'.rxInverted = inv &&& q.active ∧ q'.speedRun = q.speedRun ∧ q'.cfg = q.cfg ∧
        ∀ i, i ≠ p → t.port? i = s.port? i) ∧
    ∀ order skew, q.st = 3 → q.retryAt = none → q.reduced = false → skew ≤ 180000 → s.faults.queue.length < 256 →
      ∃ t q', exec (.alignDone p order skew) s = .next t ∧ t = { s with ports := t.ports, faults := t.faults, out := [] } ∧
        t.port? p = some q' ∧ q'.st = 4 ∧ q'.stSince = s.now ∧ q'.fecLock = true ∧ (∀ i, i ≠ p → t.port? i = s.port? i) ∧
        ∃ r, t.faults.queue = s.faults.queue ++ [r] ∧ r.cls = 0x08 ∧ r.objKind = 4 ∧ r.objId = p) ∧
  (∀ (s : State) (p : Nat) (q : Port), s.port? p = some q →
    (q.st = 2 → q.retryAt = none → q.stSince + 500000000 ≤ s.now →
      ∃ t, exec (.trainTimeout p) s = .next t ∧ t = { s with ports := t.ports, out := [] } ∧
        t.port? p = some { q with retryAt := some (s.now + 100000000) } ∧ ∀ i, i ≠ p → t.port? i = s.port? i) ∧
    (q.st = 3 → q.retryAt = none → q.stSince + 10000000 ≤ s.now →
      ∃ t, exec (.alignTimeout p) s = .next t ∧ t = { s with ports := t.ports, out := [] } ∧
        t.port? p = some { q with retryAt := some (s.now + 100000000) } ∧ ∀ i, i ≠ p → t.port? i = s.port? i) ∧
    (∀ order skew, q.st = 3 → q.retryAt = none → s.portsRun = true → 180000 < skew →
      ∃ t, exec (.alignDone p order skew) s = .next t ∧ t = { s with ports := t.ports, out := [] } ∧
        t.port? p = some { q with retryAt := some (s.now + 100000000) } ∧ ∀ i, i ≠ p → t.port? i = s.port? i) ∧
    (∀ u, q.retryAt = some u → u ≤ s.now → q.st ≠ 4 →
      ∃ t q', exec (.bringupRetryExpiry p) s = .next t ∧ t = { s with
        out := t.out, funcs := t.funcs, faults := t.faults, ports := t.ports, buckets := t.buckets,
        waitQ := t.waitQ } ∧ t.faults = s.faults ∧ t.port? p = some q' ∧
        q'.st = 1 ∧ q'.stSince = s.now ∧ q'.retryAt = none ∧ q'.cfg = q.cfg ∧ ∀ i, i ≠ p → t.port? i = s.port? i) ∧
    (q.st = 4 → s.faults.queue.length < 256 → (∀ w ∈ s.waitQ, w.port ≠ p) → ∃ t q', exec (.linkLoss p []) s = .next t ∧
      t = { s with
        out := t.out, funcs := t.funcs, faults := t.faults, ports := t.ports, buckets := t.buckets,
        waitQ := t.waitQ } ∧ t.port? p = some q' ∧ q'.st = 1 ∧ q'.stSince = s.now ∧ (∀ c,
        q'.txq.getD c [] = []) ∧ q'.cfg = q.cfg ∧
      q'.counters.getD 32 0 = (bump q.counters 32 1).getD 32 0 ∧ (∀ i, i ≠ p → t.port? i = s.port? i) ∧
      ∃ r, t.faults.queue = s.faults.queue ++ [r] ∧ r.cls = 0x09 ∧ r.objKind = 4 ∧ r.objId = p) ∧
    (p < 128 → lanesOf q.cfg.speed = 1 → s.portsRun = true → s.shorted.contains p = false →
      List.find? (fun x : Nat × Port => (portLanes x.1 x.2.cfg.speed).contains p) s.ports = some (p, q) →
      ∃ t q', exec (.laneShorted p) s = .next t ∧ t = { s with
        out := t.out, funcs := t.funcs, faults := t.faults, ports := t.ports, shorted := t.shorted, buckets := t.buckets,
        waitQ := t.waitQ } ∧
        t.shorted = s.shorted ++ [p] ∧ t.port? p = some q' ∧ q'.st = 5 ∧ q'.stSince = s.now ∧ q'.cfg = q.cfg ∧
        ∀ i, i ≠ p → t.port? i = s.port? i))

/-- The MAC receives on a port that is UP: a frame with a wrong FCS or an uncorrected codeword is counted and dropped; a frame
for the packet pipeline that passes the filters joins its queue with its receive stamps where there is room and the mode
carries traffic; where the port obeys pause and its watchdog has room, a pause frame replaces the hold, and one with zero
quanta ends it. -/
def Obligations.MacReceivesFrames : Prop :=
  ∀ (s : State) (p : Nat) (q : Port) (f : Frame) (good bad : Nat) (sym : List Nat), s.port? p = some q → s.portsRun = true →
    q.st = 4 →
    ∃ t q', exec (.frameReceive p f good bad sym) s = .next t ∧ t = { s with
      out := t.out, faults := t.faults, ports := t.ports } ∧
      t.port? p = some q' ∧ q'.cfg = q.cfg ∧ q'.st = 4 ∧ q'.txq = q.txq ∧ (∀ i, i ≠ p → t.port? i = s.port? i) ∧
      (f.fcsOk = false ∨ bad ≠ 0 → q'.counters.getD 2 0 = (bump q.counters 2 1).getD 2 0 ∧ q'.pipeQ = q.pipeQ ∧
        q'.timeQ = q.timeQ ∧ q'.excQ = q.excQ ∧ q'.ctlQ = q.ctlQ ∧ t.faults = s.faults ∧ t.out = []) ∧
      (f.fcsOk = true → bad = 0 → 64 ≤ f.length → f.length ≤ q.cfg.maxFrame → frameCtl f = .none → q.cfg.addrOk f.da = true →
        q.cfg.vlanOk (frameVid (parsedTags f).1) = true →
        q.cfg.steer f (parsedTags f).2 (frameVid (parsedTags f).1) (framePcp (parsedTags f).1 q.cfg.defaultPcp) = 0 →
        s.carries = true → q.fill + f.length ≤ q.pipeCap →
        q'.pipeQ = q.pipeQ ++ [{ frame := f, stamps := s.rxStamps q.speedRun, at_ := s.time.elapsed }] ∧ q'.timeQ = q.timeQ ∧
          q'.excQ = q.excQ ∧ q'.ctlQ = q.ctlQ) ∧
      (∀ quanta, f.fcsOk = true → bad = 0 → 64 ≤ f.length → f.length ≤ q.cfg.maxFrame → frameCtl f = .pause quanta →
        q.cfg.pauseRx = true → (q.watch.getD 8 {}).tripped = false →
        ((q.settle 8 (s.now * 1000)).watch.getD 8 {}).total < 10000 →
        (0 < quanta → q'.pauseHold = some {
          from_ := max (s.now * 1000) q.busyUntil
          until_ := max (s.now * 1000) q.busyUntil + quanta * quantumPs q.speedRun }) ∧
        (quanta = 0 → q'.pauseHold = none) ∧ q'.pipeQ = q.pipeQ ∧ t.faults = s.faults ∧ t.out = [])

/-- Pause: a hold whose time has come, or whose watchdog's window has come to 10 ms, ends; at each 1 ms boundary a watchdog is
tripped exactly while its last 99 intervals add up to 10 ms or more, and then holds nothing; a port that still fills sends its
pause frame again.

A port that is UP with an idle wire and no Annex 31B hold starts the first frame of class `c` when that frame is due and fits
its gate and no class before `c` has a frame that may go: the frame leaves its queue for the wire, which is busy for the
frame's time and then for the gap. -/
def Obligations.MacStartsAndPauses : Prop :=
  (∀ (s : State) (p : Nat) (q : Port), s.port? p = some q →
    (∀ which h, which ≤ 8 → q.hold which = some h → q.watch.length = 9 →
      h.until_ ≤ s.now * 1000 ∨ (q.watch.getD which {}).tripped = false ∧
        10000 ≤ ((q.settle which (s.now * 1000)).watch.getD which {}).total →
      ∃ t q', exec (.pauseHoldExpiry p which) s = .next t ∧ t = { s with out := t.out, faults := t.faults, ports := t.ports }
        ∧ t.port? p = some q' ∧
        q'.hold which = none ∧ q'.cfg = q.cfg ∧ q'.st = q.st ∧ q'.txq = q.txq ∧ ∀ i, i ≠ p → t.port? i = s.port? i) ∧
    (q.watch.length = 9 → q.watchAt < s.now / 1000000 → ∃ t q', exec (.pauseWatchdogInterval p) s = .next t ∧
      t = { s with out := t.out, faults := t.faults, ports := t.ports } ∧ t.port? p = some q' ∧ q'.watchAt = s.now / 1000000 ∧
      (∀ k, k < 9 → (q'.watch.getD k {}).tripped = decide (10000 ≤ (q'.watch.getD k {}).past.sum) ∧
        (q'.watch.getD k {}).past.length ≤ 99 ∧ ((q'.watch.getD k {}).tripped = true → q'.hold k = none)) ∧
      q'.cfg = q.cfg ∧ q'.st = q.st ∧ q'.txq = q.txq ∧ ∀ i, i ≠ p → t.port? i = s.port? i) ∧
    (q.st = 4 → q.sendsPause = true → q.txPaused = true → 3 * q.pipeCap ≤ 4 * q.fill →
      q.lastPauseTx * 1000 + 0xFFFF * quantumPs q.speedRun / 2 ≤ s.now * 1000 →
      ∃ t q', exec (.pauseTxRepeat p) s = .next t ∧ t = { s with out := t.out, ports := t.ports } ∧
        t.out = [.pause p (q.cfg.pfc != 0) q.cfg.pfc 0xFFFF] ∧ t.port? p = some q' ∧ q'.lastPauseTx = s.now ∧
        q'.txPaused = true ∧ q'.pipeQ = q.pipeQ ∧ ∀ i, i ≠ p → t.port? i = s.port? i)) ∧
  (∀ (s : State) (p c : Nat) (q : Port) (f : TxFrame) (rest : List TxFrame), s.port? p = some q →
    s.portsRun = true → q.st = 4 → q.gapUntil ≤ s.now * 1000 → q.heldAt 8 (s.now * 1000) = false →
    q.heldAt (7 - c) (s.now * 1000) = false → c < 8 → q.txq.length = 8 → q.txq.getD c [] = f :: rest →
    (∀ k, k < c → q.txq.getD k [] = [] ∨ q.heldAt (7 - k) (s.now * 1000) = true) → f.length ≤ q.cfg.maxFrame →
    f.due s.launchClock = true → q.cfg.gateTest c (f.wirePs q.speedRun) (s.tb0 / 2 ^ 24) = .start →
    ∃ t q' sent more, exec (.macFrameStart p) s = .next t ∧ t = { s with
      out := t.out, funcs := t.funcs, ports := t.ports, time := t.time, buckets := t.buckets,
      waitQ := t.waitQ } ∧ t.out = .wire p f.frame f.bad :: sent ∧
      (f.stamp = none → sent = [] ∧ t.time = s.time ∧ ∀ i, i ≠ p → t.port? i = s.port? i) ∧
      t.port? p = some q' ∧ (q'.txq.getD c []).map TxFrame.frame = rest.map TxFrame.frame ++ more ∧
      (f.stamp = none → (∀ w ∈ s.waitQ, w.port ≠ p) → more = []) ∧
      q'.busyUntil = s.now * 1000 + (f.length + 8) * bytePs q.speedRun ∧
      q'.gapUntil = q'.busyUntil + 12 * bytePs q.speedRun ∧ q'.cfg = q.cfg ∧ q'.pipeQ = q.pipeQ)

/-! ### Shapers, routes and gains -/

/-- SHAPER_SET gives a bucket its new rate and ceiling and leaves the override of its level; ROUTE_SET leaves the route or
layout asked for as the conference's override, and GAIN_SET the gain that waits for its crossing, due 10 ms after the command
unless one already waits. Each writes its entry and answers with OK.

A write of PROBE_SEL by PF0 makes the probe registers valid at once: ABSENT with every other value zero for a bucket that does
not exist, else the bucket's rate in force, its ceiling, whether its complement failed, its lead and the cells that its copies
hold. A VF's write changes nothing. -/
def Obligations.MixAndShaperCommandsTakeEffect : Prop :=
  ((∀ (s : State) (id level idx : Nat) (c : Taken), s.waits id 0x060 c → shaperMalformed c = false →
    fld (c.w 3) 1 0 = level → fld (c.w 3) 23 4 = idx → s.hasBucket c.fn level idx = true → s.effMode.working = true →
    c.w 5 = ~~~(c.w 4) → (level = 1 → (s.conf idx).fenced = none) → s.bucketExists level idx = true →
    ∃ t, exec (.shaperSet id) s = .next t ∧ t = { s with
      out := t.out, mbx := t.mbx, funcs := t.funcs, welmus := t.welmus, audit := t.audit, confs := t.confs, legs := t.legs,
      buckets := t.buckets } ∧ (t.bucket level idx).rate = c.w 4 ∧
      (t.bucket level idx).rateC = c.w 5 ∧ (t.bucket level idx).ceil = burstOf (s.bucket level idx) (c.w 6).toNat ∧
      (∀ k, k ≠ bucketKey level idx → t.buckets.find? k = s.buckets.find? k) ∧
      (level = 0 → ∃ g, s.legs.find? idx = some g ∧ t.legs.find? idx = some { g with shaperOv := true }) ∧
      (level = 1 → t.conf idx = { s.conf idx with shaperOv := true }) ∧
      (∀ l, level ≠ 0 ∨ l ≠ idx → t.legs.find? l = s.legs.find? l) ∧ (∀ i, level ≠ 1 ∨ i ≠ idx → t.conf i = s.conf i) ∧
      t.welmus.taken = s.welmus.taken.del id ∧ t.audit.next = s.audit.next + 1 ∧
      (t.mb c.fn).evq = (s.mb c.fn).evq ++ reply c rOk s.audit.next []) ∧
  (∀ (s : State) (id conf output ref : Nat) (c : Taken) (p : Plan), s.waits id 0x061 c → s.hasConf c.fn conf = true →
    c.lenIs 7 = true → zeroFrom (c.w 3) 17 = true → fld (c.w 3) 15 0 = conf → zeroFrom (c.w 4) 21 = true →
    fld (c.w 4) 15 0 = output → (c.w 5).toNat = ref → ref < 65536 → c.w 6 = ~~~(c.w 5) → s.effMode.working = true →
    (s.conf conf).fenced = none → (s.conf conf).active = some p →
    (fld (c.w 3) 16 16 = 0 → fld (c.w 4) 20 16 = 0 ∨ 2 ≤ fld (c.w 4) 20 16 ∧ fld (c.w 4) 20 16 ≤ 20 →
      (p.busRec output).isSome = true → (∃ r ∈ p.routes, r.ref = ref ∧ r.bus = output) →
      (∀ b i, (s.conf conf).activeNo = some b → s.busNo conf b output = some i → (s.buses.getD {} i).xfade = none) →
      ∃ t, exec (.routeSetAudio id) s = .next t ∧ t = { s with
        out := t.out, mbx := t.mbx, funcs := t.funcs, welmus := t.welmus, audit := t.audit, confs := t.confs,
        buses := t.buses } ∧
        t.conf conf = { s.conf conf with routeOv := (s.conf conf).routeOv.put output ref } ∧ (∀ i, i ≠ conf → t.conf i =
          s.conf i) ∧
        (∀ b i, (s.conf conf).activeNo = some b → s.busNo conf b output = some i →
          (∀ n, n ≠ i → t.buses.find? n = s.buses.find? n) ∧
          ((p.busRec output).bind (fun r => s.routeInForce p r)).map Resolved.ref ≠ some ref →
            (t.buses.getD {} i).asked =
              some (if fld (c.w 4) 20 16 = 0 then 5 else fld (c.w 4) 20 16, s.launchNs, false)) ∧
        t.welmus.taken = s.welmus.taken.del id ∧ t.audit.next = s.audit.next + 1 ∧
        (t.mb c.fn).evq = (s.mb c.fn).evq ++ reply c rOk s.audit.next []) ∧
    (fld (c.w 3) 16 16 = 1 → (p.outputRec output).isSome = true → (∃ r ∈ p.layoutSels, r.ref = ref ∧ r.output = output) →
      ∃ t, exec (.routeSetLayout id) s = .next t ∧ t = { s with
        out := t.out, mbx := t.mbx, funcs := t.funcs, welmus := t.welmus, audit := t.audit, confs := t.confs } ∧
        t.conf conf = { s.conf conf with layoutOv := (s.conf conf).layoutOv.put output ref } ∧
        (∀ i, i ≠ conf → t.conf i = s.conf i) ∧
        t.welmus.taken = s.welmus.taken.del id ∧ t.audit.next = s.audit.next + 1 ∧
        (t.mb c.fn).evq = (s.mb c.fn).evq ++ reply c rOk s.audit.next [])) ∧
  ∀ (s : State) (id conf bus col : Nat) (c : Taken) (p : Plan) (b : BusRec), s.waits id 0x062 c → s.hasConf c.fn conf = true →
    c.lenIs 8 = true → (c.w 3).toNat = conf → conf < 65536 → (c.w 4).toNat = bus → bus < 65536 → (c.w 5).toNat = col →
    col < 65536 → c.w 7 = ~~~(c.w 6) → s.effMode.working = true → (s.conf conf).fenced = none → (s.conf conf).active = some p →
    p.busRec bus = some b → col < b.columns.length →
    ∃ t v, exec (.gainSet id) s = .next t ∧ t = { s with
      out := t.out, mbx := t.mbx, funcs := t.funcs, welmus := t.welmus, audit := t.audit, confs := t.confs } ∧
      t.conf conf = { s.conf conf with gainPend := (s.conf conf).gainPend.put (bus * 65536 + col) (c.w 6, v) } ∧
      ((s.conf conf).gainPend.find? (bus * 65536 + col) = none → v = (s.launchNs + 10000000, s.launchNs)) ∧
      (∀ w, (s.conf conf).gainPend.find? (bus * 65536 + col) = some w → v = w.2) ∧ (∀ i, i ≠ conf → t.conf i = s.conf i) ∧
      t.welmus.taken = s.welmus.taken.del id ∧ t.audit.next = s.audit.next + 1 ∧
      (t.mb c.fn).evq = (s.mb c.fn).evq ++ reply c rOk s.audit.next []) ∧
  (∀ (s : State) (v : Word), s.hostUp = true →
    let level := fld v 1 0
    let idx := fld v 23 4
    (∃ t, exec (.probeSelWrite 0 v) s = .next t ∧ t = { s with probe := t.probe, out := [] } ∧
      t.probe.sel = v &&& 0x00FFFFF3 ∧ t.probe.valid = true ∧ t.probe.absent = !s.bucketExists level idx ∧
      (s.bucketExists level idx = false → t.probe = { sel := v &&& 0x00FFFFF3, valid := true, absent := true }) ∧
      (s.bucketExists level idx = true → t.probe.ceiling = w32 (s.bucket level idx).ceil ∧
        t.probe.rate = (if (s.bucket level idx).limits then w32 (s.rateOf level idx) else 0) ∧
        t.probe.lead = (if (s.bucket level idx).rate = 0 then 0 else leadWord ((s.bucket level idx).vt - s.launchClock)) ∧
        t.probe.compFault = !pairOk (s.bucket level idx).rate (s.bucket level idx).rateC ∧
        t.probe.depth = w32 (s.cellsOf (probeSelects level idx)))) ∧
    ∀ fn, fn ≠ 0 → exec (.probeSelWrite fn v) s = .next { s with out := [] })

/-! ### HBM -/

/-- The HBM controllers: a whole-line write waits in its queue with its line, and a partial one with its bytes merged over the
newest queued line; a read finds the newest queued write of its line, else the line in the stack, and an undisturbed read
changes no line; a read of a held pseudo-channel waits in its queue; a pseudo-channel retired in service answers with poison.
-/
def Obligations.HbmReadsReturnWhatWasWritten : Prop :=
  ∀ (s : State) (n addr cls : Nat), s.portsRun = true → n < 192 → addr / 64 < pchLines → cls ≤ 9 →
    (∀ data poison flips, (s.pch n).st = 0 → (s.pch n).writes.length < 64 →
      s.pchHeld n = true ∨ (s.pch n).writes.length < 47 ∧ (∀ w ∈ (s.pch n).writes, w.merge = none) →
      ∃ t, exec (.hbmWrite n addr cls (2 ^ 64 - 1) data poison flips) s = .next t ∧ t = { s with pchs := t.pchs, out := [] } ∧
        t.pch n = { s.pch n with writes := (s.pch n).writes ++
          [{ line := addr / 64, value := { data := data % 2 ^ 512, poison := poison, cls := cls }, at_ := s.now }] } ∧
        (t.pch n).queued (addr / 64) = some { data := data % 2 ^ 512, poison := poison, cls := cls } ∧
        ∀ i, i ≠ n → t.pch i = s.pch i) ∧
    (∀ mask data poison flips l, (s.pch n).st = 0 → mask % 2 ^ 64 ≠ 2 ^ 64 - 1 → s.pchHeld n = false →
      (s.pch n).writes.length < 47 → (∀ w ∈ (s.pch n).writes, w.merge = none) → (s.pch n).queued (addr / 64) = some l →
      ∃ t, exec (.hbmWrite n addr cls mask data poison flips) s = .next t ∧ t = { s with pchs := t.pchs, out := [] } ∧
        (t.pch n).writes = (s.pch n).writes ++ [{
          line := addr / 64, at_ := s.now
          value := { data := mergeBytes l.data data (mask % 2 ^ 64), poison := poison || l.poison, cls := cls } }] ∧
        (t.pch n).lines = (s.pch n).lines ∧ ∀ i, i ≠ n → t.pch i = s.pch i) ∧
    ∀ (port : RtPort) (hostDma : Bool) (flips : List Nat),
      ((s.pch n).st ≠ 1 → s.pchHeld n = true → (s.pch n).reads.length < 64 →
        ∃ t, exec (.hbmRead n addr cls port hostDma flips) s = .next t ∧
          t = { s with pchs := t.pchs, panic := s.panic.watch port, out := [] } ∧
          (t.pch n).reads = (s.pch n).reads ++ [{
            line := addr / 64, cls := if hostDma then 8 else cls, panic := (s.panic.watch port).of port, flips := flips
            at_ := s.now }] ∧
          (t.pch n).lines = (s.pch n).lines ∧ (t.pch n).writes = (s.pch n).writes ∧ ∀ i, i ≠ n → t.pch i = s.pch i) ∧
      (s.pchHeld n = false → (s.pch n).reads = [] → (∀ w ∈ (s.pch n).writes, w.merge = none) →
        (∀ l, (s.pch n).st = 0 → (s.pch n).queued (addr / 64) = some l → l.poison = false →
          ∃ t, exec (.hbmRead n addr cls port hostDma flips) s = .next t ∧
            t = { s with pchs := t.pchs, panic := s.panic.watch port, out := [.line l.data false] } ∧
            (t.pch n).lines = (s.pch n).lines ∧ (t.pch n).writes = (s.pch n).writes ∧ ∀ i, i ≠ n → t.pch i = s.pch i) ∧
        ((s.pch n).st = 0 → (s.pch n).queued (addr / 64) = none → flips = [] →
          ((s.pch n).lines.getD {} (addr / 64)).poison = false →
          ∃ t, exec (.hbmRead n addr cls port hostDma flips) s = .next t ∧ t = { s with
            pchs := t.pchs, panic := s.panic.watch port, out := [.line ((s.pch n).lines.getD {} (addr / 64)).data false] } ∧
            (t.pch n).lines = (s.pch n).lines ∧ (t.pch n).writes = (s.pch n).writes ∧ ∀ i, i ≠ n → t.pch i = s.pch i) ∧
        ((s.pch n).st = 2 → ∃ t, exec (.hbmRead n addr cls port hostDma flips) s = .next t ∧
          t = { s with
            out := t.out, fresh := t.fresh, modes := t.modes, mbx := t.mbx, funcs := t.funcs, audit := t.audit,
            faults := t.faults, confs := t.confs, legs := t.legs, egressQ := t.egressQ, pchs := t.pchs, panic := t.panic,
            sched := t.sched, sess := t.sess,
            outs := t.outs } ∧ Out.line (Config.retiredLine n (addr / 64)) true ∈ t.out ∧ (t.pch n).st = 2))

/-- The patrol reads one row of 16 lines and goes on to the next; without errors it changes no line. A refresh may be
postponed up to eight, or pulled in up to eight, and an issued one closes its bank's row. The sensor reading, the clearing of
a vault's activate table and the reseeding of the generators of the common pseudo-channels reach exactly what they name. -/
def Obligations.HbmUpkeepKeepsTheLines : Prop :=
  (∀ (s : State) (n : Nat), s.portsRun = true → s.pchIn n = true → s.pchHeld n = false → (s.pch n).counters.length = 18 →
    ∃ t, exec (.patrolScrubRow n []) s = .next t ∧ t = { s with pchs := t.pchs, out := [] } ∧
      (t.pch n).patrol = ((s.pch n).patrol + 1) % 786432 ∧ (t.pch n).lines = (s.pch n).lines ∧
      (t.pch n).writes = (s.pch n).writes ∧
      (t.pch n).counters.getD 8 0 = min ((s.pch n).counters.getD 8 0 + 16) (2 ^ 64 - 1) ∧ ∀ i, i ≠ n → t.pch i = s.pch i) ∧
  (∀ (s : State) (n bank : Nat), s.effMode.status = true → s.effMode ≠ .retain → s.pchIn n = true → bank < 48 →
    (∀ pullIn, (s.pch n).credit.getD 0 bank < 8 → ∃ t, exec (.refreshDue n bank true pullIn) s = .next t ∧
      t = { s with pchs := t.pchs, out := [] } ∧ (t.pch n).credit.getD 0 bank = (s.pch n).credit.getD 0 bank + 1 ∧
      (t.pch n).rows = (s.pch n).rows ∧ (t.pch n).lines = (s.pch n).lines ∧ ∀ i, i ≠ n → t.pch i = s.pch i) ∧
    (∀ pullIn, 0 < (s.pch n).credit.getD 0 bank ∨ pullIn = true ∧ -8 < (s.pch n).credit.getD 0 bank →
      ∃ t, exec (.refreshDue n bank false pullIn) s = .next t ∧
      t = { s with pchs := t.pchs, out := [] } ∧ (t.pch n).credit.getD 0 bank = (s.pch n).credit.getD 0 bank - 1 ∧
      (t.pch n).rows.find? bank = none ∧ (t.pch n).lines = (s.pch n).lines ∧ ∀ i, i ≠ n → t.pch i = s.pch i)) ∧
  (∀ (s : State) (k : Nat) (e : Int), k < 6 → s.modes.mode.status = true → ∃ t, exec (.hbmSensorRead k e) s = .next t ∧
    t = { s with towers := t.towers, out := [] } ∧ t.stack k = { s.stack k with eighths := e } ∧
    ∀ i, i ≠ k → t.stack i = s.stack i) ∧
  (∀ (s : State) (n : Nat), n < 192 → isVault n = true → ∃ t, exec (.activateTableClear n) s = .next t ∧
    t = { s with pchs := t.pchs, out := [] } ∧ t.pch n = { s.pch n with table := [] } ∧ ∀ i, i ≠ n → t.pch i = s.pch i) ∧
  ∀ (s : State) (ws : List Word), ∃ t, exec (.neighbourRngReseed ws) s = .next t ∧ t = { s with pchs := t.pchs, out := [] } ∧
    ∀ n, (n < 192 → isVault n = false → n < ws.length → t.pch n = { s.pch n with rng := ws.getD n 0 }) ∧
      (192 ≤ n ∨ isVault n = true ∨ ws.length ≤ n → t.pch n = s.pch n)

/-- A training burst starts where none runs on its stack and no set-point change waits; its end keeps the value of each pause
that passed and clears that run of failures, counts a failure, and retires the pseudo-channel at the third in a row. A
set-point change starts once no burst runs, ends every MEM_RETRAIN, and when done puts the requested set point in force.

MEM_RETRAIN commits with its entry and starts at once where nothing holds its stack; one that ends replaces the values where
the margins passed and completes with OK, and one whose first pause has not started within 100 ms completes with DEFERRED. -/
def Obligations.TrainingRunsToItsEnd : Prop :=
  ((∀ (s : State) (k ch : Nat) (r : BurstResult), s.portsRun = true → k < 6 → ch < 16 → (s.stack k).burst = none →
    (s.stack k).burstDue ch s.now = true → s.changeWaits = false → s.hbm.changing = none →
    ∃ t, exec (.trainingBurst k ch r) s = .next t ∧ t = { s with pchs := t.pchs, towers := t.towers, out := [] } ∧
      (t.stack k).burst = some { channel := ch, since := s.now, setPoint := s.hbm.setPoint, result := r } ∧
      (t.stack k).retrain = (s.stack k).retrain ∧ ∀ i, i ≠ k → t.stack i = s.stack i) ∧
  (∀ (s : State) (k : Nat) (b : Burst), (s.stack k).burst = some b →
    ∃ t, exec (.trainingBurstEnd k) s = .next t ∧ t = { s with
      out := t.out, modes := t.modes, mbx := t.mbx, funcs := t.funcs, audit := t.audit, faults := t.faults, avail := t.avail,
      legs := t.legs, pchs := t.pchs, towers := t.towers } ∧ (t.stack k).burst = none ∧
      ∀ h, h < 2 → (s.pch (32 * k + 2 * b.channel + h)).st = 0 →
        let n := 32 * k + 2 * b.channel + h
        let ok := if h = 0 then b.result.ok0 else b.result.ok1
        (ok = true → (t.pch n).st = 0 ∧ (t.pch n).failRun = 0 ∧ (t.pch n).lines = (s.pch n).lines ∧
          (t.pch n).trained = (s.pch n).trained.set b.setPoint (if h = 0 then b.result.values0 else b.result.values1)) ∧
        (ok = false → (t.pch n).trained = (s.pch n).trained ∧
          ((s.pch n).failRun < 2 → (t.pch n).st = 0 ∧ (t.pch n).failRun = (s.pch n).failRun + 1) ∧
          (2 ≤ (s.pch n).failRun → (t.pch n).st = 2 ∧ (t.pch n).writes = [] ∧ t.avail.down.has (instId 6 n) = true))) ∧
  (∀ s : State, s.portsRun = true → s.changeWaits = true → (∀ p ∈ s.towers, p.2.burst = none) →
    ∃ t, exec .setPointChange s = .next t ∧ t = { s with
      out := t.out, mbx := t.mbx, funcs := t.funcs, welmus := t.welmus, audit := t.audit, towers := t.towers,
      hbm := t.hbm } ∧ t.hbm = { s.hbm with changing := some (s.hbm.request, s.now) } ∧
      ∀ k, k < 6 → (t.stack k).retrain = none) ∧
  ∀ (s : State) (sp since : Nat), s.hbm.changing = some (sp, since) → ∃ t, exec .setPointChangeDone s = .next t ∧
    t = { s with hbm := { s.hbm with setPoint := sp, changing := none }, out := [] }) ∧
  ((∀ (s : State) (id : Nat) (c : Taken), s.waits id 0x081 c → c.fn = 0 → c.lenIs 4 = true → zeroFrom (c.w 3) 16 = true →
    zeroIn (c.w 3) 7 1 = true → s.effMode.working = true → s.modes.mode ≠ .throttle →
    (s.stack (retrainStack c)).retrain = none → s.hbm.changing = none → s.changeWaits = false →
    (s.stack (retrainStack c)).burst = none →
    (retrainWhole c = false → retrainIndex c < 192 → ∃ t, exec (.memRetrainPch id) s = .next t ∧ t = { s with
      out := t.out, mbx := t.mbx, funcs := t.funcs, welmus := t.welmus, audit := t.audit, towers := t.towers } ∧
      t.mbx = s.mbx ∧ t.audit.next = s.audit.next + 1 ∧ t.welmus.taken.find? id = some { c with committed := true } ∧
      (t.stack (retrainStack c)).retrain =
        some { cmd := id, whole := false, index := retrainIndex c, since := s.now, started := some s.now } ∧
      ∀ k, k ≠ retrainStack c → t.stack k = s.stack k) ∧
    (retrainWhole c = true → retrainIndex c < 6 → s.modes.mode = .maintenance → ∃ t, exec (.memRetrainStack id) s = .next t ∧
      t = { s with out := t.out, mbx := t.mbx, funcs := t.funcs, welmus := t.welmus, audit := t.audit, towers := t.towers } ∧
        t.mbx = s.mbx ∧ t.audit.next = s.audit.next + 1 ∧
      t.welmus.taken.find? id = some { c with committed := true } ∧
      (t.stack (retrainStack c)).retrain =
        some { cmd := id, whole := true, index := retrainIndex c, since := s.now, started := some s.now } ∧
      ∀ k, k ≠ retrainStack c → t.stack k = s.stack k)) ∧
  ∀ (s : State) (id k : Nat) (c : Taken) (r : Retrain), s.runs id 0x081 c → s.retrainOf id = some (k, r) →
    (∀ u pass values, r.started = some u →
      ∃ t, exec (.memRetrainDone id pass values) s = .next t ∧ t = { s with
        out := t.out, mbx := t.mbx, funcs := t.funcs, welmus := t.welmus, audit := t.audit, pchs := t.pchs,
        towers := t.towers } ∧ (t.stack k).retrain = none ∧
        (∀ n, pass = false → (t.pch n).trained = (s.pch n).trained) ∧
        (pass = true → r.whole = false →
          (t.pch r.index).trained = (s.pch r.index).trained.set s.hbm.setPoint (values.getD 0 0) ∧
          ∀ n, n ≠ r.index → (t.pch n).trained = (s.pch n).trained) ∧
        (pass = true → r.whole = true → ∀ i, i < 32 → (t.pch (32 * k + i)).trained =
          [values.getD (3 * i) 0, values.getD (3 * i + 1) 0, values.getD (3 * i + 2) 0]) ∧
        t.welmus.taken = s.welmus.taken.del id ∧ t.audit.next = s.audit.next + 1 ∧
        (t.mb c.fn).evq = (s.mb c.fn).evq ++ reply c rOk s.audit.next []) ∧
    (r.started = none → r.since + 100000000 ≤ s.now →
      ∃ t, exec (.memRetrainStartTimeout id) s = .next t ∧ t = { s with
        out := t.out, mbx := t.mbx, funcs := t.funcs, welmus := t.welmus, audit := t.audit,
        towers := t.towers } ∧ (t.stack k).retrain = none ∧
        t.pchs = s.pchs ∧ t.welmus.taken = s.welmus.taken.del id ∧ t.audit.next = s.audit.next + 1 ∧
        (t.mb c.fn).evq = (s.mb c.fn).evq ++ reply c rDeferred s.audit.next []))

/-! ### Self-test -/

/-- SELFTEST commits with its entry and lends what it names: an instance of SCOPE 1 to 5, which is tested at once where it is
idle or unavailable, a lane with signal for the eye scan, or in MAINTENANCE the whole device.

A test that ends in time: an instance that passes answers PASS 1 and returns to service where it was unavailable; one that
fails answers PASS 0 with its DETAIL, has its record and is unavailable; an eye scan answers with its heights and widths and
leaves every instance as it was; the test of the whole device answers PASS where nothing failed, takes what failed out of
service and returns what passed. A drain that has not ended in 100 ms returns the instance with DEFERRED; an engine or a
cipher core whose test has not ended in twice its time is fenced.

Ten milliseconds after its fence an instance that passes its test returns to service, unless it was fenced three times within
24 hours; one that fails stays unavailable with a SELFTEST_FAIL record. -/
def Obligations.SelftestRunsToItsEnd : Prop :=
  (∀ (s : State) (id : Nat) (c : Taken), s.waits id 0x080 c → c.fn = 0 → c.lenIs 4 = true → zeroFrom (c.w 3) 16 = true →
    zeroIn (c.w 3) 7 4 = true → testInst c < scopeCount (testScope c) → s.effMode.working = true →
    s.modes.mode ≠ .throttle →
    (1 ≤ testScope c → testScope c ≤ 5 → s.kindLent (scopeKind (testScope c)) = false →
      s.avail.down.has (instId (scopeKind (testScope c)) (testInst c)) = true ∨ s.mayLend (testScope c) (testInst c) = true →
      ∃ t, exec (.selftestInstance id) s = .next t ∧ t = { s with
        out := t.out, mbx := t.mbx, funcs := t.funcs, welmus := t.welmus, audit := t.audit, avail := t.avail } ∧
        t.mbx = s.mbx ∧ t.audit.next = s.audit.next + 1 ∧ t.welmus.taken.find? id = some { c with committed := true } ∧
        let key := instId (scopeKind (testScope c)) (testInst c)
        let now := if s.avail.down.has key || s.idleInst (testScope c) (testInst c) then some s.now else none
        let x : Lent := { cmd := id, since := s.now, testNs := scopeNs (testScope c), started := now }
        t.avail = { s.avail with lent := s.avail.lent.put key x }) ∧
    (testScope c = 6 → s.kindLent 7 = false →
      s.avail.down.has (instId 7 (testInst c)) = true ∨ s.laneSignal (testInst c) = true →
      ∃ t, exec (.selftestEyeScan id) s = .next t ∧ t = { s with
        out := t.out, mbx := t.mbx, funcs := t.funcs, welmus := t.welmus, audit := t.audit, avail := t.avail } ∧ t.mbx = s.mbx ∧
        t.audit.next = s.audit.next + 1 ∧ t.welmus.taken.find? id = some { c with committed := true } ∧
        let x : Lent := { cmd := id, since := s.now, testNs := 50000000, started := some s.now }
        t.avail = { s.avail with lent := s.avail.lent.put (instId 7 (testInst c)) x }) ∧
    (testScope c = 0 → s.modes.mode = .maintenance → s.avail.lent = [] →
      ∃ t, exec (.selftestDevice id) s = .next t ∧ t = { s with
        out := t.out, mbx := t.mbx, funcs := t.funcs, welmus := t.welmus, audit := t.audit, avail := t.avail } ∧ t.mbx = s.mbx ∧
        t.audit.next = s.audit.next + 1 ∧ t.welmus.taken.find? id = some { c with committed := true } ∧
        let x : Lent := { cmd := id, since := s.now, testNs := 3000000000, started := some s.now }
        t.avail = { s.avail with lent := [(wholeTest, x)] })) ∧
  (∀ (s : State) (id key : Nat) (c : Taken) (x : Lent), s.runs id 0x080 c → s.lentBy id = some (key, x) →
    (∀ u r eye fails, x.started = some u → s.now ≤ u + 2 * x.testNs →
      ∃ t seq pre, exec (.selftestDone id r eye fails) s = .next t ∧ t = { s with
        out := t.out, modes := t.modes, mbx := t.mbx, funcs := t.funcs, welmus := t.welmus, audit := t.audit,
        faults := t.faults, avail := t.avail, confs := t.confs, cores := t.cores, sched := t.sched, sess := t.sess,
        outs := t.outs, dsps := t.dsps } ∧
        t.avail.lent.find? key = none ∧ t.welmus.taken = s.welmus.taken.del id ∧
        (key ≠ wholeTest → key / 65536 ≠ 7 → r.pass = true → t.avail.down.find? key = none ∧
          (∀ k, k ≠ key → t.avail.down.find? k = s.avail.down.find? k) ∧
          (s.avail.down.has key = false → t.faults = s.faults ∧ t.avail.down = s.avail.down ∧ pre = [] ∧ seq = s.audit.next) ∧
          (t.mb c.fn).evq = (s.mb c.fn).evq ++ pre ++ reply c rOk seq [1]) ∧
        (key ≠ wholeTest → key / 65536 ≠ 7 → r.pass = false → t.avail.down.has key = true ∧
          (∀ k, k ≠ key → t.avail.down.find? k = s.avail.down.find? k) ∧
          (t.mb c.fn).evq = (s.mb c.fn).evq ++ pre ++ reply c rOk seq [w32 (256 * (r.detail % 256))] ∧
          (s.faults.queue.length < 256 →
            ∃ q, t.faults.queue = s.faults.queue ++ [q] ∧ q.cls = 0x2B ∧ q.objKind = 7 ∧ q.objId = key)) ∧
        (key ≠ wholeTest → key / 65536 = 7 → t.avail.down = s.avail.down ∧ (t.mb c.fn).evq = (s.mb c.fn).evq ++
          reply c rOk s.audit.next (w32 (b2n (decide (eyeDetail eye = 0)) + 256 * eyeDetail eye) :: eyeWords eye)) ∧
        (key = wholeTest → ∃ n, (t.mb c.fn).evq = (s.mb c.fn).evq ++ pre ++
            reply c rOk seq [w32 (b2n (decide (n = 0)) + 256 * min n 255)] ∧
          (n = 0 ↔ ∀ f ∈ fails, testable f.1 = false) ∧
          (∀ f ∈ fails, testable f.1 = true → f.1 / 65536 ≠ 7 → t.avail.down.has f.1 = true) ∧
          ∀ k, testable k = true → k / 65536 ≠ 7 → (∀ f ∈ fails, f.1 ≠ k) → t.avail.down.find? k = none)) ∧
    (x.started = none → x.since + 100000000 ≤ s.now →
      ∃ t, exec (.drainTimeout id) s = .next t ∧ t = { s with
        out := t.out, mbx := t.mbx, funcs := t.funcs, welmus := t.welmus, audit := t.audit, avail := t.avail } ∧
        t.avail = { s.avail with lent := s.avail.lent.del key } ∧ t.welmus.taken = s.welmus.taken.del id ∧
        (t.mb c.fn).evq = (s.mb c.fn).evq ++ reply c rDeferred s.audit.next []) ∧
    ∀ u, x.started = some u → u + 2 * x.testNs < s.now → key ≠ wholeTest → key / 65536 ≠ 7 →
      ∃ t, exec (.selftestTimeout id) s = .next t ∧ t = { s with
        out := t.out, modes := t.modes, mbx := t.mbx, funcs := t.funcs, welmus := t.welmus, audit := t.audit,
        faults := t.faults, avail := t.avail, confs := t.confs, cores := t.cores, sched := t.sched, sess := t.sess,
        outs := t.outs, dsps := t.dsps } ∧
        t.avail.down.has (instId (key / 65536) (key % 65536)) = true ∧
        (key / 65536 = 5 → t.avail.lent.find? key = none ∧ (t.core (key % 65536)).jobs = [] ∧
          ∃ seq pre, (t.mb c.fn).evq = (s.mb c.fn).evq ++ pre ++ reply c rOk seq [w32 768])) ∧
  (∀ (s : State) (kind i : Nat) (f : Fence) (r : TestResult), s.avail.down.find? (instId kind i) = some f → f.held = true →
    s.avail.lent.has (instId kind i) = false → f.since + 10000000 ≤ s.now → kind ≤ 5 → s.faults.queue.length < 256 →
    (r.pass = true → s.recentFences (instId kind i) < 3 → ∃ t, exec (.fencedInstanceRelease kind i r) s = .next t ∧
      t = { s with out := t.out, modes := t.modes, funcs := t.funcs, audit := t.audit, faults := t.faults, avail := t.avail }
        ∧ t.avail.down.find? (instId kind i) = none ∧
      (∀ k, k ≠ instId kind i → t.avail.down.find? k = s.avail.down.find? k) ∧
      ∃ q, t.faults.queue = s.faults.queue ++ [q] ∧ q.cls = 0x2C ∧ q.objId = instId kind i) ∧
    (r.pass = true → 3 ≤ s.recentFences (instId kind i) → ∃ t, exec (.fencedInstanceRelease kind i r) s = .next t ∧
      t = { s with avail := t.avail, out := [] } ∧
      t.avail = { s.avail with down := s.avail.down.put (instId kind i) { f with held := false } }) ∧
    (r.pass = false → ∃ t, exec (.fencedInstanceRelease kind i r) s = .next t ∧
      t = { s with avail := t.avail, faults := t.faults, out := [] } ∧
      t.avail = { s.avail with down := s.avail.down.put (instId kind i) { f with held := false } } ∧
      ∃ q, t.faults.queue = s.faults.queue ++ [q] ∧ q.cls = 0x2B ∧ q.objId = instId kind i))

/-! ### The leg pipeline -/

/-- An ingress pipeline takes one whole frame in turn order. A frame with a bad IP header goes to its port's exception queue
with its reason; a bad UDP length or checksum counts at its leg; a STUN packet goes to Welmus; RTP or RTCP of a leg that is no
trunk, or a datagram of a trunk, goes to the cipher array under the ACTIVE bank. A malformed payload is counted and dropped,
as is a packet of a leg that is fenced or not bound; one with no leg goes to the exception queue with reason 1, DTLS with 8,
any other payload with 9.

Welmus answers a STUN request in class 0 on the port of arrival from the template of the lowest leg that has one, and each leg
of its addresses that is no trunk has consent from then on; where no leg has a template the packet goes to the host with
reason 7. A reply waits where its queue has no room; its length is open (log entry 7). A leg without an answered request for
30 s loses its consent.

A record of a locally originated source enters its pipeline where no network frame is ready, and an audio record reaches the
replicator as its source's; records that have waited 20 ms since their task's completion are discarded together, with one
record. -/
def Obligations.IngressFindsTheLeg : Prop :=
  (∀ (s : State) (p l port : Nat) (q : Port) (r : RxFrame) (rest : List RxFrame), s.moves = true → s.nextTurn p = some (l,
    port) →
    s.port? port = some q → q.pipeQ = r :: rest →
    ∃ t q', exec (.ingressTakeFrame p) s = .next t ∧ t = { s with
      out := t.out, ports := t.ports, turns := t.turns, legs := t.legs, rxJobs := t.rxJobs, stunQ := t.stunQ,
      lookNo := t.lookNo } ∧ t.turns.getD 15 p = l ∧
      t.port? port = some q' ∧ q'.pipeQ = rest ∧ q'.cfg = q.cfg ∧ q'.st = q.st ∧ (∀ i, i ≠ port → t.port? i = s.port? i) ∧
      let except (reason : Nat) (leg : Option Nat) : Prop :=
        t.legs = s.legs ∧ t.rxJobs = s.rxJobs ∧ t.stunQ = s.stunQ ∧
        ((q.excQ.map fun x => x.frame.length).sum + r.frame.length ≤ 65536 → q'.excQ = q.excQ ++ [{
          frame := r.frame, reason := reason, leg := leg, conf := (leg.bind s.legs.find?).map Leg.conf
          stamp := r.stamps.headD 0 }])
      let drops (leg i : Nat) (g : Leg) : Prop :=
        t.legs.find? leg = some { g with counters := bump g.counters i 1 } ∧ t.rxJobs = s.rxJobs ∧ t.stunQ = s.stunQ ∧
          q'.excQ = q.excQ
      (∀ reason, ipReason r.frame = some reason → except reason none) ∧
      ∀ ip u, ipReason r.frame = none → r.frame.ip = some ip → r.frame.udp = some u →
        let stun := decide (r.frame.firstByte ≤ 3)
        let vid := frameVid (parsedTags r.frame).1
        let found := if stun then (s.tupleLegs ip u vid).head? else s.lookup ip u (lookupSsrc r.frame) vid
        (u.lenOk = false ∨ u.csumOk = false → (found = none → except 6 none) ∧
          ∀ leg g, found = some leg → s.legs.find? leg = some g → drops leg 8 g) ∧
        (u.lenOk = true → u.csumOk = true →
          (stun = true → t.rxJobs = s.rxJobs ∧ t.legs = s.legs ∧ q'.excQ = q.excQ ∧
            ∃ x, t.stunQ = s.stunQ ++ [x] ∧ x.frame = r.frame ∧ x.port = port) ∧
          (20 ≤ r.frame.firstByte → r.frame.firstByte ≤ 63 → except 8 found) ∧
          (stun = false → ¬ (20 ≤ r.frame.firstByte ∧ r.frame.firstByte ≤ 63) → found = none → except 1 none) ∧
          ∀ leg g, stun = false → ¬ (20 ≤ r.frame.firstByte ∧ r.frame.firstByte ≤ 63) → found = some leg →
            s.legs.find? leg = some g →
            let its := (128 ≤ r.frame.firstByte ∧ r.frame.firstByte ≤ 191 ∧ g.kind ≤ 1) ∨
              (r.frame.firstByte = 0x5A ∧ g.kind = 2)
            (¬ its → except 9 (some leg)) ∧
            (its → g.fenced = true → drops leg 6 g) ∧
            (its → g.fenced = false → g.slot = none ∨ (s.conf g.conf).activeNo = none → drops leg 5 g) ∧
            ∀ k b, its → g.fenced = false → g.slot = some k → (s.conf g.conf).activeNo = some b →
              let app? := legPayload r.frame ((s.planD g.conf b).classOf k)
                ((((s.planD g.conf b).rosterSlot k).map sourceRun).getD 0)
              (app? = none → drops leg 8 g) ∧
              ∀ app, app? = some app → t.legs = s.legs ∧ t.lookNo = s.lookNo + 1 ∧ q'.excQ = q.excQ ∧ t.stunQ = s.stunQ ∧
                t.rxJobs.getD [] (port / 16) = s.rxJobs.getD [] (port / 16) ++
                  [.rx leg g.serial g.conf b k port r.frame app (r.stamps.headD 0) g.rxGen s.lookNo])) ∧
  ((∀ (s : State) (r : Stun) (rest : List Stun) (ip : IpHdr) (u : UdpHdr) (l : Nat) (g : Leg) (q : Port)
    (a : Nat × Nat) (more : List (Nat × Nat)), s.stunQ = r :: rest → s.welmusRuns = true → r.frame.ip = some ip →
    r.frame.udp = some u → r.request = true →
    let ls := s.tupleLegs ip u (frameVid (parsedTags r.frame).1)
    List.find? (fun k => (s.legs.getD {} k).stun) ls = some l →
    s.legs.find? l = some g → s.port? r.port = some q → q.cfg.addrs = a :: more → q.txq.length = 8 →
    ∃ t, exec .stunRequest s = .next t ∧ t = { s with
      out := t.out, mbx := t.mbx, funcs := t.funcs, ports := t.ports, legs := t.legs, stunQ := t.stunQ, buckets := t.buckets,
      lookNo := t.lookNo, waitQ := t.waitQ } ∧ t.stunQ = rest ∧
      (q.txRoom 0 (stunReply g r.frame a.1).length = true → (∀ w ∈ s.waitQ, w.port ≠ r.port) → t.waitQ = s.waitQ ∧
        ∃ q', t.port? r.port = some q' ∧
          (q'.txq.getD 0 []).map TxFrame.frame =
            (q.txq.getD 0 []).map TxFrame.frame ++ [(stunReply g r.frame a.1).frame] ∧
          ∀ i, i ≠ r.port → t.port? i = s.port? i) ∧
      (q.txRoom 0 (stunReply g r.frame a.1).length = false → (∀ w ∈ s.waitQ, w.port ≠ r.port) → t.ports = s.ports ∧
        t.waitQ = s.waitQ ++ [{ port := r.port, tx := stunReply g r.frame a.1 }]) ∧
      (∀ k h, k ∈ ls → s.legs.find? k = some h → h.kind ≠ 2 → ∃ n,
        t.legs.find? k = some { h with consent := some s.now, consentLost := false, resume := n } ∧
        (h.consentLost = false → n = h.resume) ∧ (h.consentLost = true → s.lookNo < n)) ∧
      (∀ k h, k ∈ ls → s.legs.find? k = some h → h.kind = 2 → t.legs.find? k = some h) ∧
      ∀ k, k ∉ ls → t.legs.find? k = s.legs.find? k) ∧
  (∀ (s : State) (r : Stun) (rest : List Stun) (ip : IpHdr) (u : UdpHdr) (q : Port),
    s.stunQ = r :: rest → s.welmusRuns = true → r.frame.ip = some ip → r.frame.udp = some u →
    let ls := s.tupleLegs ip u (frameVid (parsedTags r.frame).1)
    (∀ l ∈ ls, (s.legs.getD {} l).stun = false) → s.port? r.port = some q →
    (q.excQ.map fun x => x.frame.length).sum + r.frame.length ≤ 65536 →
    ∃ t q', exec .stunRequest s = .next t ∧ t = { s with
      out := t.out, mbx := t.mbx, funcs := t.funcs, ports := t.ports, legs := t.legs, stunQ := t.stunQ, buckets := t.buckets,
      lookNo := t.lookNo, waitQ := t.waitQ } ∧ t.stunQ = rest ∧ t.legs = s.legs ∧ t.waitQ = s.waitQ ∧
      t.port? r.port = some q' ∧ q'.txq = q.txq ∧ (q'.excQ.map ExcFrame.reason) = q.excQ.map ExcFrame.reason ++ [7] ∧
      (q'.excQ.map ExcFrame.leg) = q.excQ.map ExcFrame.leg ++ [ls.head?]) ∧
  ∀ (s : State) (leg u : Nat) (g : Leg), s.legs.find? leg = some g → g.consent = some u →
    (g.consentLost = false → u + 30000000000 ≤ s.now → ∃ t, exec (.consentExpiry leg) s = .next t ∧ t = { s with
      out := t.out, mbx := t.mbx, funcs := t.funcs, legs := t.legs } ∧
      t.legs.find? leg = some { g with consentLost := true } ∧ ∀ k, k ≠ leg → t.legs.find? k = s.legs.find? k) ∧
    (s.now < u + 30000000000 → exec (.consentExpiry leg) s = .next { s with out := [] })) ∧
  ((∀ (s : State) (p : Nat) (q : LocalRec) (rest : List LocalRec), s.moves = true → s.nextTurn p = none →
    s.localQ.getD [] p = q :: rest → q.audio = true → (s.replQ.getD [] p).length < 512 →
    ∃ t pk, exec (.localInject p) s = .next t ∧ t = { s with
      out := t.out, confs := t.confs, legs := t.legs, replQ := t.replQ, localQ := t.localQ,
      sched := t.sched } ∧ t.localQ.getD [] p = rest ∧ t.legs = s.legs ∧
      (∀ i, i ≠ p → t.localQ.getD [] i = s.localQ.getD [] i) ∧ t.replQ.getD [] p = s.replQ.getD [] p ++ [pk] ∧
      pk.conf = q.conf ∧ pk.bank = q.bank ∧ pk.source = q.source ∧ pk.srcLeg = none ∧ pk.cls.audio = true ∧
      (∀ i, i ≠ q.conf → t.conf i = s.conf i)) ∧
  ∀ (s : State) (task : Nat) (q : LocalRec), s.faults.queue.length < 256 →
    (s.localQ.flatMap Prod.snd).find? (fun x => x.task == task && decide (x.at_ + 20000000 ≤ s.now)) = some q →
    ∃ t, exec (.localStarved task) s = .next t ∧ t = { s with
      out := t.out, faults := t.faults, localQ := t.localQ, sched := t.sched } ∧
      (∀ p, t.localQ.getD [] p = (s.localQ.getD [] p).filter fun x => !(x.task == task && x.at_ == q.at_)) ∧
      ∃ r, t.faults.queue = s.faults.queue ++ [r] ∧ r.cls = 0x22 ∧ r.objKind = 1 ∧ r.objId = q.conf)

/-- The cipher array: the core that is free soonest takes an ingress job before an egress job. A copy under a loaded slot of
its generation takes the slot's INDEX, or RTCP_INDEX, which rises by one, and the slot's keys enter the core with the job; at
the limit of its index it is dropped and counted, as is one whose slot is empty or has another generation. A received packet
that fails the replay check is dropped and counted. A failed tag drops the packet and counts it; a verified audio packet of a
leg of KIND 0 goes to the replicator as its source's; in either case the job's key register is gone. State received under a
generation no longer expected stays as it was. -/
def Obligations.CipherCoresTakeAndFinish : Prop :=
  (∀ (s : State) (group unit victim core : Nat), core = 5 * group + unit → s.moves = true → core ≤ 39 → s.nextCore (core / 5)
    = some core →
    s.startAt core < (s.now + 1) * 1000 →
    (∀ c rest, s.rxJobs.getD [] (core / 5) = [] → s.txJobs.getD [] (core / 5) = .tx c :: rest →
      (∀ g, s.legs.find? c.leg = some g → g.serial = c.ctx.serial → pairOk g.txSlot g.txSlotC = true) →
      ∃ t, exec (.cipherTake group unit victim) s = .next t ∧ t = { s with
        out := t.out, mbx := t.mbx, funcs := t.funcs, audit := t.audit, faults := t.faults, legs := t.legs, gone := t.gone,
        slots := t.slots, keyCache := t.keyCache, cores := t.cores, hmacs := t.hmacs, takeNo := t.takeNo, rxJobs := t.rxJobs,
        txJobs := t.txJobs } ∧ t.rxJobs = s.rxJobs ∧
        t.txJobs.getD [] (core / 5) = rest ∧
        let x := s.slot c.ctx.slot
        let used := if c.underRtcp then x.rtcpIndex else x.index
        let spent := (if c.underRtcp then x.rtcpExhausted else x.exhausted) || c.overIndex
        (x.loaded = true → x.generation = c.ctx.gen → spent = false → t.legs = s.legs ∧
          (∃ at_, (t.core core).jobs = (s.core core).jobs ++ [{
            job := .tx (c.withIndex used), takeNo := s.takeNo, keyReg := x.keys, profile := x.profile
            index := (c.withIndex used).index, readyAt := at_ }]) ∧
          (t.slot c.ctx.slot).index = (if c.underRtcp then x.index else x.index + 1) ∧
          (t.slot c.ctx.slot).rtcpIndex = (if c.underRtcp then x.rtcpIndex + 1 else x.rtcpIndex) ∧
          (t.slot c.ctx.slot).keys = x.keys ∧ (t.slot c.ctx.slot).generation = x.generation ∧
          ∀ k, k ≠ c.ctx.slot → t.slot k = s.slot k) ∧
        (x.loaded = false ∨ x.generation ≠ c.ctx.gen ∨ spent = true → (t.core core).jobs = (s.core core).jobs ∧
          t.slots = s.slots ∧ ∀ g, s.legs.find? c.leg = some g → g.serial = c.ctx.serial →
            t.legs.find? c.leg = some { g with counters := bump g.counters 31 1 })) ∧
    ∀ leg ser conf b k port f app stamp gen look rest g,
      s.rxJobs.getD [] (core / 5) = .rx leg ser conf b k port f app stamp gen look :: rest → s.legs.find? leg = some g →
      g.serial = ser → pairOk g.rxSlot g.rxSlotC = true →
      ∃ t, exec (.cipherTake group unit victim) s = .next t ∧ t = { s with
        out := t.out, mbx := t.mbx, funcs := t.funcs, audit := t.audit, faults := t.faults, legs := t.legs, gone := t.gone,
        slots := t.slots, keyCache := t.keyCache, cores := t.cores, hmacs := t.hmacs, takeNo := t.takeNo, rxJobs := t.rxJobs,
        txJobs := t.txJobs } ∧ t.slots = s.slots ∧ t.txJobs = s.txJobs ∧
        t.rxJobs.getD [] (core / 5) = rest ∧
        let i := State.replayIndex g ((s.planD conf b).classOf k) app
        let x := s.slot (fld g.rxSlot 20 0)
        (i.2 = false → t.cores = s.cores ∧ t.legs.find? leg = some { g with counters := bump g.counters 4 1 }) ∧
        (i.2 = true → x.loaded = false ∨ x.generation ≠ gen → (t.core core).jobs = (s.core core).jobs ∧
          t.legs.find? leg = some { g with counters := bump g.counters 7 1 }) ∧
        (i.2 = true → x.loaded = true → x.generation = gen → x.profile < 3 ∨ (s.hmac (core / 5)).full (s.startAt core) = false →
          t.legs = s.legs ∧ ∃ at_, (t.core core).jobs = (s.core core).jobs ++ [{
            job := .rx leg ser conf b k port f app stamp gen look, takeNo := s.takeNo, keyReg := x.keys, profile := x.profile
            index := i.1, readyAt := at_ }])) ∧
  ∀ (s : State) (group unit core leg ser conf b k port : Nat) (f : Frame) (app : App) (stamp gen look : Nat) (g : Leg)
    (j : CoreJob), core = 5 * group + unit → s.oldestRx core = some j → j.job = .rx leg ser conf b k port f app stamp gen look
      → s.legs.find? leg = some g →
    g.serial = ser →
    ∃ t, exec (.decryptComplete group unit) s = .next t ∧ t = { s with
      out := t.out, mbx := t.mbx, funcs := t.funcs, audit := t.audit, faults := t.faults, avail := t.avail, confs := t.confs,
      ports := t.ports, legs := t.legs, gone := t.gone, cores := t.cores, replQ := t.replQ, egressQ := t.egressQ,
      sched := t.sched, sess := t.sess, buses := t.buses } ∧
      (t.core core).jobs = (s.core core).jobs.filter (fun x => x.takeNo != j.takeNo) ∧
      (authentic j.profile j.keyReg j.index app f.wire = false →
        t.legs.find? leg = some { g with counters := bump g.counters 3 1 } ∧ t.replQ = s.replQ ∧ t.egressQ = s.egressQ ∧
        ∀ i, i ≠ leg → t.legs.find? i = s.legs.find? i) ∧
      (authentic j.profile j.keyReg j.index app f.wire = true → g.rxGen ≠ gen → ∃ g', t.legs.find? leg = some g' ∧
        g'.rx = g.rx ∧ g'.trunkRx = g.trunkRx ∧ g'.rtcpHighest = g.rtcpHighest ∧ g'.rtcpWindow = g.rtcpWindow ∧
        g'.nextHop = g.nextHop) ∧
      ∀ (x : RtpPacket) (r : RosterSlot) (n fmt : Nat), authentic j.profile j.keyReg j.index app f.wire = true → g.rxGen = gen →
        app = .rtp x → g.kind = 0 → (s.planD conf b).rosterSlot k = some r → r.source = some n →
        ((s.planD conf b).classOf k).format x.pt = some fmt → g.ssrcIdx x.ssrc fmt = 0 →
        windowFree (g.rx.getD 0 {}).started (g.rx.getD 0 {}).top (g.rx.getD 0 {}).window
          ((s.planD conf b).classOf k).replayWindow j.index = true →
        (s.replQ.getD [] (port / 16)).length < 512 →
        ∃ g' pk, t.legs.find? leg = some g' ∧ g'.counters = bump (bump g.counters 0 1) 1 (rtpLen x) ∧ g'.nextHop = some f.sa ∧
          t.replQ.getD [] (port / 16) = s.replQ.getD [] (port / 16) ++ [pk] ∧ pk.app = .rtp x ∧ pk.source = n ∧
          pk.srcLeg = some leg ∧ pk.conf = conf ∧ pk.bank = b ∧ pk.look = look

/-- What the device sends a leg on its own: a receiver report at most once a second to a leg of KIND 0 or 1 that has sent RTP
within 5 s; a generic NACK that names every missing packet, once; one key request in an interval; nothing to a fenced leg.
Each is one copy at the egress pipeline of the leg's port. The release of access units whose time has come touches the media
side only. -/
def Obligations.LegsAreReportedTo : Prop :=
  ∀ (s : State) (leg : Nat) (g : Leg), s.legs.find? leg = some g →
    let copy (body : App) : Copy :=
      { leg := leg, conf := g.conf, bank := 2, body := body, rtcp := true, rslot := g.slot.getD 0xFFFF, port := g.port
        ctx := g.txCtx, look := s.lookNo }
    (∀ u, g.kind ≠ 2 → g.fenced = false → s.carries = true → (∀ w, g.lastRr = some w → w + 1000000000 ≤ s.now) → g.lastRtpIn =
      some u → s.now ≤ u + 5000000000 →
      ∃ t, exec (.rrSend leg) s = .next t ∧ t = { s with out := t.out, legs := t.legs, egressQ := t.egressQ } ∧ t.legs.find?
        leg = some { g with lastRr := some s.now } ∧
        (∀ k, k ≠ leg → t.legs.find? k = s.legs.find? k) ∧
        t.egressQ.getD [] (g.port / 16) = s.egressQ.getD [] (g.port / 16) ++
          [copy (.rtcp (compound (Config.ownSsrc leg) 0 [.rr (Config.ownSsrc leg) (g.reportBlocks leg)]))]) ∧
    (g.kind = 2 → exec (.rrSend leg) s = .next { s with out := [] }) ∧
    (g.fenced = true → (∃ t, exec (.rrSend leg) s = .next t ∧ t.egressQ = s.egressQ) ∧
      ∃ t, exec (.upstreamNackSend leg) s = .next t ∧ t.egressQ = s.egressQ) ∧
    (∀ w, g.lastRr = some w → s.now < w + 1000000000 → exec (.rrSend leg) s = .next { s with out := [] }) ∧
    (g.nacks ≠ [] → g.fenced = false → s.carries = true → ∃ t m, exec (.upstreamNackSend leg) s = .next t ∧ t = { s with
      out := t.out, legs := t.legs, egressQ := t.egressQ } ∧
      t.legs.find? leg = some { g with nacks := [] } ∧ (∀ k, k ≠ leg → t.legs.find? k = s.legs.find? k) ∧
      t.egressQ.getD [] (g.port / 16) = s.egressQ.getD [] (g.port / 16) ++ [copy (.rtcp m)] ∧ m.sender = Config.ownSsrc leg ∧
      ∀ k n, (k, n) ∈ g.nacks → 1 ≤ k → k ≤ 3 → (∀ x ∈ g.nacks, x.2 < 65536) →
        ∃ fci, RtcpPart.nack (g.rx.getD k {}).ssrc fci ∈ m.parts ∧
          ∃ e ∈ fci, e.1 = n ∨ e.2.testBit ((n + 65536 - e.1) % 65536 - 1) = true) ∧
    (∀ r : KeyReq, g.keyReq = some r → (r.since + r.interval * 1000000 ≤ s.now → ∃ t, exec (.keyReqIntervalEnd leg) s = .next
      t ∧
      t = { s with out := t.out, mbx := t.mbx, funcs := t.funcs, legs := t.legs } ∧ t.legs.find? leg = some { g with keyReq :=
        none } ∧
      (∀ k, k ≠ leg → t.legs.find? k = s.legs.find? k) ∧ (r.absorbed = false → t.mbx = s.mbx)) ∧
      (s.now < r.since + r.interval * 1000000 → exec (.keyReqIntervalEnd leg) s = .next { s with out := [] })) ∧
    ∀ session, ∃ t, exec (.reassemblyTimeout g.conf session) s = .next t ∧ t = { s with
      out := t.out, confs := t.confs, sched := t.sched, sess := t.sess, buses := t.buses } ∧
      ∀ b i r, (s.conf g.conf).activeNo = some b → (s.planD g.conf b).sessionRec session = some r →
        s.sessNo g.conf b session = some i → ∀ a, (s.sessAt i).aus = [a] →
        (headDue (s.sessAt i) r s.tb0Us = none → t = { s with out := [] }) ∧
        ((headDue (s.sessAt i) r s.tb0Us).isSome = true → (t.sessAt i).aus = [])

/-- An audio packet of a source that is selected, or under a ladder with AUDIO_ALL, gives its receiver one copy with its
sender's numbers, a trunk's as a datagram; one that is not selected gives none. The copy is assembled in the receiver's terms,
or dropped where the leg has no next hop, no consent or no payload type for it. The egress scheduler charges the encrypted
copy and stores it with its launch time, at once where no level limits it and at the instant that the port's bucket allows
where only that limits it, and drops it where its port is down. -/
def Obligations.CopiesAreMadeAndCharged : Prop :=
  (∀ (s : State) (p : Nat) (pk : ReplPacket) (rest : List ReplPacket) (k r : Nat) (e : RosterSlot) (g : Leg), s.moves = true →
    s.replQ.getD [] p = pk :: rest → (∀ l, pk.srcLeg = some l → s.isOpen l pk.srcSerial = true) →
    (s.planD pk.conf pk.bank).packetList pk.source pk.cls = some [k] →
    s.receiver pk.conf k pk.look = some (r, g.serial) → (s.planD pk.conf pk.bank).rosterSlot k = some e →
    s.legs.find? r = some g → g.fenced = false → pk.cls.audio = true →
    let goes := ((s.conf pk.conf).setFor pk.look).contains pk.source || ((s.planD pk.conf pk.bank).ladderOf e).any
      Ladder.audioAll
    ∃ t, exec (.replicatorWalk p) s = .next t ∧ t = { s with
      out := t.out, mbx := t.mbx, funcs := t.funcs, audit := t.audit, faults := t.faults, confs := t.confs, legs := t.legs,
      gone := t.gone, replQ := t.replQ, egressQ := t.egressQ, sess := t.sess } ∧ t.replQ.getD [] p = rest ∧
      (goes = true → g.kind ≠ 2 → t.egressQ.getD [] (g.port / 16) = s.egressQ.getD [] (g.port / 16) ++
        [{ baseCopy pk r g k with ctx := g.txCtx }] ∧ (∀ i, pk.srcLeg ≠ some i → t.legs.find? i = s.legs.find? i)) ∧
      (∀ x, goes = true → g.kind = 2 → pk.app = .rtp x → pk.source < 4096 →
        t.egressQ.getD [] (g.port / 16) = s.egressQ.getD [] (g.port / 16) ++
          [{ baseCopy pk r g k with body := .zwiva (trunkHeader pk x.ssrc x), ctx := g.txCtx }] ∧
        (∀ i, pk.srcLeg ≠ some i → t.legs.find? i = s.legs.find? i)) ∧
      (goes = false → t.egressQ = s.egressQ ∧ t.legs.find? r = some { g with counters := bump g.counters 19 1 })) ∧
  (∀ (s : State) (p : Nat) (c : Copy) (rest : List Copy), s.moves = true → s.egressQ.getD [] p = c :: rest →
    let x := if s.isOpen c.leg c.ctx.serial then (s.legs.getD {} c.leg).txCtx else c.ctx
    let cls := copyClass (s.copyShaper c) { c with ctx := x }
    let body? := copyBody (((s.copyPlan c).map fun q => q.classOf c.rslot).getD {}) c
    ∃ t, exec (.egressAssemble p) s = .next t ∧ t = { s with
      out := t.out, legs := t.legs, txJobs := t.txJobs, egressQ := t.egressQ } ∧ t.egressQ.getD [] p = rest ∧
      (∀ mac sa body, x.nextHop = some mac → s.sourceMac c.port = some sa → x.lost = false → x.resume ≤ c.look →
        body? = some body → t.legs = s.legs ∧ t.txJobs.getD [] p = s.txJobs.getD [] p ++
          [.tx { c with ctx := x, body := body, cls := cls, frame := copyFrame x mac sa cls body }]) ∧
      (x.nextHop = none ∨ s.sourceMac c.port = none ∨ x.lost = true ∨ c.look < x.resume → t.txJobs = s.txJobs ∧
        ∀ g, s.legs.find? c.leg = some g → g.serial = c.ctx.serial →
          t.legs.find? c.leg = some { g with counters := bump g.counters 21 1 }) ∧
      (x.nextHop.isSome = true → (s.sourceMac c.port).isSome = true → x.lost = false → x.resume ≤ c.look → body? = none →
        t.txJobs = s.txJobs ∧ ∀ g, s.legs.find? c.leg = some g → g.serial = c.ctx.serial →
          t.legs.find? c.leg = some { g with counters := bump g.counters 20 1 })) ∧
  ∀ (s : State) (p core : Nat) (j : CoreJob) (c : Copy), s.moves = true → s.oldestTx p = some (core, j, c) →
    let len := c.frame.length + tagLen j.profile c.body
    let free := (s.portUp c.port = true ∧ c.tReq = none) ∧
      (s.isOpen c.leg c.ctx.serial = false ∨ (s.copyShaper c).legMask.testBit c.cls = false) ∧
      16384 + ceilDiv (len + 32) 256 ≤ s.grottoFree
    let stored (t : State) (x : Stored) : Prop := t.chargeNo = s.chargeNo + 1 ∧ t.store.find? s.chargeNo = some x ∧
      (∀ i, i ≠ s.chargeNo → t.store.find? i = s.store.find? i) ∧ x.leg = c.leg ∧ x.port = c.port ∧ x.cls = c.cls ∧
      x.length = len ∧ x.copy.frame.wire = (protect j.profile j.keyReg j.index c.body).getD [] ∧ x.sump = false
    ∃ t, exec (.egressCharge p) s = .next t ∧ t = { s with
      out := t.out, mbx := t.mbx, funcs := t.funcs, audit := t.audit, faults := t.faults, avail := t.avail, confs := t.confs,
      legs := t.legs, cores := t.cores, buckets := t.buckets, store := t.store, chargeNo := t.chargeNo } ∧
      (t.core core).jobs = (s.core core).jobs.filter (fun x => x.takeNo != j.takeNo) ∧
      (s.portUp c.port = false → t.store = s.store ∧ t.buckets = s.buckets ∧ t.confs = s.confs) ∧
      (free → (∀ k ∈ chargeLevels c false, (s.bucket k.1 k.2).rate = 0) →
        t.buckets = s.buckets ∧ ∃ x, stored t x ∧ x.launch = ceilDivI s.launchClock 65536 ∧ x.immediate = true) ∧
      (free → (s.bucket 1 c.conf).rate = 0 → (s.bucket 2 (c.port * 8 + c.cls)).rate = 0 → (s.bucket 3 c.port).limits = true →
        c.conf < 65536 → c.port < 128 → c.cls < 8 →
        let q := s.bucket 3 c.port
        let v := max q.vt (s.launchClock - bytesTime q.ceil (s.rateOf 3 c.port))
        let e := max s.launchClock v
        c.cls = 0 ∨ ceilDivI e 65536 * 65536 - s.launchClock ≤ classHorizon c.cls * 65536 →
        t.bucket 3 c.port = { q with vt := v + bytesTime (macLen len c.ctx.vlan.isSome + 20) (s.rateOf 3 c.port) } ∧
          ∃ x, stored t x ∧ x.launch = ceilDivI e 65536)

/-- A stored copy: one whose lead is over 40 us moves to the Sump where that has room, and else stays until its hand-off; at
20 us it returns in its turn, but for a poisoned one, which is dropped. The head of a launch queue enters its transmit queue
once its lead is 2 us or less, unless it is past its stale limit. No other stored copy moves. -/
def Obligations.StoredCopiesGoToTheWire : Prop :=
  (∀ (s : State) (n : Nat) (x : Stored), s.moves = true → s.store.find? n = some x →
    (x.sump = false → x.stays = false → 40000 * 65536 < s.lead x →
      ∃ t, exec (.sumpSpill n) s = .next t ∧ t = { s with out := t.out, legs := t.legs, store := t.store } ∧ (∀ i, i ≠ n →
        t.store.find? i = s.store.find? i) ∧
        (x.cells ≤ s.sumpFree → t.store.find? n = some { x with sump := true } ∧
          ∀ g, s.legs.find? x.leg = some g → g.serial = x.copy.ctx.serial →
            t.legs.find? x.leg = some { g with counters := bump g.counters 33 1 }) ∧
        (s.sumpFree < x.cells → t.store.find? n = some { x with stays := true } ∧ t.legs = s.legs)) ∧
    (s.lead x ≤ 40000 * 65536 → exec (.sumpSpill n) s = .next { s with out := [] }) ∧
    (x.sump = true → s.lead x ≤ 20000 * 65536 → x.cells ≤ s.grottoFree → s.nextFetch n x = true →
      (∃ t, exec (.sumpFetch n false) s = .next t ∧ t = { s with
        out := t.out, legs := t.legs, store := t.store, panic := t.panic } ∧ t.store.find? n = some { x with sump := false } ∧
        (∀ i, i ≠ n → t.store.find? i = s.store.find? i) ∧ t.legs = s.legs) ∧
      ∃ t, exec (.sumpFetch n true) s = .next t ∧ t = { s with
        out := t.out, legs := t.legs, store := t.store, panic := t.panic } ∧ t.store.find? n = none ∧
        (∀ i, i ≠ n → t.store.find? i = s.store.find? i) ∧ ∀ g, s.legs.find? x.leg = some g → g.serial = x.copy.ctx.serial →
          t.legs.find? x.leg = some { g with counters := bump g.counters 34 1 })) ∧
  ∀ (s : State) (port cls n : Nat) (x : Stored) (q : Port), s.moves = true → s.launchHead port cls = some (n, x) → x.sump =
    false →
    s.lead x ≤ 2000 * 65536 → s.port? port = some q → q.st = 4 →
    (-s.lead x ≤ classStale cls * 65536 → q.txRoom cls (txFrameOf x).length = true → cls < q.txq.length →
      ∃ t q', exec (.launchHandoff port cls) s = .next t ∧ t = { s with
        out := t.out, ports := t.ports, legs := t.legs, store := t.store } ∧ t.store = s.store.del n ∧
        t.port? port = some q' ∧ (∀ i, i ≠ port → t.port? i = s.port? i) ∧
        (q'.txq.getD cls []).map TxFrame.frame = (q.txq.getD cls []).map TxFrame.frame ++ [(txFrameOf x).frame] ∧
        (∀ k, k ≠ cls → (q'.txq.getD k []).map TxFrame.frame = (q.txq.getD k []).map TxFrame.frame) ∧
        ∀ i, i ≠ x.leg → t.legs.find? i = s.legs.find? i) ∧
    (classStale cls * 65536 < -s.lead x → ∃ t, exec (.launchHandoff port cls) s = .next t ∧ t = { s with
      out := t.out, ports := t.ports, legs := t.legs, store := t.store } ∧
      t.store = s.store.del n ∧ t.ports = s.ports ∧ ∀ i, i ≠ x.leg → t.legs.find? i = s.legs.find? i)

/-! ### The task scheduler and Lantern -/

/-- A tick takes every entry that is due at it, deadlines first, then budgets and aborts, then releases, those left over from
the last tick first within their list; before its time nothing happens. A release of a plan that is ACTIVE inserts the next
one and creates an instance where fewer than MAX_INSTANCES live, and a deadline fails the undispatched tasks of its instance.
-/
def Obligations.TicksTakeWhatIsDue : Prop :=
  (∀ s : State,
    (s.launchNs < s.sched.tickAt ∨ s.time.running = false → exec .schedulerTick s = .next { s with out := [] }) ∧
    (s.sched.tickAt ≤ s.launchNs → s.time.running = true → ∃ t tick, exec .schedulerTick s = .next t ∧ t = { s with
      out := t.out, sched := t.sched } ∧
      s.sched.tickAt ≤ tick ∧ tick ≤ s.launchNs ∧ t.sched.tickAt = tick + s.sched.tickUs * 1000 ∧
      (0 < s.sched.tickUs → s.launchNs < t.sched.tickAt) ∧ t.sched.runs = s.sched.runs ∧ t.sched.lives = s.sched.lives ∧
      (∀ i, t.sched.lists.getD i [] = (s.sched.lists.getD i []).filter fun e => decide (tick < e.1)) ∧
      (let due (i : Nat) : List (Nat × Due) := s.sched.dueQ.filter (fun e => e.1 == i) ++
          ((s.sched.lists.getD i []).filter fun e => decide (e.1 ≤ tick)).map fun e => (i, e.2);
        t.sched.dueQ = due 2 ++ due 3 ++ due 0 ++ due 1) ∧
      t.sched.counters = (if s.sched.dueQ = [] then s.sched.counters else bump s.sched.counters 17 1))) ∧
  (∀ (s : State) (c b n g k i : Nat) (rest : List (Nat × Due)) (p : Plan) (d : GraphRec),
    s.sched.dueQ = (i, .release c b n g k) :: rest →
    ((s.conf c).bank b).plan = some p → p.loadNo = n →
    (((s.conf c).bank b).st ≠ .active →
      exec .graphRelease s = .next { s with sched := { s.sched with dueQ := rest }, out := [] }) ∧
    (((s.conf c).bank b).st = .active → p.graphRec g = some d → d.list < 4 → s.sched.lists.length = 4 → s.releases = true →
      let live := s.sched.runs.countP fun x =>
        x.2.conf == c && x.2.bank == b && x.2.loadNo == (s.planD c b).loadNo && x.2.graph == d.graph
      ∃ t, exec .graphRelease s = .next t ∧ t = { s with out := t.out, sched := t.sched, buses := t.buses } ∧ t.sched.dueQ =
        rest ∧
        (d.instant (k + 1), Due.release c b n d.graph (k + 1)) ∈ t.sched.lists.getD d.list [] ∧
        (d.maxInst ≤ live → t.sched.runs = s.sched.runs ∧ t.sched.lives = s.sched.lives) ∧
        (live < d.maxInst → t.sched.nextRun = s.sched.nextRun + 1 ∧
          (d.instant k + d.deadlineUs * 1000, Due.deadline s.sched.nextRun) ∈ t.sched.lists.getD 2 [] ∧
          ∃ r, t.run? s.sched.nextRun = some r ∧ r.conf = c ∧ r.bank = b ∧ r.graph = d.graph ∧ r.k = k ∧
            r.release = d.instant k ∧ r.tasks.length = d.tasks.length))) ∧
  (∀ (s : State) (r i : Nat) (rest : List (Nat × Due)) (g : GraphRun), s.sched.dueQ = (i, .deadline r) :: rest → s.run? r =
    some g →
    (∀ u ∈ g.tasks, ∃ l, s.live? u = some l ∧ l.st ≠ .dispatched) →
    ∃ t, exec .instanceDeadline s = .next t ∧ t = { s with
      out := t.out, audit := t.audit, faults := t.faults, confs := t.confs, sched := t.sched,
      sess := t.sess } ∧ t.run? r = none ∧
      (∀ u ∈ g.tasks, t.live? u = none) ∧ ∀ i, i ≠ r → t.run? i = s.run? i)

/-- The first ready task with an engine and credit is dispatched with a TASK lease and a budget timer; one short of credit is
skipped; with no engine nothing changes. A pre-empting task suspends the victim on an unmasked core and runs there, and a
suspended task resumes, with the budget that it had left, where no better task waits. -/
def Obligations.TasksAreDispatched : Prop :=
  (∀ (s : State) (kind u : Nat) (more : List Nat) (l : Live), s.portsRun = true → s.readyTasks kind = u :: more → s.live? u =
    some l →
    engKind l.task.op = kind →
    (∀ e bufs, s.pickEngine kind l.task.prio (s.taskSess l) = some e → s.credit u l = .inl bufs → s.sched.lists.length = 4 →
      ∃ t l', exec (.taskDispatch kind) s = .next t ∧ t = { s with
        out := t.out, audit := t.audit, faults := t.faults, confs := t.confs, sched := t.sched, sess := t.sess,
        outs := t.outs, dsps := t.dsps } ∧ t.live? u = some l' ∧ l'.st = .dispatched ∧
        l'.kind = kind ∧ l'.eng = e ∧ l'.bufs = bufs ∧ l'.task = l.task ∧ l'.due = some (s.launchNs + l'.budgetNs) ∧
        (s.launchNs + l'.budgetNs, Due.budget u) ∈ t.sched.lists.getD 3 [] ∧ (∀ k, u ∉ t.sched.ready.getD [] k) ∧
        t.sched.orderNo = s.sched.orderNo + 1 ∧
        ∃ n x, l'.lease = some n ∧ t.sched.leases.find? n = some x ∧ x.kind = 1 ∧ x.task = u ∧ x.ownerKind = kind ∧
          x.ownerInst = e) ∧
    (s.pickEngine kind l.task.prio (s.taskSess l) = none → exec (.taskDispatch kind) s = .next { s with out := [] }) ∧
    (∀ e typ, more = [] → s.pickEngine kind l.task.prio (s.taskSess l) = some e → s.credit u l = .inr typ →
      ∃ t, exec (.taskDispatch kind) s = .next t ∧ t = { s with
        out := t.out, audit := t.audit, faults := t.faults, confs := t.confs, sched := t.sched, sess := t.sess,
        outs := t.outs, dsps := t.dsps } ∧ t.live? u = some { l with skips := l.skips + 1 } ∧
        t.sched.leases = s.sched.leases ∧ t.sched.ready = s.sched.ready)) ∧
  (∀ (s : State) (core : Nat), s.portsRun = true →
    (s.preemptor = none → exec (.preempt core) s = .next { s with out := [] }) ∧
    ∀ u l bufs v m k, s.preemptor = some (u, l, bufs) → s.victim l.task.prio = some (v, m) → m.eng = core → s.live? v = some m →
      u ≠ v → engKind l.task.op = 0 → (s.dsp core).running = some k → ((s.dsp core).slot k).pm = false →
      ∃ t l' m', exec (.preempt core) s = .next t ∧ t = { s with
        out := t.out, audit := t.audit, faults := t.faults, confs := t.confs, sched := t.sched, sess := t.sess,
        outs := t.outs, dsps := t.dsps } ∧ t.live? v = some m' ∧ m'.suspended = true ∧ m'.due = none ∧
        m'.left = m.due.getD 0 - s.launchNs ∧ t.live? u = some l' ∧ l'.st = .dispatched ∧ l'.kind = 0 ∧ l'.eng = core ∧
        (((s.runPlan (s.runOf l)).kernelOf l.task.ref).isSome = true →
          (t.dsp core).running = (s.dsp core).freeSlot ∧ (t.dsp core).suspended = k :: (s.dsp core).suspended)) ∧
  ∀ (s : State) (core k u : Nat) (rest : List Nat) (l : Live), s.portsRun = true → (s.dsp core).running = none → (s.dsp
    core).suspended = k :: rest →
    ((s.dsp core).slot k).task = some u → s.live? u = some l → s.sched.lists.length = 4 →
    (∀ w ∈ s.readyTasks 0, ∀ m, s.live? w = some m → l.task.prio ≤ m.task.prio) →
    ∃ t, exec (.resume core) s = .next t ∧ t = { s with out := t.out, sched := t.sched, dsps := t.dsps } ∧ (t.dsp
      core).running = some k ∧ (t.dsp core).suspended = rest ∧
      t.live? u = some { l with suspended := false, due := some (s.launchNs + l.left) } ∧
      (l.abortAt = none → (s.launchNs + l.left, Due.budget u) ∈ t.sched.lists.getD 3 []) ∧ ∀ i, i ≠ core → t.dsp i = s.dsp i

/-- A completion with the owner tag and generation of its task's live lease ends every lease of the task but its output
credit, with the status that its engine ended it with; any other is counted as stale and does nothing else. A decoder that
goes on after its concealment is fenced with its record, and its task completes FAILED. -/
def Obligations.TasksEnd : Prop :=
  (∀ (s : State) (task owner gen cycles : Nat) (records : List (List Word)),
    (s.live? task = none ∨ s.leaseLive task owner gen = false →
      exec (.taskCompletion task owner gen records cycles) s =
        .next { s with sched := { s.sched with counters := bump s.sched.counters 14 1 }, out := [] }) ∧
    ∀ l status, s.live? task = some l → s.leaseLive task owner gen = true → l.st = .dispatched →
      (∀ k, task ∉ s.sched.waits.getD [] k) → l.reported = some status →
      ∃ t, exec (.taskCompletion task owner gen records cycles) s = .next t ∧ t = { s with
        out := t.out, audit := t.audit, faults := t.faults, avail := t.avail, confs := t.confs, localQ := t.localQ,
        sched := t.sched, sess := t.sess, outs := t.outs, dsps := t.dsps } ∧
        (∀ l', t.live? task = some l' → l'.st = .completed ∧ l'.status = status) ∧
        (∀ x ∈ t.sched.leases, x.2.task = task → x.2.kind = 5) ∧ t.leaseLive task owner gen = false) ∧
  ∀ (s : State) (task i : Nat) (rest : List (Nat × Due)) (l : Live), s.sched.dueQ = (i, .abort task) :: rest →
    s.live? task = some l → l.st = .dispatched → (∀ k, task ∉ s.sched.waits.getD [] k) → l.kind = 2 → s.engTasks 2 l.eng =
      [(task, l)] →
    s.faults.queue.length < 256 → s.avail.lent.has (instId 2 l.eng) = false → (∀ e ∈ l.task.succ, pairOk e.1 e.2 = true) →
    l.budgetHit = true → ∃ t, exec (.decoderOverrun task) s = .next t ∧ t = { s with
      out := t.out, modes := t.modes, mbx := t.mbx, funcs := t.funcs, welmus := t.welmus, audit := t.audit,
      faults := t.faults, avail := t.avail, confs := t.confs, sched := t.sched, sess := t.sess, outs := t.outs,
      dsps := t.dsps } ∧
      t.avail.down.has (instId 2 l.eng) = true ∧ (∀ l', t.live? task = some l' → l'.st = .completed ∧ l'.status = 2) ∧
      ∃ r, t.faults.queue = s.faults.queue ++ [r] ∧ r.cls = 0x28 ∧ r.objKind = 7 ∧ r.objId = instId 2 l.eng ∧ r.d0 = 1

/-- At its BUDGET a task's abort is requested. An engine that acknowledges within 10 us completes the task FAILED, which is
counted in ABORTS, and stays in service; a later acknowledgement does nothing. One whose 10 us pass without an acknowledgement
is fenced, with its record. A decoder conceals at its BUDGET instead, and has 30 us. -/
def Obligations.BudgetsEndInAborts : Prop :=
  (∀ (s : State) (u i : Nat) (rest : List (Nat × Due)) (l : Live), s.sched.dueQ = (i, .budget u) :: rest → s.live? u = some l →
    l.st = .dispatched → s.sched.lists.length = 4 →
    ∃ t, exec .taskBudgetExpiry s = .next t ∧ t = { s with out := t.out, confs := t.confs, sched := t.sched } ∧ t.sched.dueQ =
      rest ∧
      (l.kind ≠ 2 → t.live? u = some { l with abortAt := some s.launchNs, revoking := false } ∧
        (s.launchNs + 10000, Due.abort u) ∈ t.sched.lists.getD 3 [] ∧ t.confs = s.confs) ∧
      (l.kind = 2 → t.live? u = some { l with budgetHit := true } ∧
        (s.launchNs + 30000, Due.abort u) ∈ t.sched.lists.getD 3 [])) ∧
  (∀ (s : State) (task u : Nat) (l : Live), s.live? task = some l → l.st = .dispatched → l.abortAt = some u → l.reported =
    none →
    (∀ k, task ∉ s.sched.waits.getD [] k) →
    (s.launchNs ≤ u + 10000 → ∃ t, exec (.abortAck task) s = .next t ∧ t = { s with
      out := t.out, audit := t.audit, faults := t.faults, avail := t.avail, confs := t.confs, localQ := t.localQ,
      sched := t.sched, sess := t.sess, outs := t.outs, dsps := t.dsps } ∧
      (∀ l', t.live? task = some l' → l'.st = .completed ∧ l'.status = 2) ∧ (∀ x ∈ t.sched.leases, x.2.task ≠ task) ∧
      t.avail.down = s.avail.down ∧
      (l.revoking = false → t.sched.counters.getD 11 0 = (bump s.sched.counters 11 1).getD 11 0)) ∧
    (u + 10000 < s.launchNs → exec (.abortAck task) s = .next { s with out := [] })) ∧
  ∀ (s : State) (task u i : Nat) (rest : List (Nat × Due)) (l : Live), s.sched.dueQ = (i, .abort task) :: rest → s.live? task
    = some l →
    l.st = .dispatched → l.abortAt = some u → (∀ k, task ∉ s.sched.waits.getD [] k) → s.engTasks l.kind l.eng = [(task, l)] →
    s.faults.queue.length < 256 → s.avail.lent.has (instId l.kind l.eng) = false →
    (∀ e ∈ l.task.succ, pairOk e.1 e.2 = true) → ∃ t, exec (.abortTimeout task) s = .next t ∧ t = { s with
      out := t.out, modes := t.modes, mbx := t.mbx, funcs := t.funcs, welmus := t.welmus, audit := t.audit,
      faults := t.faults, avail := t.avail, confs := t.confs, sched := t.sched, sess := t.sess, outs := t.outs,
      dsps := t.dsps } ∧
      t.avail.down.has (instId l.kind l.eng) = true ∧ (∀ l', t.live? task = some l' → l'.st = .completed ∧ l'.status = 2) ∧
      ∃ r, t.faults.queue = s.faults.queue ++ [r] ∧ r.cls = 0x28 ∧ r.objKind = 7 ∧ r.objId = instId l.kind l.eng ∧ r.d0 = 0

/-- SCHED_TICK takes 1 to 1,000 us from PF0 in READY and MAINTENANCE only. A write of LANTERN_CTRL with ENABLE clears FROZEN
and restarts its count; at each whole second of TB0 a SYNC record enters the ring at HEAD, after a LOST record where records
were lost. Under STOP the ring freezes after 65,536 records, and a record that finds it FROZEN is lost and counted. -/
def Obligations.LanternWritesItsRing : Prop :=
  (∀ (s : State) (v : Word), exec (.schedTickWrite 0 v) s = .next
    (if (s.modes.mode = .ready ∨ s.modes.mode = .maintenance) ∧ 1 ≤ fld v 9 0 ∧ fld v 9 0 ≤ 1000 then
      { s with sched := { s.sched with tickUs := fld v 9 0 }, out := [] }
    else { s with out := [] })) ∧
  (∀ (s : State) (fn : Nat) (v : Word), fn ≠ 0 → exec (.schedTickWrite fn v) s = .next { s with out := [] } ∧
    exec (.lanternCtrlWrite fn v) s = .next { s with out := [] }) ∧
  (∀ (s : State) (v : Word), ∃ t, exec (.lanternCtrlWrite 0 v) s = .next t ∧ t = { s with out := t.out, sched := t.sched } ∧
    t.sched.lantern.ctrl = v &&& 0xC000FFFF ∧ t.sched.lantern.matchReg = s.sched.lantern.matchReg ∧
    t.sched.lives = s.sched.lives ∧
    (bitAt v 31 = true → t.sched.lantern.frozen = false ∧ t.sched.lantern.lost = 0) ∧
    (bitAt v 31 = false → t.sched.lantern.ring = s.sched.lantern.ring ∧ t.sched.lantern.head = s.sched.lantern.head)) ∧
  ∀ s : State, (s.syncDue = false → exec .lanternSync s = .next { s with out := [] }) ∧
    (s.syncDue = true → bitAt s.sched.lantern.ctrl 31 = true → ∃ t, exec .lanternSync s = .next t ∧ t = { s with
      out := t.out, sched := t.sched } ∧
      t.sched.runs = s.sched.runs ∧ t.sched.lives = s.sched.lives ∧ t.syncDue = false ∧
      (s.sched.lantern.frozen = true → t.sched.lantern.ring = s.sched.lantern.ring ∧
        t.sched.lantern.lost = s.sched.lantern.lost + 1 ∧ t.sched.counters = bump s.sched.counters 16 1) ∧
      (s.sched.lantern.frozen = false → 0 < s.sched.lantern.lost → bitAt s.sched.lantern.ctrl 30 = false →
        s.sched.lantern.head < 65536 → t.sched.lantern.lost = 0 ∧
        t.sched.lantern.head = (s.sched.lantern.head + 2) % 65536 ∧ t.sched.lantern.ring.find? s.sched.lantern.head =
          some (lanternWords s.tb0Ns 14 0 7 0 0 0x3FFFF 0xFFFF s.sched.lantern.lost)) ∧
      (s.sched.lantern.frozen = false → s.sched.lantern.lost = 0 → t.sched.lantern.head = (s.sched.lantern.head + 1) % 65536 ∧
        t.sched.counters = s.sched.counters ∧
        t.sched.lantern.frozen = (bitAt s.sched.lantern.ctrl 30 && decide (65536 ≤ s.sched.lantern.run + 1)) ∧
        t.sched.lantern.ring.find? s.sched.lantern.head = some [w32 (s.tb0Ns % 1000000000), w32 0x700,
          w32 (s.tb0Ns / 1000000000), w32 (s.tb0Ns / 1000000000 / 2 ^ 32 % 65536)] ∧
        ∀ i, i ≠ s.sched.lantern.head → t.sched.lantern.ring.find? i = s.sched.lantern.ring.find? i))

/-! ### The DSP cores -/

/-- One bundle of the running slot of a core that issues, with whatever stands beside its operation: MAC adds its two products
into the accumulator modulo 2^72 and sets OVF where the sum does not fit; SINIT, MAX and MIN keep the extreme and the index of
its first occurrence; NRW rounds half up and saturates; PMSK and PUNM set and clear the pre-emption mask, which the core
clears itself 512 cycles after it was set. Of the slot the operation changes nothing else but its PC and loops, and nothing of
the other slots and cores; a core that issues nothing changes nothing. That each command is one whole bundle is the model's
choice (log entry 33). -/
def Obligations.DspBundlesCompute : Prop :=
  ∀ (s : State) (core k : Nat) (bes : DspBeside), s.issuing core = some k → k < (s.dsp core).slots.length →
    let x := (s.dsp core).slot k
    let x0 := besideRun bes x
    let only (t : State) : Prop := t = { s with dsps := t.dsps, out := [] } ∧ (∀ i, i ≠ core → t.dsp i = s.dsp i) ∧
      (∀ j, j ≠ k → (t.dsp core).slot j = (s.dsp core).slot j) ∧ (t.dsp core).running = some k ∧
      (t.dsp core).suspended = (s.dsp core).suspended ∧ (t.dsp core).store = (s.dsp core).store
    (besideBad bes x = false →
      (∀ acc a0 b0 a1 b1, acc < x.a.length → ∃ t, exec (.dspMac ⟨core, bes⟩ acc a0 b0 a1 b1) s = .next t ∧ only t ∧
        let y := (t.dsp core).slot k
        let sum := (x.a.getD acc 0).toInt + q23 (x.dr a0) * q23 (x.dr b0) + q23 (x.dr a1) * q23 (x.dr b1)
        y = { x0.advance with a := y.a, ovf := y.ovf } ∧ (y.a.getD acc 0).toInt = sum.bmod (2 ^ 72) ∧
        (∀ i, i ≠ acc → y.a.getD i 0 = x0.a.getD i 0) ∧
        y.ovf = (x0.ovf || decide (sum < -(2 ^ 71) ∨ 2 ^ 71 ≤ sum))) ∧
      (∀ isMax, ∃ t, exec (.sinit ⟨core, bes⟩ isMax) s = .next t ∧ only t ∧
        (t.dsp core).slot k = { x0.advance with sv := if isMax then 0x80000000 else 0x7FFFFFFF, sx := 0, sc := 0 }) ∧
      (∀ i, x0.sv = x.sv → x0.sx = x.sx → (∃ t, exec (.max ⟨core, bes⟩ i) s = .next t ∧ only t ∧
          let y := (t.dsp core).slot k
          y = { x0.advance with sv := y.sv, sx := y.sx, sc := x.sc + 1 } ∧ y.sv.toInt = max x.sv.toInt (x.dr i).toInt ∧
          y.sx = (if x.sv.toInt < (x.dr i).toInt then x.sc else x.sx)) ∧
        ∃ t, exec (.min ⟨core, bes⟩ i) s = .next t ∧ only t ∧
          let y := (t.dsp core).slot k
          y = { x0.advance with sv := y.sv, sx := y.sx, sc := x.sc + 1 } ∧ y.sv.toInt = min x.sv.toInt (x.dr i).toInt ∧
          y.sx = (if (x.dr i).toInt < x.sv.toInt then x.sc else x.sx)) ∧
      (∀ acc sh w i, 1 ≤ w → w ≤ 32 → i < x.d.length → ∃ t, exec (.nrw ⟨core, bes⟩ acc sh w i) s = .next t ∧ only t ∧
        let y := (t.dsp core).slot k
        let v : Int := if sh = 0 then (x.a.getD acc 0).toInt else ((x.a.getD acc 0).toInt + 2 ^ (sh - 1)) / 2 ^ sh
        y = { x0.advance with d := y.d, sat := y.sat } ∧ (∀ j, j ≠ i → y.dr j = x0.dr j) ∧
        (y.dr i).toInt = max (-(2 ^ (w - 1))) (min v (2 ^ (w - 1) - 1)) ∧
        y.sat = (x0.sat || decide (v < -(2 ^ (w - 1)) ∨ 2 ^ (w - 1) - 1 < v))) ∧
      (∃ t, exec (.pmsk ⟨core, bes⟩) s = .next t ∧ only t ∧
        (t.dsp core).slot k = { x0.advance with pm := true, pmSince := if x.pm then x.pmSince else s.now }) ∧
      ∃ t, exec (.punm ⟨core, bes⟩) s = .next t ∧ only t ∧ (t.dsp core).slot k = { x0.advance with pm := false }) ∧
    (x.pm = true → x.pmSince * 18 + 5120 ≤ s.now * 18 → ∃ t, exec (.pmForcedUnmask core) s = .next t ∧ only t ∧
      (t.dsp core).slot k = { x with pm := false, pmForced := true }) ∧
    ∀ i, s.issuing i = none → exec (.pmsk ⟨i, bes⟩) s = .next { s with out := [] } ∧ exec (.punm ⟨i, bes⟩) s = .next { s with
      out := [] }

/-- Control and memory of a running slot, with whatever stands beside the operation. REP with a count of 0 goes on after its
body, and else enters it; a fourth level is the last, and a fifth is a kernel fault. BRK leaves the innermost body. A taken
branch within the active bodies sets the PC; one out of a body, or through a register to no legal bundle, is a fault. A legal
store writes exactly its bytes, least significant first, and a legal load reads them; a bad access or an uncorrectable word is
a fault. A kernel fault stops the slot before its bundle, fails its task and leaves one KERNEL_FAULT record. -/
def Obligations.DspControlAndMemory : Prop :=
  ∀ (s : State) (core k : Nat) (bes : DspBeside), s.issuing core = some k → k < (s.dsp core).slots.length →
    let x := (s.dsp core).slot k
    let x0 := besideRun bes x
    let faulted (t : State) : Prop := t = { s with faults := t.faults, sched := t.sched, dsps := t.dsps, out := [] } ∧
      (t.dsp core).slot k = { x with stopped := true } ∧ (∀ i, i ≠ core → t.dsp i = s.dsp i) ∧
      (∀ u l, x.task = some u → s.live? u = some l → t.live? u = some { l with reported := some 2 }) ∧
      (s.faults.queue.length < 256 → ∃ r, t.faults.queue = s.faults.queue ++ [r] ∧ r.cls = 0x29 ∧ r.objKind = 7 ∧
        r.objId = core ∧ r.d0 = w32 x.kernel ∧ r.d1 = w32 x.pc)
    let only (t : State) : Prop := t = { s with dsps := t.dsps, out := [] } ∧ (∀ i, i ≠ core → t.dsp i = s.dsp i) ∧
      ∀ j, j ≠ k → (t.dsp core).slot j = (s.dsp core).slot j
    (besideBad bes x = true → ∃ t, exec (.punm ⟨core, bes⟩) s = .next t ∧ faulted t) ∧
    (∀ count reg endAt, 4 ≤ x.loops.length → ∃ t, exec (.rep ⟨core, bes⟩ count reg endAt) s = .next t ∧ faulted t) ∧
    (∀ kind target legal, x.inBodies target = false ∨ kind = .register ∧ legal = false →
      ∃ t, exec (.dspBranch ⟨core, bes⟩ kind target legal) s = .next t ∧ faulted t) ∧
    (∀ (a : DspAccess) uncorrectable, x.accessBad a = true ∨ uncorrectable = true →
      ∃ t, exec (.dspLoadStore ⟨core, bes⟩ a uncorrectable) s = .next t ∧ faulted t) ∧
    (besideBad bes x = false →
      (∀ count reg endAt, x.loops.length < 4 → ∃ t, exec (.rep ⟨core, bes⟩ count reg endAt) s = .next t ∧ only t ∧
        let n : BitVec 16 := match reg with | none => BitVec.ofNat 16 count | some i => (x.dr i).setWidth 16
        (n = 0 → (t.dsp core).slot k = { x0 with pc := endAt + 16 }) ∧
        (n ≠ 0 → (t.dsp core).slot k =
          { x0 with loops := (n, BitVec.ofNat 17 (x.pc + 16), BitVec.ofNat 17 endAt) :: x.loops, pc := x.pc + 16 })) ∧
      (x.loops = [] → ∃ t, exec (.brk ⟨core, bes⟩) s = .next t ∧ only t ∧ (t.dsp core).slot k = x0.advance) ∧
      (∀ n a e r, x.loops = (n, a, e) :: r → ∃ t, exec (.brk ⟨core, bes⟩) s = .next t ∧ only t ∧
        (t.dsp core).slot k = { x0 with loops := r, pc := e.toNat + 16 }) ∧
      (∀ kind target legal, x.inBodies target = true → kind ≠ .register ∨ legal = true →
        ∃ t, exec (.dspBranch ⟨core, bes⟩ kind target legal) s = .next t ∧ only t ∧ (t.dsp core).slot k = { x0 with pc :=
          target }) ∧
      ∀ a : DspAccess, x.accessBad a = false → a.size ≤ 8 → ∃ t, exec (.dspLoadStore ⟨core, bes⟩ a false) s = .next t ∧ only t ∧
        let y := (t.dsp core).slot k
        let at_ := (x.addr a).toNat
        let v := (x.dr a.dreg).toNat + 2 ^ 32 * (x.dr (a.dreg + 1)).toNat
        y.p = (if accUpdates a then x0.p.set a.ptr (BitVec.ofNat 17 (x.nextPtr a)) else x0.p) ∧
        (a.store = true → y = { x0.advance with ldm := y.ldm, p := y.p } ∧
          (∀ i, i < a.size → y.byte (at_ + i) = v / 256 ^ i % 256) ∧
          ∀ j, j < at_ ∨ at_ + a.size ≤ j → y.byte j = x0.byte j) ∧
        (a.store = false → a.dreg + 1 < x.d.length → y = { x0.advance with d := y.d, p := y.p } ∧
          (∀ j, j ≠ a.dreg → a.size ≤ 4 ∨ j ≠ a.dreg + 1 → y.dr j = x0.dr j) ∧
          (∀ i, i < 4 → (y.dr a.dreg).toNat / 256 ^ i % 256 = if i < a.size then x.byte (at_ + i) else 0) ∧
          ∀ i, i < 4 → 4 < a.size →
            (y.dr (a.dreg + 1)).toNat / 256 ^ i % 256 = if i + 4 < a.size then x.byte (at_ + (i + 4)) else 0))

/-- DMA and the end of a kernel. DMAQ queues a good descriptor, stalls on a full channel of eight, and faults on a bad one;
DMAW waits for its channel to empty; the first descriptor of a channel moves its words between the window and local memory and
leaves the channel. END with every channel empty reports its status, CONCEALED for a resident decoder without its input; END
with OK or CONCEALED waits for the channels first. -/
def Obligations.DspMovesDataAndEnds : Prop :=
  (∀ (s : State) (core k : Nat) (bes : DspBeside), s.issuing core = some k → k < (s.dsp core).slots.length →
    let x := (s.dsp core).slot k
    let x0 := besideRun bes x
    let only (t : State) : Prop := t = { s with dsps := t.dsps, out := [] } ∧ (∀ i, i ≠ core → t.dsp i = s.dsp i) ∧
      ∀ j, j ≠ k → (t.dsp core).slot j = (s.dsp core).slot j
    (∀ c dregs, descBad (dregs.map x.dr) x.windows = true → s.faults.queue.length < 256 →
      ∃ t, exec (.dmaq ⟨core, bes⟩ c dregs) s = .next t ∧ t = { s with
        out := t.out, faults := t.faults, sched := t.sched,
        dsps := t.dsps } ∧ (t.dsp core).slot k = { x with stopped := true } ∧
        ∃ r, t.faults.queue = s.faults.queue ++ [r] ∧ r.cls = 0x29 ∧ r.objId = core) ∧
    (besideBad bes x = false →
      (∀ c dregs, descBad (dregs.map x.dr) x.windows = false → c < x.chans.length →
        ∃ t, exec (.dmaq ⟨core, bes⟩ c dregs) s = .next t ∧ only t ∧
          ((x.chans.getD c []).length < 8 →
            ((t.dsp core).slot k).chans.getD c [] = x.chans.getD c [] ++ [descOf (dregs.map x.dr)] ∧
            (∀ i, i ≠ c → ((t.dsp core).slot k).chans.getD i [] = x.chans.getD i []) ∧
            (t.dsp core).slot k = { x0.advance with chans := ((t.dsp core).slot k).chans }) ∧
          (8 ≤ (x.chans.getD c []).length →
            (t.dsp core).slot k = { x0 with stall := some (c, descOf (dregs.map x.dr)) })) ∧
      (∀ c, ∃ t, exec (.dmaw ⟨core, bes⟩ c) s = .next t ∧ only t ∧
        (x.chans.getD c [] = [] → (t.dsp core).slot k = x0.advance) ∧
        (x.chans.getD c [] ≠ [] → (t.dsp core).slot k = { x0 with waitOn := some c })) ∧
      ∀ u l status, x.task = some u → s.live? u = some l →
        (status ≠ 0 ∨ residentDecoder l.task.ref = false → l.endStatus status = status) ∧
        (residentDecoder l.task.ref = true → 2 ∈ l.statuses ∨ l.task.op = 1 ∧ l.ringAt = 0 → l.endStatus 0 = 1) ∧
        ∃ t, exec (.dspEnd ⟨core, bes⟩ status) s = .next t ∧
          ((∀ c ∈ x.chans, c = []) ∨ 2 ≤ l.endStatus status → t = { s with
            out := t.out, faults := t.faults, sched := t.sched, sess := t.sess, dsps := t.dsps } ∧ t.faults = s.faults ∧
            t.live? u = some { l with reported := some (min (l.endStatus status) 2) } ∧
            (t.dsp core).slot k = { x0 with stopped := true, ending := none }) ∧
          (2 ≤ l.endStatus status → t.sess = s.sess) ∧
          (l.endStatus status < 2 → (∃ c ∈ x.chans, c ≠ []) → only t ∧
            (t.dsp core).slot k = { x0 with stopped := true, ending := some (l.endStatus status) }))) ∧
  ∀ (s : State) (core k c u : Nat) (ws : List Word) (d : DspDesc) (rest : List DspDesc) (l : Live),
    k < (s.dsp core).slots.length → ((s.dsp core).slot k).task = some u → s.live? u = some l →
    ((s.dsp core).slot k).chans.getD c [] = d :: rest → ((s.dsp core).slot k).stall = none →
    ((s.dsp core).slot k).ending = none → d.ldmAddr % 4 = 0 → d.rowBytes % 4 = 0 →
    let x := (s.dsp core).slot k
    let state := ((s.sessNo (s.runOf l).conf (s.runOf l).bank l.task.session).map fun i => (s.sessAt i).state).getD []
    ∃ t, exec (.dspDmaComplete core k c ws) s = .next t ∧ t = { s with
      out := t.out, sched := t.sched, sess := t.sess, dsps := t.dsps } ∧ t.sess = s.sess ∧
      ((t.dsp core).slot k).chans.getD c [] = rest ∧ (∀ j, j ≠ k → (t.dsp core).slot j = (s.dsp core).slot j) ∧
      (∀ i, i ≠ core → t.dsp i = s.dsp i) ∧
      (d.toWindow = true → ((t.dsp core).slot k).ldm = x.ldm ∧ ∃ l', t.live? u = some l' ∧ l' = { l with out := l'.out } ∧
        (d.winOffset % 4 = 0 → d.stride % 4 = 0 → d.rows = 1 ∨ d.rowBytes ≤ d.stride → ∀ r j, r < d.rows → j < d.rowBytes / 4 →
          l'.out.getD 0 ((d.winOffset + r * d.stride) / 4 + j) = x.ldm.getD 0 ((d.ldmAddr + r * d.rowBytes) / 4 + j)) ∧
        (d.winOffset % 4 = 0 → d.rows = 1 → ∀ i, i < d.winOffset / 4 ∨ d.winOffset / 4 + d.rowBytes / 4 ≤ i →
          l'.out.getD 0 i = l.out.getD 0 i)) ∧
      (d.toWindow = false → t.live? u = some l ∧
        (∀ r j, r < d.rows → j < d.rowBytes / 4 →
          ((t.dsp core).slot k).ldm.getD 0 ((d.ldmAddr + r * d.rowBytes) / 4 + j) =
            wordFrom (s.windowWord l state ws d.window) (d.winOffset + r * d.stride + 4 * j)) ∧
        ∀ i, i < d.ldmAddr / 4 ∨ d.ldmAddr / 4 + d.rows * (d.rowBytes / 4) ≤ i →
          ((t.dsp core).slot k).ldm.getD 0 i = x.ldm.getD 0 i)

/-! ### Media engines -/

/-- A bus frame writes one block for each tap, with its sample count, its rate, its timestamp and its reserved words zero,
counts one frame and reports OK or CONCEALED; no other bus changes. A gain that is still pending at its deadline takes effect
where no frame of the bus released before the deadline is left to test; before the deadline, or with such a frame left, it
does not. -/
def Obligations.AudioFramesAreMixed : Prop :=
  (∀ (s : State) (task i : Nat) (l : Live) (bus : BusRec), s.live? task = some l → l.st = .dispatched → l.task.op = 5 →
    l.reported = none → (s.runPlan (s.runOf l)).busRec l.task.ref = some bus →
    s.busNo (s.runOf l).conf (s.runOf l).bank l.task.ref = some i →
    ∃ t l', exec (.mixBusFrame task) s = .next t ∧ t = { s with
      out := t.out, fresh := t.fresh, audit := t.audit, faults := t.faults, confs := t.confs, sched := t.sched,
      buses := t.buses } ∧ t.live? task = some l' ∧
      (l'.reported = some 0 ∨ l'.reported = some 1) ∧ l'.st = .dispatched ∧ (∀ j, j ≠ i → t.buses.find? j = s.buses.find? j) ∧
      (t.conf (s.runOf l).conf).counters.getD 0 0 = (bump (s.conf (s.runOf l).conf).counters 0 1).getD 0 0 ∧
      (∀ c, c ≠ (s.runOf l).conf → c ≠ (s.buses.getD {} i).conf → t.conf c = s.conf c) ∧ (∀ u, u ≠ task → t.live? u = s.live?
        u) ∧
      ∀ q tap, bus.taps[q]? = some tap → tap.outRate < 3 →
        l'.out.getD 0 (1024 * q + 1) = w32 (tapTs (((t.buses.getD {} i).taps.getD q {}).tsBase)
          ((s.runOf l).busK.getD 0 bus.bus) tap.clock
          ((bus.columns.map fun r => groupDelay r.srcRate bus.rate).foldl max 0 + groupDelay bus.rate tap.outRate)) ∧
        fld (l'.out.getD 0 (1024 * q)) 9 0 = frameLen tap.outRate ∧ fld (l'.out.getD 0 (1024 * q)) 11 10 = tap.outRate ∧
        ∀ k, 3 ≤ k → k < 16 → l'.out.getD 0 (1024 * q + k) = 0) ∧
  ∀ (s : State) (c bus col due at_ : Nat) (v : Word), (s.conf c).gainPend.find? (bus * 65536 + col) = some (v, due, at_) →
    let tests (x : Nat × Live) : Prop := x.2.task.op = 5 ∧ x.2.task.ref = bus ∧ x.2.reported = none ∧ x.2.st ≠ .completed ∧
      (s.runOf x.2).conf = c ∧ (s.runOf x.2).release < due
    (s.launchNs < due ∨ (∃ x ∈ s.sched.lives, tests x) → exec (.gainStepTimeout c bus col) s = .next { s with out := [] }) ∧
    (due ≤ s.launchNs → (∀ x ∈ s.sched.lives, ¬ tests x) → ∃ t, exec (.gainStepTimeout c bus col) s = .next t ∧
      t = { s with out := t.out, confs := t.confs } ∧ (t.conf c).gainPend.find? (bus * 65536 + col) = none ∧
      (t.conf c).gainOv.find? (bus * 65536 + col) = (if v = 0x80000000 then none else some v) ∧
      (∀ k, k ≠ bus * 65536 + col → (t.conf c).gainPend.find? k = (s.conf c).gainPend.find? k ∧
        (t.conf c).gainOv.find? k = (s.conf c).gainOv.find? k) ∧
      (t.conf c).counters = bump (s.conf c).counters 6 1 ∧ ∀ i, i ≠ c → t.conf i = s.conf i)

/-- A picture decoded without loss becomes VALID in its buffer, as the next of its session and what a later one is concealed
from, and the decoder reports OK; one that is rejected is concealed, marked and reported so, with its count. A composed band
becomes VALID in its buffers (a second one for the 8-bit copy), which are the band's from then on, counts, and the unit
reports its status. -/
def Obligations.PicturesAreDecodedAndComposed : Prop :=
  (∀ (s : State) (task i k : Nat) (l : Live) (more : List (FbOwner × Nat)) (r : SessionRec) (res : DecodeResult),
    s.live? task = some l → l.st = .dispatched → l.task.op = 6 → l.reported = none → l.bufs = (.session i, k) :: more →
    k < (s.sessAt i).fbs.length → (s.runPlan (s.runOf l)).sessionRec l.task.session = some r →
    s.sessNo (s.runOf l).conf (s.runOf l).bank l.task.session = some i → 20 < (s.conf (s.runOf l).conf).counters.length →
    (res.rejected = false → res.noHeader = false → res.regionConcealed = false → res.refsMissing = 0 → res.boundsAt = none →
      l.budgetHit = false → l.damaged = false → (∀ n ∈ res.refsRead, ((s.sessAt i).bufOf n).isSome ∧ (s.sessAt i).marked n =
        false) →
      ∃ t, exec (.decodePictureDone task res) s = .next t ∧ t = { s with
        out := t.out, mbx := t.mbx, funcs := t.funcs, faults := t.faults, confs := t.confs, legs := t.legs,
        egressQ := t.egressQ, sched := t.sched, sess := t.sess, outs := t.outs } ∧
        t.live? task = some { l with reported := some 0 } ∧ (t.sessAt i).count = (s.sessAt i).count + 1 ∧
        (t.sessAt i).refs = res.refs ∧ (t.sessAt i).lastSize = some (res.pic.w, res.pic.h) ∧
        (t.sessAt i).source = some ((s.sessAt i).count + 1) ∧
        (t.sessAt i).latest = res.outputs.getLast?.or (s.sessAt i).latest ∧ (t.fb (.session i) k).st = .valid ∧
        (t.fb (.session i) k).pic = res.pic ∧ (t.fb (.session i) k).concealed = false ∧
        (t.fb (.session i) k).count = (s.sessAt i).count + 1 ∧ (∀ j, j ≠ i → t.sess.find? j = s.sess.find? j) ∧
        t.faults = s.faults) ∧
    (res.rejected = true → ∃ t, exec (.decodePictureDone task res) s = .next t ∧ t = { s with
      out := t.out, mbx := t.mbx, funcs := t.funcs, faults := t.faults, confs := t.confs, legs := t.legs,
      egressQ := t.egressQ, sched := t.sched, sess := t.sess, outs := t.outs } ∧
      t.live? task = some { l with reported := some 1 } ∧ (t.sessAt i).count = (s.sessAt i).count + 1 ∧
      (t.sessAt i).source = (s.sessAt i).source ∧ (t.sessAt i).lastSize = (s.sessAt i).lastSize ∧
      ((t.fb (.session i) k).st = .valid →
        (t.fb (.session i) k).pic = (s.sessAt i).concealed r ∧ (t.fb (.session i) k).concealed = true) ∧
      (t.conf (s.runOf l).conf).counters.getD 20 0 = min ((s.conf (s.runOf l).conf).counters.getD 20 0 + 1) (2 ^ 64 - 1))) ∧
  ∀ (s : State) (task i : Nat) (l : Live) (o : OutputRec) (x : Latch), s.live? task = some l →
    l.st = .dispatched → l.task.op = 7 → l.reported = none → (l.bufs.map Prod.snd).Nodup →
    (∀ k ∈ l.bufs.map Prod.snd, k < (s.outAt i).fbs.length) →
    (s.runPlan (s.runOf l)).outputRec l.task.ref = some o → s.outNo (s.runOf l).conf (s.runOf l).bank l.task.ref = some i →
    (s.runOf l).latches.find? l.task.ref = some x →
    let r := s.bandResult l (s.runPlan (s.runOf l)) o i (fld l.task.param 5 0) x
    r.1.length = l.bufs.length → ∃ t, exec (.composeRowDone task) s = .next t ∧ t = { s with
      out := t.out, confs := t.confs, sched := t.sched, sess := t.sess, outs := t.outs } ∧
      t.live? task = some { l with reported := some r.2 } ∧
      (∀ n b, l.bufs[n]? = some b → (t.fb (.output i) b.2).st = .valid ∧ (t.fb (.output i) b.2).pic = r.1.getD n {} ∧
        (t.fb (.output i) b.2).concealed = (r.2 == 1)) ∧
      ((s.outs.find? i).isSome → (t.outAt i).conceal.find? (fld l.task.param 5 0) = some (l.bufs.map Prod.snd)) ∧
      (t.conf (s.runOf l).conf).counters.getD 22 0 = (bump (s.conf (s.runOf l).conf).counters 22 1).getD 22 0 ∧
      (∀ j, j ≠ i → t.outs.find? j = s.outs.find? j) ∧ t.sess = s.sess ∧ ∀ c, c ≠ (s.runOf l).conf → t.conf c = s.conf c

/-- A coarse search writes the band's pyramid rows and its vector field to the buffer it holds, which becomes the output's
reference for the next one; a band of which nothing was composed reports FAILED (the model's choice, log entry 37). A band
that fits its limit is coded as given; one that does not, or that is to be skipped, as its skip band; one of a dropped picture
as nothing. Its bytes count against the picture, its packets advance the sequence number and its record carries them. The
encoder probe shows the session that PF0 selects, or ABSENT; no other function changes it. -/
def Obligations.EncoderCodesBands : Prop :=
  (∀ (s : State) (task : Nat) (l : Live), s.live? task = some l → l.st = .dispatched → l.task.op = 8 → l.reported = none →
    (∀ o i src held j k more, (s.runPlan (s.runOf l)).outputRec l.task.ref = some o →
      s.outNo (s.runOf l).conf (s.runOf l).bank l.task.ref = some i → l.held = src :: held → l.bufs = (.pyramid j, k) :: more →
      k < (s.sessAt j).pyramid.length → (s.outs.find? i).isSome = true →
      ∃ t, exec (.coarseSearchDone task) s = .next t ∧ t = { s with
        out := t.out, sched := t.sched, sess := t.sess, outs := t.outs } ∧
        t.live? task = some { l with reported := some 0 } ∧ (t.outAt i).pyr.find? (fld l.task.param 5 0) = some k ∧
        (t.fb (.pyramid j) k).st = .valid ∧ (t.fb (.pyramid j) k).ref = true ∧
        (t.fb (.pyramid j) k).levels = pyramidLevels (s.fb src.1 src.2).pic ∧
        (t.fb (.pyramid j) k).field = vectorField (pyramidLevels (s.fb src.1 src.2).pic)
          (((s.outAt i).pyr.find? (fld l.task.param 5 0)).bind fun n =>
            if (s.fb (.pyramid j) n).st = .valid then some (s.fb (.pyramid j) n) else none) ∧
        (∀ old, (s.outAt i).pyr.find? (fld l.task.param 5 0) = some old → old ≠ k → old < (s.sessAt j).pyramid.length →
          (t.fb (.pyramid j) old).ref = false) ∧ ∀ n, n ≠ j → t.sess.find? n = s.sess.find? n) ∧
    (l.held = [] → ∃ t, exec (.coarseSearchDone task) s = .next t ∧ t = { s with
      out := t.out, sched := t.sched, sess := t.sess, outs := t.outs } ∧
      t.live? task = some { l with reported := some 2 } ∧ t.sess = s.sess ∧ t.outs = s.outs)) ∧
  (∀ (s : State) (task i : Nat) (l : Live) (r : SessionRec) (o : OutputRec) (c : EncPic) (code : BandCode), s.live? task =
    some l →
    l.st = .dispatched → l.task.op = 9 → l.reported = none → (s.runPlan (s.runOf l)).sessionRec l.task.session = some r →
    (s.runPlan (s.runOf l)).outputRec l.task.ref = some o →
    s.sessNo (s.runOf l).conf (s.runOf l).bank l.task.session = some i → (s.sessAt i).enc.pic = some c →
    code.units.sum = code.data.length → code.skipUnits.sum = code.skipData.length → code.skipData.length ≤ r.skipBytes o →
    let limit := min (c.budget - c.used - (r.bandsR o - c.band - 1) * r.skipBytes o) (l.task.outBlocks * 4096 - 64)
    let done (data : List Nat) (units : List Nat) (skip : Option Nat) : Prop :=
      ∃ t l' c', exec (.encodeRowDone task code) s = .next t ∧ t = { s with
        out := t.out, funcs := t.funcs, sched := t.sched, sess := t.sess, outs := t.outs } ∧ (t.sessAt i).enc.pic = some c' ∧
        c'.used = c.used + data.length ∧ c'.skip = skip ∧
        (t.sessAt i).enc.nextSeq = ((s.sessAt i).enc.nextSeq + (units.map (unitPackets r.format)).sum) % 65536 ∧
        t.live? task = some l' ∧ l'.st = .dispatched ∧ (l'.reported = some 0 ∨ l'.reported = some 1) ∧
        (1 ≤ l.blocks → l'.out.getD 0 1 = w32 c.ts ∧ l'.out.getD 0 2 = w32 r.ssrc ∧
          (data.length < 2 ^ 24 → fld (l'.out.getD 0 0) 23 0 = data.length)) ∧
        (c.fb = none ∨ c.dropped = true → (t.sessAt i).fbs = (s.sessAt i).fbs) ∧
        ∀ n, n ≠ i → t.sess.find? n = s.sess.find? n
    (c.dropped = true → done [] [] c.skip) ∧
    (c.dropped = false → c.bandSkip = true → done code.skipData code.skipUnits c.skip) ∧
    (c.dropped = false → c.bandSkip = false → code.data.length ≤ limit → done code.data code.units c.skip) ∧
    (c.dropped = false → c.bandSkip = false → limit < code.data.length →
      done code.skipData code.skipUnits (some (c.skip.getD c.band)))) ∧
  ∀ (s : State) (v : Word), (∀ fn, fn ≠ 0 ∨ s.hostUp = false → exec (.encSelWrite fn v) s = .next { s with out := [] }) ∧
    (s.hostUp = true → ∃ t, exec (.encSelWrite 0 v) s = .next t ∧ t = { s with encProbe := t.encProbe, out := [] } ∧
      t.encProbe.sel = v ∧
      ((s.conf (fld v 31 16)).activeNo = none → t.encProbe = { sel := v, status := 0xC0FFF000 }) ∧
      ∀ b r i, (s.conf (fld v 31 16)).activeNo = some b → (s.planD (fld v 31 16) b).sessionRec (fld v 15 0) = some r →
        r.typ = 3 → s.sessNo (fld v 31 16) b (fld v 15 0) = some i →
        (s.sessAt i).enc.last.squeeze.getD 63 ≤ 63 → (s.sessAt i).enc.last.skip.getD 63 ≤ 63 →
        (s.sessAt i).enc.last.qpMean < 64 →
        bitAt t.encProbe.status 31 = true ∧ bitAt t.encProbe.status 30 = false ∧
        t.encProbe.picture = w32 (s.sessAt i).enc.pictures ∧ t.encProbe.cap = w32 r.capBytes ∧
        t.encProbe.lastBytes = w32 (s.sessAt i).enc.last.used ∧ t.encProbe.kKey = w32 (s.sessAt i).enc.kKey)

/-- A Malrurov surface reads back bit for bit: whatever stands in a unit's slot after its coded bits, a reader gets the 192
samples that were coded; the coded bits fill the sectors that the metadata byte names and no slot overflows. That a number's
bits are packed from its bit 0 is the model's reading (log entry 50). -/
def Obligations.SurfacesReadBack : Prop :=
  ∀ (deep : Bool) (xs : List Nat) (rest : List Bool), xs.length = 192 → (∀ x ∈ xs, x < 2 ^ sampleBits deep) →
    let u := codeUnit deep xs
    readUnit deep u.raw (u.bits ++ rest) = xs ∧ u.bits.length ≤ 256 * u.sectors ∧ 256 * (u.sectors - 1) < u.bits.length ∧
      32 * u.sectors ≤ slotBytes deep ∧ u.metaByte % 16 = u.sectors ∧ (u.metaByte / 128 = 1 ↔ u.raw = true)

/-! ### Host DMA -/

/-- The registers of a ring: ENABLE starts a stopped ring of a valid size with both indices zero, and sets BAD_CONFIG for a
size that is not valid; ENABLE 0 stops it and discards the records that wait. A tail within the ring is taken, another
ignored; a write of 1 clears LOST. A vector that was pending signals as it is unmasked. Bus Master Enable changes as told, and
a plan fetch of a function that may no longer master the bus fails. None of these does anything while the host does not reach
the interface. The link goes down as told and comes up where the interface is out of reset and has its reference clock. -/
def Obligations.RingsAndVectorsAreControlled : Prop :=
  (∀ (s : State) (fn : Nat), s.hostUp = true → fn ≤ 63 →
    (∀ ring v, ring ≤ 3 → (s.func fn).rings.length = 4 →
      (∃ t, exec (.ringTailWrite fn ring v) s = .next t ∧ t = { s with funcs := t.funcs, out := [] } ∧
        t.ring fn ring = (if v.toNat < (s.ring fn ring).size then { s.ring fn ring with tail := v.toNat } else s.ring fn ring) ∧
        (∀ r, r ≠ ring → t.ring fn r = s.ring fn r) ∧ ∀ i, i ≠ fn → t.func i = s.func i) ∧
      (∃ t, exec (.ringStatusWrite fn ring v) s = .next t ∧ t = { s with funcs := t.funcs, out := [] } ∧
        t.ring fn ring = { s.ring fn ring with lost := (s.ring fn ring).lost && !bitAt v 31 } ∧
        (∀ r, r ≠ ring → t.ring fn r = s.ring fn r) ∧ ∀ i, i ≠ fn → t.func i = s.func i) ∧
      ∃ t, exec (.ringCtrlWrite fn ring v) s = .next t ∧ t = { s with funcs := t.funcs, out := [] } ∧
        (∀ r, r ≠ ring → t.ring fn r = s.ring fn r) ∧ (∀ i, i ≠ fn → t.func i = s.func i) ∧
        (bitAt v 0 = true → (s.ring fn ring).enable = false → sizeOk (s.ring fn ring).size = true →
          t.ring fn ring = { s.ring fn ring with enable := true, head := 0, tail := 0, badConfig := false
                                                 work := (t.ring fn ring).work } ∧
          (t.ring fn ring).work = (s.ring fn ring).work.map fun (d : DmaWork) => { d with past := true }) ∧
        (bitAt v 0 = true → (s.ring fn ring).enable = false → sizeOk (s.ring fn ring).size = false →
          t.ring fn ring = { s.ring fn ring with badConfig := true }) ∧
        (bitAt v 0 = true → (s.ring fn ring).enable = true → t.ring fn ring = s.ring fn ring) ∧
        (bitAt v 0 = false → t.ring fn ring = { s.ring fn ring with
          enable := false, records := [], lost := (s.ring fn ring).lost || !(s.ring fn ring).records.isEmpty
          dropped := (s.ring fn ring).dropped + (s.ring fn ring).records.length })) ∧
    (∀ k, k ≤ 4 → (s.func fn).msixMask.length = 5 → (s.func fn).msixPending.length = 5 →
      ∃ t, exec (.msixUnmask fn k) s = .next t ∧ t = { s with funcs := t.funcs, out := t.out } ∧
        (t.func fn).msixMask.getD k true = false ∧ (t.func fn).msixPending.getD k true = false ∧
        (t.func fn).rings = (s.func fn).rings ∧ (∀ i, i ≠ fn → t.func i = s.func i) ∧
        t.out = if (s.func fn).msixPending.getD k false then [.msix fn k] else []) ∧
    (∀ bme d3, ∃ t, exec (.busMasterChange fn bme d3) s = .next t ∧ t = { s with
      funcs := t.funcs, loads := t.loads, out := [] } ∧
      t.func fn = { s.func fn with bme := bme, d3hot := d3 } ∧ (∀ i, i ≠ fn → t.func i = s.func i) ∧
      (bme = true → d3 = false → t.loads = s.loads) ∧
      (bme = false ∨ d3 = true → ∀ id l, s.loads.find? id = some l →
        t.loads.find? id = some (if l.fn = fn then { l with aborted := true } else l)))) ∧
  (∀ (s : State) (fn : Nat), s.hostUp = false ∨ 63 < fn → ∀ (c : Instr) (n : Nat) (v : Word) (bme d3 : Bool),
    c = .ringTailWrite fn n v ∨ c = .ringStatusWrite fn n v ∨ c = .ringCtrlWrite fn n v ∨ c = .msixUnmask fn n ∨
      c = .busMasterChange fn bme d3 → exec c s = .next { s with out := [] }) ∧
  ∀ s : State, exec .hostLinkDown s = .next { s with pins := { s.pins with linkUp := false }, out := [] } ∧
    exec .hostLinkUp s = .next { s with pins := { s.pins with linkUp := s.ifUp && !s.freq.pcie.missing }, out := [] }

/-- The DMA engine: a ring takes its next posted descriptor, one at a time, where no ring that its channel serves first can: a
bad one ends with BAD_DESC; a good COPY with the bytes read from its source, swapped and in whole accesses; on rings 1 and 2
with the oldest record, as much of it as fits; a TRANSMIT that is refused says so. At the write-back the data goes out and
then the result words, RING_HEAD advances and the vector signals; with the link or Bus Master Enable gone nothing but what was
written before is. A failure leaves at most one record in 100 ms. The head frame of the host exception queue in turn takes a
descriptor of ring 1 of the holder of its leg's conference, or is discarded and counted as LOST; another queue waits. -/
def Obligations.DescriptorsAreServed : Prop :=
  (∀ (s : State) (fn ring : Nat) (desc : Descriptor) (data : List Nat) (e : SrcEnd) (f : Frame), s.hostUp = true →
    fn ≤ 63 → ring ≤ 3 → s.takes fn ring = true → (∀ r ∈ ringsBefore ring, s.takes fn r = false) → (s.func fn).rings.length =
      4 →
    ∃ t w, exec (.dmaDescriptorTake fn ring desc data e f) s = .next t ∧ t = { s with
      out := t.out, funcs := t.funcs, ports := t.ports, buckets := t.buckets, waitQ := t.waitQ, sched := t.sched } ∧
      (t.ring fn ring).work = some w ∧ w.words = desc ∧ w.idx = (s.ring fn ring).head ∧
      w.addr = num64 (s.ring fn ring).baseLo (s.ring fn ring).baseHi + 32 * (s.ring fn ring).head ∧
      (∃ n x, t.sched.leases.find? n = some x ∧ x.kind = 6 ∧ x.task = dmaTask fn ring) ∧
      (ring ≠ 3 → t = { s with funcs := t.funcs, sched := t.sched, out := [] } ∧ (∀ r, r ≠ ring → t.ring fn r = s.ring fn r) ∧
        ∀ i, i ≠ fn → t.func i = s.func i) ∧
      (badDesc ring desc = true → w.result = 3 ∧ w.bytes = 0) ∧
      (ring = 0 → t.ring fn 0 = { s.ring fn 0 with work := some w } ∧ (badDesc 0 desc = false →
        let got := data.take (descLength desc)
        w.record = none ∧ w.bytes = wholeBytes desc got.length ∧
        w.data = (swapBytes (fld (wordAt desc 0) 9 8) got).take w.bytes ∧
        (descLength desc ≤ data.length → e = .complete → w.result = 0) ∧
        (e = .poisoned → w.result = 4) ∧ (data.length < descLength desc ∨ e = .busError → e ≠ .poisoned → w.result = 1))) ∧
      (ring = 1 ∨ ring = 2 → ∀ q rest, (s.ring fn ring).records = q :: rest → (t.ring fn ring).records = rest ∧
        (badDesc ring desc = true → (t.ring fn ring).lost = true ∧ (t.ring fn ring).dropped = (s.ring fn ring).dropped + 1) ∧
        (badDesc ring desc = false → w.record = some q ∧ w.bytes = min (descLength desc) q.length ∧
          w.result = (if descLength desc < q.length then 5 else 0) ∧ (t.ring fn ring).lost = (s.ring fn ring).lost)) ∧
      (ring = 3 → badDesc 3 desc = false →
        (e = .poisoned → w.result = 4) ∧ (e = .busError → w.result = 1) ∧
        (e = .complete → s.portUp (fld (wordAt desc 0) 23 17) = false ∨
            fn ≠ 0 ∧ s.frameOfGrant fn (fld (wordAt desc 0) 23 17) f = false → w.result = 6 ∧ w.bytes = 0) ∧
        (e = .complete → s.portUp (fld (wordAt desc 0) 23 17) = true →
            fn = 0 ∨ s.frameOfGrant fn (fld (wordAt desc 0) 23 17) f = true → w.result = 0 ∧ w.bytes = descLength desc))) ∧
  (∀ (s : State) (fn ring : Nat) (at_ : Option Nat) (w : DmaWork), (s.ring fn ring).work = some w → w.waits = false →
    ring < (s.func fn).rings.length →
    let reach := s.pins.linkUp = true ∧ (s.func fn).held = false
    ∃ t, exec (.dmaWriteBack fn ring at_) s = .next t ∧ t = { s with
      out := t.out, funcs := t.funcs, faults := t.faults, sched := t.sched } ∧
      (t.ring fn ring).work = none ∧
      (t.ring fn ring).head = (if w.past then (s.ring fn ring).head else (w.idx + 1) % (s.ring fn ring).size) ∧
      (t.ring fn ring).tail = (s.ring fn ring).tail ∧ (∀ i, i ≠ fn → t.func i = s.func i) ∧
      (∀ p ∈ t.sched.leases, p.2.task ≠ dmaTask fn ring) ∧
      (let done (bytes result : Nat) (back : List Out) : Prop :=
        t.out = w.writes fn bytes ++ back ++ (if bitAt (wordAt w.words 0) 10 = true ∧
          (s.func fn).msixMask.getD (1 + ring) false = false ∧ s.hostUp = true then [.msix fn (1 + ring)] else []) ∧
        (result = 0 ∨ result = 5 → t.faults = s.faults) ∧
        (∀ u, (s.ring fn ring).lastFault = some u → s.now < u + 100000000 → t.faults = s.faults) ∧
        (result ≠ 0 → result ≠ 5 → (∀ u, (s.ring fn ring).lastFault = some u → u + 100000000 ≤ s.now) →
          s.faults.queue.length < 256 →
          ∃ r, t.faults.queue = s.faults.queue ++ [r] ∧ r.cls = 0x19 ∧ r.d0 = w32 ring ∧ r.d1 = w32 result)
      (reach → done w.bytes w.result [.hostWrite fn (w.addr + 24) (bytesOfWords [w32 w.bytes, w32 (1 + 2 * w.result)])]) ∧
      (¬ reach → ring = 3 ∨ at_ = none → done w.bytes w.result []) ∧
      (∀ n, ¬ reach → ring ≠ 3 → at_ = some n → n < w.bytes → done (wholeBytes w.words n) 2 []))) ∧
  ∀ (s : State) (port : Nat), (s.excNext ≠ some port → exec (.exceptionDelivery port) s = .next { s with out := [] }) ∧
    ∀ (q : Port) (x : ExcFrame) (rest : List ExcFrame), s.excNext = some port → s.port? port = some q → q.excQ = x :: rest →
    let fn := match x.conf with | some c => s.confHolder c | none => 0
    1 < (s.func fn).rings.length →
    ∃ t q', exec (.exceptionDelivery port) s = .next t ∧ t = { s with
      out := t.out, funcs := t.funcs, ports := t.ports, excLast := t.excLast } ∧ t.excLast = port ∧
      t.port? port = some q' ∧ q' = { q with excQ := rest } ∧ (∀ i, i ≠ port → t.port? i = s.port? i) ∧
      (∀ i, i ≠ fn → t.func i = s.func i) ∧ (∀ r, r ≠ 1 → t.ring fn r = s.ring fn r) ∧
      ((s.ring fn 1).enable = true → (s.func fn).held = false → 0 < (s.ring fn 1).spare →
        (t.ring fn 1).records = (s.ring fn 1).records ++ [.exc (excHeader x port x.conf (s.ring fn 1).dropped) x.frame] ∧
        (t.ring fn 1).dropped = 0 ∧ (t.ring fn 1).lost = (s.ring fn 1).lost) ∧
      ((s.ring fn 1).enable = false ∨ (s.func fn).held = true ∨ (s.ring fn 1).spare = 0 →
        (t.ring fn 1).records = (s.ring fn 1).records ∧ (t.ring fn 1).lost = true ∧
        (t.ring fn 1).dropped = (s.ring fn 1).dropped + 1)

/-! ### The whole machine -/

/-- Every command completes: none ends in a fault or a refusal, and none touches the queue of waiting commands or the clock.
So a step takes exactly the command at the front, and on an empty queue the clock alone advances by one. -/
def Obligations.EveryCommandCompletes : Prop :=
  (∀ (c : Instr) (s : State), ∃ t, exec c s = .next t ∧ t.pending = s.pending ∧ t.now = s.now) ∧
  (∀ (c : Instr) (rest : List Instr) (s : State), s.pending = c :: rest → ∃ t, step s = .next t ∧ t.pending = rest ∧ t.now =
    s.now) ∧
  ∀ s : State, s.pending = [] → ∃ t, step s = .next t ∧ t.pending = [] ∧ t.now = s.now + 1

/-- No step takes back a fuse: the minimum SVN never falls, a revocation of key 0 stays, an import secret once burned stays,
and every other fuse stays as it is, whatever the command, resets and power-on among them. The minimum and the revocation are
written only as the device first reaches READY under the running image: with ADVANCE set the minimum rises to the image's SVN,
and with REVOKE0 set under key 1 key 0 is revoked. The import secret is burned once, as a pushed image ends LOAD. SVN_STATE
shows the minimum and both revocations. -/
def Obligations.FusesOnlyAdvance : Prop :=
  (∀ s t : State, step s = .next t →
    t.fuses = { s.fuses with
      svnMin := t.fuses.svnMin, revoked0 := t.fuses.revoked0, importSet := t.fuses.importSet
      importSecret := t.fuses.importSecret } ∧
    s.fuses.svnMin ≤ t.fuses.svnMin ∧ (s.fuses.revoked0 = true → t.fuses.revoked0 = true) ∧
    (s.fuses.importSet = true → t.fuses.importSet = true ∧ t.fuses.importSecret = s.fuses.importSecret)) ∧
  (∀ (s t : State) (c : Instr), exec c s = .next t →
    t.fuses.importSet ≠ s.fuses.importSet ∨ t.fuses.importSecret ≠ s.fuses.importSecret →
    s.modes.mode = .load ∧ t.modes.mode = .calibrate ∧ s.boot.source = 3 ∧ s.fuses.importSet = false ∧ t.fuses.importSet =
      true) ∧
  (∀ (s t : State) (c : Instr), exec c s = .next t → t.fuses.svnMin ≠ s.fuses.svnMin ∨ t.fuses.revoked0 ≠ s.fuses.revoked0 →
    t.modes.mode = .ready ∧ s.boot.readyUnderImage = false ∧ t.boot.readyUnderImage = true ∧
    ∃ h, s.boot.image = some h ∧
      t.fuses.svnMin = (if bitAt h.word2 8 then max s.fuses.svnMin (fld h.word2 7 0) else s.fuses.svnMin) ∧
      t.fuses.revoked0 = (s.fuses.revoked0 || (bitAt h.word2 9 && bitAt h.word2 10))) ∧
  ∀ s : State, fld s.svnState 7 0 = s.fuses.svnMin % 256 ∧ bitAt s.svnState 8 = s.fuses.revoked0 ∧
    bitAt s.svnState 9 = s.fuses.revoked1

/-- Every step keeps the canonical form of the block's memories: HBM lines, boot window, command rings, DSP local memories,
the sessions' state copies and the tasks' output windows. -/
def Obligations.MemoriesStayCanonical : Prop :=
  ∀ s t : State, s.memWf = true → step s = .next t → t.memWf = true

/-- The device changes mode only along the table of R40, and what the mode arbiter holds goes on fitting the mode in force.
Where the last leg is gone already, one command takes SERVICE or DEGRADED through DRAIN to READY. -/
def Obligations.ModesFollowTheTable : Prop :=
  ∀ s t : State, s.modesWf → step s = .next t →
    t.modesWf ∧ (s.modes.mode.mayGo t.modes.mode = true ∨
      ((s.modes.mode = .service ∨ s.modes.mode = .degraded) ∧ t.modes.mode = .ready ∧ t.legs = []))

/-- The device leaves QUARANTINE only through a reset: a low SYS_RESET_N, a fall of PWRGOOD_MAIN, or a power-on reset. Any
other command leaves it there. -/
def Obligations.QuarantineIsLeftOnlyByReset : Prop :=
  ∀ (s t : State) (c : Instr), s.modesWf → s.modes.mode = .quarantine → exec c s = .next t →
    t.modes.mode = .quarantine ∨ (t.modes.mode = .reset ∧ isReset c = true)

/-! ### Rules stated one by one -/

/-- A critical value whose complement does not match completes SHAPER_SET, ROUTE_SET, GAIN_SET and LEG_OPEN with INTEGRITY,
and nothing else changes. -/
def Obligations.ComplementsAreChecked : Prop :=
  ∀ (s : State) (id : Nat) (c : Taken) (stun : Bool), s.effMode.working = true →
    let refused (t : State) : Prop := s.answered t id c (reply c rIntegrity 0xFFFFFFFF [])
    (s.waits id 0x060 c → shaperMalformed c = false → s.hasBucket c.fn (fld (c.w 3) 1 0) (fld (c.w 3) 23 4) = true →
      c.w 5 ≠ ~~~(c.w 4) → ∃ t, exec (.shaperSet id) s = .next t ∧ refused t) ∧
    (s.waits id 0x061 c → c.lenIs 7 = true → (c.w 5).toNat < 65536 → c.w 6 ≠ ~~~(c.w 5) →
      s.hasConf c.fn (fld (c.w 3) 15 0) = true →
      ((c.w 3).toNat < 65536 → (c.w 4).toNat < 2 ^ 21 → fld (c.w 4) 20 16 = 0 ∨ 2 ≤ fld (c.w 4) 20 16 ∧ fld (c.w 4) 20 16 ≤ 20 →
        ∃ t, exec (.routeSetAudio id) s = .next t ∧ refused t) ∧
      (65536 ≤ (c.w 3).toNat → (c.w 3).toNat < 131072 → (c.w 4).toNat < 2 ^ 21 →
        ∃ t, exec (.routeSetLayout id) s = .next t ∧ refused t)) ∧
    (s.waits id 0x062 c → c.lenIs 8 = true → (c.w 3).toNat < 65536 → (c.w 4).toNat < 65536 → (c.w 5).toNat < 65536 →
      s.hasConf c.fn (fld (c.w 3) 15 0) = true → c.w 7 ≠ ~~~(c.w 6) → ∃ t, exec (.gainSet id) s = .next t ∧ refused t) ∧
    (s.waits id 0x030 c → openMalformed c = false → s.hasConf c.fn (fld (c.w 3) 15 0) = true →
      s.hasSlot c.fn (c.w 18).toNat = true → s.hasSlot c.fn (c.w 20).toNat = true →
      (fld (c.w 3) 26 25 = 2 → (s.slot (c.w 18).toNat).profile < 3 ∧ (s.slot (c.w 20).toNat).profile < 3) →
      s.effMode ≠ .drain → c.w 19 ≠ ~~~(c.w 18) ∨ c.w 21 ≠ ~~~(c.w 20) → ∃ t, exec (.legOpen id stun) s = .next t ∧ refused t)

/-- Grants stay as they are through every command but TENANT_GRANT and the resets of the main domain: through function-level
resets, PERST_N, restarts of the control cluster and the entry into RETAIN among them. A warm or power-on reset clears them.
-/
def Obligations.GrantsSurviveAllButResets : Prop :=
  (∀ (s t : State) (c : Instr), exec c s = .next t → (∀ id, c ≠ .tenantGrant id) →
    t.grants = s.grants ∨ (t.grants = [] ∧ t.modes.mode = .reset)) ∧
  (∀ (s : State) (c : Instr) (fn : Nat), c = .vfFlr fn ∨ c = .pf0Flr ∨ c = .perst ∨ c = .watchdogExpiry ∨ c = .fwRestartDone ∨
    c = .modeTransitionDone → ∃ t, exec c s = .next t ∧ t.grants = s.grants) ∧
  (∀ (s : State) (lowNs : Nat) (taken : Bool), s.pins.pwrgoodAux = true → 10000 ≤ lowNs →
    ∃ t, exec (.pinWarmReset lowNs taken) s = .next t ∧ t.grants = []) ∧
  ∀ (s : State) (a : Nat), ∃ t, exec (.powerOn a) s = .next t ∧ t.grants = []

/-- An event that its function's mask disables changes nothing at all: not the queue, not EV_SEQ, not a counter. Bits 1 to 7
mask the events 0x101 to 0x107. -/
def Obligations.MaskedEventsAreNotRaised : Prop :=
  ∀ (s : State) (fn bit : Nat) (payload : List Word), 1 ≤ bit → bit ≤ 7 → (s.mb fn).mask.testBit bit = true →
    s.raiseEvent fn (0x100 + bit) payload = s

/-- Skew of up to 180 ns between the lanes of a port leaves ALIGN for UP; greater skew fails ALIGN, and the port starts again
after 100 ms. -/
def Obligations.AlignToleratesSkew : Prop :=
  ∀ (s : State) (p order skew : Nat) (q : Port), s.port? p = some q → s.portsRun = true → q.st = 3 → q.retryAt = none →
    (skew ≤ 180000 → ∃ t q', exec (.alignDone p order skew) s = .next t ∧ t = { s with
      out := t.out, modes := t.modes, funcs := t.funcs, audit := t.audit, faults := t.faults, avail := t.avail,
      ports := t.ports } ∧ t.port? p = some q' ∧ q'.st = 4 ∧
      q'.stSince = s.now ∧ ∀ i, i ≠ p → t.port? i = s.port? i) ∧
    (180000 < skew → ∃ t, exec (.alignDone p order skew) s = .next t ∧ t = { s with ports := t.ports, out := [] } ∧
      t.port? p = some { q with retryAt := some (s.now + 100000000) } ∧ ∀ i, i ≠ p → t.port? i = s.port? i)
end

