-- ==== Sys2Proof/Laws/FMap.lean ====
section
/-! SUPPORT. Finite tables: reading after writing, and the canonical form that every operation keeps. -/

namespace Sys2Proof.Machine

variable {α : Type}

@[simp] theorem FMap.find?_put_self (m : FMap α) (k : Nat) (v : α) : (m.put k v).find? k = some v := by
  induction m with
  | nil => simp [FMap.put, FMap.find?]
  | cons p m ih =>
    obtain ⟨j, u⟩ := p
    unfold FMap.put
    split
    · simp [FMap.find?]
    · split
      · simp [FMap.find?]
      · simp_all [FMap.find?]

theorem FMap.find?_put_ne (m : FMap α) (k i : Nat) (v : α) (h : i ≠ k) : (m.put k v).find? i = m.find? i := by
  induction m with
  | nil => simp [FMap.put, FMap.find?, h.symm]
  | cons p m ih =>
    obtain ⟨j, u⟩ := p
    unfold FMap.put
    split
    · subst_vars; simp [FMap.find?, h.symm]
    · split
      · simp [FMap.find?, h.symm]
      · simp [FMap.find?, ih]

@[simp] theorem FMap.find?_del_self (m : FMap α) (k : Nat) : (m.del k).find? k = none := by
  induction m with
  | nil => rfl
  | cons p m ih =>
    obtain ⟨j, u⟩ := p
    unfold FMap.del
    split
    · exact ih
    · simp_all [FMap.find?]

theorem FMap.find?_del_ne (m : FMap α) (k i : Nat) (h : i ≠ k) : (m.del k).find? i = m.find? i := by
  induction m with
  | nil => rfl
  | cons p m ih =>
    obtain ⟨j, u⟩ := p
    unfold FMap.del
    split
    · subst_vars; simp [FMap.find?, h.symm, ih]
    · simp [FMap.find?, ih]

@[simp] theorem FMap.getD_put_self (m : FMap α) (d : α) (k : Nat) (v : α) : (m.put k v).getD d k = v := by
  simp [FMap.getD]

theorem FMap.getD_put_ne (m : FMap α) (d : α) (k i : Nat) (v : α) (h : i ≠ k) : (m.put k v).getD d i = m.getD d i := by
  simp [FMap.getD, FMap.find?_put_ne m k i v h]

@[simp] theorem FMap.getD_setD_self [DecidableEq α] (m : FMap α) (d : α) (k : Nat) (v : α) :
    (m.setD d k v).getD d k = v := by
  unfold FMap.setD
  split
  · simp_all [FMap.getD]
  · simp

theorem FMap.getD_setD_ne [DecidableEq α] (m : FMap α) (d : α) (k i : Nat) (v : α) (h : i ≠ k) :
    (m.setD d k v).getD d i = m.getD d i := by
  unfold FMap.setD
  split
  · simp [FMap.getD, FMap.find?_del_ne m k i h]
  · exact FMap.getD_put_ne m d k i v h

theorem FMap.find?_upd_self (m : FMap α) (k : Nat) (f : α → α) : (m.upd k f).find? k = (m.find? k).map f := by
  unfold FMap.upd
  cases h : m.find? k <;> simp [h]

theorem FMap.find?_upd_ne (m : FMap α) (k i : Nat) (f : α → α) (h : i ≠ k) : (m.upd k f).find? i = m.find? i := by
  unfold FMap.upd
  split
  · rfl
  · exact FMap.find?_put_ne m k i _ h

@[simp] theorem FMap.find?_nil (k : Nat) : FMap.find? ([] : FMap α) k = none := rfl

/-- Whether key `k` lies below every key of the table. -/
def FMap.below (k : Nat) : FMap α → Bool
  | [] => true
  | (j, _) :: _ => decide (k < j)

theorem FMap.sorted_cons (j : Nat) (u : α) (m : FMap α) :
    FMap.sorted ((j, u) :: m) = (FMap.below j m && FMap.sorted m) := by
  cases m with
  | nil => rfl
  | cons p m => obtain ⟨k, v⟩ := p; rfl

theorem FMap.below_put (m : FMap α) (i k : Nat) (v : α) (h : FMap.below i m = true) (hk : i < k) :
    FMap.below i (m.put k v) = true := by
  cases m with
  | nil => simpa [FMap.put, FMap.below] using hk
  | cons p m =>
    obtain ⟨j, u⟩ := p
    unfold FMap.put
    split
    · simpa [FMap.below] using hk
    · split
      · simpa [FMap.below] using hk
      · simpa [FMap.below] using h

theorem FMap.sorted_put (m : FMap α) (k : Nat) (v : α) (h : FMap.sorted m = true) : FMap.sorted (m.put k v) = true := by
  induction m with
  | nil => rfl
  | cons p m ih =>
    obtain ⟨j, u⟩ := p
    rw [FMap.sorted_cons, Bool.and_eq_true] at h
    unfold FMap.put
    split
    · subst_vars; rw [FMap.sorted_cons, Bool.and_eq_true]; exact h
    · split
      · rename_i hkj
        rw [FMap.sorted_cons, FMap.sorted_cons, h.1, h.2]
        simp [FMap.below, hkj]
      · rw [FMap.sorted_cons, Bool.and_eq_true]
        exact ⟨FMap.below_put m j k v h.1 (by omega), ih h.2⟩

theorem FMap.below_del (m : FMap α) (i k : Nat) (h : FMap.below i m = true) (hs : FMap.sorted m = true) :
    FMap.below i (m.del k) = true := by
  induction m with
  | nil => rfl
  | cons p m ih =>
    obtain ⟨j, u⟩ := p
    rw [FMap.sorted_cons, Bool.and_eq_true] at hs
    unfold FMap.del
    split
    · apply ih _ hs.2
      cases m with
      | nil => rfl
      | cons q m => simp_all [FMap.below]; omega
    · simpa [FMap.below] using h

theorem FMap.sorted_del (m : FMap α) (k : Nat) (h : FMap.sorted m = true) : FMap.sorted (m.del k) = true := by
  induction m with
  | nil => rfl
  | cons p m ih =>
    obtain ⟨j, u⟩ := p
    have hs := h
    rw [FMap.sorted_cons, Bool.and_eq_true] at h
    unfold FMap.del
    split
    · exact ih h.2
    · rw [FMap.sorted_cons, Bool.and_eq_true]
      exact ⟨FMap.below_del m j k h.1 h.2, ih h.2⟩

theorem FMap.sorted_upd (m : FMap α) (k : Nat) (f : α → α) (h : FMap.sorted m = true) :
    FMap.sorted (m.upd k f) = true := by
  unfold FMap.upd
  split
  · exact h
  · exact FMap.sorted_put m k _ h

theorem FMap.sorted_mapVal {β : Type} (m : FMap α) (f : Nat × α → β) :
    FMap.sorted (m.map fun p => (p.1, f p)) = FMap.sorted m := by
  induction m with
  | nil => rfl
  | cons p m ih =>
    obtain ⟨j, u⟩ := p
    rw [List.map_cons, FMap.sorted_cons, FMap.sorted_cons, ih]
    cases m with
    | nil => rfl
    | cons q m => rfl

/-- Removing entries keeps the order of the keys. -/
theorem FMap.below_filter (m : FMap α) (i : Nat) (p : Nat × α → Bool) (h : FMap.below i m = true)
    (hs : FMap.sorted m = true) : FMap.below i (List.filter p m) = true := by
  induction m with
  | nil => rfl
  | cons q m ih =>
    obtain ⟨j, u⟩ := q
    rw [FMap.sorted_cons, Bool.and_eq_true] at hs
    rw [List.filter_cons]
    split
    · simpa [FMap.below] using h
    · apply ih _ hs.2
      cases m with
      | nil => rfl
      | cons q m => simp_all [FMap.below]; omega

theorem FMap.sorted_filter (m : FMap α) (p : Nat × α → Bool) (h : FMap.sorted m = true) :
    FMap.sorted (List.filter p m) = true := by
  induction m with
  | nil => rfl
  | cons q m ih =>
    obtain ⟨j, u⟩ := q
    rw [FMap.sorted_cons, Bool.and_eq_true] at h
    rw [List.filter_cons]
    split
    · rw [FMap.sorted_cons, Bool.and_eq_true]
      exact ⟨FMap.below_filter m j p h.1 h.2, ih h.2⟩
    · exact ih h.2

theorem FMap.all_put [DecidableEq α] (m : FMap α) (k : Nat) (v : α) (p : Nat × α → Bool) (h : m.all p = true)
    (hv : p (k, v) = true) : (m.put k v).all p = true := by
  induction m with
  | nil => simp [FMap.put, hv]
  | cons q m ih =>
    obtain ⟨j, u⟩ := q
    rw [List.all_cons, Bool.and_eq_true] at h
    unfold FMap.put
    split
    · simp [hv, h.2]
    · split
      · rw [List.all_cons, List.all_cons]; simp [hv, h.1, h.2]
      · rw [List.all_cons]; simp [h.1, ih h.2]

theorem FMap.all_del (m : FMap α) (k : Nat) (p : Nat × α → Bool) (h : m.all p = true) : (m.del k).all p = true := by
  induction m with
  | nil => rfl
  | cons q m ih =>
    obtain ⟨j, u⟩ := q
    rw [List.all_cons, Bool.and_eq_true] at h
    unfold FMap.del
    split
    · exact ih h.2
    · rw [List.all_cons]; simp [h.1, ih h.2]

/-- A write keeps the canonical form: writing the value of an unlisted key removes the entry. -/
theorem FMap.wf_setD [DecidableEq α] (m : FMap α) (d : α) (k : Nat) (v : α) (h : m.wf d = true) :
    (m.setD d k v).wf d = true := by
  unfold FMap.wf at h ⊢
  rw [Bool.and_eq_true] at h ⊢
  unfold FMap.setD
  split
  · exact ⟨FMap.sorted_del m k h.1, FMap.all_del m k _ h.2⟩
  · rename_i hv
    exact ⟨FMap.sorted_put m k v h.1, FMap.all_put m k v _ h.2 (by simpa using hv)⟩

theorem FMap.wf_nil [DecidableEq α] (d : α) : FMap.wf ([] : FMap α) d = true := rfl

end Sys2Proof.Machine
end

