-- ==== Sys2Proof/Laws/Memory.lean ====
section
/-! SUPPORT. Every operation on an addressed memory keeps its canonical form, and reset has it. -/

namespace Sys2Proof.Machine

/-! ### The form itself -/

theorem FMap.wf_foldl_setD {α β : Type} [DecidableEq α] (d : α) (xs : List β) (key : β → Nat) (val : β → α) (m : FMap α)
    (h : m.wf d = true) : (xs.foldl (fun (m : FMap α) x => m.setD d (key x) (val x)) m).wf d = true := by
  induction xs generalizing m with
  | nil => exact h
  | cons x xs ih => exact ih _ (FMap.wf_setD m d _ _ h)

/-- A change of one object of a table keeps what holds of every object, if it keeps it for that one. -/
theorem FMap.all_put_val {α : Type} (m : FMap α) (k : Nat) (v : α) (p : α → Bool) (h : (m.all fun x => p x.2) = true)
    (hv : p v = true) : ((m.put k v).all fun x => p x.2) = true := by
  induction m with
  | nil => simp [FMap.put, hv]
  | cons a m ih =>
    obtain ⟨j, u⟩ := a
    simp only [List.all_cons, Bool.and_eq_true] at h
    unfold FMap.put
    split
    · simp [h.2, hv]
    · split
      · simp [h.1, h.2, hv]
      · simp [h.1, ih h.2]

/-- What holds of every object of a table holds of the one read, if it holds of the default. -/
theorem FMap.all_getD {α : Type} (m : FMap α) (k : Nat) (d : α) (p : α → Bool) (h : (m.all fun x => p x.2) = true)
    (hd : p d = true) : p (m.getD d k) = true := by
  induction m with
  | nil => exact hd
  | cons a m ih =>
    obtain ⟨j, u⟩ := a
    simp only [List.all_cons, Bool.and_eq_true] at h
    unfold FMap.getD FMap.find?
    split
    · exact h.1
    · exact ih h.2

/-- Equal reads of canonical memories are equal memories: one list for each content. -/
theorem FMap.wf_setD_same {α : Type} [DecidableEq α] (m : FMap α) (d : α) (k : Nat) :
    (m.setD d k d).has k = false := by
  simp [FMap.setD, FMap.has]

/-! ### The named operations -/

/-- A byte written to a local memory. -/
theorem DspSlot.setByte_wf (x : DspSlot) (i v : Nat) (h : x.ldm.wf 0 = true) : (x.setByte i v).ldm.wf 0 = true :=
  FMap.wf_setD _ _ _ _ h

theorem DspSlot.foldl_setByte_wf (xs : List Nat) (x : DspSlot) (at_ : Nat) (f : Nat → Nat) (h : x.ldm.wf 0 = true) :
    (xs.foldl (fun (y : DspSlot) i => y.setByte (at_ + i) (f i)) x).ldm.wf 0 = true := by
  induction xs generalizing x with
  | nil => exact h
  | cons a xs ih => exact ih _ (DspSlot.setByte_wf x _ _ h)

/-- A load or store of a DSP core, beside what the rest of its bundle wrote into `y`. -/
theorem DspSlot.access_wf (x : DspSlot) (a : DspAccess) (y : DspSlot) (h : y.ldm.wf 0 = true) :
    (x.access a y).ldm.wf 0 = true := by
  have key : ∀ y : DspSlot, y.ldm.wf 0 = true →
      (if accUpdates a then { y with p := y.p.set a.ptr (BitVec.ofNat 17 (x.nextPtr a)) } else y : DspSlot).ldm.wf 0 = true := by
    intro y hy
    split <;> exact hy
  unfold DspSlot.access
  simp only
  apply key
  split
  · exact DspSlot.foldl_setByte_wf _ y _ (fun i => ((x.dr a.dreg).toNat + 2 ^ 32 * (x.dr (a.dreg + 1)).toNat) / 256 ^ i % 256) h
  · split <;> exact h

/-- The local memory at a kernel's entry. -/
theorem entrySlot_wf (t : Nat) (l : Live) (kernel stateBytes footprint entry : Nat) (wins : List Nat) (st : FMap Word) :
    (entrySlot t l kernel stateBytes footprint entry wins st).ldm.wf 0 = true := by
  unfold entrySlot
  simp only
  exact FMap.wf_foldl_setD 0 _ (fun p : Word × Nat => stateBytes / 4 + p.2) (fun p => p.1) _
    (FMap.wf_foldl_setD 0 _ (fun i : Nat => i) (fun i => st.getD 0 i) _ rfl)

/-- Words written to a task's output window. -/
theorem Live.withOut_wf (l : Live) (ws : List Word) (h : l.out.wf 0 = true) : (l.withOut ws).out.wf 0 = true :=
  FMap.wf_foldl_setD 0 _ (fun p : Word × Nat => p.2) (fun p => p.1) _ h

theorem Live.withRecords_wf (l : Live) (rs : List (List Word)) (h : l.out.wf 0 = true) :
    (l.withRecords rs).out.wf 0 = true := Live.withOut_wf l _ h

/-- The lines of every pseudo-channel stand in the canonical form. -/
def State.linesWf (s : State) : Bool := s.pchs.all fun p => p.2.lines.wf {}

theorem State.updPch_linesWf (s : State) (n : Nat) (f : Pch → Pch) (h : s.linesWf = true)
    (hf : ∀ c : Pch, c.lines.wf {} = true → (f c).lines.wf {} = true) : (s.updPch n f).linesWf = true := by
  unfold State.linesWf State.updPch
  exact FMap.all_put_val s.pchs n _ (fun c : Pch => c.lines.wf {}) h
    (hf _ (FMap.all_getD s.pchs n {} (fun c : Pch => c.lines.wf {}) h rfl))

theorem State.countPch_linesWf (s : State) (n i k : Nat) (h : s.linesWf = true) : (s.countPch n i k).linesWf = true :=
  State.updPch_linesWf s n _ h fun _ hc => hc

theorem State.fault_linesWf (s : State) (cls kind id : Nat) (d0 d1 : Word) (h : s.linesWf = true) :
    (s.fault cls kind id d0 d1).linesWf = true := by
  unfold State.fault
  split <;> exact h

/-- A read of a stack, with what it corrects, poisons and writes back (R407 to R409). -/
theorem State.readStack_linesWf (s : State) (n line : Nat) (flips : List Nat) (h : s.linesWf = true) :
    (s.readStack n line flips).2.linesWf = true := by
  unfold State.readStack
  simp only
  have h1 := State.countPch_linesWf s n 0 1 h
  have h2 : (if tagBad (tagRead ((s.pch n).lines.getD {} line) flips) then
      ((s.countPch n 0 1).countPch n 6 1).fault 0x32 7 (pchId n) (w32 (line * 64))
        (w32 (tagRead ((s.pch n).lines.getD {} line) flips)) else s.countPch n 0 1).linesWf = true := by
    split
    · exact State.fault_linesWf _ _ _ _ _ _ (State.countPch_linesWf _ _ _ _ h1)
    · exact h1
  split
  · exact State.updPch_linesWf _ _ _ (State.countPch_linesWf _ _ _ _ h2) fun _ hc => FMap.wf_setD _ _ _ _ hc
  · split
    · exact State.updPch_linesWf _ _ _ (State.fault_linesWf _ _ _ _ _ _ (State.countPch_linesWf _ _ _ _ h2))
        fun _ hc => FMap.wf_setD _ _ _ _ hc
    · exact h2

/-- Reset: every memory is empty. -/
theorem State.reset_memWf : State.reset.memWf = true := by decide

end Sys2Proof.Machine
end

