-- ==== Sys2Proof/Laws/Ops.lean ====
section
/-! SUPPORT. What the shared operations can do: one lemma each says all of the state that the operation may change, and what it
puts there. -/

namespace Sys2Proof.Machine

/-! ### Interrupts, messages and events -/

/-- A signal changes interrupts and the output only. -/
theorem State.signal_touches (s : State) (fn vec : Nat) :
    ∃ f o, s.signal fn vec = { s with funcs := f, out := o } := by
  unfold State.signal
  simp only
  split
  · exact ⟨_, s.out, rfl⟩
  · split
    · exact ⟨s.funcs, _, rfl⟩
    · exact ⟨s.funcs, s.out, rfl⟩

/-- A message changes its function's mailbox, interrupts and the output only; it stands at the end of the queue. -/
theorem State.pushMessage_touches (s : State) (fn : Nat) (ws : List Word) :
    ∃ m f o, s.pushMessage fn ws = { s with mbx := s.mbx.put fn m, funcs := f, out := o } ∧
      m.evq = (s.mb fn).evq ++ plain ws ∧ m.resv = (s.mb fn).resv ∧ m.ring = (s.mb fn).ring := by
  unfold State.pushMessage
  simp only
  split
  · obtain ⟨f, o, h⟩ := State.signal_touches (s.setMb fn _) fn 0
    exact ⟨_, f, o, h, rfl, rfl, rfl⟩
  · exact ⟨_, s.funcs, s.out, rfl, rfl, rfl, rfl⟩

/-- A message changes interrupts, the output and, of its function's mailbox, the queue and the instant of the last signal. -/
theorem State.pushMessage_answers (s : State) (fn : Nat) (ws : List Word) :
    s.pushMessage fn ws = { s with
      mbx := (s.pushMessage fn ws).mbx, funcs := (s.pushMessage fn ws).funcs, out := (s.pushMessage fn ws).out } ∧
    (s.pushMessage fn ws).mb fn = { s.mb fn with
      evq := (s.mb fn).evq ++ ws.map fun w => (w, false), signalRef := ((s.pushMessage fn ws).mb fn).signalRef } ∧
    ∀ i, i ≠ fn → (s.pushMessage fn ws).mb i = s.mb i ∧ (s.pushMessage fn ws).func i = s.func i := by
  unfold State.pushMessage State.signal
  simp only
  repeat' split
  all_goals
    refine ⟨rfl, by simp [State.setMb, State.setFunc, State.emit, State.mb], fun i hi => ⟨?_, ?_⟩⟩
    · simp [State.setMb, State.setFunc, State.emit, State.mb, FMap.getD_put_ne _ _ _ _ _ hi]
    · simp [State.setMb, State.setFunc, State.emit, State.func, FMap.getD_put_ne _ _ _ _ _ hi]

/-- An event changes mailboxes, interrupts and the output only. -/
theorem State.raiseEvent_touches (s : State) (fn code : Nat) (payload : List Word) :
    ∃ m f o, s.raiseEvent fn code payload = { s with mbx := m, funcs := f, out := o } := by
  unfold State.raiseEvent
  simp only
  split
  · exact ⟨s.mbx, s.funcs, s.out, rfl⟩
  · split
    · exact ⟨_, s.funcs, s.out, rfl⟩
    · split
      · obtain ⟨m, f, o, h, -⟩ := State.pushMessage_touches ((s.countFn fn 4 1).setMb fn
          { ((s.countFn fn 4 1).mb fn) with evSeq := ((s.countFn fn 4 1).mb fn).evSeq + 1 }) fn
          ([lengthWord (payload.length + 6), w32 (code + 4096), ((s.countFn fn 4 1).mb fn).evSeq] ++
            (s.countFn fn 4 1).stamp ++ payload)
        exact ⟨_, f, o, h⟩
      · exact ⟨_, s.funcs, s.out, rfl⟩

/-! ### Logs -/

/-- A fault record changes the fault log's writer only. -/
theorem State.fault_touches (s : State) (cls kind id : Nat) (d0 d1 : Word) :
    ∃ f, s.fault cls kind id d0 d1 = { s with faults := f } ∧ f.log = s.faults.log := by
  unfold State.fault
  split
  · exact ⟨_, rfl, rfl⟩
  · exact ⟨_, rfl, rfl⟩

/-- Where the writer has room, the record waits at the end of its queue. -/
theorem State.fault_queue (s : State) (cls kind id : Nat) (d0 d1 : Word) (h : s.faults.queue.length < 256) :
    s.fault cls kind id d0 d1 =
      { s with faults := { s.faults with queue := s.faults.queue ++ [s.faultRec cls kind id d0 d1] } } := by
  simp [State.fault, h]

/-- An audit entry changes the audit log only. -/
theorem State.auditEntry_touches (s : State) (fn origin op result phase : Nat) (tag : Word) (kind id : Nat) (d : Word) :
    ∃ r, s.auditEntry fn origin op result phase tag kind id d = { s with audit := s.audit.push r } := ⟨_, rfl⟩

/-! ### Modes, instances and fences -/

/-- A mode's entry changes the arbiter, the audit log, interrupts and the output only, and leaves the mode entered. -/
theorem State.setMode_touches (s : State) (target : Mode) (trigger : Nat) :
    ∃ m a f o, s.setMode target trigger = { s with modes := m, audit := a, funcs := f, out := o } ∧ m.mode = target := by
  unfold State.setMode
  simp only
  split
  · exact ⟨_, _, s.funcs, s.out, rfl, rfl⟩
  · obtain ⟨f, o, h⟩ := State.signal_touches ((s.setModes { s.modes with
      mode := target
      drainDeadline := if target = .drain ∨ target = .throttle then s.modes.drainDeadline else none }).auditMode
        target trigger false) 0 0
    exact ⟨_, _, f, o, h, rfl⟩

/-- An automatic transition that takes place changes the modes, the audit log, interrupts and the output only; the mode stays
or becomes the target from the source. -/
theorem State.autoNow_touches (s : State) (source target : Mode) (trigger : Nat) :
    ∃ m a f o, s.autoNow source target trigger = { s with modes := m, audit := a, funcs := f, out := o } ∧
      (m.mode = s.modes.mode ∨ s.modes.mode = source ∧ m.mode = target) := by
  unfold State.autoNow
  split
  · exact ⟨s.modes, s.audit, s.funcs, s.out, rfl, .inl rfl⟩
  · rename_i hs
    split
    · simp only
      split <;> exact ⟨_, s.audit, s.funcs, s.out, rfl, .inl rfl⟩
    · split
      · exact ⟨_, _, s.funcs, s.out, rfl, .inl rfl⟩
      · rename_i ht
        obtain ⟨m, a, f, o, h, e⟩ := s.setMode_touches target trigger
        refine ⟨m, a, f, o, h, .inr ⟨?_, e⟩⟩
        simpa [State.effMode, ht] using hs

/-- The trigger of an automatic transition changes what the transition changes. -/
theorem State.autoMode_touches (s : State) (source target : Mode) (trigger : Nat) :
    ∃ m a f o, s.autoMode source target trigger = { s with modes := m, audit := a, funcs := f, out := o } ∧
      (m.mode = s.modes.mode ∨ s.modes.mode = source ∧ m.mode = target) := by
  unfold State.autoMode
  split
  · exact ⟨_, s.audit, s.funcs, s.out, rfl, .inl rfl⟩
  · exact s.autoNow_touches source target trigger

/-- An instance that goes down is listed as unavailable; beside it only the mode may change. -/
theorem State.instanceDown_touches (s : State) (kind idx : Nat) (held : Bool) :
    ∃ m a f o, s.instanceDown kind idx held = { s with
      avail := { s.avail with down := s.avail.down.put (instId kind idx) { since := s.now, held := held } }
      modes := m, audit := a, funcs := f, out := o } ∧
      (m.mode = s.modes.mode ∨ s.modes.mode = .service ∧ m.mode = .degraded) := by
  unfold State.instanceDown
  exact State.autoMode_touches { s with
    avail := { s.avail with down := s.avail.down.put (instId kind idx) { since := s.now, held := held } } } .service .degraded 5

/-- An instance that returns is listed no more; beside it only the mode may change. -/
theorem State.instanceUp_touches (s : State) (kind idx : Nat) :
    ∃ m a f o, s.instanceUp kind idx = { s with
      avail := { s.avail with down := s.avail.down.del (instId kind idx) }
      modes := m, audit := a, funcs := f, out := o } ∧
      (m.mode = s.modes.mode ∨ s.modes.mode = .degraded ∧ m.mode = .service) := by
  unfold State.instanceUp
  simp only
  split
  · exact ⟨s.modes, s.audit, s.funcs, s.out, rfl, .inl rfl⟩
  · exact State.autoMode_touches { s with avail := { s.avail with down := s.avail.down.del (instId kind idx) } }
      .degraded .service 6

/-- The check of DRAIN changes what an automatic transition to READY changes. -/
theorem State.drainCheck_touches (s : State) :
    ∃ m a f o, s.drainCheck = { s with modes := m, audit := a, funcs := f, out := o } ∧
      (m.mode = s.modes.mode ∨ s.modes.mode = .drain ∧ m.mode = .ready) := by
  unfold State.drainCheck
  split
  · exact s.autoMode_touches .drain .ready 7
  · exact ⟨s.modes, s.audit, s.funcs, s.out, rfl, .inl rfl⟩

/-- A fatal condition changes the arbiter's requests or the fault log's writer, and never the mode itself. -/
theorem State.fatal_touches (s : State) (cause : Nat) (d : Word) :
    ∃ arb f, s.fatal cause d = { s with modes := { s.modes with arb := arb }, faults := f } := by
  unfold State.fatal
  split
  · exact ⟨s.modes.arb, s.faults, rfl⟩
  · split
    · obtain ⟨f, h, -⟩ := s.fault_touches 0x60 0 0 (w32 cause) d
      exact ⟨s.modes.arb, f, h⟩
    · exact ⟨_, s.faults, rfl⟩

/-- An event about a leg changes mailboxes, interrupts and the output only. -/
theorem State.legState_touches (s : State) (leg st cause : Nat) :
    ∃ m f o, s.legState leg st cause = { s with mbx := m, funcs := f, out := o } := by
  unfold State.legState State.legStateTo
  exact s.raiseEvent_touches _ _ _

/-- A fence of a leg changes that leg, the logs, mailboxes, interrupts and the output only; the leg is then fenced. -/
theorem State.fenceLeg_touches (s : State) (leg cls : Nat) (d0 d1 : Word) :
    ∃ f a m g o l, s.fenceLeg leg cls d0 d1 = { s with faults := f, audit := a, mbx := m, funcs := g, out := o, legs := l } ∧
      (l = s.legs ∧ (∀ g, s.legs.find? leg = some g → g.fenced = true) ∨
        l = s.legs.upd leg fun g => { g with fenced := true }) := by
  unfold State.fenceLeg
  cases hl : s.legs.find? leg with
  | none => exact ⟨s.faults, s.audit, s.mbx, s.funcs, s.out, s.legs, rfl, .inl ⟨rfl, fun _ h => nomatch h⟩⟩
  | some g =>
    obtain ⟨f, hf, -⟩ := s.fault_touches cls 2 leg d0 d1
    simp only [hf]
    split
    · exact ⟨f, s.audit, s.mbx, s.funcs, s.out, s.legs, rfl, .inl ⟨rfl, fun x hx => by cases hx; assumption⟩⟩
    · obtain ⟨m, g', o, h⟩ := State.legState_touches
        ((State.updLeg { s with faults := f } leg fun g => { g with fenced := true }).auditAuto 0 2 leg 0) leg 3 2
      exact ⟨f, _, m, g', o, _, h, .inr rfl⟩

/-- A fence of a conference changes that conference's fence and the logs only. -/
theorem State.fenceConf_touches (s : State) (c row off : Nat) :
    ∃ f a, (s.fenceConf c row off = { s with faults := f, audit := a } ∧ (s.conf c).fenced.isSome = true) ∨
      s.fenceConf c row off = { s with faults := f, audit := a, confs := s.confs.put c { s.conf c with fenced := some s.loadSeq } } := by
  obtain ⟨f, hf, -⟩ := s.fault_touches 0x20 1 c (w32 row) (w32 off)
  unfold State.fenceConf
  simp only [hf]
  split
  · exact ⟨f, s.audit, .inl ⟨rfl, ‹_›⟩⟩
  · exact ⟨f, _, .inr rfl⟩

/-- Dropped scores change conferences only. -/
theorem State.dropScores_touches (s : State) (c k : Nat) : ∃ cs, s.dropScores c k = { s with confs := cs } := by
  unfold State.dropScores
  split
  · exact ⟨s.confs, rfl⟩
  · exact ⟨_, rfl⟩

/-- A leg that is removed may change its conference's scores and the holds on key slots; it leaves no lookup entry, bucket or leg,
and its context for the packets on their way. -/
theorem State.removeLeg_touches (s : State) (leg : Nat) (h : s.legs.has leg = true) :
    ∃ c k n, s.removeLeg leg = { s with
      confs := c, slots := k, gone := n, legs := s.legs.del leg, lookups := s.lookups.filter fun e => e.leg != leg
      buckets := s.buckets.del leg } := by
  unfold State.removeLeg
  cases hl : s.legs.find? leg with
  | none => simp [FMap.has, hl] at h
  | some g =>
    simp only
    cases hs : g.slot with
    | none => exact ⟨_, _, _, rfl⟩
    | some k =>
      obtain ⟨c, hc⟩ := State.dropScores_touches ((s.releaseSlot (fld g.rxSlot 20 0)).releaseSlot (fld g.txSlot 20 0)) g.conf k
      simp only [hc]
      exact ⟨c, _, _, rfl⟩

/-- A leg's close removes it, tells a function, and may end DRAIN. -/
theorem State.closeLeg_touches (s : State) (leg cause fn : Nat) (h : s.legs.has leg = true) :
    ∃ m f o md a, s.closeLeg leg cause fn = { s.removeLeg leg with mbx := m, funcs := f, out := o, modes := md, audit := a } ∧
      (md.mode = s.modes.mode ∨ s.modes.mode = .drain ∧ md.mode = .ready) := by
  unfold State.closeLeg
  cases hl : s.legs.find? leg with
  | none => simp [FMap.has, hl] at h
  | some g =>
    obtain ⟨c, k, n, ht⟩ := s.removeLeg_touches leg h
    simp only
    have hm : (s.removeLeg leg).modes = s.modes := by rw [ht]
    generalize s.removeLeg leg = r at hm
    obtain ⟨m, f, o, hr⟩ := r.raiseEvent_touches fn 0x101 [w32 leg, w32 (0 + 256 * cause)]
    unfold State.legStateTo
    rw [hr]
    obtain ⟨md, a, f', o', hd, he⟩ := State.drainCheck_touches { r with mbx := m, funcs := f, out := o }
    exact ⟨m, f', o', md, a, hd, by simpa [hm] using he⟩

/-! ### Completions -/

theorem zipIdx_map_keep {α : Type} (l : List α) (g : α × Nat → α) (k : Nat) (h : ∀ p, g p = p.1) :
    (l.zipIdx k).map g = l := by
  induction l generalizing k with
  | nil => rfl
  | cons a l ih => simp [h, ih]

theorem plain_getD (ws : List Word) (j : Nat) : ((plain ws).getD j (0, false)).2 = false := by
  unfold plain
  rw [List.getD_eq_getElem?_getD, List.getElem?_map]
  cases ws[j]? <;> rfl

/-- Words appended without tags, and tagged as the payload has them, are the words with their tags. -/
theorem markTail (a q : List (Word × Bool)) (n : Nat) (hn : n = (a ++ q.map fun x => (x.1, false)).length) :
    ((a ++ q.map fun x => (x.1, false)).zipIdx.map fun p =>
      if (decide (n ≤ p.2 + q.length) && (q.getD (p.2 + q.length - n) (0, false)).2) = true then (p.1.1, true) else p.1) =
      a ++ q := by
  have hn' : n = a.length + q.length := by simpa using hn
  subst hn'
  apply List.ext_getElem
  · simp
  · intro i h1 h2
    simp only [List.length_map, List.length_zipIdx, List.length_append] at h1
    simp only [List.getElem_map, List.getElem_zipIdx, Nat.zero_add]
    by_cases hi : i < a.length
    · rw [if_neg (by simp; omega), List.getElem_append_left hi, List.getElem_append_left hi]
    · have hl : i - a.length < q.length := by omega
      have hk : i + q.length - (a.length + q.length) = i - a.length := by omega
      rw [hk, List.getD_eq_getElem?_getD, List.getElem?_eq_getElem hl, List.getElem_append_right (by omega),
        List.getElem_append_right (by omega)]
      simp only [Option.getD_some, List.getElem_map]
      rcases q[i - a.length] with ⟨w, b⟩
      have : a.length + q.length ≤ i + q.length := by omega
      cases b <;> simp [this]

/-- A completion answers its function and changes nothing else. -/
theorem State.complete_answered (s : State) (id result : Nat) (seq : Word) (payload : List (Word × Bool)) (c : Taken)
    (hf : s.welmus.taken.find? id = some c) (ho : c.orphan = false) :
    s.answered (s.complete id result seq payload) id c (replyWith c result seq payload) := by
  unfold State.complete
  rw [hf]
  simp only [ho, Bool.false_eq_true, if_false]
  set s1 : State := { s with welmus := { s.welmus with taken := s.welmus.taken.del id } } with hs1
  set s2 := s1.updMb c.fn fun m => { m with evReserved := m.evReserved - c.reserved } with hs2
  have hm2 : s2.mb c.fn = { s.mb c.fn with evReserved := (s.mb c.fn).evReserved - c.reserved } := by
    simp [hs2, hs1, State.updMb, State.setMb, State.mb]
  have hn2 : ∀ i, i ≠ c.fn → s2.mb i = s.mb i := by
    intro i hi
    simp [hs2, hs1, State.updMb, State.setMb, State.mb, FMap.getD_put_ne _ _ _ _ _ hi]
  have h3 := s2.pushMessage_answers c.fn
    ([lengthWord (payload.length + 4), w32 (c.op + 65536 * result), c.tag, seq] ++ payload.map Prod.fst)
  set s3 := s2.pushMessage c.fn
    ([lengthWord (payload.length + 4), w32 (c.op + 65536 * result), c.tag, seq] ++ payload.map Prod.fst) with hs3
  obtain ⟨h3a, h3b, h3c⟩ := h3
  refine ⟨?_, ?_, ?_, ?_⟩
  · unfold State.onlyAnswers State.updMb State.setMb
    rw [h3a]
    rfl
  · show s3.welmus = _
    rw [h3a]
    rfl
  · have hk : ((s3.updMb c.fn fun m => { m with
        evq := m.evq.zipIdx.map fun p =>
          if (decide (m.evq.length ≤ p.2 + payload.length) &&
            ((payload.getD (p.2 + payload.length - m.evq.length) (0, false)).2)) = true then (p.1.1, true) else p.1 }).mb c.fn) =
        { s3.mb c.fn with
          evq := (s3.mb c.fn).evq.zipIdx.map fun p =>
            if (decide ((s3.mb c.fn).evq.length ≤ p.2 + payload.length) &&
              ((payload.getD (p.2 + payload.length - (s3.mb c.fn).evq.length) (0, false)).2)) = true then (p.1.1, true)
            else p.1 } := by
      simp [State.updMb, State.setMb, State.mb]
    rw [hk, h3b, hm2]
    simp only [Mailbox.mk.injEq, true_and, and_true]
    have key := markTail ((s.mb c.fn).evq ++ plain [lengthWord (payload.length + 4), w32 (c.op + 65536 * result), c.tag, seq])
      payload _ rfl
    simpa [plain, replyWith, Function.comp_def] using key
  · intro i hi
    refine ⟨?_, ?_⟩
    · have : (s3.updMb c.fn fun m => { m with
          evq := m.evq.zipIdx.map fun p =>
            if (decide (m.evq.length ≤ p.2 + payload.length) &&
              ((payload.getD (p.2 + payload.length - m.evq.length) (0, false)).2)) = true then (p.1.1, true) else p.1 }).mb i =
          s3.mb i := by simp [State.updMb, State.setMb, State.mb, FMap.getD_put_ne _ _ _ _ _ hi]
      rw [this, (h3c i hi).1, hn2 i hi]
    · show s3.func i = s.func i
      rw [(h3c i hi).2]
      rfl

/-- The response of a command whose function was not reset: it stands at the end of the event queue, the command is no longer in
progress, and nothing else but interrupts and output changes (R73, R88, R91). -/
theorem State.complete_spec (s : State) (id result : Nat) (seq : Word) (ws : List Word) (c : Taken)
    (hf : s.welmus.taken.find? id = some c) (ho : c.orphan = false) :
    ((s.complete id result seq (plain ws)).mb c.fn).evq = (s.mb c.fn).evq ++ reply c result seq ws ∧
    (s.complete id result seq (plain ws)).welmus = { s.welmus with taken := s.welmus.taken.del id } ∧
    s.onlyAnswers (s.complete id result seq (plain ws)) := by
  unfold State.complete
  rw [hf]
  simp only [ho]
  set s1 : State := { s with welmus := { s.welmus with taken := s.welmus.taken.del id } } with hs1
  set s2 := s1.updMb c.fn fun m => { m with evReserved := m.evReserved - c.reserved } with hs2
  obtain ⟨m, f, o, h, hm, -, -⟩ := State.pushMessage_touches s2 c.fn
    ([lengthWord ((plain ws).length + 4), w32 (c.op + 65536 * result), c.tag, seq] ++ List.map Prod.fst (plain ws))
  have hp : List.map Prod.fst (plain ws) = ws := by simp [plain, Function.comp_def]
  have hl : (plain ws).length = ws.length := by simp [plain]
  have hq : (s2.mb c.fn).evq = (s.mb c.fn).evq := by
    simp [hs2, hs1, State.updMb, State.setMb, State.mb]
  have key : ∀ e : List (Word × Bool), (e.zipIdx.map fun p =>
      let i := p.2 + (plain ws).length - e.length
      if e.length ≤ p.2 + (plain ws).length && ((plain ws).getD i (0, false)).2 then (p.1.1, true) else p.1) = e := by
    intro e
    apply zipIdx_map_keep
    intro p
    simp only [plain_getD, Bool.and_false, Bool.false_eq_true, if_false]
  simp only [Bool.false_eq_true, if_false]
  rw [h]
  refine ⟨?_, ?_, ?_⟩
  · simp only [State.updMb, State.setMb, State.mb, FMap.getD_put_self, key]
    rw [hm, hq, hp, hl]
    rfl
  · rfl
  · unfold State.onlyAnswers
    rfl

/-- A rejected command answers with its code and no payload. -/
theorem State.reject_spec (s : State) (id result : Nat) (c : Taken) (hf : s.welmus.taken.find? id = some c)
    (ho : c.orphan = false) :
    ((s.reject id result).mb c.fn).evq = (s.mb c.fn).evq ++ reply c result 0xFFFFFFFF [] ∧
    (s.reject id result).welmus = { s.welmus with taken := s.welmus.taken.del id } ∧
    s.onlyAnswers (s.reject id result) := State.complete_spec s id result 0xFFFFFFFF [] c hf ho

/-- A command that waits runs its meaning on the state with nothing sent out. -/
theorem State.command_waits (s : State) (id op : Nat) (c : Taken) (body : Taken → State → State) (h : s.waits id op c) :
    s.command id op body = body c s.begin := by
  obtain ⟨hf, ho, hc, hm, hp, -, he⟩ := h
  have he' : s.begin.eligible id c = true := he
  have hf' : s.begin.welmus.taken.find? id = some c := hf
  simp [State.command, hf', ho, hc, hm, hp, he']

/-- Checks that all pass let the command go on. -/
theorem State.checked_ok (s : State) (id : Nat) (checks : List (Bool × Nat)) (ok : State → State)
    (h : firstFail checks = none) : s.checked id checks ok = ok s := by
  simp [State.checked, h]

/-- The first check that fails gives the result. -/
theorem State.checked_fail (s : State) (id code : Nat) (checks : List (Bool × Nat)) (ok : State → State)
    (h : firstFail checks = some code) : s.checked id checks ok = s.reject id code := by
  simp [State.checked, h]

/-- Only answers, and nothing was sent out before: the rest of the state is as before the command. -/
theorem State.onlyAnswers_begin (s t : State) (h : s.begin.onlyAnswers t) : s.onlyAnswers t := by
  unfold State.onlyAnswers at *
  rw [h]
  rfl

end Sys2Proof.Machine
end

