-- ==== Sys2Proof/Laws/Sched.lean ====
section
/-! SUPPORT. The operations of the task scheduler that change nothing of the device but the scheduler, and the counts of releases
that the buses hold (R304): one lemma each. -/

namespace Sys2Proof.Machine

/-- `t` is `s` but for its scheduler and its buses' counts. -/
def State.onlySched (s t : State) : Prop := ∃ x b, t = { s with sched := x, buses := b }

theorem State.onlySched_refl (s : State) : s.onlySched s := ⟨s.sched, s.buses, rfl⟩

theorem State.onlySched_trans {s t u : State} (h : s.onlySched t) (k : t.onlySched u) : s.onlySched u := by
  obtain ⟨x, b, rfl⟩ := h
  obtain ⟨y, c, rfl⟩ := k
  exact ⟨y, c, rfl⟩

/-- A fold of steps that each change the scheduler only. -/
theorem State.onlySched_foldl {α : Type} (f : State → α → State) (hf : ∀ (s : State) (a : α), s.onlySched (f s a)) (l : List α) (s : State) :
    s.onlySched (l.foldl f s) := by
  induction l generalizing s with
  | nil => exact s.onlySched_refl
  | cons a l ih => exact State.onlySched_trans (hf s a) (ih (f s a))

theorem State.updSched_only (s : State) (f : Sched → Sched) : s.onlySched (s.updSched f) := ⟨_, _, rfl⟩

theorem State.countSched_only (s : State) (i k : Nat) : s.onlySched (s.countSched i k) := ⟨_, _, rfl⟩

theorem State.updLive_only (s : State) (t : Nat) (f : Live → Live) : s.onlySched (s.updLive t f) := ⟨_, _, rfl⟩

theorem State.updRun_only (s : State) (r : Nat) (f : GraphRun → GraphRun) : s.onlySched (s.updRun r f) := ⟨_, _, rfl⟩

theorem State.putDue_only (s : State) (i d : Nat) (e : Due) : s.onlySched (s.putDue i d e) := ⟨_, _, rfl⟩

theorem State.dropDue_only (s : State) (p : Due → Bool) : s.onlySched (s.dropDue p) := ⟨_, _, rfl⟩

theorem State.endLeases_only (s : State) (t : Nat) (p : Lease → Bool) : s.onlySched (s.endLeases t p) := ⟨_, _, rfl⟩

theorem State.grant_only (s : State) (a b c d e f : Nat) : s.onlySched (s.grant a b c d e f).2 := ⟨_, _, rfl⟩

theorem State.trace_only (s : State) (a b c d e f g h : Nat) : s.onlySched (s.trace a b c d e f g h) := by
  unfold State.trace State.lanternPut
  simp only
  repeat' split
  all_goals first | exact s.onlySched_refl | exact ⟨_, _, rfl⟩

theorem State.traceTask_only (s : State) (a t b : Nat) : s.onlySched (s.traceTask a t b) := by
  unfold State.traceTask
  split
  · exact s.onlySched_refl
  · exact s.trace_only ..

theorem State.pushReady_only (s : State) (t : Nat) (l : Live) : s.onlySched (s.pushReady t l) := ⟨_, _, rfl⟩

/-- A task that waits on a flow. -/
theorem State.waitFlow_only (s : State) (t k : Nat) (l : Live) : s.onlySched (s.waitFlow t k l) := by
  unfold State.waitFlow
  exact State.onlySched_trans ⟨_, _, rfl⟩ (State.traceTask_only _ _ _ _)

/-- A task that becomes ready. -/
theorem State.makeReady_only (s : State) (t : Nat) : s.onlySched (s.makeReady t) := by
  unfold State.makeReady
  split
  · exact s.onlySched_refl
  · simp only
    generalize hu : s.traceTask 2 t _ = u
    have h : s.onlySched u := hu ▸ s.traceTask_only 2 t _
    split
    · exact State.onlySched_trans h (State.pushReady_only _ _ _)
    · split
      · exact State.onlySched_trans h (State.waitFlow_only _ _ _ _)
      · exact State.onlySched_trans h (State.pushReady_only _ _ _)

/-- A free flow passes to its first waiting task. -/
theorem State.passFlow_only (s : State) (k : Nat) : s.onlySched (s.passFlow k) := by
  unfold State.passFlow
  split
  · exact s.onlySched_refl
  · split
    · exact s.onlySched_refl
    · simp only
      generalize hv : s.updSched _ = v
      have k := hv ▸ State.updSched_only s _
      split
      · exact k
      · exact State.onlySched_trans k (State.pushReady_only _ _ _)

/-- A flow that frees. -/
theorem State.freeFlow_only (s : State) (t : Nat) (l : Live) : s.onlySched (s.freeFlow t l) := by
  unfold State.freeFlow
  split
  · exact s.onlySched_refl
  · split
    · exact s.onlySched_refl
    · exact State.onlySched_trans (State.updSched_only s _) (State.passFlow_only _ _)

/-- A flow that is claimed. -/
theorem State.claimFlow_only (s : State) (t : Nat) (l : Live) : s.onlySched (s.claimFlow t l) := by
  unfold State.claimFlow
  split
  · exact s.onlySched_refl
  · simp only
    generalize hu : s.updSched _ = u
    have h : s.onlySched u := hu ▸ State.updSched_only s _
    refine State.onlySched_trans h (State.onlySched_foldl _ (fun v p => ?_) _ _)
    exact State.onlySched_trans (State.updSched_only v _) (State.waitFlow_only _ _ _ _)

/-- A task skipped for credit. -/
theorem State.skip_only (s : State) (t typ : Nat) : s.onlySched (s.skip t typ) := by
  unfold State.skip
  split
  · exact s.onlySched_refl
  · rename_i l _
    simp only
    generalize hu : (if l.skips = 0 then s.countSched 9 1 else s) = u
    have h : s.onlySched u := by
      subst hu
      split
      · exact s.countSched_only 9 1
      · exact s.onlySched_refl
    have k : s.onlySched ((u.updLive t fun l => { l with skips := l.skips + 1 }).traceTask 7 t (l.skips + 1)) :=
      State.onlySched_trans (State.onlySched_trans h (u.updLive_only t _)) (State.traceTask_only _ _ _ _)
    split
    · exact State.onlySched_trans k (State.updSched_only _ _)
    · exact k

/-- A completion's count and record. -/
theorem State.noteComplete_only (s : State) (t st c : Nat) : s.onlySched (s.noteComplete t st c) := by
  unfold State.noteComplete
  exact State.onlySched_trans ⟨_, _, rfl⟩ (State.traceTask_only _ _ _ _)

/-- One lease revoked. -/
theorem State.noteRevoke_only (s : State) (t k : Nat) : s.onlySched (s.noteRevoke t k) := by
  unfold State.noteRevoke
  exact State.onlySched_trans ⟨_, _, rfl⟩ (State.traceTask_only _ _ _ _)

/-- An abort that is requested. -/
theorem State.requestAbort_only (s : State) (t : Nat) (b : Bool) : s.onlySched (s.requestAbort t b) := by
  unfold State.requestAbort
  exact State.onlySched_trans ⟨_, _, rfl⟩ (State.traceTask_only _ _ _ _)

/-- A change of one bus. -/
theorem State.updBus_only (s : State) (i : Nat) (f : BusState → BusState) : s.onlySched (s.updBus i f) := ⟨_, _, rfl⟩

/-- The counts of a release. -/
theorem State.countFrames_only (s : State) (c b : Nat) (d : GraphRec) (made : Bool) :
    s.onlySched (s.countFrames c b d made).1 := by
  unfold State.countFrames
  suffices h : ∀ (l : List TaskRec) (x : State × FMap Nat), s.onlySched x.1 →
      s.onlySched (l.foldl (fun (x : State × FMap Nat) t =>
        match x.1.busNo c b t.ref with
        | none => x
        | some i =>
          match (match (x.1.buses.getD {} i).rel with | some k => some (k + 1) | none => if made then some 0 else none) with
          | none => x
          | some k => (x.1.updBus i fun y => { y with rel := some k }, x.2.put t.ref k)) x).1 from
    h _ (s, []) s.onlySched_refl
  intro l
  induction l with
  | nil => exact fun _ h => h
  | cons t l ih =>
    intro x h
    refine ih _ ?_
    dsimp only
    split
    · exact h
    · split
      · exact h
      · exact State.onlySched_trans h (State.updBus_only _ _ _)

/-- A release creates an instance, or counts one skipped. -/
theorem State.release_only (s : State) (c b : Nat) (d : GraphRec) (k i : Nat) (au : Option Au) :
    s.onlySched (s.release c b d k i au) := by
  unfold State.release
  simp only
  split
  · exact State.onlySched_trans (State.countFrames_only s c b d false)
      (State.onlySched_trans (State.countSched_only _ 1 1) (State.trace_only ..))
  · generalize hw : (s.countFrames c b d true).1 = w
    have h0 : s.onlySched w := hw ▸ s.countFrames_only c b d true
    generalize hu : (State.updSched w _).countSched 0 1 = u
    have h : s.onlySched u := State.onlySched_trans h0 (hu ▸ ⟨_, _, rfl⟩)
    generalize hv : (u.trace 1 0 7 0 0 0x3FFFF c d.graph).putDue 2 _ _ = v
    have k : s.onlySched v := hv ▸ State.onlySched_trans h (State.onlySched_trans (State.trace_only ..) (State.putDue_only ..))
    refine State.onlySched_trans k (State.onlySched_foldl _ (fun w p => ?_) _ _)
    split
    · exact State.makeReady_only _ _
    · exact State.onlySched_refl _

/-- What no change of the scheduler alone can reach. -/
theorem State.onlySched_keeps {s t : State} (h : s.onlySched t) :
    t.pending = s.pending ∧ t.now = s.now ∧ t.modes = s.modes ∧ t.fuses = s.fuses ∧ t.confs = s.confs ∧ t.sess = s.sess ∧
      t.outs = s.outs ∧ t.dsps = s.dsps ∧ t.legs = s.legs ∧ t.grants = s.grants := by
  obtain ⟨x, b, rfl⟩ := h
  exact ⟨rfl, rfl, rfl, rfl, rfl, rfl, rfl, rfl, rfl, rfl⟩

end Sys2Proof.Machine
end

