-- ==== Sys2Proof/Laws/State.lean ====
section
/-! SUPPORT. What each update of one part of the state leaves and sets: one lemma per field and update, so that no proof unfolds a
record update. -/

namespace Sys2Proof.Machine

variable (s : State)

/-! ### begin -/

@[simp] theorem State.begin_pending : (s.begin).pending = s.pending := rfl
@[simp] theorem State.begin_out : (s.begin).out = [] := rfl
@[simp] theorem State.begin_now : (s.begin).now = s.now := rfl
@[simp] theorem State.begin_fresh : (s.begin).fresh = s.fresh := rfl
@[simp] theorem State.begin_modes : (s.begin).modes = s.modes := rfl
@[simp] theorem State.begin_pins : (s.begin).pins = s.pins := rfl
@[simp] theorem State.begin_boot : (s.begin).boot = s.boot := rfl
@[simp] theorem State.begin_fuses : (s.begin).fuses = s.fuses := rfl
@[simp] theorem State.begin_mbx : (s.begin).mbx = s.mbx := rfl
@[simp] theorem State.begin_funcs : (s.begin).funcs = s.funcs := rfl
@[simp] theorem State.begin_welmus : (s.begin).welmus = s.welmus := rfl
@[simp] theorem State.begin_grants : (s.begin).grants = s.grants := rfl
@[simp] theorem State.begin_audit : (s.begin).audit = s.audit := rfl
@[simp] theorem State.begin_faults : (s.begin).faults = s.faults := rfl
@[simp] theorem State.begin_avail : (s.begin).avail = s.avail := rfl
@[simp] theorem State.begin_survey : (s.begin).survey = s.survey := rfl
@[simp] theorem State.begin_vdd : (s.begin).vdd = s.vdd := rfl
@[simp] theorem State.begin_thermal : (s.begin).thermal = s.thermal := rfl
@[simp] theorem State.begin_smbus : (s.begin).smbus = s.smbus := rfl
@[simp] theorem State.begin_freq : (s.begin).freq = s.freq := rfl
@[simp] theorem State.begin_sram : (s.begin).sram = s.sram := rfl
@[simp] theorem State.begin_jtag : (s.begin).jtag = s.jtag := rfl
@[simp] theorem State.begin_loads : (s.begin).loads = s.loads := rfl
@[simp] theorem State.begin_loadSeq : (s.begin).loadSeq = s.loadSeq := rfl
@[simp] theorem State.begin_confs : (s.begin).confs = s.confs := rfl
@[simp] theorem State.begin_ports : (s.begin).ports = s.ports := rfl
@[simp] theorem State.begin_shorted : (s.begin).shorted = s.shorted := rfl
@[simp] theorem State.begin_turns : (s.begin).turns = s.turns := rfl
@[simp] theorem State.begin_excLast : (s.begin).excLast = s.excLast := rfl
@[simp] theorem State.begin_time : (s.begin).time = s.time := rfl
@[simp] theorem State.begin_legs : (s.begin).legs = s.legs := rfl
@[simp] theorem State.begin_legSerial : (s.begin).legSerial = s.legSerial := rfl
@[simp] theorem State.begin_gone : (s.begin).gone = s.gone := rfl
@[simp] theorem State.begin_lookups : (s.begin).lookups = s.lookups := rfl
@[simp] theorem State.begin_slots : (s.begin).slots = s.slots := rfl
@[simp] theorem State.begin_keyCache : (s.begin).keyCache = s.keyCache := rfl
@[simp] theorem State.begin_storageKey : (s.begin).storageKey = s.storageKey := rfl
@[simp] theorem State.begin_kik : (s.begin).kik = s.kik := rfl
@[simp] theorem State.begin_cores : (s.begin).cores = s.cores := rfl
@[simp] theorem State.begin_hmacs : (s.begin).hmacs = s.hmacs := rfl
@[simp] theorem State.begin_takeNo : (s.begin).takeNo = s.takeNo := rfl
@[simp] theorem State.begin_rxJobs : (s.begin).rxJobs = s.rxJobs := rfl
@[simp] theorem State.begin_txJobs : (s.begin).txJobs = s.txJobs := rfl
@[simp] theorem State.begin_replQ : (s.begin).replQ = s.replQ := rfl
@[simp] theorem State.begin_egressQ : (s.begin).egressQ = s.egressQ := rfl
@[simp] theorem State.begin_localQ : (s.begin).localQ = s.localQ := rfl
@[simp] theorem State.begin_stunQ : (s.begin).stunQ = s.stunQ := rfl
@[simp] theorem State.begin_buckets : (s.begin).buckets = s.buckets := rfl
@[simp] theorem State.begin_store : (s.begin).store = s.store := rfl
@[simp] theorem State.begin_chargeNo : (s.begin).chargeNo = s.chargeNo := rfl
@[simp] theorem State.begin_lookNo : (s.begin).lookNo = s.lookNo := rfl
@[simp] theorem State.begin_pchs : (s.begin).pchs = s.pchs := rfl
@[simp] theorem State.begin_towers : (s.begin).towers = s.towers := rfl
@[simp] theorem State.begin_hbm : (s.begin).hbm = s.hbm := rfl
@[simp] theorem State.begin_panic : (s.begin).panic = s.panic := rfl
@[simp] theorem State.begin_waitQ : (s.begin).waitQ = s.waitQ := rfl
@[simp] theorem State.begin_sched : (s.begin).sched = s.sched := rfl
@[simp] theorem State.begin_sess : (s.begin).sess = s.sess := rfl
@[simp] theorem State.begin_buses : (s.begin).buses = s.buses := rfl
@[simp] theorem State.begin_outs : (s.begin).outs = s.outs := rfl
@[simp] theorem State.begin_dsps : (s.begin).dsps = s.dsps := rfl
@[simp] theorem State.begin_mediaSerial : (s.begin).mediaSerial = s.mediaSerial := rfl
@[simp] theorem State.begin_encProbe : (s.begin).encProbe = s.encProbe := rfl
@[simp] theorem State.begin_probe : (s.begin).probe = s.probe := rfl

/-! ### emit -/

@[simp] theorem State.emit_pending (o : Out) : (s.emit o).pending = s.pending := rfl
@[simp] theorem State.emit_out (o : Out) : (s.emit o).out = s.out ++ [o] := rfl
@[simp] theorem State.emit_now (o : Out) : (s.emit o).now = s.now := rfl
@[simp] theorem State.emit_fresh (o : Out) : (s.emit o).fresh = s.fresh := rfl
@[simp] theorem State.emit_modes (o : Out) : (s.emit o).modes = s.modes := rfl
@[simp] theorem State.emit_pins (o : Out) : (s.emit o).pins = s.pins := rfl
@[simp] theorem State.emit_boot (o : Out) : (s.emit o).boot = s.boot := rfl
@[simp] theorem State.emit_fuses (o : Out) : (s.emit o).fuses = s.fuses := rfl
@[simp] theorem State.emit_mbx (o : Out) : (s.emit o).mbx = s.mbx := rfl
@[simp] theorem State.emit_funcs (o : Out) : (s.emit o).funcs = s.funcs := rfl
@[simp] theorem State.emit_welmus (o : Out) : (s.emit o).welmus = s.welmus := rfl
@[simp] theorem State.emit_grants (o : Out) : (s.emit o).grants = s.grants := rfl
@[simp] theorem State.emit_audit (o : Out) : (s.emit o).audit = s.audit := rfl
@[simp] theorem State.emit_faults (o : Out) : (s.emit o).faults = s.faults := rfl
@[simp] theorem State.emit_avail (o : Out) : (s.emit o).avail = s.avail := rfl
@[simp] theorem State.emit_survey (o : Out) : (s.emit o).survey = s.survey := rfl
@[simp] theorem State.emit_vdd (o : Out) : (s.emit o).vdd = s.vdd := rfl
@[simp] theorem State.emit_thermal (o : Out) : (s.emit o).thermal = s.thermal := rfl
@[simp] theorem State.emit_smbus (o : Out) : (s.emit o).smbus = s.smbus := rfl
@[simp] theorem State.emit_freq (o : Out) : (s.emit o).freq = s.freq := rfl
@[simp] theorem State.emit_sram (o : Out) : (s.emit o).sram = s.sram := rfl
@[simp] theorem State.emit_jtag (o : Out) : (s.emit o).jtag = s.jtag := rfl
@[simp] theorem State.emit_loads (o : Out) : (s.emit o).loads = s.loads := rfl
@[simp] theorem State.emit_loadSeq (o : Out) : (s.emit o).loadSeq = s.loadSeq := rfl
@[simp] theorem State.emit_confs (o : Out) : (s.emit o).confs = s.confs := rfl
@[simp] theorem State.emit_ports (o : Out) : (s.emit o).ports = s.ports := rfl
@[simp] theorem State.emit_shorted (o : Out) : (s.emit o).shorted = s.shorted := rfl
@[simp] theorem State.emit_turns (o : Out) : (s.emit o).turns = s.turns := rfl
@[simp] theorem State.emit_excLast (o : Out) : (s.emit o).excLast = s.excLast := rfl
@[simp] theorem State.emit_time (o : Out) : (s.emit o).time = s.time := rfl
@[simp] theorem State.emit_legs (o : Out) : (s.emit o).legs = s.legs := rfl
@[simp] theorem State.emit_legSerial (o : Out) : (s.emit o).legSerial = s.legSerial := rfl
@[simp] theorem State.emit_gone (o : Out) : (s.emit o).gone = s.gone := rfl
@[simp] theorem State.emit_lookups (o : Out) : (s.emit o).lookups = s.lookups := rfl
@[simp] theorem State.emit_slots (o : Out) : (s.emit o).slots = s.slots := rfl
@[simp] theorem State.emit_keyCache (o : Out) : (s.emit o).keyCache = s.keyCache := rfl
@[simp] theorem State.emit_storageKey (o : Out) : (s.emit o).storageKey = s.storageKey := rfl
@[simp] theorem State.emit_kik (o : Out) : (s.emit o).kik = s.kik := rfl
@[simp] theorem State.emit_cores (o : Out) : (s.emit o).cores = s.cores := rfl
@[simp] theorem State.emit_hmacs (o : Out) : (s.emit o).hmacs = s.hmacs := rfl
@[simp] theorem State.emit_takeNo (o : Out) : (s.emit o).takeNo = s.takeNo := rfl
@[simp] theorem State.emit_rxJobs (o : Out) : (s.emit o).rxJobs = s.rxJobs := rfl
@[simp] theorem State.emit_txJobs (o : Out) : (s.emit o).txJobs = s.txJobs := rfl
@[simp] theorem State.emit_replQ (o : Out) : (s.emit o).replQ = s.replQ := rfl
@[simp] theorem State.emit_egressQ (o : Out) : (s.emit o).egressQ = s.egressQ := rfl
@[simp] theorem State.emit_localQ (o : Out) : (s.emit o).localQ = s.localQ := rfl
@[simp] theorem State.emit_stunQ (o : Out) : (s.emit o).stunQ = s.stunQ := rfl
@[simp] theorem State.emit_buckets (o : Out) : (s.emit o).buckets = s.buckets := rfl
@[simp] theorem State.emit_store (o : Out) : (s.emit o).store = s.store := rfl
@[simp] theorem State.emit_chargeNo (o : Out) : (s.emit o).chargeNo = s.chargeNo := rfl
@[simp] theorem State.emit_lookNo (o : Out) : (s.emit o).lookNo = s.lookNo := rfl
@[simp] theorem State.emit_pchs (o : Out) : (s.emit o).pchs = s.pchs := rfl
@[simp] theorem State.emit_towers (o : Out) : (s.emit o).towers = s.towers := rfl
@[simp] theorem State.emit_hbm (o : Out) : (s.emit o).hbm = s.hbm := rfl
@[simp] theorem State.emit_panic (o : Out) : (s.emit o).panic = s.panic := rfl
@[simp] theorem State.emit_waitQ (o : Out) : (s.emit o).waitQ = s.waitQ := rfl
@[simp] theorem State.emit_sched (o : Out) : (s.emit o).sched = s.sched := rfl
@[simp] theorem State.emit_sess (o : Out) : (s.emit o).sess = s.sess := rfl
@[simp] theorem State.emit_buses (o : Out) : (s.emit o).buses = s.buses := rfl
@[simp] theorem State.emit_outs (o : Out) : (s.emit o).outs = s.outs := rfl
@[simp] theorem State.emit_dsps (o : Out) : (s.emit o).dsps = s.dsps := rfl
@[simp] theorem State.emit_mediaSerial (o : Out) : (s.emit o).mediaSerial = s.mediaSerial := rfl
@[simp] theorem State.emit_encProbe (o : Out) : (s.emit o).encProbe = s.encProbe := rfl
@[simp] theorem State.emit_probe (o : Out) : (s.emit o).probe = s.probe := rfl

/-! ### setMb -/

@[simp] theorem State.setMb_pending (fn : Nat) (m : Mailbox) : (s.setMb fn m).pending = s.pending := rfl
@[simp] theorem State.setMb_out (fn : Nat) (m : Mailbox) : (s.setMb fn m).out = s.out := rfl
@[simp] theorem State.setMb_now (fn : Nat) (m : Mailbox) : (s.setMb fn m).now = s.now := rfl
@[simp] theorem State.setMb_fresh (fn : Nat) (m : Mailbox) : (s.setMb fn m).fresh = s.fresh := rfl
@[simp] theorem State.setMb_modes (fn : Nat) (m : Mailbox) : (s.setMb fn m).modes = s.modes := rfl
@[simp] theorem State.setMb_pins (fn : Nat) (m : Mailbox) : (s.setMb fn m).pins = s.pins := rfl
@[simp] theorem State.setMb_boot (fn : Nat) (m : Mailbox) : (s.setMb fn m).boot = s.boot := rfl
@[simp] theorem State.setMb_fuses (fn : Nat) (m : Mailbox) : (s.setMb fn m).fuses = s.fuses := rfl
@[simp] theorem State.setMb_mbx (fn : Nat) (m : Mailbox) : (s.setMb fn m).mbx = s.mbx.put fn m := rfl
@[simp] theorem State.setMb_funcs (fn : Nat) (m : Mailbox) : (s.setMb fn m).funcs = s.funcs := rfl
@[simp] theorem State.setMb_welmus (fn : Nat) (m : Mailbox) : (s.setMb fn m).welmus = s.welmus := rfl
@[simp] theorem State.setMb_grants (fn : Nat) (m : Mailbox) : (s.setMb fn m).grants = s.grants := rfl
@[simp] theorem State.setMb_audit (fn : Nat) (m : Mailbox) : (s.setMb fn m).audit = s.audit := rfl
@[simp] theorem State.setMb_faults (fn : Nat) (m : Mailbox) : (s.setMb fn m).faults = s.faults := rfl
@[simp] theorem State.setMb_avail (fn : Nat) (m : Mailbox) : (s.setMb fn m).avail = s.avail := rfl
@[simp] theorem State.setMb_survey (fn : Nat) (m : Mailbox) : (s.setMb fn m).survey = s.survey := rfl
@[simp] theorem State.setMb_vdd (fn : Nat) (m : Mailbox) : (s.setMb fn m).vdd = s.vdd := rfl
@[simp] theorem State.setMb_thermal (fn : Nat) (m : Mailbox) : (s.setMb fn m).thermal = s.thermal := rfl
@[simp] theorem State.setMb_smbus (fn : Nat) (m : Mailbox) : (s.setMb fn m).smbus = s.smbus := rfl
@[simp] theorem State.setMb_freq (fn : Nat) (m : Mailbox) : (s.setMb fn m).freq = s.freq := rfl
@[simp] theorem State.setMb_sram (fn : Nat) (m : Mailbox) : (s.setMb fn m).sram = s.sram := rfl
@[simp] theorem State.setMb_jtag (fn : Nat) (m : Mailbox) : (s.setMb fn m).jtag = s.jtag := rfl
@[simp] theorem State.setMb_loads (fn : Nat) (m : Mailbox) : (s.setMb fn m).loads = s.loads := rfl
@[simp] theorem State.setMb_loadSeq (fn : Nat) (m : Mailbox) : (s.setMb fn m).loadSeq = s.loadSeq := rfl
@[simp] theorem State.setMb_confs (fn : Nat) (m : Mailbox) : (s.setMb fn m).confs = s.confs := rfl
@[simp] theorem State.setMb_ports (fn : Nat) (m : Mailbox) : (s.setMb fn m).ports = s.ports := rfl
@[simp] theorem State.setMb_shorted (fn : Nat) (m : Mailbox) : (s.setMb fn m).shorted = s.shorted := rfl
@[simp] theorem State.setMb_turns (fn : Nat) (m : Mailbox) : (s.setMb fn m).turns = s.turns := rfl
@[simp] theorem State.setMb_excLast (fn : Nat) (m : Mailbox) : (s.setMb fn m).excLast = s.excLast := rfl
@[simp] theorem State.setMb_time (fn : Nat) (m : Mailbox) : (s.setMb fn m).time = s.time := rfl
@[simp] theorem State.setMb_legs (fn : Nat) (m : Mailbox) : (s.setMb fn m).legs = s.legs := rfl
@[simp] theorem State.setMb_legSerial (fn : Nat) (m : Mailbox) : (s.setMb fn m).legSerial = s.legSerial := rfl
@[simp] theorem State.setMb_gone (fn : Nat) (m : Mailbox) : (s.setMb fn m).gone = s.gone := rfl
@[simp] theorem State.setMb_lookups (fn : Nat) (m : Mailbox) : (s.setMb fn m).lookups = s.lookups := rfl
@[simp] theorem State.setMb_slots (fn : Nat) (m : Mailbox) : (s.setMb fn m).slots = s.slots := rfl
@[simp] theorem State.setMb_keyCache (fn : Nat) (m : Mailbox) : (s.setMb fn m).keyCache = s.keyCache := rfl
@[simp] theorem State.setMb_storageKey (fn : Nat) (m : Mailbox) : (s.setMb fn m).storageKey = s.storageKey := rfl
@[simp] theorem State.setMb_kik (fn : Nat) (m : Mailbox) : (s.setMb fn m).kik = s.kik := rfl
@[simp] theorem State.setMb_cores (fn : Nat) (m : Mailbox) : (s.setMb fn m).cores = s.cores := rfl
@[simp] theorem State.setMb_hmacs (fn : Nat) (m : Mailbox) : (s.setMb fn m).hmacs = s.hmacs := rfl
@[simp] theorem State.setMb_takeNo (fn : Nat) (m : Mailbox) : (s.setMb fn m).takeNo = s.takeNo := rfl
@[simp] theorem State.setMb_rxJobs (fn : Nat) (m : Mailbox) : (s.setMb fn m).rxJobs = s.rxJobs := rfl
@[simp] theorem State.setMb_txJobs (fn : Nat) (m : Mailbox) : (s.setMb fn m).txJobs = s.txJobs := rfl
@[simp] theorem State.setMb_replQ (fn : Nat) (m : Mailbox) : (s.setMb fn m).replQ = s.replQ := rfl
@[simp] theorem State.setMb_egressQ (fn : Nat) (m : Mailbox) : (s.setMb fn m).egressQ = s.egressQ := rfl
@[simp] theorem State.setMb_localQ (fn : Nat) (m : Mailbox) : (s.setMb fn m).localQ = s.localQ := rfl
@[simp] theorem State.setMb_stunQ (fn : Nat) (m : Mailbox) : (s.setMb fn m).stunQ = s.stunQ := rfl
@[simp] theorem State.setMb_buckets (fn : Nat) (m : Mailbox) : (s.setMb fn m).buckets = s.buckets := rfl
@[simp] theorem State.setMb_store (fn : Nat) (m : Mailbox) : (s.setMb fn m).store = s.store := rfl
@[simp] theorem State.setMb_chargeNo (fn : Nat) (m : Mailbox) : (s.setMb fn m).chargeNo = s.chargeNo := rfl
@[simp] theorem State.setMb_lookNo (fn : Nat) (m : Mailbox) : (s.setMb fn m).lookNo = s.lookNo := rfl
@[simp] theorem State.setMb_pchs (fn : Nat) (m : Mailbox) : (s.setMb fn m).pchs = s.pchs := rfl
@[simp] theorem State.setMb_towers (fn : Nat) (m : Mailbox) : (s.setMb fn m).towers = s.towers := rfl
@[simp] theorem State.setMb_hbm (fn : Nat) (m : Mailbox) : (s.setMb fn m).hbm = s.hbm := rfl
@[simp] theorem State.setMb_panic (fn : Nat) (m : Mailbox) : (s.setMb fn m).panic = s.panic := rfl
@[simp] theorem State.setMb_waitQ (fn : Nat) (m : Mailbox) : (s.setMb fn m).waitQ = s.waitQ := rfl
@[simp] theorem State.setMb_sched (fn : Nat) (m : Mailbox) : (s.setMb fn m).sched = s.sched := rfl
@[simp] theorem State.setMb_sess (fn : Nat) (m : Mailbox) : (s.setMb fn m).sess = s.sess := rfl
@[simp] theorem State.setMb_buses (fn : Nat) (m : Mailbox) : (s.setMb fn m).buses = s.buses := rfl
@[simp] theorem State.setMb_outs (fn : Nat) (m : Mailbox) : (s.setMb fn m).outs = s.outs := rfl
@[simp] theorem State.setMb_dsps (fn : Nat) (m : Mailbox) : (s.setMb fn m).dsps = s.dsps := rfl
@[simp] theorem State.setMb_mediaSerial (fn : Nat) (m : Mailbox) : (s.setMb fn m).mediaSerial = s.mediaSerial := rfl
@[simp] theorem State.setMb_encProbe (fn : Nat) (m : Mailbox) : (s.setMb fn m).encProbe = s.encProbe := rfl
@[simp] theorem State.setMb_probe (fn : Nat) (m : Mailbox) : (s.setMb fn m).probe = s.probe := rfl

/-! ### setFunc -/

@[simp] theorem State.setFunc_pending (fn : Nat) (g : Func) : (s.setFunc fn g).pending = s.pending := rfl
@[simp] theorem State.setFunc_out (fn : Nat) (g : Func) : (s.setFunc fn g).out = s.out := rfl
@[simp] theorem State.setFunc_now (fn : Nat) (g : Func) : (s.setFunc fn g).now = s.now := rfl
@[simp] theorem State.setFunc_fresh (fn : Nat) (g : Func) : (s.setFunc fn g).fresh = s.fresh := rfl
@[simp] theorem State.setFunc_modes (fn : Nat) (g : Func) : (s.setFunc fn g).modes = s.modes := rfl
@[simp] theorem State.setFunc_pins (fn : Nat) (g : Func) : (s.setFunc fn g).pins = s.pins := rfl
@[simp] theorem State.setFunc_boot (fn : Nat) (g : Func) : (s.setFunc fn g).boot = s.boot := rfl
@[simp] theorem State.setFunc_fuses (fn : Nat) (g : Func) : (s.setFunc fn g).fuses = s.fuses := rfl
@[simp] theorem State.setFunc_mbx (fn : Nat) (g : Func) : (s.setFunc fn g).mbx = s.mbx := rfl
@[simp] theorem State.setFunc_funcs (fn : Nat) (g : Func) : (s.setFunc fn g).funcs = s.funcs.put fn g := rfl
@[simp] theorem State.setFunc_welmus (fn : Nat) (g : Func) : (s.setFunc fn g).welmus = s.welmus := rfl
@[simp] theorem State.setFunc_grants (fn : Nat) (g : Func) : (s.setFunc fn g).grants = s.grants := rfl
@[simp] theorem State.setFunc_audit (fn : Nat) (g : Func) : (s.setFunc fn g).audit = s.audit := rfl
@[simp] theorem State.setFunc_faults (fn : Nat) (g : Func) : (s.setFunc fn g).faults = s.faults := rfl
@[simp] theorem State.setFunc_avail (fn : Nat) (g : Func) : (s.setFunc fn g).avail = s.avail := rfl
@[simp] theorem State.setFunc_survey (fn : Nat) (g : Func) : (s.setFunc fn g).survey = s.survey := rfl
@[simp] theorem State.setFunc_vdd (fn : Nat) (g : Func) : (s.setFunc fn g).vdd = s.vdd := rfl
@[simp] theorem State.setFunc_thermal (fn : Nat) (g : Func) : (s.setFunc fn g).thermal = s.thermal := rfl
@[simp] theorem State.setFunc_smbus (fn : Nat) (g : Func) : (s.setFunc fn g).smbus = s.smbus := rfl
@[simp] theorem State.setFunc_freq (fn : Nat) (g : Func) : (s.setFunc fn g).freq = s.freq := rfl
@[simp] theorem State.setFunc_sram (fn : Nat) (g : Func) : (s.setFunc fn g).sram = s.sram := rfl
@[simp] theorem State.setFunc_jtag (fn : Nat) (g : Func) : (s.setFunc fn g).jtag = s.jtag := rfl
@[simp] theorem State.setFunc_loads (fn : Nat) (g : Func) : (s.setFunc fn g).loads = s.loads := rfl
@[simp] theorem State.setFunc_loadSeq (fn : Nat) (g : Func) : (s.setFunc fn g).loadSeq = s.loadSeq := rfl
@[simp] theorem State.setFunc_confs (fn : Nat) (g : Func) : (s.setFunc fn g).confs = s.confs := rfl
@[simp] theorem State.setFunc_ports (fn : Nat) (g : Func) : (s.setFunc fn g).ports = s.ports := rfl
@[simp] theorem State.setFunc_shorted (fn : Nat) (g : Func) : (s.setFunc fn g).shorted = s.shorted := rfl
@[simp] theorem State.setFunc_turns (fn : Nat) (g : Func) : (s.setFunc fn g).turns = s.turns := rfl
@[simp] theorem State.setFunc_excLast (fn : Nat) (g : Func) : (s.setFunc fn g).excLast = s.excLast := rfl
@[simp] theorem State.setFunc_time (fn : Nat) (g : Func) : (s.setFunc fn g).time = s.time := rfl
@[simp] theorem State.setFunc_legs (fn : Nat) (g : Func) : (s.setFunc fn g).legs = s.legs := rfl
@[simp] theorem State.setFunc_legSerial (fn : Nat) (g : Func) : (s.setFunc fn g).legSerial = s.legSerial := rfl
@[simp] theorem State.setFunc_gone (fn : Nat) (g : Func) : (s.setFunc fn g).gone = s.gone := rfl
@[simp] theorem State.setFunc_lookups (fn : Nat) (g : Func) : (s.setFunc fn g).lookups = s.lookups := rfl
@[simp] theorem State.setFunc_slots (fn : Nat) (g : Func) : (s.setFunc fn g).slots = s.slots := rfl
@[simp] theorem State.setFunc_keyCache (fn : Nat) (g : Func) : (s.setFunc fn g).keyCache = s.keyCache := rfl
@[simp] theorem State.setFunc_storageKey (fn : Nat) (g : Func) : (s.setFunc fn g).storageKey = s.storageKey := rfl
@[simp] theorem State.setFunc_kik (fn : Nat) (g : Func) : (s.setFunc fn g).kik = s.kik := rfl
@[simp] theorem State.setFunc_cores (fn : Nat) (g : Func) : (s.setFunc fn g).cores = s.cores := rfl
@[simp] theorem State.setFunc_hmacs (fn : Nat) (g : Func) : (s.setFunc fn g).hmacs = s.hmacs := rfl
@[simp] theorem State.setFunc_takeNo (fn : Nat) (g : Func) : (s.setFunc fn g).takeNo = s.takeNo := rfl
@[simp] theorem State.setFunc_rxJobs (fn : Nat) (g : Func) : (s.setFunc fn g).rxJobs = s.rxJobs := rfl
@[simp] theorem State.setFunc_txJobs (fn : Nat) (g : Func) : (s.setFunc fn g).txJobs = s.txJobs := rfl
@[simp] theorem State.setFunc_replQ (fn : Nat) (g : Func) : (s.setFunc fn g).replQ = s.replQ := rfl
@[simp] theorem State.setFunc_egressQ (fn : Nat) (g : Func) : (s.setFunc fn g).egressQ = s.egressQ := rfl
@[simp] theorem State.setFunc_localQ (fn : Nat) (g : Func) : (s.setFunc fn g).localQ = s.localQ := rfl
@[simp] theorem State.setFunc_stunQ (fn : Nat) (g : Func) : (s.setFunc fn g).stunQ = s.stunQ := rfl
@[simp] theorem State.setFunc_buckets (fn : Nat) (g : Func) : (s.setFunc fn g).buckets = s.buckets := rfl
@[simp] theorem State.setFunc_store (fn : Nat) (g : Func) : (s.setFunc fn g).store = s.store := rfl
@[simp] theorem State.setFunc_chargeNo (fn : Nat) (g : Func) : (s.setFunc fn g).chargeNo = s.chargeNo := rfl
@[simp] theorem State.setFunc_lookNo (fn : Nat) (g : Func) : (s.setFunc fn g).lookNo = s.lookNo := rfl
@[simp] theorem State.setFunc_pchs (fn : Nat) (g : Func) : (s.setFunc fn g).pchs = s.pchs := rfl
@[simp] theorem State.setFunc_towers (fn : Nat) (g : Func) : (s.setFunc fn g).towers = s.towers := rfl
@[simp] theorem State.setFunc_hbm (fn : Nat) (g : Func) : (s.setFunc fn g).hbm = s.hbm := rfl
@[simp] theorem State.setFunc_panic (fn : Nat) (g : Func) : (s.setFunc fn g).panic = s.panic := rfl
@[simp] theorem State.setFunc_waitQ (fn : Nat) (g : Func) : (s.setFunc fn g).waitQ = s.waitQ := rfl
@[simp] theorem State.setFunc_sched (fn : Nat) (g : Func) : (s.setFunc fn g).sched = s.sched := rfl
@[simp] theorem State.setFunc_sess (fn : Nat) (g : Func) : (s.setFunc fn g).sess = s.sess := rfl
@[simp] theorem State.setFunc_buses (fn : Nat) (g : Func) : (s.setFunc fn g).buses = s.buses := rfl
@[simp] theorem State.setFunc_outs (fn : Nat) (g : Func) : (s.setFunc fn g).outs = s.outs := rfl
@[simp] theorem State.setFunc_dsps (fn : Nat) (g : Func) : (s.setFunc fn g).dsps = s.dsps := rfl
@[simp] theorem State.setFunc_mediaSerial (fn : Nat) (g : Func) : (s.setFunc fn g).mediaSerial = s.mediaSerial := rfl
@[simp] theorem State.setFunc_encProbe (fn : Nat) (g : Func) : (s.setFunc fn g).encProbe = s.encProbe := rfl
@[simp] theorem State.setFunc_probe (fn : Nat) (g : Func) : (s.setFunc fn g).probe = s.probe := rfl

/-! ### setModes -/

@[simp] theorem State.setModes_pending (m : Modes) : (s.setModes m).pending = s.pending := rfl
@[simp] theorem State.setModes_out (m : Modes) : (s.setModes m).out = s.out := rfl
@[simp] theorem State.setModes_now (m : Modes) : (s.setModes m).now = s.now := rfl
@[simp] theorem State.setModes_fresh (m : Modes) : (s.setModes m).fresh = s.fresh := rfl
@[simp] theorem State.setModes_modes (m : Modes) : (s.setModes m).modes = m := rfl
@[simp] theorem State.setModes_pins (m : Modes) : (s.setModes m).pins = s.pins := rfl
@[simp] theorem State.setModes_boot (m : Modes) : (s.setModes m).boot = s.boot := rfl
@[simp] theorem State.setModes_fuses (m : Modes) : (s.setModes m).fuses = s.fuses := rfl
@[simp] theorem State.setModes_mbx (m : Modes) : (s.setModes m).mbx = s.mbx := rfl
@[simp] theorem State.setModes_funcs (m : Modes) : (s.setModes m).funcs = s.funcs := rfl
@[simp] theorem State.setModes_welmus (m : Modes) : (s.setModes m).welmus = s.welmus := rfl
@[simp] theorem State.setModes_grants (m : Modes) : (s.setModes m).grants = s.grants := rfl
@[simp] theorem State.setModes_audit (m : Modes) : (s.setModes m).audit = s.audit := rfl
@[simp] theorem State.setModes_faults (m : Modes) : (s.setModes m).faults = s.faults := rfl
@[simp] theorem State.setModes_avail (m : Modes) : (s.setModes m).avail = s.avail := rfl
@[simp] theorem State.setModes_survey (m : Modes) : (s.setModes m).survey = s.survey := rfl
@[simp] theorem State.setModes_vdd (m : Modes) : (s.setModes m).vdd = s.vdd := rfl
@[simp] theorem State.setModes_thermal (m : Modes) : (s.setModes m).thermal = s.thermal := rfl
@[simp] theorem State.setModes_smbus (m : Modes) : (s.setModes m).smbus = s.smbus := rfl
@[simp] theorem State.setModes_freq (m : Modes) : (s.setModes m).freq = s.freq := rfl
@[simp] theorem State.setModes_sram (m : Modes) : (s.setModes m).sram = s.sram := rfl
@[simp] theorem State.setModes_jtag (m : Modes) : (s.setModes m).jtag = s.jtag := rfl
@[simp] theorem State.setModes_loads (m : Modes) : (s.setModes m).loads = s.loads := rfl
@[simp] theorem State.setModes_loadSeq (m : Modes) : (s.setModes m).loadSeq = s.loadSeq := rfl
@[simp] theorem State.setModes_confs (m : Modes) : (s.setModes m).confs = s.confs := rfl
@[simp] theorem State.setModes_ports (m : Modes) : (s.setModes m).ports = s.ports := rfl
@[simp] theorem State.setModes_shorted (m : Modes) : (s.setModes m).shorted = s.shorted := rfl
@[simp] theorem State.setModes_turns (m : Modes) : (s.setModes m).turns = s.turns := rfl
@[simp] theorem State.setModes_excLast (m : Modes) : (s.setModes m).excLast = s.excLast := rfl
@[simp] theorem State.setModes_time (m : Modes) : (s.setModes m).time = s.time := rfl
@[simp] theorem State.setModes_legs (m : Modes) : (s.setModes m).legs = s.legs := rfl
@[simp] theorem State.setModes_legSerial (m : Modes) : (s.setModes m).legSerial = s.legSerial := rfl
@[simp] theorem State.setModes_gone (m : Modes) : (s.setModes m).gone = s.gone := rfl
@[simp] theorem State.setModes_lookups (m : Modes) : (s.setModes m).lookups = s.lookups := rfl
@[simp] theorem State.setModes_slots (m : Modes) : (s.setModes m).slots = s.slots := rfl
@[simp] theorem State.setModes_keyCache (m : Modes) : (s.setModes m).keyCache = s.keyCache := rfl
@[simp] theorem State.setModes_storageKey (m : Modes) : (s.setModes m).storageKey = s.storageKey := rfl
@[simp] theorem State.setModes_kik (m : Modes) : (s.setModes m).kik = s.kik := rfl
@[simp] theorem State.setModes_cores (m : Modes) : (s.setModes m).cores = s.cores := rfl
@[simp] theorem State.setModes_hmacs (m : Modes) : (s.setModes m).hmacs = s.hmacs := rfl
@[simp] theorem State.setModes_takeNo (m : Modes) : (s.setModes m).takeNo = s.takeNo := rfl
@[simp] theorem State.setModes_rxJobs (m : Modes) : (s.setModes m).rxJobs = s.rxJobs := rfl
@[simp] theorem State.setModes_txJobs (m : Modes) : (s.setModes m).txJobs = s.txJobs := rfl
@[simp] theorem State.setModes_replQ (m : Modes) : (s.setModes m).replQ = s.replQ := rfl
@[simp] theorem State.setModes_egressQ (m : Modes) : (s.setModes m).egressQ = s.egressQ := rfl
@[simp] theorem State.setModes_localQ (m : Modes) : (s.setModes m).localQ = s.localQ := rfl
@[simp] theorem State.setModes_stunQ (m : Modes) : (s.setModes m).stunQ = s.stunQ := rfl
@[simp] theorem State.setModes_buckets (m : Modes) : (s.setModes m).buckets = s.buckets := rfl
@[simp] theorem State.setModes_store (m : Modes) : (s.setModes m).store = s.store := rfl
@[simp] theorem State.setModes_chargeNo (m : Modes) : (s.setModes m).chargeNo = s.chargeNo := rfl
@[simp] theorem State.setModes_lookNo (m : Modes) : (s.setModes m).lookNo = s.lookNo := rfl
@[simp] theorem State.setModes_pchs (m : Modes) : (s.setModes m).pchs = s.pchs := rfl
@[simp] theorem State.setModes_towers (m : Modes) : (s.setModes m).towers = s.towers := rfl
@[simp] theorem State.setModes_hbm (m : Modes) : (s.setModes m).hbm = s.hbm := rfl
@[simp] theorem State.setModes_panic (m : Modes) : (s.setModes m).panic = s.panic := rfl
@[simp] theorem State.setModes_waitQ (m : Modes) : (s.setModes m).waitQ = s.waitQ := rfl
@[simp] theorem State.setModes_sched (m : Modes) : (s.setModes m).sched = s.sched := rfl
@[simp] theorem State.setModes_sess (m : Modes) : (s.setModes m).sess = s.sess := rfl
@[simp] theorem State.setModes_buses (m : Modes) : (s.setModes m).buses = s.buses := rfl
@[simp] theorem State.setModes_outs (m : Modes) : (s.setModes m).outs = s.outs := rfl
@[simp] theorem State.setModes_dsps (m : Modes) : (s.setModes m).dsps = s.dsps := rfl
@[simp] theorem State.setModes_mediaSerial (m : Modes) : (s.setModes m).mediaSerial = s.mediaSerial := rfl
@[simp] theorem State.setModes_encProbe (m : Modes) : (s.setModes m).encProbe = s.encProbe := rfl
@[simp] theorem State.setModes_probe (m : Modes) : (s.setModes m).probe = s.probe := rfl

/-! ### setBoot -/

@[simp] theorem State.setBoot_pending (b : Boot) : (s.setBoot b).pending = s.pending := rfl
@[simp] theorem State.setBoot_out (b : Boot) : (s.setBoot b).out = s.out := rfl
@[simp] theorem State.setBoot_now (b : Boot) : (s.setBoot b).now = s.now := rfl
@[simp] theorem State.setBoot_fresh (b : Boot) : (s.setBoot b).fresh = s.fresh := rfl
@[simp] theorem State.setBoot_modes (b : Boot) : (s.setBoot b).modes = s.modes := rfl
@[simp] theorem State.setBoot_pins (b : Boot) : (s.setBoot b).pins = s.pins := rfl
@[simp] theorem State.setBoot_boot (b : Boot) : (s.setBoot b).boot = b := rfl
@[simp] theorem State.setBoot_fuses (b : Boot) : (s.setBoot b).fuses = s.fuses := rfl
@[simp] theorem State.setBoot_mbx (b : Boot) : (s.setBoot b).mbx = s.mbx := rfl
@[simp] theorem State.setBoot_funcs (b : Boot) : (s.setBoot b).funcs = s.funcs := rfl
@[simp] theorem State.setBoot_welmus (b : Boot) : (s.setBoot b).welmus = s.welmus := rfl
@[simp] theorem State.setBoot_grants (b : Boot) : (s.setBoot b).grants = s.grants := rfl
@[simp] theorem State.setBoot_audit (b : Boot) : (s.setBoot b).audit = s.audit := rfl
@[simp] theorem State.setBoot_faults (b : Boot) : (s.setBoot b).faults = s.faults := rfl
@[simp] theorem State.setBoot_avail (b : Boot) : (s.setBoot b).avail = s.avail := rfl
@[simp] theorem State.setBoot_survey (b : Boot) : (s.setBoot b).survey = s.survey := rfl
@[simp] theorem State.setBoot_vdd (b : Boot) : (s.setBoot b).vdd = s.vdd := rfl
@[simp] theorem State.setBoot_thermal (b : Boot) : (s.setBoot b).thermal = s.thermal := rfl
@[simp] theorem State.setBoot_smbus (b : Boot) : (s.setBoot b).smbus = s.smbus := rfl
@[simp] theorem State.setBoot_freq (b : Boot) : (s.setBoot b).freq = s.freq := rfl
@[simp] theorem State.setBoot_sram (b : Boot) : (s.setBoot b).sram = s.sram := rfl
@[simp] theorem State.setBoot_jtag (b : Boot) : (s.setBoot b).jtag = s.jtag := rfl
@[simp] theorem State.setBoot_loads (b : Boot) : (s.setBoot b).loads = s.loads := rfl
@[simp] theorem State.setBoot_loadSeq (b : Boot) : (s.setBoot b).loadSeq = s.loadSeq := rfl
@[simp] theorem State.setBoot_confs (b : Boot) : (s.setBoot b).confs = s.confs := rfl
@[simp] theorem State.setBoot_ports (b : Boot) : (s.setBoot b).ports = s.ports := rfl
@[simp] theorem State.setBoot_shorted (b : Boot) : (s.setBoot b).shorted = s.shorted := rfl
@[simp] theorem State.setBoot_turns (b : Boot) : (s.setBoot b).turns = s.turns := rfl
@[simp] theorem State.setBoot_excLast (b : Boot) : (s.setBoot b).excLast = s.excLast := rfl
@[simp] theorem State.setBoot_time (b : Boot) : (s.setBoot b).time = s.time := rfl
@[simp] theorem State.setBoot_legs (b : Boot) : (s.setBoot b).legs = s.legs := rfl
@[simp] theorem State.setBoot_legSerial (b : Boot) : (s.setBoot b).legSerial = s.legSerial := rfl
@[simp] theorem State.setBoot_gone (b : Boot) : (s.setBoot b).gone = s.gone := rfl
@[simp] theorem State.setBoot_lookups (b : Boot) : (s.setBoot b).lookups = s.lookups := rfl
@[simp] theorem State.setBoot_slots (b : Boot) : (s.setBoot b).slots = s.slots := rfl
@[simp] theorem State.setBoot_keyCache (b : Boot) : (s.setBoot b).keyCache = s.keyCache := rfl
@[simp] theorem State.setBoot_storageKey (b : Boot) : (s.setBoot b).storageKey = s.storageKey := rfl
@[simp] theorem State.setBoot_kik (b : Boot) : (s.setBoot b).kik = s.kik := rfl
@[simp] theorem State.setBoot_cores (b : Boot) : (s.setBoot b).cores = s.cores := rfl
@[simp] theorem State.setBoot_hmacs (b : Boot) : (s.setBoot b).hmacs = s.hmacs := rfl
@[simp] theorem State.setBoot_takeNo (b : Boot) : (s.setBoot b).takeNo = s.takeNo := rfl
@[simp] theorem State.setBoot_rxJobs (b : Boot) : (s.setBoot b).rxJobs = s.rxJobs := rfl
@[simp] theorem State.setBoot_txJobs (b : Boot) : (s.setBoot b).txJobs = s.txJobs := rfl
@[simp] theorem State.setBoot_replQ (b : Boot) : (s.setBoot b).replQ = s.replQ := rfl
@[simp] theorem State.setBoot_egressQ (b : Boot) : (s.setBoot b).egressQ = s.egressQ := rfl
@[simp] theorem State.setBoot_localQ (b : Boot) : (s.setBoot b).localQ = s.localQ := rfl
@[simp] theorem State.setBoot_stunQ (b : Boot) : (s.setBoot b).stunQ = s.stunQ := rfl
@[simp] theorem State.setBoot_buckets (b : Boot) : (s.setBoot b).buckets = s.buckets := rfl
@[simp] theorem State.setBoot_store (b : Boot) : (s.setBoot b).store = s.store := rfl
@[simp] theorem State.setBoot_chargeNo (b : Boot) : (s.setBoot b).chargeNo = s.chargeNo := rfl
@[simp] theorem State.setBoot_lookNo (b : Boot) : (s.setBoot b).lookNo = s.lookNo := rfl
@[simp] theorem State.setBoot_pchs (b : Boot) : (s.setBoot b).pchs = s.pchs := rfl
@[simp] theorem State.setBoot_towers (b : Boot) : (s.setBoot b).towers = s.towers := rfl
@[simp] theorem State.setBoot_hbm (b : Boot) : (s.setBoot b).hbm = s.hbm := rfl
@[simp] theorem State.setBoot_panic (b : Boot) : (s.setBoot b).panic = s.panic := rfl
@[simp] theorem State.setBoot_waitQ (b : Boot) : (s.setBoot b).waitQ = s.waitQ := rfl
@[simp] theorem State.setBoot_sched (b : Boot) : (s.setBoot b).sched = s.sched := rfl
@[simp] theorem State.setBoot_sess (b : Boot) : (s.setBoot b).sess = s.sess := rfl
@[simp] theorem State.setBoot_buses (b : Boot) : (s.setBoot b).buses = s.buses := rfl
@[simp] theorem State.setBoot_outs (b : Boot) : (s.setBoot b).outs = s.outs := rfl
@[simp] theorem State.setBoot_dsps (b : Boot) : (s.setBoot b).dsps = s.dsps := rfl
@[simp] theorem State.setBoot_mediaSerial (b : Boot) : (s.setBoot b).mediaSerial = s.mediaSerial := rfl
@[simp] theorem State.setBoot_encProbe (b : Boot) : (s.setBoot b).encProbe = s.encProbe := rfl
@[simp] theorem State.setBoot_probe (b : Boot) : (s.setBoot b).probe = s.probe := rfl

/-! ### updPort -/

@[simp] theorem State.updPort_pending (p : Nat) (f : Port → Port) : (s.updPort p f).pending = s.pending := rfl
@[simp] theorem State.updPort_out (p : Nat) (f : Port → Port) : (s.updPort p f).out = s.out := rfl
@[simp] theorem State.updPort_now (p : Nat) (f : Port → Port) : (s.updPort p f).now = s.now := rfl
@[simp] theorem State.updPort_fresh (p : Nat) (f : Port → Port) : (s.updPort p f).fresh = s.fresh := rfl
@[simp] theorem State.updPort_modes (p : Nat) (f : Port → Port) : (s.updPort p f).modes = s.modes := rfl
@[simp] theorem State.updPort_pins (p : Nat) (f : Port → Port) : (s.updPort p f).pins = s.pins := rfl
@[simp] theorem State.updPort_boot (p : Nat) (f : Port → Port) : (s.updPort p f).boot = s.boot := rfl
@[simp] theorem State.updPort_fuses (p : Nat) (f : Port → Port) : (s.updPort p f).fuses = s.fuses := rfl
@[simp] theorem State.updPort_mbx (p : Nat) (f : Port → Port) : (s.updPort p f).mbx = s.mbx := rfl
@[simp] theorem State.updPort_funcs (p : Nat) (f : Port → Port) : (s.updPort p f).funcs = s.funcs := rfl
@[simp] theorem State.updPort_welmus (p : Nat) (f : Port → Port) : (s.updPort p f).welmus = s.welmus := rfl
@[simp] theorem State.updPort_grants (p : Nat) (f : Port → Port) : (s.updPort p f).grants = s.grants := rfl
@[simp] theorem State.updPort_audit (p : Nat) (f : Port → Port) : (s.updPort p f).audit = s.audit := rfl
@[simp] theorem State.updPort_faults (p : Nat) (f : Port → Port) : (s.updPort p f).faults = s.faults := rfl
@[simp] theorem State.updPort_avail (p : Nat) (f : Port → Port) : (s.updPort p f).avail = s.avail := rfl
@[simp] theorem State.updPort_survey (p : Nat) (f : Port → Port) : (s.updPort p f).survey = s.survey := rfl
@[simp] theorem State.updPort_vdd (p : Nat) (f : Port → Port) : (s.updPort p f).vdd = s.vdd := rfl
@[simp] theorem State.updPort_thermal (p : Nat) (f : Port → Port) : (s.updPort p f).thermal = s.thermal := rfl
@[simp] theorem State.updPort_smbus (p : Nat) (f : Port → Port) : (s.updPort p f).smbus = s.smbus := rfl
@[simp] theorem State.updPort_freq (p : Nat) (f : Port → Port) : (s.updPort p f).freq = s.freq := rfl
@[simp] theorem State.updPort_sram (p : Nat) (f : Port → Port) : (s.updPort p f).sram = s.sram := rfl
@[simp] theorem State.updPort_jtag (p : Nat) (f : Port → Port) : (s.updPort p f).jtag = s.jtag := rfl
@[simp] theorem State.updPort_loads (p : Nat) (f : Port → Port) : (s.updPort p f).loads = s.loads := rfl
@[simp] theorem State.updPort_loadSeq (p : Nat) (f : Port → Port) : (s.updPort p f).loadSeq = s.loadSeq := rfl
@[simp] theorem State.updPort_confs (p : Nat) (f : Port → Port) : (s.updPort p f).confs = s.confs := rfl
@[simp] theorem State.updPort_ports (p : Nat) (f : Port → Port) : (s.updPort p f).ports = s.ports.upd p f := rfl
@[simp] theorem State.updPort_shorted (p : Nat) (f : Port → Port) : (s.updPort p f).shorted = s.shorted := rfl
@[simp] theorem State.updPort_turns (p : Nat) (f : Port → Port) : (s.updPort p f).turns = s.turns := rfl
@[simp] theorem State.updPort_excLast (p : Nat) (f : Port → Port) : (s.updPort p f).excLast = s.excLast := rfl
@[simp] theorem State.updPort_time (p : Nat) (f : Port → Port) : (s.updPort p f).time = s.time := rfl
@[simp] theorem State.updPort_legs (p : Nat) (f : Port → Port) : (s.updPort p f).legs = s.legs := rfl
@[simp] theorem State.updPort_legSerial (p : Nat) (f : Port → Port) : (s.updPort p f).legSerial = s.legSerial := rfl
@[simp] theorem State.updPort_gone (p : Nat) (f : Port → Port) : (s.updPort p f).gone = s.gone := rfl
@[simp] theorem State.updPort_lookups (p : Nat) (f : Port → Port) : (s.updPort p f).lookups = s.lookups := rfl
@[simp] theorem State.updPort_slots (p : Nat) (f : Port → Port) : (s.updPort p f).slots = s.slots := rfl
@[simp] theorem State.updPort_keyCache (p : Nat) (f : Port → Port) : (s.updPort p f).keyCache = s.keyCache := rfl
@[simp] theorem State.updPort_storageKey (p : Nat) (f : Port → Port) : (s.updPort p f).storageKey = s.storageKey := rfl
@[simp] theorem State.updPort_kik (p : Nat) (f : Port → Port) : (s.updPort p f).kik = s.kik := rfl
@[simp] theorem State.updPort_cores (p : Nat) (f : Port → Port) : (s.updPort p f).cores = s.cores := rfl
@[simp] theorem State.updPort_hmacs (p : Nat) (f : Port → Port) : (s.updPort p f).hmacs = s.hmacs := rfl
@[simp] theorem State.updPort_takeNo (p : Nat) (f : Port → Port) : (s.updPort p f).takeNo = s.takeNo := rfl
@[simp] theorem State.updPort_rxJobs (p : Nat) (f : Port → Port) : (s.updPort p f).rxJobs = s.rxJobs := rfl
@[simp] theorem State.updPort_txJobs (p : Nat) (f : Port → Port) : (s.updPort p f).txJobs = s.txJobs := rfl
@[simp] theorem State.updPort_replQ (p : Nat) (f : Port → Port) : (s.updPort p f).replQ = s.replQ := rfl
@[simp] theorem State.updPort_egressQ (p : Nat) (f : Port → Port) : (s.updPort p f).egressQ = s.egressQ := rfl
@[simp] theorem State.updPort_localQ (p : Nat) (f : Port → Port) : (s.updPort p f).localQ = s.localQ := rfl
@[simp] theorem State.updPort_stunQ (p : Nat) (f : Port → Port) : (s.updPort p f).stunQ = s.stunQ := rfl
@[simp] theorem State.updPort_buckets (p : Nat) (f : Port → Port) : (s.updPort p f).buckets = s.buckets := rfl
@[simp] theorem State.updPort_store (p : Nat) (f : Port → Port) : (s.updPort p f).store = s.store := rfl
@[simp] theorem State.updPort_chargeNo (p : Nat) (f : Port → Port) : (s.updPort p f).chargeNo = s.chargeNo := rfl
@[simp] theorem State.updPort_lookNo (p : Nat) (f : Port → Port) : (s.updPort p f).lookNo = s.lookNo := rfl
@[simp] theorem State.updPort_pchs (p : Nat) (f : Port → Port) : (s.updPort p f).pchs = s.pchs := rfl
@[simp] theorem State.updPort_towers (p : Nat) (f : Port → Port) : (s.updPort p f).towers = s.towers := rfl
@[simp] theorem State.updPort_hbm (p : Nat) (f : Port → Port) : (s.updPort p f).hbm = s.hbm := rfl
@[simp] theorem State.updPort_panic (p : Nat) (f : Port → Port) : (s.updPort p f).panic = s.panic := rfl
@[simp] theorem State.updPort_waitQ (p : Nat) (f : Port → Port) : (s.updPort p f).waitQ = s.waitQ := rfl
@[simp] theorem State.updPort_sched (p : Nat) (f : Port → Port) : (s.updPort p f).sched = s.sched := rfl
@[simp] theorem State.updPort_sess (p : Nat) (f : Port → Port) : (s.updPort p f).sess = s.sess := rfl
@[simp] theorem State.updPort_buses (p : Nat) (f : Port → Port) : (s.updPort p f).buses = s.buses := rfl
@[simp] theorem State.updPort_outs (p : Nat) (f : Port → Port) : (s.updPort p f).outs = s.outs := rfl
@[simp] theorem State.updPort_dsps (p : Nat) (f : Port → Port) : (s.updPort p f).dsps = s.dsps := rfl
@[simp] theorem State.updPort_mediaSerial (p : Nat) (f : Port → Port) : (s.updPort p f).mediaSerial = s.mediaSerial := rfl
@[simp] theorem State.updPort_encProbe (p : Nat) (f : Port → Port) : (s.updPort p f).encProbe = s.encProbe := rfl
@[simp] theorem State.updPort_probe (p : Nat) (f : Port → Port) : (s.updPort p f).probe = s.probe := rfl

/-! ### updLeg -/

@[simp] theorem State.updLeg_pending (l : Nat) (f : Leg → Leg) : (s.updLeg l f).pending = s.pending := rfl
@[simp] theorem State.updLeg_out (l : Nat) (f : Leg → Leg) : (s.updLeg l f).out = s.out := rfl
@[simp] theorem State.updLeg_now (l : Nat) (f : Leg → Leg) : (s.updLeg l f).now = s.now := rfl
@[simp] theorem State.updLeg_fresh (l : Nat) (f : Leg → Leg) : (s.updLeg l f).fresh = s.fresh := rfl
@[simp] theorem State.updLeg_modes (l : Nat) (f : Leg → Leg) : (s.updLeg l f).modes = s.modes := rfl
@[simp] theorem State.updLeg_pins (l : Nat) (f : Leg → Leg) : (s.updLeg l f).pins = s.pins := rfl
@[simp] theorem State.updLeg_boot (l : Nat) (f : Leg → Leg) : (s.updLeg l f).boot = s.boot := rfl
@[simp] theorem State.updLeg_fuses (l : Nat) (f : Leg → Leg) : (s.updLeg l f).fuses = s.fuses := rfl
@[simp] theorem State.updLeg_mbx (l : Nat) (f : Leg → Leg) : (s.updLeg l f).mbx = s.mbx := rfl
@[simp] theorem State.updLeg_funcs (l : Nat) (f : Leg → Leg) : (s.updLeg l f).funcs = s.funcs := rfl
@[simp] theorem State.updLeg_welmus (l : Nat) (f : Leg → Leg) : (s.updLeg l f).welmus = s.welmus := rfl
@[simp] theorem State.updLeg_grants (l : Nat) (f : Leg → Leg) : (s.updLeg l f).grants = s.grants := rfl
@[simp] theorem State.updLeg_audit (l : Nat) (f : Leg → Leg) : (s.updLeg l f).audit = s.audit := rfl
@[simp] theorem State.updLeg_faults (l : Nat) (f : Leg → Leg) : (s.updLeg l f).faults = s.faults := rfl
@[simp] theorem State.updLeg_avail (l : Nat) (f : Leg → Leg) : (s.updLeg l f).avail = s.avail := rfl
@[simp] theorem State.updLeg_survey (l : Nat) (f : Leg → Leg) : (s.updLeg l f).survey = s.survey := rfl
@[simp] theorem State.updLeg_vdd (l : Nat) (f : Leg → Leg) : (s.updLeg l f).vdd = s.vdd := rfl
@[simp] theorem State.updLeg_thermal (l : Nat) (f : Leg → Leg) : (s.updLeg l f).thermal = s.thermal := rfl
@[simp] theorem State.updLeg_smbus (l : Nat) (f : Leg → Leg) : (s.updLeg l f).smbus = s.smbus := rfl
@[simp] theorem State.updLeg_freq (l : Nat) (f : Leg → Leg) : (s.updLeg l f).freq = s.freq := rfl
@[simp] theorem State.updLeg_sram (l : Nat) (f : Leg → Leg) : (s.updLeg l f).sram = s.sram := rfl
@[simp] theorem State.updLeg_jtag (l : Nat) (f : Leg → Leg) : (s.updLeg l f).jtag = s.jtag := rfl
@[simp] theorem State.updLeg_loads (l : Nat) (f : Leg → Leg) : (s.updLeg l f).loads = s.loads := rfl
@[simp] theorem State.updLeg_loadSeq (l : Nat) (f : Leg → Leg) : (s.updLeg l f).loadSeq = s.loadSeq := rfl
@[simp] theorem State.updLeg_confs (l : Nat) (f : Leg → Leg) : (s.updLeg l f).confs = s.confs := rfl
@[simp] theorem State.updLeg_ports (l : Nat) (f : Leg → Leg) : (s.updLeg l f).ports = s.ports := rfl
@[simp] theorem State.updLeg_shorted (l : Nat) (f : Leg → Leg) : (s.updLeg l f).shorted = s.shorted := rfl
@[simp] theorem State.updLeg_turns (l : Nat) (f : Leg → Leg) : (s.updLeg l f).turns = s.turns := rfl
@[simp] theorem State.updLeg_excLast (l : Nat) (f : Leg → Leg) : (s.updLeg l f).excLast = s.excLast := rfl
@[simp] theorem State.updLeg_time (l : Nat) (f : Leg → Leg) : (s.updLeg l f).time = s.time := rfl
@[simp] theorem State.updLeg_legs (l : Nat) (f : Leg → Leg) : (s.updLeg l f).legs = s.legs.upd l f := rfl
@[simp] theorem State.updLeg_legSerial (l : Nat) (f : Leg → Leg) : (s.updLeg l f).legSerial = s.legSerial := rfl
@[simp] theorem State.updLeg_gone (l : Nat) (f : Leg → Leg) : (s.updLeg l f).gone = s.gone := rfl
@[simp] theorem State.updLeg_lookups (l : Nat) (f : Leg → Leg) : (s.updLeg l f).lookups = s.lookups := rfl
@[simp] theorem State.updLeg_slots (l : Nat) (f : Leg → Leg) : (s.updLeg l f).slots = s.slots := rfl
@[simp] theorem State.updLeg_keyCache (l : Nat) (f : Leg → Leg) : (s.updLeg l f).keyCache = s.keyCache := rfl
@[simp] theorem State.updLeg_storageKey (l : Nat) (f : Leg → Leg) : (s.updLeg l f).storageKey = s.storageKey := rfl
@[simp] theorem State.updLeg_kik (l : Nat) (f : Leg → Leg) : (s.updLeg l f).kik = s.kik := rfl
@[simp] theorem State.updLeg_cores (l : Nat) (f : Leg → Leg) : (s.updLeg l f).cores = s.cores := rfl
@[simp] theorem State.updLeg_hmacs (l : Nat) (f : Leg → Leg) : (s.updLeg l f).hmacs = s.hmacs := rfl
@[simp] theorem State.updLeg_takeNo (l : Nat) (f : Leg → Leg) : (s.updLeg l f).takeNo = s.takeNo := rfl
@[simp] theorem State.updLeg_rxJobs (l : Nat) (f : Leg → Leg) : (s.updLeg l f).rxJobs = s.rxJobs := rfl
@[simp] theorem State.updLeg_txJobs (l : Nat) (f : Leg → Leg) : (s.updLeg l f).txJobs = s.txJobs := rfl
@[simp] theorem State.updLeg_replQ (l : Nat) (f : Leg → Leg) : (s.updLeg l f).replQ = s.replQ := rfl
@[simp] theorem State.updLeg_egressQ (l : Nat) (f : Leg → Leg) : (s.updLeg l f).egressQ = s.egressQ := rfl
@[simp] theorem State.updLeg_localQ (l : Nat) (f : Leg → Leg) : (s.updLeg l f).localQ = s.localQ := rfl
@[simp] theorem State.updLeg_stunQ (l : Nat) (f : Leg → Leg) : (s.updLeg l f).stunQ = s.stunQ := rfl
@[simp] theorem State.updLeg_buckets (l : Nat) (f : Leg → Leg) : (s.updLeg l f).buckets = s.buckets := rfl
@[simp] theorem State.updLeg_store (l : Nat) (f : Leg → Leg) : (s.updLeg l f).store = s.store := rfl
@[simp] theorem State.updLeg_chargeNo (l : Nat) (f : Leg → Leg) : (s.updLeg l f).chargeNo = s.chargeNo := rfl
@[simp] theorem State.updLeg_lookNo (l : Nat) (f : Leg → Leg) : (s.updLeg l f).lookNo = s.lookNo := rfl
@[simp] theorem State.updLeg_pchs (l : Nat) (f : Leg → Leg) : (s.updLeg l f).pchs = s.pchs := rfl
@[simp] theorem State.updLeg_towers (l : Nat) (f : Leg → Leg) : (s.updLeg l f).towers = s.towers := rfl
@[simp] theorem State.updLeg_hbm (l : Nat) (f : Leg → Leg) : (s.updLeg l f).hbm = s.hbm := rfl
@[simp] theorem State.updLeg_panic (l : Nat) (f : Leg → Leg) : (s.updLeg l f).panic = s.panic := rfl
@[simp] theorem State.updLeg_waitQ (l : Nat) (f : Leg → Leg) : (s.updLeg l f).waitQ = s.waitQ := rfl
@[simp] theorem State.updLeg_sched (l : Nat) (f : Leg → Leg) : (s.updLeg l f).sched = s.sched := rfl
@[simp] theorem State.updLeg_sess (l : Nat) (f : Leg → Leg) : (s.updLeg l f).sess = s.sess := rfl
@[simp] theorem State.updLeg_buses (l : Nat) (f : Leg → Leg) : (s.updLeg l f).buses = s.buses := rfl
@[simp] theorem State.updLeg_outs (l : Nat) (f : Leg → Leg) : (s.updLeg l f).outs = s.outs := rfl
@[simp] theorem State.updLeg_dsps (l : Nat) (f : Leg → Leg) : (s.updLeg l f).dsps = s.dsps := rfl
@[simp] theorem State.updLeg_mediaSerial (l : Nat) (f : Leg → Leg) : (s.updLeg l f).mediaSerial = s.mediaSerial := rfl
@[simp] theorem State.updLeg_encProbe (l : Nat) (f : Leg → Leg) : (s.updLeg l f).encProbe = s.encProbe := rfl
@[simp] theorem State.updLeg_probe (l : Nat) (f : Leg → Leg) : (s.updLeg l f).probe = s.probe := rfl

/-! ### updConf -/

@[simp] theorem State.updConf_pending (c : Nat) (f : Conf → Conf) : (s.updConf c f).pending = s.pending := rfl
@[simp] theorem State.updConf_out (c : Nat) (f : Conf → Conf) : (s.updConf c f).out = s.out := rfl
@[simp] theorem State.updConf_now (c : Nat) (f : Conf → Conf) : (s.updConf c f).now = s.now := rfl
@[simp] theorem State.updConf_fresh (c : Nat) (f : Conf → Conf) : (s.updConf c f).fresh = s.fresh := rfl
@[simp] theorem State.updConf_modes (c : Nat) (f : Conf → Conf) : (s.updConf c f).modes = s.modes := rfl
@[simp] theorem State.updConf_pins (c : Nat) (f : Conf → Conf) : (s.updConf c f).pins = s.pins := rfl
@[simp] theorem State.updConf_boot (c : Nat) (f : Conf → Conf) : (s.updConf c f).boot = s.boot := rfl
@[simp] theorem State.updConf_fuses (c : Nat) (f : Conf → Conf) : (s.updConf c f).fuses = s.fuses := rfl
@[simp] theorem State.updConf_mbx (c : Nat) (f : Conf → Conf) : (s.updConf c f).mbx = s.mbx := rfl
@[simp] theorem State.updConf_funcs (c : Nat) (f : Conf → Conf) : (s.updConf c f).funcs = s.funcs := rfl
@[simp] theorem State.updConf_welmus (c : Nat) (f : Conf → Conf) : (s.updConf c f).welmus = s.welmus := rfl
@[simp] theorem State.updConf_grants (c : Nat) (f : Conf → Conf) : (s.updConf c f).grants = s.grants := rfl
@[simp] theorem State.updConf_audit (c : Nat) (f : Conf → Conf) : (s.updConf c f).audit = s.audit := rfl
@[simp] theorem State.updConf_faults (c : Nat) (f : Conf → Conf) : (s.updConf c f).faults = s.faults := rfl
@[simp] theorem State.updConf_avail (c : Nat) (f : Conf → Conf) : (s.updConf c f).avail = s.avail := rfl
@[simp] theorem State.updConf_survey (c : Nat) (f : Conf → Conf) : (s.updConf c f).survey = s.survey := rfl
@[simp] theorem State.updConf_vdd (c : Nat) (f : Conf → Conf) : (s.updConf c f).vdd = s.vdd := rfl
@[simp] theorem State.updConf_thermal (c : Nat) (f : Conf → Conf) : (s.updConf c f).thermal = s.thermal := rfl
@[simp] theorem State.updConf_smbus (c : Nat) (f : Conf → Conf) : (s.updConf c f).smbus = s.smbus := rfl
@[simp] theorem State.updConf_freq (c : Nat) (f : Conf → Conf) : (s.updConf c f).freq = s.freq := rfl
@[simp] theorem State.updConf_sram (c : Nat) (f : Conf → Conf) : (s.updConf c f).sram = s.sram := rfl
@[simp] theorem State.updConf_jtag (c : Nat) (f : Conf → Conf) : (s.updConf c f).jtag = s.jtag := rfl
@[simp] theorem State.updConf_loads (c : Nat) (f : Conf → Conf) : (s.updConf c f).loads = s.loads := rfl
@[simp] theorem State.updConf_loadSeq (c : Nat) (f : Conf → Conf) : (s.updConf c f).loadSeq = s.loadSeq := rfl
@[simp] theorem State.updConf_confs (c : Nat) (f : Conf → Conf) : (s.updConf c f).confs = s.confs.put c (f (s.conf c)) := rfl
@[simp] theorem State.updConf_ports (c : Nat) (f : Conf → Conf) : (s.updConf c f).ports = s.ports := rfl
@[simp] theorem State.updConf_shorted (c : Nat) (f : Conf → Conf) : (s.updConf c f).shorted = s.shorted := rfl
@[simp] theorem State.updConf_turns (c : Nat) (f : Conf → Conf) : (s.updConf c f).turns = s.turns := rfl
@[simp] theorem State.updConf_excLast (c : Nat) (f : Conf → Conf) : (s.updConf c f).excLast = s.excLast := rfl
@[simp] theorem State.updConf_time (c : Nat) (f : Conf → Conf) : (s.updConf c f).time = s.time := rfl
@[simp] theorem State.updConf_legs (c : Nat) (f : Conf → Conf) : (s.updConf c f).legs = s.legs := rfl
@[simp] theorem State.updConf_legSerial (c : Nat) (f : Conf → Conf) : (s.updConf c f).legSerial = s.legSerial := rfl
@[simp] theorem State.updConf_gone (c : Nat) (f : Conf → Conf) : (s.updConf c f).gone = s.gone := rfl
@[simp] theorem State.updConf_lookups (c : Nat) (f : Conf → Conf) : (s.updConf c f).lookups = s.lookups := rfl
@[simp] theorem State.updConf_slots (c : Nat) (f : Conf → Conf) : (s.updConf c f).slots = s.slots := rfl
@[simp] theorem State.updConf_keyCache (c : Nat) (f : Conf → Conf) : (s.updConf c f).keyCache = s.keyCache := rfl
@[simp] theorem State.updConf_storageKey (c : Nat) (f : Conf → Conf) : (s.updConf c f).storageKey = s.storageKey := rfl
@[simp] theorem State.updConf_kik (c : Nat) (f : Conf → Conf) : (s.updConf c f).kik = s.kik := rfl
@[simp] theorem State.updConf_cores (c : Nat) (f : Conf → Conf) : (s.updConf c f).cores = s.cores := rfl
@[simp] theorem State.updConf_hmacs (c : Nat) (f : Conf → Conf) : (s.updConf c f).hmacs = s.hmacs := rfl
@[simp] theorem State.updConf_takeNo (c : Nat) (f : Conf → Conf) : (s.updConf c f).takeNo = s.takeNo := rfl
@[simp] theorem State.updConf_rxJobs (c : Nat) (f : Conf → Conf) : (s.updConf c f).rxJobs = s.rxJobs := rfl
@[simp] theorem State.updConf_txJobs (c : Nat) (f : Conf → Conf) : (s.updConf c f).txJobs = s.txJobs := rfl
@[simp] theorem State.updConf_replQ (c : Nat) (f : Conf → Conf) : (s.updConf c f).replQ = s.replQ := rfl
@[simp] theorem State.updConf_egressQ (c : Nat) (f : Conf → Conf) : (s.updConf c f).egressQ = s.egressQ := rfl
@[simp] theorem State.updConf_localQ (c : Nat) (f : Conf → Conf) : (s.updConf c f).localQ = s.localQ := rfl
@[simp] theorem State.updConf_stunQ (c : Nat) (f : Conf → Conf) : (s.updConf c f).stunQ = s.stunQ := rfl
@[simp] theorem State.updConf_buckets (c : Nat) (f : Conf → Conf) : (s.updConf c f).buckets = s.buckets := rfl
@[simp] theorem State.updConf_store (c : Nat) (f : Conf → Conf) : (s.updConf c f).store = s.store := rfl
@[simp] theorem State.updConf_chargeNo (c : Nat) (f : Conf → Conf) : (s.updConf c f).chargeNo = s.chargeNo := rfl
@[simp] theorem State.updConf_lookNo (c : Nat) (f : Conf → Conf) : (s.updConf c f).lookNo = s.lookNo := rfl
@[simp] theorem State.updConf_pchs (c : Nat) (f : Conf → Conf) : (s.updConf c f).pchs = s.pchs := rfl
@[simp] theorem State.updConf_towers (c : Nat) (f : Conf → Conf) : (s.updConf c f).towers = s.towers := rfl
@[simp] theorem State.updConf_hbm (c : Nat) (f : Conf → Conf) : (s.updConf c f).hbm = s.hbm := rfl
@[simp] theorem State.updConf_panic (c : Nat) (f : Conf → Conf) : (s.updConf c f).panic = s.panic := rfl
@[simp] theorem State.updConf_waitQ (c : Nat) (f : Conf → Conf) : (s.updConf c f).waitQ = s.waitQ := rfl
@[simp] theorem State.updConf_sched (c : Nat) (f : Conf → Conf) : (s.updConf c f).sched = s.sched := rfl
@[simp] theorem State.updConf_sess (c : Nat) (f : Conf → Conf) : (s.updConf c f).sess = s.sess := rfl
@[simp] theorem State.updConf_buses (c : Nat) (f : Conf → Conf) : (s.updConf c f).buses = s.buses := rfl
@[simp] theorem State.updConf_outs (c : Nat) (f : Conf → Conf) : (s.updConf c f).outs = s.outs := rfl
@[simp] theorem State.updConf_dsps (c : Nat) (f : Conf → Conf) : (s.updConf c f).dsps = s.dsps := rfl
@[simp] theorem State.updConf_mediaSerial (c : Nat) (f : Conf → Conf) : (s.updConf c f).mediaSerial = s.mediaSerial := rfl
@[simp] theorem State.updConf_encProbe (c : Nat) (f : Conf → Conf) : (s.updConf c f).encProbe = s.encProbe := rfl
@[simp] theorem State.updConf_probe (c : Nat) (f : Conf → Conf) : (s.updConf c f).probe = s.probe := rfl

/-! ### updCore -/

@[simp] theorem State.updCore_pending (c : Nat) (f : Core → Core) : (s.updCore c f).pending = s.pending := rfl
@[simp] theorem State.updCore_out (c : Nat) (f : Core → Core) : (s.updCore c f).out = s.out := rfl
@[simp] theorem State.updCore_now (c : Nat) (f : Core → Core) : (s.updCore c f).now = s.now := rfl
@[simp] theorem State.updCore_fresh (c : Nat) (f : Core → Core) : (s.updCore c f).fresh = s.fresh := rfl
@[simp] theorem State.updCore_modes (c : Nat) (f : Core → Core) : (s.updCore c f).modes = s.modes := rfl
@[simp] theorem State.updCore_pins (c : Nat) (f : Core → Core) : (s.updCore c f).pins = s.pins := rfl
@[simp] theorem State.updCore_boot (c : Nat) (f : Core → Core) : (s.updCore c f).boot = s.boot := rfl
@[simp] theorem State.updCore_fuses (c : Nat) (f : Core → Core) : (s.updCore c f).fuses = s.fuses := rfl
@[simp] theorem State.updCore_mbx (c : Nat) (f : Core → Core) : (s.updCore c f).mbx = s.mbx := rfl
@[simp] theorem State.updCore_funcs (c : Nat) (f : Core → Core) : (s.updCore c f).funcs = s.funcs := rfl
@[simp] theorem State.updCore_welmus (c : Nat) (f : Core → Core) : (s.updCore c f).welmus = s.welmus := rfl
@[simp] theorem State.updCore_grants (c : Nat) (f : Core → Core) : (s.updCore c f).grants = s.grants := rfl
@[simp] theorem State.updCore_audit (c : Nat) (f : Core → Core) : (s.updCore c f).audit = s.audit := rfl
@[simp] theorem State.updCore_faults (c : Nat) (f : Core → Core) : (s.updCore c f).faults = s.faults := rfl
@[simp] theorem State.updCore_avail (c : Nat) (f : Core → Core) : (s.updCore c f).avail = s.avail := rfl
@[simp] theorem State.updCore_survey (c : Nat) (f : Core → Core) : (s.updCore c f).survey = s.survey := rfl
@[simp] theorem State.updCore_vdd (c : Nat) (f : Core → Core) : (s.updCore c f).vdd = s.vdd := rfl
@[simp] theorem State.updCore_thermal (c : Nat) (f : Core → Core) : (s.updCore c f).thermal = s.thermal := rfl
@[simp] theorem State.updCore_smbus (c : Nat) (f : Core → Core) : (s.updCore c f).smbus = s.smbus := rfl
@[simp] theorem State.updCore_freq (c : Nat) (f : Core → Core) : (s.updCore c f).freq = s.freq := rfl
@[simp] theorem State.updCore_sram (c : Nat) (f : Core → Core) : (s.updCore c f).sram = s.sram := rfl
@[simp] theorem State.updCore_jtag (c : Nat) (f : Core → Core) : (s.updCore c f).jtag = s.jtag := rfl
@[simp] theorem State.updCore_loads (c : Nat) (f : Core → Core) : (s.updCore c f).loads = s.loads := rfl
@[simp] theorem State.updCore_loadSeq (c : Nat) (f : Core → Core) : (s.updCore c f).loadSeq = s.loadSeq := rfl
@[simp] theorem State.updCore_confs (c : Nat) (f : Core → Core) : (s.updCore c f).confs = s.confs := rfl
@[simp] theorem State.updCore_ports (c : Nat) (f : Core → Core) : (s.updCore c f).ports = s.ports := rfl
@[simp] theorem State.updCore_shorted (c : Nat) (f : Core → Core) : (s.updCore c f).shorted = s.shorted := rfl
@[simp] theorem State.updCore_turns (c : Nat) (f : Core → Core) : (s.updCore c f).turns = s.turns := rfl
@[simp] theorem State.updCore_excLast (c : Nat) (f : Core → Core) : (s.updCore c f).excLast = s.excLast := rfl
@[simp] theorem State.updCore_time (c : Nat) (f : Core → Core) : (s.updCore c f).time = s.time := rfl
@[simp] theorem State.updCore_legs (c : Nat) (f : Core → Core) : (s.updCore c f).legs = s.legs := rfl
@[simp] theorem State.updCore_legSerial (c : Nat) (f : Core → Core) : (s.updCore c f).legSerial = s.legSerial := rfl
@[simp] theorem State.updCore_gone (c : Nat) (f : Core → Core) : (s.updCore c f).gone = s.gone := rfl
@[simp] theorem State.updCore_lookups (c : Nat) (f : Core → Core) : (s.updCore c f).lookups = s.lookups := rfl
@[simp] theorem State.updCore_slots (c : Nat) (f : Core → Core) : (s.updCore c f).slots = s.slots := rfl
@[simp] theorem State.updCore_keyCache (c : Nat) (f : Core → Core) : (s.updCore c f).keyCache = s.keyCache := rfl
@[simp] theorem State.updCore_storageKey (c : Nat) (f : Core → Core) : (s.updCore c f).storageKey = s.storageKey := rfl
@[simp] theorem State.updCore_kik (c : Nat) (f : Core → Core) : (s.updCore c f).kik = s.kik := rfl
@[simp] theorem State.updCore_cores (c : Nat) (f : Core → Core) : (s.updCore c f).cores = s.cores.put c (f (s.core c)) := rfl
@[simp] theorem State.updCore_hmacs (c : Nat) (f : Core → Core) : (s.updCore c f).hmacs = s.hmacs := rfl
@[simp] theorem State.updCore_takeNo (c : Nat) (f : Core → Core) : (s.updCore c f).takeNo = s.takeNo := rfl
@[simp] theorem State.updCore_rxJobs (c : Nat) (f : Core → Core) : (s.updCore c f).rxJobs = s.rxJobs := rfl
@[simp] theorem State.updCore_txJobs (c : Nat) (f : Core → Core) : (s.updCore c f).txJobs = s.txJobs := rfl
@[simp] theorem State.updCore_replQ (c : Nat) (f : Core → Core) : (s.updCore c f).replQ = s.replQ := rfl
@[simp] theorem State.updCore_egressQ (c : Nat) (f : Core → Core) : (s.updCore c f).egressQ = s.egressQ := rfl
@[simp] theorem State.updCore_localQ (c : Nat) (f : Core → Core) : (s.updCore c f).localQ = s.localQ := rfl
@[simp] theorem State.updCore_stunQ (c : Nat) (f : Core → Core) : (s.updCore c f).stunQ = s.stunQ := rfl
@[simp] theorem State.updCore_buckets (c : Nat) (f : Core → Core) : (s.updCore c f).buckets = s.buckets := rfl
@[simp] theorem State.updCore_store (c : Nat) (f : Core → Core) : (s.updCore c f).store = s.store := rfl
@[simp] theorem State.updCore_chargeNo (c : Nat) (f : Core → Core) : (s.updCore c f).chargeNo = s.chargeNo := rfl
@[simp] theorem State.updCore_lookNo (c : Nat) (f : Core → Core) : (s.updCore c f).lookNo = s.lookNo := rfl
@[simp] theorem State.updCore_pchs (c : Nat) (f : Core → Core) : (s.updCore c f).pchs = s.pchs := rfl
@[simp] theorem State.updCore_towers (c : Nat) (f : Core → Core) : (s.updCore c f).towers = s.towers := rfl
@[simp] theorem State.updCore_hbm (c : Nat) (f : Core → Core) : (s.updCore c f).hbm = s.hbm := rfl
@[simp] theorem State.updCore_panic (c : Nat) (f : Core → Core) : (s.updCore c f).panic = s.panic := rfl
@[simp] theorem State.updCore_waitQ (c : Nat) (f : Core → Core) : (s.updCore c f).waitQ = s.waitQ := rfl
@[simp] theorem State.updCore_sched (c : Nat) (f : Core → Core) : (s.updCore c f).sched = s.sched := rfl
@[simp] theorem State.updCore_sess (c : Nat) (f : Core → Core) : (s.updCore c f).sess = s.sess := rfl
@[simp] theorem State.updCore_buses (c : Nat) (f : Core → Core) : (s.updCore c f).buses = s.buses := rfl
@[simp] theorem State.updCore_outs (c : Nat) (f : Core → Core) : (s.updCore c f).outs = s.outs := rfl
@[simp] theorem State.updCore_dsps (c : Nat) (f : Core → Core) : (s.updCore c f).dsps = s.dsps := rfl
@[simp] theorem State.updCore_mediaSerial (c : Nat) (f : Core → Core) : (s.updCore c f).mediaSerial = s.mediaSerial := rfl
@[simp] theorem State.updCore_encProbe (c : Nat) (f : Core → Core) : (s.updCore c f).encProbe = s.encProbe := rfl
@[simp] theorem State.updCore_probe (c : Nat) (f : Core → Core) : (s.updCore c f).probe = s.probe := rfl

/-! ### updSlot -/

@[simp] theorem State.updSlot_pending (k : Nat) (f : Slot → Slot) : (s.updSlot k f).pending = s.pending := rfl
@[simp] theorem State.updSlot_out (k : Nat) (f : Slot → Slot) : (s.updSlot k f).out = s.out := rfl
@[simp] theorem State.updSlot_now (k : Nat) (f : Slot → Slot) : (s.updSlot k f).now = s.now := rfl
@[simp] theorem State.updSlot_fresh (k : Nat) (f : Slot → Slot) : (s.updSlot k f).fresh = s.fresh := rfl
@[simp] theorem State.updSlot_modes (k : Nat) (f : Slot → Slot) : (s.updSlot k f).modes = s.modes := rfl
@[simp] theorem State.updSlot_pins (k : Nat) (f : Slot → Slot) : (s.updSlot k f).pins = s.pins := rfl
@[simp] theorem State.updSlot_boot (k : Nat) (f : Slot → Slot) : (s.updSlot k f).boot = s.boot := rfl
@[simp] theorem State.updSlot_fuses (k : Nat) (f : Slot → Slot) : (s.updSlot k f).fuses = s.fuses := rfl
@[simp] theorem State.updSlot_mbx (k : Nat) (f : Slot → Slot) : (s.updSlot k f).mbx = s.mbx := rfl
@[simp] theorem State.updSlot_funcs (k : Nat) (f : Slot → Slot) : (s.updSlot k f).funcs = s.funcs := rfl
@[simp] theorem State.updSlot_welmus (k : Nat) (f : Slot → Slot) : (s.updSlot k f).welmus = s.welmus := rfl
@[simp] theorem State.updSlot_grants (k : Nat) (f : Slot → Slot) : (s.updSlot k f).grants = s.grants := rfl
@[simp] theorem State.updSlot_audit (k : Nat) (f : Slot → Slot) : (s.updSlot k f).audit = s.audit := rfl
@[simp] theorem State.updSlot_faults (k : Nat) (f : Slot → Slot) : (s.updSlot k f).faults = s.faults := rfl
@[simp] theorem State.updSlot_avail (k : Nat) (f : Slot → Slot) : (s.updSlot k f).avail = s.avail := rfl
@[simp] theorem State.updSlot_survey (k : Nat) (f : Slot → Slot) : (s.updSlot k f).survey = s.survey := rfl
@[simp] theorem State.updSlot_vdd (k : Nat) (f : Slot → Slot) : (s.updSlot k f).vdd = s.vdd := rfl
@[simp] theorem State.updSlot_thermal (k : Nat) (f : Slot → Slot) : (s.updSlot k f).thermal = s.thermal := rfl
@[simp] theorem State.updSlot_smbus (k : Nat) (f : Slot → Slot) : (s.updSlot k f).smbus = s.smbus := rfl
@[simp] theorem State.updSlot_freq (k : Nat) (f : Slot → Slot) : (s.updSlot k f).freq = s.freq := rfl
@[simp] theorem State.updSlot_sram (k : Nat) (f : Slot → Slot) : (s.updSlot k f).sram = s.sram := rfl
@[simp] theorem State.updSlot_jtag (k : Nat) (f : Slot → Slot) : (s.updSlot k f).jtag = s.jtag := rfl
@[simp] theorem State.updSlot_loads (k : Nat) (f : Slot → Slot) : (s.updSlot k f).loads = s.loads := rfl
@[simp] theorem State.updSlot_loadSeq (k : Nat) (f : Slot → Slot) : (s.updSlot k f).loadSeq = s.loadSeq := rfl
@[simp] theorem State.updSlot_confs (k : Nat) (f : Slot → Slot) : (s.updSlot k f).confs = s.confs := rfl
@[simp] theorem State.updSlot_ports (k : Nat) (f : Slot → Slot) : (s.updSlot k f).ports = s.ports := rfl
@[simp] theorem State.updSlot_shorted (k : Nat) (f : Slot → Slot) : (s.updSlot k f).shorted = s.shorted := rfl
@[simp] theorem State.updSlot_turns (k : Nat) (f : Slot → Slot) : (s.updSlot k f).turns = s.turns := rfl
@[simp] theorem State.updSlot_excLast (k : Nat) (f : Slot → Slot) : (s.updSlot k f).excLast = s.excLast := rfl
@[simp] theorem State.updSlot_time (k : Nat) (f : Slot → Slot) : (s.updSlot k f).time = s.time := rfl
@[simp] theorem State.updSlot_legs (k : Nat) (f : Slot → Slot) : (s.updSlot k f).legs = s.legs := rfl
@[simp] theorem State.updSlot_legSerial (k : Nat) (f : Slot → Slot) : (s.updSlot k f).legSerial = s.legSerial := rfl
@[simp] theorem State.updSlot_gone (k : Nat) (f : Slot → Slot) : (s.updSlot k f).gone = s.gone := rfl
@[simp] theorem State.updSlot_lookups (k : Nat) (f : Slot → Slot) : (s.updSlot k f).lookups = s.lookups := rfl
@[simp] theorem State.updSlot_slots (k : Nat) (f : Slot → Slot) : (s.updSlot k f).slots = s.slots.put k (f (s.slot k)) := rfl
@[simp] theorem State.updSlot_keyCache (k : Nat) (f : Slot → Slot) : (s.updSlot k f).keyCache = s.keyCache := rfl
@[simp] theorem State.updSlot_storageKey (k : Nat) (f : Slot → Slot) : (s.updSlot k f).storageKey = s.storageKey := rfl
@[simp] theorem State.updSlot_kik (k : Nat) (f : Slot → Slot) : (s.updSlot k f).kik = s.kik := rfl
@[simp] theorem State.updSlot_cores (k : Nat) (f : Slot → Slot) : (s.updSlot k f).cores = s.cores := rfl
@[simp] theorem State.updSlot_hmacs (k : Nat) (f : Slot → Slot) : (s.updSlot k f).hmacs = s.hmacs := rfl
@[simp] theorem State.updSlot_takeNo (k : Nat) (f : Slot → Slot) : (s.updSlot k f).takeNo = s.takeNo := rfl
@[simp] theorem State.updSlot_rxJobs (k : Nat) (f : Slot → Slot) : (s.updSlot k f).rxJobs = s.rxJobs := rfl
@[simp] theorem State.updSlot_txJobs (k : Nat) (f : Slot → Slot) : (s.updSlot k f).txJobs = s.txJobs := rfl
@[simp] theorem State.updSlot_replQ (k : Nat) (f : Slot → Slot) : (s.updSlot k f).replQ = s.replQ := rfl
@[simp] theorem State.updSlot_egressQ (k : Nat) (f : Slot → Slot) : (s.updSlot k f).egressQ = s.egressQ := rfl
@[simp] theorem State.updSlot_localQ (k : Nat) (f : Slot → Slot) : (s.updSlot k f).localQ = s.localQ := rfl
@[simp] theorem State.updSlot_stunQ (k : Nat) (f : Slot → Slot) : (s.updSlot k f).stunQ = s.stunQ := rfl
@[simp] theorem State.updSlot_buckets (k : Nat) (f : Slot → Slot) : (s.updSlot k f).buckets = s.buckets := rfl
@[simp] theorem State.updSlot_store (k : Nat) (f : Slot → Slot) : (s.updSlot k f).store = s.store := rfl
@[simp] theorem State.updSlot_chargeNo (k : Nat) (f : Slot → Slot) : (s.updSlot k f).chargeNo = s.chargeNo := rfl
@[simp] theorem State.updSlot_lookNo (k : Nat) (f : Slot → Slot) : (s.updSlot k f).lookNo = s.lookNo := rfl
@[simp] theorem State.updSlot_pchs (k : Nat) (f : Slot → Slot) : (s.updSlot k f).pchs = s.pchs := rfl
@[simp] theorem State.updSlot_towers (k : Nat) (f : Slot → Slot) : (s.updSlot k f).towers = s.towers := rfl
@[simp] theorem State.updSlot_hbm (k : Nat) (f : Slot → Slot) : (s.updSlot k f).hbm = s.hbm := rfl
@[simp] theorem State.updSlot_panic (k : Nat) (f : Slot → Slot) : (s.updSlot k f).panic = s.panic := rfl
@[simp] theorem State.updSlot_waitQ (k : Nat) (f : Slot → Slot) : (s.updSlot k f).waitQ = s.waitQ := rfl
@[simp] theorem State.updSlot_sched (k : Nat) (f : Slot → Slot) : (s.updSlot k f).sched = s.sched := rfl
@[simp] theorem State.updSlot_sess (k : Nat) (f : Slot → Slot) : (s.updSlot k f).sess = s.sess := rfl
@[simp] theorem State.updSlot_buses (k : Nat) (f : Slot → Slot) : (s.updSlot k f).buses = s.buses := rfl
@[simp] theorem State.updSlot_outs (k : Nat) (f : Slot → Slot) : (s.updSlot k f).outs = s.outs := rfl
@[simp] theorem State.updSlot_dsps (k : Nat) (f : Slot → Slot) : (s.updSlot k f).dsps = s.dsps := rfl
@[simp] theorem State.updSlot_mediaSerial (k : Nat) (f : Slot → Slot) : (s.updSlot k f).mediaSerial = s.mediaSerial := rfl
@[simp] theorem State.updSlot_encProbe (k : Nat) (f : Slot → Slot) : (s.updSlot k f).encProbe = s.encProbe := rfl
@[simp] theorem State.updSlot_probe (k : Nat) (f : Slot → Slot) : (s.updSlot k f).probe = s.probe := rfl

/-! ### updSched -/

@[simp] theorem State.updSched_pending (f : Sched → Sched) : (s.updSched f).pending = s.pending := rfl
@[simp] theorem State.updSched_out (f : Sched → Sched) : (s.updSched f).out = s.out := rfl
@[simp] theorem State.updSched_now (f : Sched → Sched) : (s.updSched f).now = s.now := rfl
@[simp] theorem State.updSched_fresh (f : Sched → Sched) : (s.updSched f).fresh = s.fresh := rfl
@[simp] theorem State.updSched_modes (f : Sched → Sched) : (s.updSched f).modes = s.modes := rfl
@[simp] theorem State.updSched_pins (f : Sched → Sched) : (s.updSched f).pins = s.pins := rfl
@[simp] theorem State.updSched_boot (f : Sched → Sched) : (s.updSched f).boot = s.boot := rfl
@[simp] theorem State.updSched_fuses (f : Sched → Sched) : (s.updSched f).fuses = s.fuses := rfl
@[simp] theorem State.updSched_mbx (f : Sched → Sched) : (s.updSched f).mbx = s.mbx := rfl
@[simp] theorem State.updSched_funcs (f : Sched → Sched) : (s.updSched f).funcs = s.funcs := rfl
@[simp] theorem State.updSched_welmus (f : Sched → Sched) : (s.updSched f).welmus = s.welmus := rfl
@[simp] theorem State.updSched_grants (f : Sched → Sched) : (s.updSched f).grants = s.grants := rfl
@[simp] theorem State.updSched_audit (f : Sched → Sched) : (s.updSched f).audit = s.audit := rfl
@[simp] theorem State.updSched_faults (f : Sched → Sched) : (s.updSched f).faults = s.faults := rfl
@[simp] theorem State.updSched_avail (f : Sched → Sched) : (s.updSched f).avail = s.avail := rfl
@[simp] theorem State.updSched_survey (f : Sched → Sched) : (s.updSched f).survey = s.survey := rfl
@[simp] theorem State.updSched_vdd (f : Sched → Sched) : (s.updSched f).vdd = s.vdd := rfl
@[simp] theorem State.updSched_thermal (f : Sched → Sched) : (s.updSched f).thermal = s.thermal := rfl
@[simp] theorem State.updSched_smbus (f : Sched → Sched) : (s.updSched f).smbus = s.smbus := rfl
@[simp] theorem State.updSched_freq (f : Sched → Sched) : (s.updSched f).freq = s.freq := rfl
@[simp] theorem State.updSched_sram (f : Sched → Sched) : (s.updSched f).sram = s.sram := rfl
@[simp] theorem State.updSched_jtag (f : Sched → Sched) : (s.updSched f).jtag = s.jtag := rfl
@[simp] theorem State.updSched_loads (f : Sched → Sched) : (s.updSched f).loads = s.loads := rfl
@[simp] theorem State.updSched_loadSeq (f : Sched → Sched) : (s.updSched f).loadSeq = s.loadSeq := rfl
@[simp] theorem State.updSched_confs (f : Sched → Sched) : (s.updSched f).confs = s.confs := rfl
@[simp] theorem State.updSched_ports (f : Sched → Sched) : (s.updSched f).ports = s.ports := rfl
@[simp] theorem State.updSched_shorted (f : Sched → Sched) : (s.updSched f).shorted = s.shorted := rfl
@[simp] theorem State.updSched_turns (f : Sched → Sched) : (s.updSched f).turns = s.turns := rfl
@[simp] theorem State.updSched_excLast (f : Sched → Sched) : (s.updSched f).excLast = s.excLast := rfl
@[simp] theorem State.updSched_time (f : Sched → Sched) : (s.updSched f).time = s.time := rfl
@[simp] theorem State.updSched_legs (f : Sched → Sched) : (s.updSched f).legs = s.legs := rfl
@[simp] theorem State.updSched_legSerial (f : Sched → Sched) : (s.updSched f).legSerial = s.legSerial := rfl
@[simp] theorem State.updSched_gone (f : Sched → Sched) : (s.updSched f).gone = s.gone := rfl
@[simp] theorem State.updSched_lookups (f : Sched → Sched) : (s.updSched f).lookups = s.lookups := rfl
@[simp] theorem State.updSched_slots (f : Sched → Sched) : (s.updSched f).slots = s.slots := rfl
@[simp] theorem State.updSched_keyCache (f : Sched → Sched) : (s.updSched f).keyCache = s.keyCache := rfl
@[simp] theorem State.updSched_storageKey (f : Sched → Sched) : (s.updSched f).storageKey = s.storageKey := rfl
@[simp] theorem State.updSched_kik (f : Sched → Sched) : (s.updSched f).kik = s.kik := rfl
@[simp] theorem State.updSched_cores (f : Sched → Sched) : (s.updSched f).cores = s.cores := rfl
@[simp] theorem State.updSched_hmacs (f : Sched → Sched) : (s.updSched f).hmacs = s.hmacs := rfl
@[simp] theorem State.updSched_takeNo (f : Sched → Sched) : (s.updSched f).takeNo = s.takeNo := rfl
@[simp] theorem State.updSched_rxJobs (f : Sched → Sched) : (s.updSched f).rxJobs = s.rxJobs := rfl
@[simp] theorem State.updSched_txJobs (f : Sched → Sched) : (s.updSched f).txJobs = s.txJobs := rfl
@[simp] theorem State.updSched_replQ (f : Sched → Sched) : (s.updSched f).replQ = s.replQ := rfl
@[simp] theorem State.updSched_egressQ (f : Sched → Sched) : (s.updSched f).egressQ = s.egressQ := rfl
@[simp] theorem State.updSched_localQ (f : Sched → Sched) : (s.updSched f).localQ = s.localQ := rfl
@[simp] theorem State.updSched_stunQ (f : Sched → Sched) : (s.updSched f).stunQ = s.stunQ := rfl
@[simp] theorem State.updSched_buckets (f : Sched → Sched) : (s.updSched f).buckets = s.buckets := rfl
@[simp] theorem State.updSched_store (f : Sched → Sched) : (s.updSched f).store = s.store := rfl
@[simp] theorem State.updSched_chargeNo (f : Sched → Sched) : (s.updSched f).chargeNo = s.chargeNo := rfl
@[simp] theorem State.updSched_lookNo (f : Sched → Sched) : (s.updSched f).lookNo = s.lookNo := rfl
@[simp] theorem State.updSched_pchs (f : Sched → Sched) : (s.updSched f).pchs = s.pchs := rfl
@[simp] theorem State.updSched_towers (f : Sched → Sched) : (s.updSched f).towers = s.towers := rfl
@[simp] theorem State.updSched_hbm (f : Sched → Sched) : (s.updSched f).hbm = s.hbm := rfl
@[simp] theorem State.updSched_panic (f : Sched → Sched) : (s.updSched f).panic = s.panic := rfl
@[simp] theorem State.updSched_waitQ (f : Sched → Sched) : (s.updSched f).waitQ = s.waitQ := rfl
@[simp] theorem State.updSched_sched (f : Sched → Sched) : (s.updSched f).sched = f s.sched := rfl
@[simp] theorem State.updSched_sess (f : Sched → Sched) : (s.updSched f).sess = s.sess := rfl
@[simp] theorem State.updSched_buses (f : Sched → Sched) : (s.updSched f).buses = s.buses := rfl
@[simp] theorem State.updSched_outs (f : Sched → Sched) : (s.updSched f).outs = s.outs := rfl
@[simp] theorem State.updSched_dsps (f : Sched → Sched) : (s.updSched f).dsps = s.dsps := rfl
@[simp] theorem State.updSched_mediaSerial (f : Sched → Sched) : (s.updSched f).mediaSerial = s.mediaSerial := rfl
@[simp] theorem State.updSched_encProbe (f : Sched → Sched) : (s.updSched f).encProbe = s.encProbe := rfl
@[simp] theorem State.updSched_probe (f : Sched → Sched) : (s.updSched f).probe = s.probe := rfl

/-! ### updPch -/

@[simp] theorem State.updPch_pending (n : Nat) (f : Pch → Pch) : (s.updPch n f).pending = s.pending := rfl
@[simp] theorem State.updPch_out (n : Nat) (f : Pch → Pch) : (s.updPch n f).out = s.out := rfl
@[simp] theorem State.updPch_now (n : Nat) (f : Pch → Pch) : (s.updPch n f).now = s.now := rfl
@[simp] theorem State.updPch_fresh (n : Nat) (f : Pch → Pch) : (s.updPch n f).fresh = s.fresh := rfl
@[simp] theorem State.updPch_modes (n : Nat) (f : Pch → Pch) : (s.updPch n f).modes = s.modes := rfl
@[simp] theorem State.updPch_pins (n : Nat) (f : Pch → Pch) : (s.updPch n f).pins = s.pins := rfl
@[simp] theorem State.updPch_boot (n : Nat) (f : Pch → Pch) : (s.updPch n f).boot = s.boot := rfl
@[simp] theorem State.updPch_fuses (n : Nat) (f : Pch → Pch) : (s.updPch n f).fuses = s.fuses := rfl
@[simp] theorem State.updPch_mbx (n : Nat) (f : Pch → Pch) : (s.updPch n f).mbx = s.mbx := rfl
@[simp] theorem State.updPch_funcs (n : Nat) (f : Pch → Pch) : (s.updPch n f).funcs = s.funcs := rfl
@[simp] theorem State.updPch_welmus (n : Nat) (f : Pch → Pch) : (s.updPch n f).welmus = s.welmus := rfl
@[simp] theorem State.updPch_grants (n : Nat) (f : Pch → Pch) : (s.updPch n f).grants = s.grants := rfl
@[simp] theorem State.updPch_audit (n : Nat) (f : Pch → Pch) : (s.updPch n f).audit = s.audit := rfl
@[simp] theorem State.updPch_faults (n : Nat) (f : Pch → Pch) : (s.updPch n f).faults = s.faults := rfl
@[simp] theorem State.updPch_avail (n : Nat) (f : Pch → Pch) : (s.updPch n f).avail = s.avail := rfl
@[simp] theorem State.updPch_survey (n : Nat) (f : Pch → Pch) : (s.updPch n f).survey = s.survey := rfl
@[simp] theorem State.updPch_vdd (n : Nat) (f : Pch → Pch) : (s.updPch n f).vdd = s.vdd := rfl
@[simp] theorem State.updPch_thermal (n : Nat) (f : Pch → Pch) : (s.updPch n f).thermal = s.thermal := rfl
@[simp] theorem State.updPch_smbus (n : Nat) (f : Pch → Pch) : (s.updPch n f).smbus = s.smbus := rfl
@[simp] theorem State.updPch_freq (n : Nat) (f : Pch → Pch) : (s.updPch n f).freq = s.freq := rfl
@[simp] theorem State.updPch_sram (n : Nat) (f : Pch → Pch) : (s.updPch n f).sram = s.sram := rfl
@[simp] theorem State.updPch_jtag (n : Nat) (f : Pch → Pch) : (s.updPch n f).jtag = s.jtag := rfl
@[simp] theorem State.updPch_loads (n : Nat) (f : Pch → Pch) : (s.updPch n f).loads = s.loads := rfl
@[simp] theorem State.updPch_loadSeq (n : Nat) (f : Pch → Pch) : (s.updPch n f).loadSeq = s.loadSeq := rfl
@[simp] theorem State.updPch_confs (n : Nat) (f : Pch → Pch) : (s.updPch n f).confs = s.confs := rfl
@[simp] theorem State.updPch_ports (n : Nat) (f : Pch → Pch) : (s.updPch n f).ports = s.ports := rfl
@[simp] theorem State.updPch_shorted (n : Nat) (f : Pch → Pch) : (s.updPch n f).shorted = s.shorted := rfl
@[simp] theorem State.updPch_turns (n : Nat) (f : Pch → Pch) : (s.updPch n f).turns = s.turns := rfl
@[simp] theorem State.updPch_excLast (n : Nat) (f : Pch → Pch) : (s.updPch n f).excLast = s.excLast := rfl
@[simp] theorem State.updPch_time (n : Nat) (f : Pch → Pch) : (s.updPch n f).time = s.time := rfl
@[simp] theorem State.updPch_legs (n : Nat) (f : Pch → Pch) : (s.updPch n f).legs = s.legs := rfl
@[simp] theorem State.updPch_legSerial (n : Nat) (f : Pch → Pch) : (s.updPch n f).legSerial = s.legSerial := rfl
@[simp] theorem State.updPch_gone (n : Nat) (f : Pch → Pch) : (s.updPch n f).gone = s.gone := rfl
@[simp] theorem State.updPch_lookups (n : Nat) (f : Pch → Pch) : (s.updPch n f).lookups = s.lookups := rfl
@[simp] theorem State.updPch_slots (n : Nat) (f : Pch → Pch) : (s.updPch n f).slots = s.slots := rfl
@[simp] theorem State.updPch_keyCache (n : Nat) (f : Pch → Pch) : (s.updPch n f).keyCache = s.keyCache := rfl
@[simp] theorem State.updPch_storageKey (n : Nat) (f : Pch → Pch) : (s.updPch n f).storageKey = s.storageKey := rfl
@[simp] theorem State.updPch_kik (n : Nat) (f : Pch → Pch) : (s.updPch n f).kik = s.kik := rfl
@[simp] theorem State.updPch_cores (n : Nat) (f : Pch → Pch) : (s.updPch n f).cores = s.cores := rfl
@[simp] theorem State.updPch_hmacs (n : Nat) (f : Pch → Pch) : (s.updPch n f).hmacs = s.hmacs := rfl
@[simp] theorem State.updPch_takeNo (n : Nat) (f : Pch → Pch) : (s.updPch n f).takeNo = s.takeNo := rfl
@[simp] theorem State.updPch_rxJobs (n : Nat) (f : Pch → Pch) : (s.updPch n f).rxJobs = s.rxJobs := rfl
@[simp] theorem State.updPch_txJobs (n : Nat) (f : Pch → Pch) : (s.updPch n f).txJobs = s.txJobs := rfl
@[simp] theorem State.updPch_replQ (n : Nat) (f : Pch → Pch) : (s.updPch n f).replQ = s.replQ := rfl
@[simp] theorem State.updPch_egressQ (n : Nat) (f : Pch → Pch) : (s.updPch n f).egressQ = s.egressQ := rfl
@[simp] theorem State.updPch_localQ (n : Nat) (f : Pch → Pch) : (s.updPch n f).localQ = s.localQ := rfl
@[simp] theorem State.updPch_stunQ (n : Nat) (f : Pch → Pch) : (s.updPch n f).stunQ = s.stunQ := rfl
@[simp] theorem State.updPch_buckets (n : Nat) (f : Pch → Pch) : (s.updPch n f).buckets = s.buckets := rfl
@[simp] theorem State.updPch_store (n : Nat) (f : Pch → Pch) : (s.updPch n f).store = s.store := rfl
@[simp] theorem State.updPch_chargeNo (n : Nat) (f : Pch → Pch) : (s.updPch n f).chargeNo = s.chargeNo := rfl
@[simp] theorem State.updPch_lookNo (n : Nat) (f : Pch → Pch) : (s.updPch n f).lookNo = s.lookNo := rfl
@[simp] theorem State.updPch_pchs (n : Nat) (f : Pch → Pch) : (s.updPch n f).pchs = s.pchs.put n (f (s.pch n)) := rfl
@[simp] theorem State.updPch_towers (n : Nat) (f : Pch → Pch) : (s.updPch n f).towers = s.towers := rfl
@[simp] theorem State.updPch_hbm (n : Nat) (f : Pch → Pch) : (s.updPch n f).hbm = s.hbm := rfl
@[simp] theorem State.updPch_panic (n : Nat) (f : Pch → Pch) : (s.updPch n f).panic = s.panic := rfl
@[simp] theorem State.updPch_waitQ (n : Nat) (f : Pch → Pch) : (s.updPch n f).waitQ = s.waitQ := rfl
@[simp] theorem State.updPch_sched (n : Nat) (f : Pch → Pch) : (s.updPch n f).sched = s.sched := rfl
@[simp] theorem State.updPch_sess (n : Nat) (f : Pch → Pch) : (s.updPch n f).sess = s.sess := rfl
@[simp] theorem State.updPch_buses (n : Nat) (f : Pch → Pch) : (s.updPch n f).buses = s.buses := rfl
@[simp] theorem State.updPch_outs (n : Nat) (f : Pch → Pch) : (s.updPch n f).outs = s.outs := rfl
@[simp] theorem State.updPch_dsps (n : Nat) (f : Pch → Pch) : (s.updPch n f).dsps = s.dsps := rfl
@[simp] theorem State.updPch_mediaSerial (n : Nat) (f : Pch → Pch) : (s.updPch n f).mediaSerial = s.mediaSerial := rfl
@[simp] theorem State.updPch_encProbe (n : Nat) (f : Pch → Pch) : (s.updPch n f).encProbe = s.encProbe := rfl
@[simp] theorem State.updPch_probe (n : Nat) (f : Pch → Pch) : (s.updPch n f).probe = s.probe := rfl

end Sys2Proof.Machine
end

