-- ==== Sys2Proof/Machine/View.lean ====
section
/-! DEFINITION. What a host read of BAR0 shows. A read without an effect of its own is no command (the opcode table has rows only
for the reads that change state), so its value is this function of the state. -/

namespace Sys2Proof.Machine

/-- Word `i` of a block of registers. -/
def blockWord (ws : List Word) (i : Nat) : Word := ws.getD i 0

/-- The words that every function's BAR0 shows from 0x000 (R51); BOOT_DOORBELL, write-only, reads zero (R13). -/
def State.identBlock (s : State) : List Word :=
  [ident0, s.ident1] ++ wordsOfBytes (orderCode s.fuses.es) ++ words64 s.fuses.serial
    ++ [s.status0, s.bootStatus, s.boot.resetCause, s.boot.fwVersion, s.svnState, 0]

/-- EVQ_IRQ (R64). -/
def Mailbox.evqIrq (m : Mailbox) : Word := w32 (m.threshold + 65536 * m.holdoff)

/-- The time registers from 0x3200 (R148): TIME_LATCH, TIME_STATUS, the latched step sum, and time and RATE of each base. -/
def State.timeBlock (s : State) : List Word :=
  let sum := s.time.latchSteps
  [0, s.timeStatus, wInt sum, wInt (sum / 2 ^ 32)]
    ++ ((s.time.latchTimes.zip s.time.latchRates).map fun p => timeWords p.1 ++ [wInt p.2]).flatten

/-- PROBE_STATUS (R248). -/
def Probe.status (p : Probe) : Word := w32 (2 ^ 31 * b2n p.valid + 2 ^ 30 * b2n p.absent + 2 ^ 29 * b2n p.compFault)

/-- The probe registers from 0x3300 (R248). -/
def Probe.block (p : Probe) : List Word :=
  [p.sel, p.status, p.rate, p.ceiling, p.lead, p.depth, p.headLate, p.time, p.grottoFree, p.sumpFree, p.sumpCells]

/-- The scheduler registers from 0x3400 (R274). -/
def Sched.block (x : Sched) : List Word := [w32 x.tickUs, x.lantern.ctrlRead, x.lantern.matchReg, x.lantern.headRead]

/-- The encoder probe from 0x3500 (R397). -/
def EncProbe.block (p : EncProbe) : List Word :=
  [p.sel, p.status, p.picture, p.spent, p.cap, p.lastBytes, p.kKey, p.kInter]

/-- LG_STATUS (R456). -/
def Faults.lgStatus (f : Faults) : Word := w32 (f.lgMore + 2 ^ 30 * b2n f.logDown + 2 ^ 31 * b2n f.lgValid)

/-- The registers that only PF0's BAR0 shows; a VF reads zero there (R141, R148, R248, R274, R397, R426, R456). -/
def State.pfRegister (s : State) (off : Nat) : Word :=
  if off < 0x3200 then s.portStatusOf ((off - 0x3000) / 4)
  else if off < 0x3300 then blockWord s.timeBlock ((off - 0x3200) / 4)
  else if off < 0x3400 then blockWord s.probe.block ((off - 0x3300) / 4)
  else if off < 0x3500 then blockWord s.sched.block ((off - 0x3400) / 4)
  else if off < 0x3600 then blockWord s.encProbe.block ((off - 0x3500) / 4)
  else if off < 0x3900 then s.memPchStatus ((off - 0x3600) / 4)
  else if off = 0x3900 then s.memGlobal
  else if off < 0x3A00 then 0
  else blockWord (s.faults.lgRecord ++ [s.faults.lgStatus]) ((off - 0x3A00) / 4)

/-- The registers of a ring (R433). -/
def Func.ringBlock (f : Func) (r : Ring) : List Word :=
  [r.baseLo, r.baseHi, w32 r.size, w32 r.tail, w32 r.head, w32 (b2n r.enable), f.ringStatus r]

/-- The MSI-X table as read (R431; its layout is PRESUMED from PCI Express, log entry 49). -/
def Func.msixRead (f : Func) (v k : Nat) : Word :=
  if k = 3 then w32 (b2n (f.msixMask.getD v true)) else f.msixWords.getD 0 (4 * v + k)

/-- What an aligned read of 4 bytes at `off` of function `fn`'s BAR0 shows, for the registers whose read has no effect. An offset
that no chapter assigns, and a write-only register, read zero (R13, R430). -/
def State.bar0 (s : State) (fn off : Nat) : Word :=
  if off < 0x40 then blockWord s.identBlock (off / 4)
  else if off = 0x1000 then (s.mb fn).cmdqStatus
  else if off = 0x1008 then (s.mb fn).evqStatus
  else if off = 0x100C then w32 (s.mb fn).mask
  else if off = 0x1010 then (s.mb fn).evqIrq
  else if 0x3000 ≤ off ∧ off < 0x3B00 then (if fn = 0 then s.pfRegister off else 0)
  else if 0x4000 ≤ off ∧ off < 0x4080 then
    blockWord ((s.func fn).ringBlock (s.ring fn ((off - 0x4000) / 32))) ((off - 0x4000) % 32 / 4)
  else if 0x5000 ≤ off ∧ off < 0x5050 then (s.func fn).msixRead ((off - 0x5000) / 16) ((off - 0x5000) % 16 / 4)
  else if off = 0x5800 then w32 (flagBits (s.func fn).msixPending)
  else if fn = 0 ∧ 0x100000 ≤ off ∧ off < 0x200000 then
    blockWord (s.sched.lantern.ring.getD [] ((off - 0x100000) / 16)) ((off - 0x100000) % 16 / 4)
  else 0

/-- A host read of BAR0, where the host interface answers: a read of another size returns all ones (R64), here for a read that
is not aligned too. EVQ_DATA and the reservation window change state with a read and are commands (EVQ_DATA_READ,
CMD_RESERVE_READ): none here. -/
def State.readRegister (s : State) (fn off size : Nat) : Option Word :=
  if !s.hostUp ∨ 63 < fn then none
  else if size ≠ 4 ∨ off % 4 ≠ 0 then some 0xFFFFFFFF
  else if off = 0x1004 ∨ (0x2000 ≤ off ∧ off < 0x3000) then none
  else some (s.bar0 fn off)

end Sys2Proof.Machine
end

