-- ==== Sys2Proof/Tests/Slice0.lean ====
section
/-! SUPPORT. Tests of the model: that each statement's hypotheses can be met, that ill-formed commands are refused, and a few
commands on small states with values worked out from the spec. -/

-- One theorem at a time: elaborated together, the evaluations hold some 40 threads and their stacks.
set_option Elab.async false

namespace Sys2Proof.Tests

open Sys2Proof.Machine

/-! ### Small states -/

/-- The pins of a device that is powered, out of reset and on a running PCIe link. -/
def up : Pins := { pwrgoodMain := true, sysResetN := true, perstN := true, pcieRef := true, linkUp := true }

/-- A device in mode `m` with nothing on it. -/
def base (m : Mode) : State := { State.reset with modes := { mode := m }, pins := up, now := 100000000000 }

/-- A command of function 0: its opcode and the words after its tag 7. -/
def cmd (op : Nat) (ws : List Word) : Taken := { fn := 0, words := [lengthWord (ws.length + 3), w32 op, 7] ++ ws }

/-- The same command after its commit point. -/
def ran (op : Nat) (ws : List Word) : Taken := { cmd op ws with committed := true }

/-- A device in mode `m` with one command in progress, numbered 0. -/
def asked (m : Mode) (c : Taken) : State := { base m with welmus := { taken := [(0, c)], nextId := 1 } }


/-! ### Hypotheses that can be met -/

theorem test_meets_ReadsAndBadMessagesAnswer :
    (asked .reset (cmd 0x010 [])).waits 0 0x010 (cmd 0x010 []) ∧ (cmd 0x010 []).lenIs 3 = true ∧
    (asked .service (cmd 0x071 [0, 1])).waits 0 0x071 (cmd 0x071 [0, 1]) ∧ (cmd 0x071 [0, 127]).lenIs 5 = true ∧
    (asked .retain (cmd 0x072 [0, 127])).waits 0 0x072 (cmd 0x072 [0, 127]) ∧ Mode.retain.status = true ∧
    (asked .calibrate (cmd 0x073 [63, 1])).waits 0 0x073 (cmd 0x073 [63, 1]) ∧
    (asked .service (cmd 0x073 [0, 64])).waits 0 0x073 (cmd 0x073 [0, 64]) ∧
    ({ cmd 0x010 [] with words := [0, 0x010, 7] } : Taken).malformed = true ∧
    (cmd 0x099 []).malformed = false ∧ catalogue.contains (cmd 0x099 []).op = false ∧
    (asked .service (cmd 0x099 [])).eligible 0 (cmd 0x099 []) = true := by
  unfold State.waits; decide

theorem test_meets_StatsReadReturnsAndZeroes :
    let c := cmd 0x070 [3, 63]
    let s := asked .service c
    s.waits 0 0x070 c ∧ c.lenIs 5 = true ∧ zeroFrom (c.w 3) 4 = true ∧ (c.w 4).toNat < statsBound (fld (c.w 3) 3 0) ∧
      s.statsRight c.fn 3 63 = true ∧ s.effMode.status = true ∧ s.statsExists 3 63 = true ∧
      (List.replicate 3 (2 ^ 64 - 1)).getD 1 0 = 2 ^ 64 - 1 ∧ (∀ x ∈ [2 ^ 64 - 1, 0], x ≤ 2 ^ 64 - 1) := by
  unfold State.waits; decide

theorem test_meets_TenantGrantReplacesTheGrant :
    let c := cmd 0x012 [63, 4, 2, 0, 8, 5]
    let s := { asked .service c with
      grants := [(1, { confBase := 0, confCount := 4, slotBase := 8, slotCount := 8 }), (63, { confBase := 5, confCount := 3, slotCount := 9 })]
      legs := [(0, { conf := 5 }), (1, { conf := 7 })], slots := [(7, { loaded := true }), (8, { loaded := true })] }
    s.waits 0 0x012 c ∧ c.fn = 0 ∧ c.lenIs 9 = true ∧ s.effMode.working = true ∧ (c.w 3).toNat = 63 ∧
      (grantOf c).confBase ≤ 65535 ∧ (grantOf c).slotBase ≤ 2097151 ∧ (grantOf c).legQuota ≤ 1048576 ∧
      (grantOf c).confBase + (grantOf c).confCount ≤ 65536 ∧ (grantOf c).slotBase + (grantOf c).slotCount ≤ 2097152 ∧
      s.grantClash 63 (grantOf c) = false ∧ (s.grants.getD {} 63).coversConf 7 = true ∧ (grantOf c).coversConf 7 = false ∧
      (grantOf c).coversConf 5 = true ∧ (s.grants.getD {} 63).coversSlot 8 = true ∧ (grantOf c).coversSlot 8 = false := by
  unfold State.waits; decide

theorem test_meets_CommandsReachWelmusThroughTheRing :
    (base .service).hostUp = true ∧ ({} : Mailbox).free = 16384 ∧
    ({ resv := [{ off := 0, n := 15384 }] } : Mailbox).free < 1024 ∧
    (let s := { base .service with mbx := [(2, { resv := [{ off := 16383, n := 3 }], nextOff := 2, headSince := some 0 })] };
      (∀ r ∈ (s.mb 2).resv, r.holds 16383 = true ∧ r.holds 1 = true ∧ r.holds 2 = false ∧ r.written = false) ∧
      (s.mb 2).stalled = true ∧ (0 : Nat) + 100000000 ≤ s.now ∧ s.faults.queue.length < 256 ∧
      ∀ r ∈ (s.mb 2).resv, r.holds 2 = true → r.written = true) ∧
    let s := { base .service with mbx := [(0, { resv := [{ off := 0, n := 3, written := true }], nextOff := 3 })] }
    s.welmus.order.find? (fun fn => s.mayTake fn []) = some 0 := by decide

theorem test_meets_EventQueueReadsInOrder :
    let s := { base .service with mbx := [(0, { evq := [(5, true), (6, false)] })] }
    s.hostUp = true ∧ (s.mb 0).evq = [(5, true), (6, false)] ∧ (s.mb 1).evq = [] ∧ (s.mb 0).holdoff ≠ 0 ∧
      (s.mb 0).signalRef + (s.mb 0).holdoff * 1000 ≤ s.now ∧ (s.func 0).msixMask.getD 0 false = true ∧
      ({ msixMask := [false] } : Func).msixMask.getD 0 false = false := by decide

theorem test_meets_CommandedModeChanges :
    (let c := cmd 0x011 [7, 86400];
      let s := asked .service c;
      s.waits 0 0x011 c ∧ c.lenIs 5 = true ∧ targetOf 7 = some .drain ∧ (c.w 4).toNat ≤ 86400 ∧
        s.effMode.working = true ∧ s.modes.arb = [] ∧ s.modes.transition = none) ∧
    (let c := cmd 0x011 [0, 0];
      (asked .retain c).waits 0 0x011 c ∧ targetOf 0 = some .reset) ∧ targetOf 11 = some .quarantine ∧
    (let r : ModeReq := { target := .service, trigger := 0, cmd := some 0 };
      let s := { asked .ready (cmd 0x011 [5, 0]) with modes := { mode := .ready, arb := [r] } };
      s.modes.arb = [r] ∧ s.welmus.taken.find? 0 = some (cmd 0x011 [5, 0]) ∧ s.commandTarget .ready .service = some .service ∧
        s.commandTarget .service .service = none ∧ s.modes.mode ≠ .throttle ∧ (cmd 0x011 [5, 0]).orphan = false) ∧
    (base .maintenance).trafficGone = true ∧
    let r : ModeReq := { target := .service, trigger := 0, cmd := some 0 }
    let s := { asked .ready (ran 0x011 [5, 0]) with modes := { mode := .ready, transition := some r } }
    s.modes.transition = some r ∧ s.modes.mode ≠ .throttle ∧ s.welmus.taken.find? 0 = some (ran 0x011 [5, 0]) ∧
      (ran 0x011 [5, 0]).orphan = false := by
  unfold State.waits; decide

theorem test_meets_FatalConditionsAndQuarantine :
    (let s := { base .service with thermal := { fatalSince := some 99999000000 } };
      s.modes.mode ≠ .quarantine ∧ s.modes.mode ≠ .reset ∧ s.modes.quarantines = [] ∧
        s.pins.pwrgoodMain = true ∧ s.thermal.fatalSince = some 99999000000 ∧ 99999000000 + 1000000 ≤ s.now) ∧
    (let s := { base .service with modes := { mode := .service, watchdogs := [40000000001] } };
      40000000001 ∈ s.modes.watchdogs ∧ s.now < 40000000001 + 60000000000 ∧ s.modes.mode.status = true) ∧
    (∀ u ∈ ([40000000000] : List Nat), u + 60000000000 ≤ (base .service).now) ∧
    (let r : ModeReq := { target := .quarantine, trigger := 10, cause := 2 };
      let s := { base .service with modes := { mode := .service, transition := some r } };
      s.modes.transition = some r ∧ s.faults.lgValid = false ∧ s.modes.resetAsked = false ∧ s.modes.quarantines = [r] ∧
        s.faults.queue.length < 256 ∧ ({ s.modes with arb := [{ target := .reset, trigger := 0 }] } : Modes).resetAsked = true) ∧
    let s := { base .drain with modes := { mode := .drain, drainDeadline := some 100000000000 }, legs := [(3, {})] }
    s.modes.drainDeadline = some 100000000000 ∧ 100000000000 ≤ s.now ∧ s.modes.transition = none ∧ s.modes.arb = [] ∧
      s.legs ≠ [] := by decide

theorem test_meets_ResetsReachTheirScope :
    let s := asked .quarantine (cmd 0x010 [])
    let v := { s with welmus := { taken := [(0, { cmd 0x010 [] with fn := 63 }), (1, cmd 0x010 [])] } }
    s.pins.pwrgoodAux = true ∧ s.pins.pwrgoodMain = true ∧ s.modes.mode = .quarantine ∧ FMap.sorted v.welmus.taken = true ∧
      v.welmus.taken.find? 0 = some { cmd 0x010 [] with fn := 63 } ∧ v.welmus.taken.find? 1 = some (cmd 0x010 []) ∧
      (cmd 0x010 []).committed = false ∧ s.modes.mode ≠ .reset ∧ ({ s with freq := { pcie := {} } } : State).freq.pcie.missing = false ∧
      (1 : Nat) ≤ 63 := by decide

/-- An image header of SVN 64 under key 1 with ADVANCE and REVOKE0. -/
def header : BootHeader :=
  { magic := 0x534D4C57, word1 := 1, word2 := 0x740, bodyLength := 12582912, fwVersion := 9, reservedZero := true }

theorem test_meets_BootEndsInReady :
    (let s := { base .reset with freq := { sysclk := {} } };
      s.pins.pwrgoodAux = true ∧ s.modes.mode = .reset ∧ s.freq.sysclk.missing = false ∧ s.boot.checking = none) ∧
    (let s := { base .identify with boot := { toTry := [1, 2] } };
      s.modes.mode = .identify ∧ s.boot.checking = none ∧ s.boot.toTry = 1 :: [2] ∧ header.magic = 0x534D4C57 ∧
        fld header.word1 15 0 = 1 ∧ header.reservedZero = true ∧ s.fuses.svnMin ≤ fld header.word2 7 0 ∧
        fld header.word2 7 0 ≤ 64 ∧ 1 ≤ header.bodyLength ∧ header.bodyLength ≤ 12582912 ∧ s.fuses.revoked0 = false ∧
        s.fuses.revoked1 = false) ∧
    (let s := { base .identify with boot := { checking := some (2, header), pushReady := true } };
      s.boot.checking = some (2, header) ∧ s.modes.ending = false ∧ s.hostUp = true ∧ s.boot.pushReady = true) ∧
    (let s := { base .load with boot := { source := 3 } };
      s.modes.mode = .load ∧ s.modes.ending = false ∧ (List.range 32).length = 32 ∧ s.boot.source = 3 ∧
        s.fuses.importSet = false) ∧
    (let s := { base .calibrate with boot := { calDone := [6, 5, 3, 2, 1], image := some header } };
      s.modes.resuming = false ∧ s.modes.arb = [] ∧ s.modes.transition = none ∧ s.modes.resumeCmd = none ∧
        s.boot.calDone = [6, 5, 3, 2, 1] ∧ s.boot.readyUnderImage = false ∧ s.boot.image = some header) ∧
    (base .calibrate).boot.calDone = [] := by decide

theorem test_meets_ManagementAndAlarms :
    let s := { base .reset with
      smbus := { stuck := true, recorded := true, lastTry := 99000000000 }, pins := { alarms := [{}, { stopped := true }, {}] } }
    let q := { base .quarantine with pins := up }
    s.pins.pwrgoodAux = true ∧ s.faults.queue.length < 256 ∧ s.smbus.stuck = true ∧ s.smbus.recorded = true ∧
      s.smbus.lastTry + 1000000000 ≤ s.now ∧ (base .reset).smbus.stuck = false ∧ (base .reset).smbus.recorded = false ∧
      s.pins.alarms.length = 3 ∧ (s.alarm 1).stopped = true ∧ (s.alarm 1).lastTry + 1000000000 ≤ s.now ∧
      q.alarmOn 0 = true ∧ (q.alarm 0).stopped = false := by decide

/-- A running time unit 20 s after the start of TCLK. -/
def ticking (m : Mode) : State := { base m with time := { running := true, elapsed := 20000000000 } }

theorem test_meets_TimeBasesFollowCommands :
    (let c := cmd 0x051 [0x117, 8, 0x80, 0, 1000000000, 500000, 0x00010064, 0, 0, 0];
      let s := { asked .service c with ports := [(0, {})], time := (ticking .service).time };
      s.waits 0 0x051 c ∧ timeConfigBad c = false ∧ (servoCfgOf c).ptpEn = true ∧
        (s.port? (servoCfgOf c).ptpPort).isSome = true ∧ s.ptpClash 7 (servoCfgOf c) = false ∧ bitAt (c.w 3) 8 = true ∧
        s.time.bases.length = 8) ∧
    (let c := cmd 0x052 [0x100, 1, 0];
      let s := { asked .service c with time := (ticking .service).time };
      s.waits 0 0x052 c ∧ timeOffsetBad c = false ∧ bitAt (c.w 3) 8 = true ∧
        0 ≤ ((s.tb 0).value : Int) + offsetOf c * 2 ^ 24 ∧
        ((s.tb 0).value : Int) + offsetOf c * 2 ^ 24 < 2 ^ 48 * 1000000000 * 2 ^ 40) ∧
    (let s := { ticking .service with time := { (ticking .service).time with ppsOutEn := true, ppsLevel := true, ppsLastRise := some 19900000000 } };
      s.time.running = true ∧ s.time.ppsOutEn = true ∧ s.time.ppsLevel = true ∧
        s.time.ppsNext ≤ (s.tb s.time.ppsOutTb).value / (2 ^ 40 * 1000000000) ∧ s.time.ppsLastRise = some 19900000000 ∧
        s.time.elapsed < 19900000000 + 500000000 ∧ 19900000000 + 100000000 ≤ s.time.elapsed) ∧
    (let c := cmd 0x052 [0x007, 0xFFFFFFFF, 0xFFFFFFFF];
      let s := { asked .service c with
        time := { (ticking .service).time with bases := [{}, {}, {}, {}, {}, {}, {}, { source := 1, samples := 1 }] } };
      s.waits 0 0x052 c ∧ timeOffsetBad c = false ∧ bitAt (c.w 3) 8 = false ∧ (s.tb 7).source = 1 ∧ (s.tb 7).cfg.ptpEn = false ∧
        (s.tb 7).lastStep ≤ s.time.elapsed ∧ (s.tb 7).tPrev < s.time.elapsed) ∧
    (let s := { ticking .service with time := { (ticking .service).time with ppsInLast := some 19100000001 } };
      s.time.ppsInLast = some 19100000001 ∧ 19100000001 ≤ s.time.elapsed ∧ s.time.elapsed < 19100000001 + 900000000 ∧
        s.faults.queue.length < 256 ∧ (ticking .service).time.ppsInLast = none) ∧
    (let s := { ticking .service with time := { (ticking .service).time with ppsInLast := some 19100000000 } };
      19100000000 + 900000000 ≤ s.time.elapsed ∧ s.time.elapsed ≤ 19100000000 + 1100000000) := by
  unfold State.waits; decide

/-- A Delay_Resp of master 9 that completes the exchange of time base 0, and the state it meets. -/
def delayResp : PtpMsg := { kind := .delayResp, source := 9, seq := 4, requester := ptpIdentity 0, time := 30 }

def exchanging : State :=
  let b : TimeBase := {
    source := 1, cfg := { ptpPort := 5, ptpEn := true }
    ptp := { masters := [{ id := 9, rank := [], last := 19500000000, before := some 19000000000, interval := 1000000000 }],
             sync := some { seq := 3, stamp := 0, at_ := 20000000000, correction := 0, sent := some 10 }, req := some (4, some 0) } }
  { ticking .service with
    ports := [(5, { timeQ := [{ frame := { app := .ptp delayResp }, at_ := 20000000000 }] })]
    time := { (ticking .service).time with bases := [b, {}, {}, {}, {}, {}, {}, {}] } }

theorem test_meets_TimeBasesFollowCommands_exchange :
    let s := exchanging
    s.welmusRuns = true ∧ s.time.bases.length = 8 ∧ (s.tb 0).cfg.ptpEn = true ∧ (s.tb 0).source = 1 ∧
      (s.tb 0).cfg.peerDelay = false ∧ (s.port? (s.tb 0).cfg.ptpPort).isSome = true ∧ delayResp.kind = .delayResp ∧
      s.ptpBase 5 { app := .ptp delayResp } delayResp = some 0 ∧
      ((s.tb 0).ptp.best 20000000000).any (fun x => x.id == 9) = true ∧ (s.tb 0).ptp.req = some (4, some 0) ∧
      ((s.tb 0).ptp.sync.map PtpSync.sent) = some (some 10) ∧ delayResp.requester = ptpIdentity 0 ∧
      (s.tb 0).lastStep ≤ (20000000000 : Int) ∧ (s.tb 0).samples = 0 :=
  ⟨rfl, rfl, rfl, rfl, rfl, rfl, rfl, rfl, by decide +kernel, rfl, rfl, rfl, by decide +kernel, rfl⟩

theorem test_meets_ReferencesAndHoldover :
    (let s := { ticking .service with time := { (ticking .service).time with tclkRef10 := true } };
      s.time.changing = none ∧ s.time.tclkRef10 = true ∧ s.freq.ref10m.missing = true ∧ s.time.bases.length = 8) ∧
    (let s := { ticking .service with
        freq := { ref10m := {} }, time := { (ticking .service).time with refSince := some 90000000000 } };
      s.time.tclkRef10 = false ∧ s.freq.ref10m.missing = false ∧ s.time.refSince = some 90000000000 ∧
        90000000000 + 10000000000 ≤ s.now) ∧
    (let s := { ticking .service with time := { (ticking .service).time with
        changing := some (true, 0), bases := [{ state := .holdover }, {}, {}, {}, {}, {}, {}, {}] } };
      s.time.changing = some (true, 0) ∧ (s.tb 0).source = 0 ∧ (s.tb 0).state = .holdover) ∧
    (let s := { ticking .service with time := { (ticking .service).time with
        ppsInLast := some 18500000000, bases := [{}, {}, {}, {}, {}, {}, {}, { source := 2, state := .locked, lastOffset := 17000000000 }] } };
      s.time.running = true ∧ (s.tb 7).state ≠ .holdover ∧ (s.tb 7).source ≠ 0 ∧ (s.tb 7).causes.testBit 0 = false ∧
        (s.tb 7).lastOffset + (s.tb 7).cfg.holdoverTimeout * 1000000 ≤ s.time.elapsed ∧ (s.tb 7).source = 2 ∧
        (s.tb 7).causes.testBit 1 = false ∧ s.time.ppsInLast = some 18500000000 ∧ 18500000000 + 1500000000 ≤ s.time.elapsed) ∧
    let s := { base .service with freq := { ref10m := { missing := true, goodWindows := 99 } } }
    s.pins.pwrgoodAux = true ∧ s.modes.mode ≠ .quarantine ∧ s.modes.mode ≠ .reset ∧ s.modes.arb = [] ∧
      s.modes.transition = none ∧ ({ s with freq := { pcie := {} } } : State).freq.pcie.missing = false ∧
      s.freq.ref10m.missing = true ∧ s.freq.ref10m.goodWindows = 99 ∧ s.freq.sdref.length = 8 ∧
      (s.freq.sdref.set 7 {}).getD 7 { missing := true } = ({} : RefState) ∧ (127 : Nat) ∈ refLanes 7 := by decide

theorem test_meets_FaultLogWritesRecords :
    let r : FaultRec := { time := [0, 0, 0], cls := 0x29, sev := 0, fn := none, objKind := 6, objId := 1, d0 := 0, d1 := 0 }
    let f : Faults := { queue := [r], resetMark := none }
    let s := { base .calibrate with faults := f }
    let n := { base .calibrate with faults := { f with log := { recs := [{ words := r.words 0 0, at_ := 99999999999 }] } } }
    let m := { base .service with faults := { f with resetMark := some r } }
    s.logAccepts = true ∧ s.faults.resetMark = none ∧ s.faults.queue = r :: [] ∧ s.faults.log.newestLike r = none ∧
      s.faults.lgValid = false ∧ (r.words 0 0).length = 8 ∧ m.logAccepts = true ∧ m.faults.resetMark = some r ∧
      m.hostUp = true ∧ n.faults.log.newestLike r = some 0 ∧ n.faults.log.recs[0]?.map LogRec.at_ = some 99999999999 ∧
      n.now < 99999999999 + 1000000 ∧ (faultClass 0x29).2.2 = true ∧ (faultClass 0x19).2.2 = false := by decide

theorem test_meets_RegisterWritesSetTheirRegister :
    let s := { base .service with funcs := [(63, { rings := [{ enable := true }, {}, {}, {}] })] }
    s.hostUp = true ∧ (s.func 63).rings.length = 4 ∧ (s.ring 63 0).enable = true ∧ (s.ring 63 3).enable = false ∧
      bitAt (1 : Word) 0 = true ∧ (s.func 63).msixMask.length = 5 := by decide

theorem test_meets_SramSweepActsOnTheWordsOwner :
    let s := { base .service with
      legs := [(1048575, {})]
      store := [(4, { copy := { leg := 0, conf := 0, bank := 0, body := .raw 0 }, port := 0, cls := 0, leg := 0, length := 64, cells := 1, launch := 0 })] }
    s.modes.mode ≠ .reset ∧ s.faults.queue.length < 255 ∧ s.sram.find? 12 = none ∧ s.modes.mode ≠ .quarantine ∧
      s.modes.arb = [] ∧ s.modes.transition = none ∧ (s.legs.find? 1048575).isSome = true ∧
      (({ s with sram := [(12, { lastStorm := some 40000000001 })] } : State).sram.find? 12).map SramState.lastStorm
        = some (some 40000000001) ∧ s.now < 40000000001 + 60000000000 ∧ (s.legs.getD {} 1048575).fenced = false ∧
      ∀ c, s.store.find? 4 = some c → c.sump = false := by
  refine ⟨by decide, by decide, by decide, by decide, by decide, by decide, by decide, by decide, by decide, by decide, ?_⟩
  intro c h
  cases h
  rfl

theorem test_meets_VoltageFollowsTheSurvey :
    let s := { base .service with survey := [(0, { baseline := 1000 }), (63, {})], vdd := { command := some (785, 2, 99999000000) } }
    s.welmusRuns = true ∧ s.survey ≠ [] ∧ s.vdd.lastPlan = none ∧ s.vdd.acked ≤ 800 ∧ s.survey.find? 63 = some {} ∧
      s.vdd.command = some (785, 2, 99999000000) ∧ s.modes.mode ≠ .reset ∧ 99999000000 + 1000000 ≤ s.now ∧
      ({ s with vdd := { acked := 700, guard := 20 } } : State).vdd.acked + 5 ≤ s.fuses.baseMv + s.guardWanted := by decide

theorem test_meets_HeatDrivesThrottle :
    let hot : List Int := 800 :: List.replicate 23 799
    let s := { base .throttle with
      modes := { mode := .throttle, returnMode := .service }
      thermal := { sensors := [800], step := 4, lastTest := 99900000000, coldSince := some 99000000000 } }
    (base .service).pins.pwrgoodAux = true ∧ hot.length = 24 ∧ Mode.service.throttles = true ∧ hot.any (fun x => decide (800 ≤ x)) = true ∧
      (base .service).thermal.sensors.all (fun x => decide (x < 800)) = true ∧ (base .service).modes.transition = none ∧
      s.thermal.lastTest + 100000000 ≤ s.now ∧ s.faults.queue.length < 256 ∧ 800 ≤ s.hottest ∧ s.thermal.step < 5 ∧
      ({ s with thermal := { sensors := [799] } } : State).hottest < 800 ∧ s.thermal.coldSince = some 99000000000 ∧ 99000000000 + 1000000000 ≤ s.now ∧
      s.modes.arb = [] ∧ s.modes.transition = none := by decide

/-- The SHAPER section of a plan that shapes nothing. -/
def shaperWords : List Word := [0, 0, 0, 0xFFFFFFFF, 0, 0, 0, 0, 0]

/-- The smallest plan image: EPOCH 5 for conference 3, six sections, the CRCs as CRC-32C gives them (R99, R100). -/
def image : List Word :=
  [0x48544541, 1, 0x50003, 4096, 0, 6, 0, 0, 0, 0, 1798719034, 0, 0, 0, 0, 0,
    1, 192, 0, 0, 2, 192, 4, 0x48674BC7, 3, 256, 4, 0x48674BC7, 4, 320, 4, 0x48674BC7, 5, 384, 36, 2166502851, 6, 448, 0, 0]
  ++ List.replicate 56 0 ++ shaperWords ++ List.replicate 919 0

/-- A plan with one port slot 0, one spare slot 7 of KIND 0, and nothing else. -/
def plan : Plan :=
  { conf := 3, epoch := 5, tickPhase := 0
    roster := [{ slot := 0, kind := 0, spare := false, ladder := 0xFFFF, estClass := 0, rateInit := 0, session := 0xFFFF, aux := 0, ref := 0 },
      { slot := 7, kind := 0, spare := true, ladder := 0xFFFF, estClass := 0, rateInit := 0, session := 0xFFFF, aux := 0, ref := 0 }] }

/-- Conference 3 with that plan ACTIVE in bank 0. -/
def conf3 : Conf := { banks := [{ st := .active, plan := some plan }, {}] }

def load3 : Load := { conf := 3, bank := 1, fn := 0, addr := 0, length := 4096 }

/-- The smallest image is a good one, and one word changed in its SHAPER section fails that section's CRC (R99, R108). -/
theorem test_planImage :
    (match (base .service).validate { load3 with bank := 0 } image with | .ok p => p.epoch | _ => 0) = 5 ∧
      (base .service).validate { load3 with bank := 0 } (image.set 100 1) = .badArg 5 384 := by decide +kernel

theorem test_meets_PlansAreLoadedAndRetired :
    (let c := cmd 0x020 [3, 0x40, 0, 268435456];
      let s := asked .service c;
      s.waits 0 0x020 c ∧ s.hasConf c.fn 3 = true ∧ c.lenIs 7 = true ∧ s.effMode.working = true ∧ (c.w 6).toNat = 268435456 ∧
        num64 (c.w 4) (c.w 5) % 64 = 0 ∧ s.loadBusy 3 = false ∧ s.staged + 268435456 ≤ 1073741824 ∧
        (s.conf 3).banks.length = 2) ∧
    (let c := ran 0x020 [3, 0x40, 0, 4096];
      let s := { asked .service c with loads := [(0, load3), (1, { load3 with aborted := true })], confs := [(3, conf3)] };
      s.runs 0 0x020 c ∧ s.loads.find? 0 = some load3 ∧ (s.conf 3).banks.length = 2 ∧ load3.bank < 2 ∧
        load3.aborted = false ∧ s.validate load3 [] = .badArg 0 0) ∧
    (let c := cmd 0x021 [3, 65535];
      let s := { asked .service c with confs := [(3, { banks := [{ st := .standby, plan := some plan }, {}] })] };
      s.waits 0 0x021 c ∧ s.hasConf c.fn 3 = true ∧ c.lenIs 5 = true ∧ s.effMode.working = true ∧ (s.conf 3).standbyNo = 0 ∧ ((s.conf 3).bank 0).st = .standby ∧
        ((s.conf 3).bank 0).plan = some plan) ∧
    let s := { base .service with confs := [(3, { banks := [{ st := .retiring, plan := some plan, leftActive := some 99000000000 }, {}] })] }
    (s.conf 3).retiringNo = some 0 ∧ (s.conf 3).banks.length = 2 ∧ s.bankRuns 3 0 = [] ∧ s.latchedPackets 3 0 = false ∧
      ((s.conf 3).bank 0).leftActive = some 99000000000 ∧ 99000000000 + 1000000000 ≤ s.now ∧
      ({ s with replQ := [(0, [{ conf := 3, bank := 0, source := 0, app := .raw 0 }])] } : State).latchedPackets 3 0 = true := by
  unfold State.waits State.runs; decide +kernel

/-- TB0 one second after zero. -/
def oneSecond : TimeUnit := { running := true, bases := [{ value := 2 ^ 40 * 1000000000 }, {}, {}, {}, {}, {}, {}, {}] }

theorem test_meets_MediaTickSwitchesAndSelects :
    let s := { base .service with
      time := oneSecond
      confs := [(3, { conf3 with lastTick := some 0, banks := [{ st := .active, plan := some plan }, { st := .pending, plan := some plan, commitAt := 99999980000 }] }),
        (4, { conf3 with lastTick := some 0 })] }
    s.tickDue (s.conf 3) = true ∧ (s.conf 3).banks.length = 2 ∧ (s.conf 3).pendingNo = some 1 ∧
      ((s.conf 3).bank 1).plan = some plan ∧ ((s.conf 3).bank 1).commitAt + 20000 ≤ s.now ∧ (s.conf 3).activeNo = some 0 ∧
      s.tickDue (s.conf 4) = true ∧ (s.conf 4).pendingNo = none ∧ (s.conf 4).active = some plan ∧ plan.mix.k = 0 ∧
      ({ k := 16, pins := [0] } : Mix).k ≠ 0 ∧
      (({ s with confs := [(3, { conf3 with nextSel := some (5, [0], []) })] } : State).conf 3).nextSel = some (5, [0], []) := by
  decide +kernel

theorem test_meets_LegsAreOpenedBoundAndClosed :
    (let c := cmd 0x030 [3, 0x00010002, 1, 0, 0, 0, 2, 0, 0, 0, 0, 0, 0, 0, 0, 8, 0xFFFFFFF7, 9, 0xFFFFFFF6];
      let s := { asked .service c with
        confs := [(3, conf3)], ports := [(0, {})], slots := [(8, { loaded := true, profile := 1 }), (9, { loaded := true, profile := 1 })] };
      s.waits 0 0x030 c ∧ openMalformed c = false ∧ fld (c.w 3) 15 0 = 3 ∧ s.hasConf c.fn 3 = true ∧ s.hasSlot c.fn 8 = true ∧
        s.hasSlot c.fn 9 = true ∧ c.fn = 0 ∧ s.effMode.working = true ∧ s.effMode ≠ .drain ∧
        c.w 19 = ~~~(c.w 18) ∧ c.w 21 = ~~~(c.w 20) ∧ (s.conf 3).exists_ = true ∧ (s.port? 0).isSome = true ∧
        (s.slot 8).loaded = true ∧ (s.slot 9).loaded = true ∧ (s.slot 8).held = false ∧ (s.slot 9).held = false ∧
        (∀ k ∈ openKeys c 0, ∀ e ∈ s.lookups, e.sameKey k = false) ∧ s.lowestLeg 1048576 0 = some 0 ∧
        (placeKeys s.lookups (openKeys c 0)).isSome = true) ∧
    (let c := cmd 0x031 [1048575, 0xFFFF];
      let s := { asked .service c with confs := [(3, conf3)], legs := [(1048575, { conf := 3 })] };
      s.waits 0 0x031 c ∧ s.hasLeg c.fn 1048575 = true ∧ c.lenIs 5 = true ∧ s.effMode ≠ .drain ∧ (s.legs.getD {} 1048575).fenced = false ∧ (s.conf 3).fenced = none ∧
        (s.conf 3).active = some plan ∧ (s.bindTarget { conf := 3 } plan 0xFFFF).isSome = true ∧
        (s.bindTarget { conf := 3 } plan 0).isSome = true ∧ s.boundTo 3 7 = none) ∧
    let c := cmd 0x032 [0]
    let s := { asked .service c with legs := [(0, { conf := 3 })] }
    s.waits 0 0x032 c ∧ s.hasLeg c.fn 0 = true ∧ c.lenIs 4 = true ∧ s.legs.find? 0 = some { conf := 3 } ∧ s.effMode ≠ .drain := by
  unfold State.waits; decide +kernel

/-- A wrapped key of profile 1 as words. -/
def wrapped : List Word :=
  [0x15b96014, 0x1735002f, 0xb4b83bdd, 0x8e6580bc, 0x5ab3af82, 0x4e268bab, 0x2499e691, 0xbe427134, 0x60a65286, 0x6acea4f6]

theorem test_meets_KeysAreImportedAndErased :
    (let c := cmd 0x040 ([2097151, 0x2801] ++ wrapped);
      let s := { asked .service c with fuses := { importSet := true }, kik := List.range 32, slots := [(2097151, { kcvValid := true, kcv := 5, loaded := true })] };
      s.waits 0 0x040 c ∧ s.hasSlot c.fn 2097151 = true ∧ importMalformed c = false ∧ (c.w 3).toNat = 2097151 ∧
        fld (c.w 4) 2 0 = 1 ∧ s.effMode.working = true ∧ s.fuses.importSet = true ∧ c.words.drop 5 = wrapped ∧
        (s.slot 2097151).held = false ∧ (s.pch (slotPch 2097151)).st ≠ 1 ∧ (s.slot 0).kcvValid = false ∧
        (s.slot 2097151).kcvValid = true ∧ (∀ m : KeyMat, (s.slot 2097151).kcv ≠ m.kcv ∨ (s.slot 2097151).kcv = m.kcv)) ∧
    let c := cmd 0x041 [2097151]
    let s := { asked .drain c with slots := [(2097151, { loaded := true })] }
    s.waits 0 0x041 c ∧ s.hasSlot c.fn 2097151 = true ∧ c.lenIs 4 = true ∧ (s.slot 2097151).loaded = true ∧
      s.effMode.working = true := by
  constructor
  · refine ⟨?_, by decide +kernel, by decide +kernel, by decide +kernel, by decide +kernel, by decide +kernel, by decide +kernel,
      by decide +kernel, by decide +kernel, by decide +kernel, by decide +kernel, by decide +kernel, fun _ => by omega⟩
    unfold State.waits
    decide +kernel
  · unfold State.waits
    decide +kernel

theorem test_meets_PortConfigMakesThePort :
    let c := cmd 0x050 [0x400 + 124, 0, 0]
    let z := cmd 0x050 [124, 0, 0]
    let s := asked .service c
    s.waits 0 0x050 c ∧ portCfgOf c = some { speed := 4 } ∧ fld (c.w 3) 6 0 = 124 ∧ s.effMode.working = true ∧
      s.lanesTaken 124 4 = false ∧ s.lanesGone 124 4 = false ∧ s.port? 124 = none ∧
      (asked .ready z).waits 0 0x050 z ∧ portCfgOf z = some {} ∧
      ({ s with ports := [(124, { cfg := { speed := 4 }, st := 4, speedRun := 4, active := laneBits 4 })] } : State).lanesTaken 124 4 = false ∧
      (∀ w ∈ s.waitQ, w.port ≠ 124) ∧ c.fn = 0 := by
  unfold State.waits; decide +kernel

theorem test_meets_PortsComeUpAndFailBack :
    let one : PortCfg := { speed := 1 }
    let s := { base .ready with
      ports := [(0, { cfg := one, st := 1, signal := 1, signalSince := some 99900000000 }),
        (1, { cfg := one, st := 2, stSince := 99500000000 }), (2, { cfg := one, st := 3, stSince := 99990000000 }),
        (3, { cfg := one, st := 3, retryAt := some 100000000000 }), (127, { cfg := one, st := 4 })] }
    s.portsRun = true ∧ s.shorted.contains 127 = false ∧ lanesOf 1 = 1 ∧ s.faults.queue.length < 256 ∧
      (1 : Nat).testBit 0 = true ∧ 99500000000 + 500000000 ≤ s.now ∧ 99990000000 + 10000000 ≤ s.now ∧
      List.find? (fun x : Nat × Port => (portLanes x.1 x.2.cfg.speed).contains 127) s.ports = some (127, { cfg := one, st := 4 }) ∧
      s.port? 0 = some { cfg := one, st := 1, signal := 1, signalSince := some 99900000000 } ∧
      ({} : Port).refHeld = false ∧ ({} : Port).openLanes = 0 ∧ ({} : Port).reduced = false ∧ (∀ w ∈ s.waitQ, w.port ≠ 127) ∧
      (s.port? 3).isSome = true := by decide +kernel

/-- A UDP frame over IPv4 for the packet pipeline, 78 bytes long. -/
def udpFrame (first : Nat) (app : App) : Frame :=
  { da := 0xFFFFFFFFFFFF, length := 78, ip := some { v6 := false, src := 1, dst := 2 }, udp := some { sport := 4, dport := 6 }
    wire := [first], app := app }

theorem test_meets_MacReceivesFrames :
    let q : Port := { cfg := { speed := 1, pauseRx := true }, st := 4, speedRun := 1 }
    let s := { base .service with ports := [(0, q)] }
    let f := udpFrame 128 (.raw 0)
    s.port? 0 = some q ∧ s.portsRun = true ∧ q.st = 4 ∧ f.fcsOk = true ∧ 64 ≤ f.length ∧ f.length ≤ q.cfg.maxFrame ∧
      frameCtl f = .none ∧ q.cfg.addrOk f.da = true ∧ q.cfg.vlanOk (frameVid (parsedTags f).1) = true ∧
      q.cfg.steer f (parsedTags f).2 (frameVid (parsedTags f).1) (framePcp (parsedTags f).1 q.cfg.defaultPcp) = 0 ∧
      s.carries = true ∧ q.fill + f.length ≤ q.pipeCap ∧ q.cfg.pauseRx = true ∧ (q.watch.getD 8 {}).tripped = false ∧
      ((q.settle 8 (s.now * 1000)).watch.getD 8 {}).total < 10000 ∧ ({ f with fcsOk := false } : Frame).fcsOk = false ∧
      frameCtl { f with etype := 0x8808, ctl := .pause 0xFFFF } = .pause 0xFFFF := by decide +kernel

theorem test_meets_MacStartsAndPauses :
    let q : Port := { cfg := { speed := 1, pauseTx := true }, st := 4, speedRun := 1, txPaused := true
                      pauseHold := some { from_ := 0, until_ := 5 }, pfcHold := [(7, { from_ := 0, until_ := 5 })]
                      pipeQ := [{ frame := { length := 12288 } }] }
    let tx : TxFrame := { frame := {}, length := 64, asap := true }
    let r : Port := { cfg := { speed := 4 }, st := 4, speedRun := 4, txq := [[tx], [], [], [], [], [], [], []] }
    let s := { base .service with ports := [(0, q), (4, r)] }
    s.port? 0 = some q ∧ q.hold 8 = some { from_ := 0, until_ := 5 } ∧ q.hold 7 = some { from_ := 0, until_ := 5 } ∧
      q.watch.length = 9 ∧ q.sendsPause = true ∧ q.txPaused = true ∧ 3 * q.pipeCap ≤ 4 * q.fill ∧
      q.lastPauseTx * 1000 + 0xFFFF * quantumPs q.speedRun / 2 ≤ s.now * 1000 ∧ s.port? 4 = some r ∧ s.portsRun = true ∧
      r.gapUntil ≤ s.now * 1000 ∧ r.heldAt 8 (s.now * 1000) = false ∧ r.heldAt 7 (s.now * 1000) = false ∧
      r.txq = (tx :: []) :: r.txq.drop 1 ∧ tx.length ≤ r.cfg.maxFrame ∧ tx.due s.launchClock = true ∧
      r.cfg.gateTest 0 (tx.wirePs r.speedRun) (s.tb0 / 2 ^ 24) = .start ∧ tx.stamp = none ∧ (∀ w ∈ s.waitQ, w.port ≠ 4) ∧
      q.watchAt < s.now / 1000000 ∧ (5 : Nat) ≤ s.now * 1000 ∧
      (let w : Port := { q with watch := q.watch.set 8 { held := 10000000000 } };
        (w.watch.getD 8 {}).tripped = false ∧ 10000 ≤ ((w.settle 8 (s.now * 1000)).watch.getD 8 {}).total) := by decide +kernel

theorem test_meets_MixAndShaperCommandsTakeEffect :
    (let c := cmd 0x060 [1 + 16 * 3, 64, 0xFFFFFFBF, 0];
      let s := { asked .service c with confs := [(3, conf3)] };
      s.waits 0 0x060 c ∧ shaperMalformed c = false ∧ s.hasBucket c.fn 1 3 = true ∧ fld (c.w 3) 1 0 = 1 ∧ fld (c.w 3) 23 4 = 3 ∧ s.effMode.working = true ∧
        c.w 5 = ~~~(c.w 4) ∧ (s.conf 3).fenced = none ∧ s.bucketExists 1 3 = true) ∧
    (let c := cmd 0x060 [16 * 1048575, 0, 0xFFFFFFFF, 16777216];
      let s := { asked .service c with legs := [(1048575, {})] };
      s.waits 0 0x060 c ∧ shaperMalformed c = false ∧ s.bucketExists 0 1048575 = true) := by
  unfold State.waits; decide +kernel

theorem test_meets_MixAndShaperCommandsTakeEffect_routes :
    (let c := cmd 0x061 [3, 2, 65535, 0xFFFF0000];
      let p := { plan with mix := { k := 0, buses := [{ bus := 2, rate := 0, route := 0, columns := [{}], taps := [], words := [] }] },
                           routes := [{ ref := 65535, bus := 2, coeffs := [] }] };
      let s := { asked .service c with confs := [(3, { banks := [{ st := .active, plan := some p }, {}] })] };
      s.waits 0 0x061 c ∧ s.hasConf c.fn 3 = true ∧ c.lenIs 7 = true ∧ zeroFrom (c.w 3) 17 = true ∧ zeroFrom (c.w 4) 21 = true ∧
        fld (c.w 3) 16 16 = 0 ∧ c.w 6 = ~~~(c.w 5) ∧
        (s.conf 3).active = some p ∧ (p.busRec 2).isSome = true ∧ p.routes.any (fun r => r.ref == 65535 && r.bus == 2) = true ∧
        (s.conf 3).activeNo = some 0 ∧ s.busNo 3 0 2 = none) ∧
    (let c := cmd 0x061 [65536 + 3, 2, 1, 0xFFFFFFFE];
      let p := { plan with outputs := [{ output := 2, deep := false, dual := false, colour := 0, w := 64, h := 64, bandFbs := 3, region := 0, layout := 0 }],
                           layoutSels := [{ ref := 1, output := 2, layout := 0 }] };
      let s := { asked .service c with confs := [(3, { banks := [{ st := .active, plan := some p }, {}] })] };
      s.waits 0 0x061 c ∧ fld (c.w 3) 16 16 = 1 ∧ (s.conf 3).active = some p ∧ (p.outputRec 2).isSome = true ∧
        p.layoutSels.any (fun r => r.ref == 1 && r.output == 2) = true) ∧
    (let c := cmd 0x062 [3, 2, 0, 5, 0xFFFFFFFA];
      let b : BusRec := { bus := 2, rate := 0, route := 0, columns := [{}], taps := [], words := [] };
      let p := { plan with mix := { buses := [b] } };
      let s := { asked .service c with confs := [(3, { banks := [{ st := .active, plan := some p }, {}], gainPend := [(131073, (0, 1, 0))] })] };
      s.waits 0 0x062 c ∧ s.hasConf c.fn 3 = true ∧ c.lenIs 8 = true ∧ c.w 7 = ~~~(c.w 6) ∧ (s.conf 3).active = some p ∧ p.busRec 2 = some b ∧
        0 < b.columns.length ∧ (s.conf 3).gainPend.find? (2 * 65536) = none ∧
        (s.conf 3).gainPend.find? (2 * 65536 + 1) = some (0, 1, 0)) ∧
    (base .service).hostUp = true ∧ ({ base .service with ports := [(127, {})] } : State).bucketExists 3 127 = true := by
  unfold State.waits; decide +kernel

theorem test_meets_HbmReadsReturnWhatWasWritten :
    let s := { base .service with
      pchs := [(1, { writes := [{ line := 12582911, value := { data := 5 } }] }), (2, { st := 2 })], towers := [(5, { burst := some {
        channel := 15, since := 0, result := { ok0 := true, ok1 := true, values0 := 0, values1 := 0 } } })] }
    s.portsRun = true ∧ 805306367 / 64 < pchLines ∧ (s.pch 1).st = 0 ∧ (s.pch 1).writes.length < 47 ∧
      s.pchHeld 1 = false ∧ (∀ w ∈ (s.pch 1).writes, w.merge = none) ∧ (7 % 2 ^ 64 ≠ 2 ^ 64 - 1) ∧ (s.pch 1).reads = [] ∧
      (s.pch 1).queued (805306367 / 64) = some { data := 5 } ∧ (s.pch 1).queued 0 = none ∧
      ((s.pch 1).lines.getD {} 0).poison = false ∧ (s.pch 2).st = 2 ∧ s.pchHeld 2 = false ∧ (s.pch 2).reads = [] ∧
      s.pchHeld 191 = true ∧ (s.pch 191).st = 0 ∧ (s.pch 191).reads.length < 64 := by decide +kernel

theorem test_meets_HbmUpkeepKeepsTheLines :
    let s := { base .service with pchs := [(191, { credit := [(47, 1)] }), (16, { table := [(0, 3)] }), (3, { credit := [(0, -7)] })] }
    s.portsRun = true ∧ s.pchIn 191 = true ∧ s.pchHeld 191 = false ∧ (s.pch 191).counters.length = 18 ∧
      s.effMode.status = true ∧ s.effMode ≠ .retain ∧ (s.pch 191).credit.getD 0 47 < 8 ∧ 0 < (s.pch 191).credit.getD 0 47 ∧
      s.pchIn 3 = true ∧ -8 < (s.pch 3).credit.getD 0 0 ∧ s.modes.mode.status = true ∧
      isVault 16 = true ∧ isVault 191 = false ∧ 191 < (List.replicate 192 (0 : Word)).length := by decide +kernel

theorem test_meets_TrainingRunsToItsEnd :
    (let s := { base .service with hbm := { request := 1 } };
      s.portsRun = true ∧ s.changeWaits = true ∧ (∀ p ∈ s.towers, p.2.burst = none) ∧
        (base .service).changeWaits = false ∧ ((base .service).stack 5).burst = none ∧
        ((base .service).stack 5).burstDue 15 (base .service).now = true ∧ (base .service).hbm.changing = none) ∧
    (let r : BurstResult := { ok0 := false, ok1 := true, values0 := 1, values1 := 2 };
      let b : Burst := { channel := 15, since := 0, result := r };
      let s := { base .service with towers := [(5, { burst := some b })], pchs := [(190, { failRun := 2 })] };
      (s.stack 5).burst = some b ∧ (s.pch 190).st = 0 ∧ (s.pch 191).st = 0 ∧ (s.pch 190).failRun = 2 ∧ (s.pch 191).failRun < 2 ∧
        b.result.ok0 = false ∧ b.result.ok1 = true ∧ ({ r with ok0 := true } : BurstResult).ok0 = true) ∧
    ({ base .service with hbm := { changing := some (2, 0) } } : State).hbm.changing = some (2, 0) := by decide +kernel

theorem test_meets_TrainingRunsToItsEnd_retrain :
    (let c := cmd 0x081 [256 * 191];
      let s := asked .service c;
      s.waits 0 0x081 c ∧ c.lenIs 4 = true ∧ zeroFrom (c.w 3) 16 = true ∧ zeroIn (c.w 3) 7 1 = true ∧ s.effMode.working = true ∧
        s.modes.mode ≠ .throttle ∧ (s.stack (retrainStack c)).retrain = none ∧ s.hbm.changing = none ∧ s.changeWaits = false ∧
        (s.stack (retrainStack c)).burst = none ∧ retrainWhole c = false ∧ retrainIndex c < 192) ∧
    (let c := cmd 0x081 [256 * 5 + 1];
      let s := asked .maintenance c;
      s.waits 0 0x081 c ∧ s.effMode.working = true ∧ s.modes.mode ≠ .throttle ∧ (s.stack (retrainStack c)).retrain = none ∧
        s.changeWaits = false ∧ retrainWhole c = true ∧ retrainIndex c < 6) ∧
    let c := ran 0x081 [256 * 191]
    let r : Retrain := { cmd := 0, whole := false, index := 191, since := 0, started := some 5 }
    let s := { asked .service c with towers := [(5, { retrain := some r })] }
    let w := { asked .service c with towers := [(5, { retrain := some { r with started := none } })] }
    let a := { asked .service c with towers := [(5, { retrain := some { r with whole := true, index := 5 } })] }
    s.runs 0 0x081 c ∧ s.retrainOf 0 = some (5, r) ∧ w.retrainOf 0 = some (5, { r with started := none }) ∧
      a.retrainOf 0 = some (5, { r with whole := true, index := 5 }) ∧ r.since + 100000000 ≤ s.now := by
  unfold State.waits State.runs; decide +kernel

theorem test_meets_SelftestRunsToItsEnd :
    (let c := cmd 0x080 [1 + 256 * 143];
      let s := asked .service c;
      s.waits 0 0x080 c ∧ c.lenIs 4 = true ∧ zeroFrom (c.w 3) 16 = true ∧ zeroIn (c.w 3) 7 4 = true ∧
        testInst c < scopeCount (testScope c) ∧ s.effMode.working = true ∧ s.modes.mode ≠ .throttle ∧ testScope c = 1 ∧
        s.kindLent (scopeKind (testScope c)) = false ∧ s.mayLend (testScope c) (testInst c) = true) ∧
    (let c := cmd 0x080 [5 + 256 * 39];
      let s := asked .service c;
      s.waits 0 0x080 c ∧ testInst c < scopeCount (testScope c) ∧ testScope c = 5 ∧ s.mayLend 5 39 = true ∧
        ({ s with avail := { down := [(instId 5 39, {})] } } : State).avail.down.has (instId 5 39) = true) ∧
    (let c := cmd 0x080 [6 + 256 * 127];
      let s := { asked .service c with ports := [(127, { cfg := { speed := 1 }, signal := 1 })] };
      s.waits 0 0x080 c ∧ testInst c < scopeCount (testScope c) ∧ testScope c = 6 ∧ s.kindLent 7 = false ∧
        s.laneSignal (testInst c) = true) ∧
    (let c := cmd 0x080 [0];
      let s := asked .maintenance c;
      s.waits 0 0x080 c ∧ testInst c < scopeCount (testScope c) ∧ s.effMode.working = true ∧ testScope c = 0 ∧
        s.avail.lent = []) := by
  unfold State.waits; decide +kernel

theorem test_meets_SelftestRunsToItsEnd_ends :
    (let c := ran 0x080 [5];
      let x : Lent := { cmd := 0, since := 0, started := some 99999000000, testNs := 2000000 };
      let s := { asked .service c with avail := { lent := [(instId 5 0, x)] } };
      s.runs 0 0x080 c ∧ s.lentBy 0 = some (instId 5 0, x) ∧ s.now ≤ 99999000000 + 2 * x.testNs ∧ instId 5 0 ≠ wholeTest ∧
        instId 5 0 / 65536 ≠ 7 ∧ s.avail.down.has (instId 5 0) = false ∧ s.faults.queue.length < 256 ∧
        ({ s with avail := { lent := [(instId 5 0, { x with started := none })] } } : State).lentBy 0 =
          some (instId 5 0, { x with started := none }) ∧
        ({ x with started := none } : Lent).since + 100000000 ≤ s.now ∧ (99990000000 : Nat) + 2 * x.testNs < s.now) ∧
    (let c := ran 0x080 [6];
      let x : Lent := { cmd := 0, since := 0, started := some 99999000000, testNs := 50000000 };
      let s := { asked .service c with avail := { lent := [(instId 7 127, x)] } };
      s.runs 0 0x080 c ∧ s.lentBy 0 = some (instId 7 127, x) ∧ instId 7 127 ≠ wholeTest ∧ instId 7 127 / 65536 = 7) ∧
    (let c := ran 0x080 [0];
      let x : Lent := { cmd := 0, since := 0, started := some 99999000000, testNs := 3000000000 };
      let s := { asked .maintenance c with avail := { lent := [(wholeTest, x)] } };
      s.runs 0 0x080 c ∧ s.lentBy 0 = some (wholeTest, x) ∧ testable (instId 5 39) = true ∧ testable (instId 7 127) = true) ∧
    let f : Fence := { since := 99990000000, held := true }
    let s := { base .degraded with avail := { down := [(instId 5 0, f)], fences := [(instId 5 0, [99990000000, 5, 4])] } }
    s.avail.down.find? (instId 5 0) = some f ∧ f.held = true ∧ s.avail.lent.has (instId 5 0) = false ∧
      f.since + 10000000 ≤ s.now ∧ 3 ≤ s.recentFences (instId 5 0) ∧
      ({ s with avail := { down := s.avail.down } } : State).recentFences (instId 5 0) < 3 := by
  unfold State.runs; decide +kernel
/-- Conference 3's plan with class 0 mapping PT 111 to FORMAT 1 (Opus), and slot 0 naming source 0. -/
def voice : Plan :=
  { plan with
    classes := [{ ptMap := [(111, 1)] }]
    sources := [{ home := 0, audioList := 0xFFFF0000, layers := [] }]
    roster := [{ slot := 0, kind := 0, spare := false, ladder := 0xFFFF, estClass := 0, rateInit := 0, session := 0xFFFF, aux := 0, ref := 0xFFFF0000 },
      { slot := 7, kind := 0, spare := true, ladder := 0xFFFF, estClass := 0, rateInit := 0, session := 0xFFFF, aux := 0, ref := 0xFFFFFFFF }]
    lists := [[7]] }

def talk : Conf := { banks := [{ st := .active, plan := some voice }, {}] }

/-- A leg from address 1, port 4 to address 2, port 6, bound to slot 0. -/
def speaker : Leg := { conf := 3, slot := some 0, rAddr := 1, lAddr := 2, rUdp := 4, lUdp := 6, rxSlot := 8, rxSlotC := 0xFFFFFFF7 }

def rtp : App := .rtp { pt := 111, ssrc := 77, seq := 5 }

def heard : Frame := udpFrame 128 rtp

/-- Session keys of zeros for profile 0, and the frame protected under them at index 5. -/
def zeroKeys : SessionKeys :=
  { rtpKey := List.replicate 16 0, rtpAuth := [], rtpSalt := List.replicate 12 0, rtcpKey := List.replicate 16 0, rtcpAuth := []
    rtcpSalt := List.replicate 12 0 }

def sealedFrame : Frame := { heard with wire := (protect 0 (some zeroKeys) 5 rtp).getD [] }

/-- A frame on port 0 of a device in SERVICE, its leg 9 open. -/
def arriving (f : Frame) : State :=
  { base .service with
    confs := [(3, talk)], legs := [(9, speaker)]
    lookups := (placeKeys [] [{ v6 := false, rAddr := 1, lAddr := 2, rUdp := 4, lUdp := 6, ssrc := none, leg := 9 }]).getD []
    ports := [(0, { cfg := { speed := 1, addrs := [(1, 0xFFFFFFFFFFFF)] }, st := 4, active := 1, pipeQ := [{ frame := f }] })] }

theorem test_meets_IngressFindsTheLeg :
    let s := arriving heard
    let ip : IpHdr := { v6 := false, src := 1, dst := 2 }
    let u : UdpHdr := { sport := 4, dport := 6 }
    s.moves = true ∧ s.nextTurn 0 = some (0, 0) ∧ (s.port? 0).isSome = true ∧ ipReason heard = none ∧ heard.ip = some ip ∧
      heard.udp = some u ∧ u.lenOk = true ∧ u.csumOk = true ∧ 128 ≤ heard.firstByte ∧ heard.firstByte ≤ 191 ∧
      s.lookup ip u (lookupSsrc heard) (frameVid (parsedTags heard).1) = some 9 ∧ s.legs.find? 9 = some speaker ∧
      speaker.kind ≤ 1 ∧ speaker.fenced = false ∧ (s.conf speaker.conf).activeNo = some 0 ∧
      legPayload heard ((s.planD 3 0).classOf 0) ((((s.planD 3 0).rosterSlot 0).map sourceRun).getD 0) = some rtp ∧
      ({ s with lookups := [] } : State).lookup ip u (lookupSsrc heard) none = none ∧
      s.tupleLegs ip u (frameVid (parsedTags heard).1) = [9] ∧
      ipReason { heard with ip := none } = some 2 ∧ ({ heard with wire := [3] } : Frame).firstByte ≤ 3 ∧
      ({ heard with wire := [20] } : Frame).firstByte = 20 ∧ ({ heard with wire := [0x5A] } : Frame).firstByte = 0x5A ∧
      ({ u with lenOk := false } : UdpHdr).lenOk = false ∧ (s.port? 0).map (fun q => (q.excQ.map fun x => x.frame.length).sum)
        = some 0 ∧ legPayload { heard with app := .raw 0 } ((s.planD 3 0).classOf 0) 1 = none ∧
      ({ speaker with slot := none } : Leg).slot = none ∧ ({ speaker with fenced := true } : Leg).fenced = true := by
  decide +kernel

theorem test_meets_IngressFindsTheLeg_consentAndRecords :
    let r : Stun := { frame := udpFrame 0 (.stun true), port := 0, request := true }
    let n := { arriving r.frame with stunQ := [r] }
    let s := { n with legs := [(9, { speaker with stun := true })] }
    let q : LocalRec := { task := 5, conf := 3, bank := 0, source := 0, format := 1, audio := true, at_ := 99980000000 }
    let l := { base .service with localQ := [(7, [q])] }
    let vid := frameVid (parsedTags r.frame).1
    s.stunQ = r :: [] ∧ s.welmusRuns = true ∧ r.request = true ∧ r.frame.ip = some { v6 := false, src := 1, dst := 2 } ∧
      r.frame.udp = some { sport := 4, dport := 6 } ∧
      List.find? (fun k => (s.legs.getD {} k).stun) (s.tupleLegs { v6 := false, src := 1, dst := 2 } { sport := 4, dport := 6 } vid)
        = some 9 ∧ s.tupleLegs { v6 := false, src := 1, dst := 2 } { sport := 4, dport := 6 } vid = 9 :: [] ∧
      (∀ k ∈ n.tupleLegs { v6 := false, src := 1, dst := 2 } { sport := 4, dport := 6 } vid, (n.legs.getD {} k).stun = false) ∧
      n.stunQ = r :: [] ∧ n.welmusRuns = true ∧
      ((s.port? 0).getD {}).cfg.addrs = (1, 0xFFFFFFFFFFFF) :: [] ∧ ((s.port? 0).getD {}).txq.length = 8 ∧ s.waitQ = [] ∧
      speaker.kind ≠ 2 ∧ ({ speaker with consent := some 70000000000 } : Leg).consent = some 70000000000 ∧
      70000000000 + 30000000000 ≤ s.now ∧ s.now < 70000000001 + 30000000000 ∧ l.moves = true ∧ l.nextTurn 7 = none ∧
      l.localQ.getD [] 7 = q :: [] ∧ q.audio = true ∧ (l.replQ.getD [] 7).length < 512 ∧ l.faults.queue.length < 256 ∧
      (l.localQ.flatMap Prod.snd).find? (fun x => x.task == 5 && decide (x.at_ + 20000000 ≤ l.now)) = some q := by
  decide +kernel

/-- A copy to leg 9 under slot 8. -/
def toNine : Copy := { format := 1, leg := 9, conf := 3, bank := 0, body := rtp, ctx := { slot := 8, gen := 1 } }

theorem test_meets_CipherCoresTakeAndFinish :
    let rxJob : Job := .rx 9 0 3 0 0 0 heard rtp 0 1 0
    let g := { speaker with txSlot := 8, txSlotC := 0xFFFFFFF7, rxGen := 1 }
    let s := { arriving heard with legs := [(9, g)], slots := [(8, { loaded := true, generation := 1 })], txJobs := [(7, [.tx toNine])] }
    let r := { s with rxJobs := [(0, [rxJob])] }
    s.moves = true ∧ s.nextCore (35 / 5) = some 35 ∧ s.startAt 35 < (s.now + 1) * 1000 ∧
      ({ s with cores := [(35, { freeAt := 100000000000000 + 1 }), (36, { freeAt := 100000000000000 + 1 }),
        (37, { freeAt := 100000000000000 + 1 }), (38, { freeAt := 100000000000000 + 1 })] } : State).nextCore 7 = some 39 ∧
      s.rxJobs.getD [] (35 / 5) = [] ∧ s.txJobs.getD [] (35 / 5) = .tx toNine :: [] ∧ s.legs.find? 9 = some g ∧
      g.serial = toNine.ctx.serial ∧ pairOk g.txSlot g.txSlotC = true ∧ (s.slot 8).loaded = true ∧
      (s.slot 8).generation = toNine.ctx.gen ∧ toNine.underRtcp = false ∧ toNine.overIndex = false ∧ (s.slot 8).exhausted = false ∧
      (s.slot 7).loaded = false ∧ r.nextCore (0 / 5) = some 0 ∧ r.startAt 0 < (r.now + 1) * 1000 ∧
      r.rxJobs.getD [] (0 / 5) = rxJob :: [] ∧ (State.replayIndex g ((r.planD 3 0).classOf 0) rtp).2 = true ∧
      pairOk g.rxSlot g.rxSlotC = true ∧ (r.slot (fld g.rxSlot 20 0)).generation = 1 ∧
      (r.slot (fld g.rxSlot 20 0)).loaded = true ∧ (r.slot (fld g.rxSlot 20 0)).profile < 3 ∧
      (State.replayIndex { g with rx := [{ started := true, highest := 5, window := 1 }] } ((r.planD 3 0).classOf 0) rtp).2 = false := by
  decide +kernel

theorem test_meets_CipherCoresTakeAndFinish_results :
    let job (f : Frame) (gen : Nat) : Job := .rx 9 0 3 0 0 0 f rtp 0 gen 0
    let j (f : Frame) (gen : Nat) : CoreJob :=
      { job := job f gen, takeNo := 0, keyReg := some zeroKeys, profile := 0, index := 5, readyAt := 5 }
    let g := { speaker with rxGen := 1 }
    let d (f : Frame) (gen : Nat) : State := { arriving heard with legs := [(9, g)], cores := [(39, { jobs := [j f gen] })] }
    (d heard 1).oldestRx 39 = some (j heard 1) ∧ authentic 0 (some zeroKeys) 5 rtp heard.wire = false ∧
      (d sealedFrame 2).oldestRx 39 = some (j sealedFrame 2) ∧ (d sealedFrame 1).oldestRx 39 = some (j sealedFrame 1) ∧
      authentic 0 (some zeroKeys) 5 rtp sealedFrame.wire = true ∧ (d sealedFrame 1).legs.find? 9 = some g ∧ g.serial = 0 ∧
      g.rxGen = 1 ∧ g.kind = 0 ∧ (((d heard 1).planD 3 0).rosterSlot 0).isSome = true ∧
      ((((d heard 1).planD 3 0).rosterSlot 0).bind RosterSlot.source) = some 0 ∧
      (((d heard 1).planD 3 0).classOf 0).format 111 = some 1 ∧ g.ssrcIdx 77 1 = 0 ∧
      windowFree (g.rx.getD 0 {}).started (g.rx.getD 0 {}).top (g.rx.getD 0 {}).window
        (((d heard 1).planD 3 0).classOf 0).replayWindow 5 = true ∧ ((d heard 1).replQ.getD [] 0).length < 512 := by
  decide +kernel

theorem test_meets_LegsAreReportedTo :
    let g := { speaker with
      lastRr := some 99000000000, lastRtpIn := some 95000000000, nacks := [(1, 65535)], keyReq := some { since := 99900000000, interval := 100 } }
    let s := { base .service with legs := [(9, g)] }
    s.legs.find? 9 = some g ∧ g.kind ≠ 2 ∧ g.fenced = false ∧ s.carries = true ∧ (∀ w, g.lastRr = some w → w + 1000000000 ≤ s.now) ∧ s.now ≤ 95000000000 + 5000000000 ∧
      s.now < 99000000001 + 1000000000 ∧ g.nacks ≠ [] ∧ (∀ x ∈ g.nacks, x.2 < 65536) ∧ 99900000000 + 100 * 1000000 ≤ s.now ∧
      s.now < 99900000001 + 100 * 1000000 := by
  refine ⟨by decide, by decide, by decide, by decide, ?_, by decide, by decide, by decide, by decide, by decide, by decide⟩
  intro w h
  cases h
  decide

/-- A verified audio packet of leg 9 at the replicator. -/
def spoken : ReplPacket := { conf := 3, bank := 0, source := 0, srcLeg := some 9, app := rtp, cls := { audio := true, format := 1 } }

theorem test_meets_CopiesAreMadeAndCharged :
    let g := { speaker with slot := some 7, nextHop := some 1, serial := 4 }
    let s := { arriving heard with
      confs := [(3, { talk with selected := [0] })], legs := [(9, speaker), (10, g)], replQ := [(0, [spoken])] }
    let z := { s with legs := [(9, speaker), (10, { g with kind := 2 })] }
    s.moves = true ∧ s.replQ.getD [] 0 = spoken :: [] ∧ s.isOpen 9 spoken.srcSerial = true ∧
      (s.planD 3 0).packetList 0 spoken.cls = some [7] ∧ s.receiver 3 7 0 = some (10, 4) ∧ z.receiver 3 7 0 = some (10, 4) ∧
      ((s.planD 3 0).rosterSlot 7).isSome = true ∧ s.legs.find? 10 = some g ∧ g.fenced = false ∧ g.kind ≠ 2 ∧
      spoken.source < 4096 ∧ ((s.conf 3).setFor 0).contains 0 = true ∧ ((arriving heard).conf 3).setFor 0 = [] ∧
      (((s.planD 3 0).rosterSlot 7).bind (s.planD 3 0).ladderOf) = none := by decide +kernel

theorem test_meets_CopiesAreMadeAndCharged_charges :
    let g := { speaker with nextHop := some 1, serial := 4 }
    let out : Copy := { toNine with leg := 10, rslot := 0, ctx := { slot := 8, gen := 1, serial := 4 } }
    let j : CoreJob := { job := .tx out, takeNo := 0, keyReg := some zeroKeys, profile := 0, index := 5, readyAt := 5 }
    let s := { arriving heard with legs := [(9, speaker), (10, g)], egressQ := [(0, [out])], cores := [(0, { jobs := [j] })] }
    let p := { s with buckets := [(bucketKey 3 0, { rate := 1000, rateC := 0xFFFFFC17 })] }
    s.egressQ.getD [] 0 = out :: [] ∧ s.isOpen out.leg out.ctx.serial = true ∧ g.txCtx.nextHop = some 1 ∧
      g.txCtx.lost = false ∧ g.txCtx.resume ≤ out.look ∧ (s.sourceMac out.port).isSome = true ∧
      (copyBody (((s.copyPlan out).map fun q => q.classOf 0).getD {}) out).isSome = true ∧ speaker.txCtx.nextHop = none ∧
      copyBody {} out = none ∧ s.oldestTx 0 = some (0, j, out) ∧ s.portUp out.port = true ∧ s.portUp 1 = false ∧
      (s.copyShaper out).legMask.testBit out.cls = false ∧ out.tReq = none ∧
      (∀ k ∈ chargeLevels out false, (s.bucket k.1 k.2).rate = 0) ∧
      16384 + ceilDiv (out.frame.length + tagLen j.profile out.body + 32) 256 ≤ s.grottoFree ∧ (p.bucket 1 3).rate = 0 ∧
      (p.bucket 2 out.cls).rate = 0 ∧ (p.bucket 3 0).limits = true ∧ p.oldestTx 0 = some (0, j, out) ∧
      (ceilDivI (max p.launchClock (max (p.bucket 3 0).vt (p.launchClock - bytesTime (p.bucket 3 0).ceil (p.rateOf 3 0)))) 65536 *
        65536 - p.launchClock ≤ classHorizon out.cls * 65536) := by decide +kernel

theorem test_meets_StoredCopiesGoToTheWire :
    let x : Stored := { copy := toNine, port := 0, cls := 1, leg := 9, length := 64, cells := 1, launch := 0 }
    let far := { x with launch := 40001 }
    let s := { arriving heard with store := [(1, x), (2, far)] }
    s.moves = true ∧ s.store.find? 2 = some far ∧ s.legs.find? 9 = some speaker ∧ far.sump = false ∧ far.stays = false ∧
      40000 * 65536 < s.lead far ∧ far.cells ≤ s.sumpFree ∧ s.lead x ≤ 20000 * 65536 ∧ x.cells ≤ s.grottoFree ∧
      s.launchHead 0 1 = some (1, x) ∧ s.lead x ≤ 2000 * 65536 ∧ ((s.port? 0).getD {}).st = 4 ∧ (s.port? 0).isSome = true ∧
      -s.lead x ≤ classStale 1 * 65536 ∧
      ((s.port? 0).getD {}).txRoom 1 (txFrameOf x).length = true ∧ 1 < ((s.port? 0).getD {}).txq.length ∧
      classStale 1 * 65536 < -s.lead { x with launch := -2000001 } ∧ ({ x with sump := true } : Stored).sump = true := by
  decide +kernel

theorem test_meets_StoredCopiesGoToTheWire_fetch :
    let x : Stored := { copy := toNine, port := 0, cls := 1, leg := 9, length := 64, cells := 1, launch := 0, sump := true }
    ({ base .service with store := [(1, x)] } : State).nextFetch 1 x = true := by
  simp [State.nextFetch]
/-- Task record 0 of an OP over kernel, bus or output `ref`: no dependency, flow or session, no output. -/
def taskRec (op ref : Nat) : TaskRec :=
  { index := 0, op := op, prio := 2, dep := 0, flowValid := false, sessionFlow := false, flow := 0, session := 0xFFFF, ref := ref
    budget := 10, outBlocks := 0, fbWrite := 0, param := 0, succ := [] }

/-- Graph 2: one task every 10 ms, on list 3. -/
def graphRec (t : TaskRec) : GraphRec :=
  { graph := 2, arrival := false, list := 3, maxInst := 1, num := 10000000, den := 1, session := 0xFFFF, phase := 0, deadlineUs := 9000
    tasks := [t] }

/-- A device in SERVICE whose conference 3 runs plan `p`; live task 5 of its graph 2 is `l`. -/
def busy (p : Plan) (l : Live) : State :=
  { base .service with
    confs := [(3, { banks := [{ st := .active, plan := some p }, {}] })]
    sched := { lives := [(5, l)], runs := [(0, { conf := 3, bank := 0, loadNo := 0, graph := 2, tasks := [5] })], nextRun := 1 } }

/-- A task on its engine. -/
def onEngine (op ref : Nat) : Live := { run := 0, task := taskRec op ref, st := .dispatched, kind := engKind op }

/-- A task on its ready list. -/
def ready (op ref : Nat) : Live := { run := 0, task := taskRec op ref, st := .ready, kind := engKind op }

def graphs : Plan := { plan with graphs := [graphRec (taskRec 0 2)] }

theorem test_meets_TicksTakeWhatIsDue :
    (let s := { busy graphs (ready 0 2) with
        sched := { tickAt := 30000, lists := [[(20000, .release 3 0 0 2 8)], [], [(40000, .deadline 0)], []]
                   dueQ := [(0, .release 3 0 0 2 7)] }
        time := { oneSecond with bases := [{ value := 2 ^ 40 * 30000 }, {}, {}, {}, {}, {}, {}, {}] } };
      s.sched.tickAt ≤ s.launchNs ∧ s.time.running = true ∧ 0 < s.sched.tickUs ∧ (busy graphs (ready 0 2)).time.running = false ∧
        s.sched.dueQ = (0, .release 3 0 0 2 7) :: [] ∧ ((s.conf 3).bank 0).plan = some graphs ∧ graphs.loadNo = 0 ∧
        ((s.conf 3).bank 0).st = .active ∧ graphs.graphRec 2 = some (graphRec (taskRec 0 2)) ∧
        (graphRec (taskRec 0 2)).list < 4 ∧ s.sched.lists.length = 4 ∧ s.releases = true ∧ s.sched.runs = [] ∧
        0 < (graphRec (taskRec 0 2)).maxInst ∧
        ((({ s with confs := [(3, { banks := [{ st := .retiring, plan := some graphs }, {}] })] } : State).conf 3).bank 0).st ≠ .active) ∧
    let s := busy graphs (ready 0 2)
    let s := { s with sched := { s.sched with dueQ := [(2, .deadline 0)] } }
    s.sched.dueQ = (2, .deadline 0) :: [] ∧ s.run? 0 = some { conf := 3, bank := 0, loadNo := 0, graph := 2, tasks := [5] } ∧
      s.live? 5 = some (ready 0 2) ∧ (ready 0 2).st ≠ .dispatched := by decide +kernel

theorem test_meets_TasksAreDispatched :
    (let s := { busy graphs (ready 0 2) with sched := { (busy graphs (ready 0 2)).sched with ready := [(2, [5])] } };
      s.portsRun = true ∧ s.readyTasks 0 = 5 :: [] ∧ s.live? 5 = some (ready 0 2) ∧ engKind (ready 0 2).task.op = 0 ∧
        s.pickEngine 0 2 (s.taskSess (ready 0 2)) = some 0 ∧ s.credit 5 (ready 0 2) = .inl [] ∧ s.sched.lists.length = 4) ∧
    (let l : Live := { ready 5 0 with task := { taskRec 5 0 with outBlocks := 1 } };
      let s := { busy graphs l with sched := { (busy graphs l).sched with ready := [(10, [5])] } };
      s.readyTasks 1 = 5 :: [] ∧ s.live? 5 = some l ∧ engKind l.task.op = 1 ∧
        s.pickEngine 1 2 (s.taskSess l) = some 0 ∧ s.credit 5 l = .inr 0) ∧
    let s := { busy graphs (ready 6 0) with sched := { (busy graphs (ready 6 0)).sched with ready := [(18, [5])] }
                                            avail := { lent := (List.range 48).map fun i => (instId 2 i, { cmd := 0, since := 0 }) } }
    s.readyTasks 2 = 5 :: [] ∧ s.live? 5 = some (ready 6 0) ∧ s.pickEngine 2 2 (s.taskSess (ready 6 0)) = none := by decide +kernel


/-- All DSP cores but `core` lent to self-tests. -/
def onlyCore (core : Nat) : FMap Lent :=
  ((List.range 144).filter fun i => i != core).map fun i => (instId 0 i, { cmd := 0, since := 0 })

theorem test_meets_TasksAreDispatched_preempt :
    let v : Live := { onEngine 0 2 with task := { taskRec 0 2 with prio := 7 }, eng := 143, due := some 100 }
    let s := { busy graphs v with
      avail := { lent := onlyCore 143 }
      dsps := [(143, { slots := [{ task := some 5 }, {}, {}], running := some 0 })]
      sched := { (busy graphs v).sched with
        lives := [(5, v), (6, { ready 0 2 with run := 1 })], ready := [(2, [6])]
        runs := [(0, { conf := 3, bank := 0, loadNo := 0, graph := 2, tasks := [5] }), (1, { conf := 3, bank := 0, loadNo := 0, graph := 2, tasks := [6] })] } }
    s.portsRun = true ∧ s.preemptor = some (6, { ready 0 2 with run := 1 }, []) ∧ s.victim 2 = some (5, v) ∧ v.eng = 143 ∧ s.live? 5 = some v ∧ 6 ≠ 5 ∧
      engKind 0 = 0 ∧ (s.dsp 143).running = some 0 ∧ ((s.dsp 143).slot 0).pm = false ∧
      (graphs.kernelOf 2).isSome = true ∧ (busy graphs v).preemptor = none := by decide +kernel

theorem test_meets_TasksAreDispatched_resume :
    let l : Live := { onEngine 0 2 with eng := 143, suspended := true, left := 50 }
    let s := { busy graphs l with dsps := [(143, { slots := [{ task := some 5 }, {}, {}], suspended := [0] })] }
    s.portsRun = true ∧ (s.dsp 143).running = none ∧ (s.dsp 143).suspended = 0 :: [] ∧ ((s.dsp 143).slot 0).task = some 5 ∧ s.live? 5 = some l ∧
      s.sched.lists.length = 4 ∧ s.readyTasks 0 = [] := by decide +kernel

/-- The TASK lease of task 5, generation 255. -/
def leased (s : State) : State :=
  { s with sched := { s.sched with leases := [(0, { ownerKind := 2, ownerInst := 47, kind := 1, gen := 255, object := 5, task := 5 })] } }

theorem test_meets_TasksEnd :
    let l : Live := { onEngine 6 0 with eng := 47, budgetHit := true, lease := some 0, reported := some 1 }
    let s := leased (busy graphs l)
    let tag := ({ ownerKind := 2, ownerInst := 47, kind := 1, gen := 255, object := 5, task := 5 } : Lease).tag
    s.live? 5 = some l ∧ s.leaseLive 5 tag 255 = true ∧ l.st = .dispatched ∧ s.sched.waits = [] ∧ l.reported = some 1 ∧
      s.leaseLive 5 tag 0 = false ∧ s.leaseLive 5 (tag + 1) 255 = false ∧
      s.live? 0 = none ∧ l.kind = 2 ∧ s.engTasks 2 l.eng = [(5, l)] ∧ s.faults.queue.length < 256 ∧ l.budgetHit = true ∧
      s.avail.lent.has (instId 2 47) = false ∧ l.task.succ = [] ∧
      ({ s with sched := { s.sched with dueQ := [(3, .abort 5)] } } : State).sched.dueQ = (3, .abort 5) :: [] := by decide +kernel

theorem test_meets_BudgetsEndInAborts :
    let l : Live := { onEngine 9 0 with eng := 31, abortAt := some 3 }
    let s := busy graphs l
    let late := { s with time := { oneSecond with bases := [{ value := 2 ^ 40 * 10004 }, {}, {}, {}, {}, {}, {}, {}] } }
    let edge := { s with time := { oneSecond with bases := [{ value := 2 ^ 40 * 10003 }, {}, {}, {}, {}, {}, {}, {}] } }
    s.live? 5 = some l ∧ l.st = .dispatched ∧ s.sched.lists.length = 4 ∧ l.kind ≠ 2 ∧ (onEngine 6 0).kind = 2 ∧
      (busy graphs (onEngine 6 0)).live? 5 = some (onEngine 6 0) ∧ l.abortAt = some 3 ∧ l.reported = none ∧ s.sched.waits = [] ∧
      edge.launchNs ≤ 3 + 10000 ∧ 3 + 10000 < late.launchNs ∧
      s.engTasks l.kind l.eng = [(5, l)] ∧ s.faults.queue.length < 256 ∧ s.avail.lent.has (instId l.kind l.eng) = false ∧
      l.task.succ = [] ∧ l.revoking = false ∧
      ({ s with sched := { s.sched with dueQ := [(3, .budget 5)] } } : State).live? 5 = some l := by decide +kernel

theorem test_meets_LanternWritesItsRing :
    let s := { base .ready with time := oneSecond }
    s.syncDue = true ∧ (base .ready).tb0 = 0 ∧
      ({ s with time := { oneSecond with bases := [{ value := 2 ^ 40 * 1000000002 }, {}, {}, {}, {}, {}, {}, {}] } } : State).syncDue
        = false ∧
      bitAt s.sched.lantern.ctrl 31 = true ∧ bitAt s.sched.lantern.ctrl 30 = false ∧ s.sched.lantern.head < 65536 ∧
      s.sched.lantern.frozen = false ∧ s.sched.lantern.lost = 0 ∧ fld (1000 : Word) 9 0 = 1000 ∧
      (63 : Nat) ≠ 0 ∧ bitAt (0x7FFFFFFF : Word) 31 = false ∧ bitAt (0x80000000 : Word) 31 = true ∧
      ({ ctrl := 0xC000FFFF, frozen := true, lost := 2 } : Lantern).frozen = true ∧ 0 < ({ lost := 2 } : Lantern).lost := by
  decide +kernel

/-- Core 143 runs task 5 in slot 2. -/
def onCore (x : DspSlot) : State :=
  { busy graphs { onEngine 0 2 with eng := 143 } with
    dsps := [(143, { slots := [{}, {}, { x with task := some 5 }], running := some 2 })] }

theorem test_meets_DspBundlesCompute :
    (let s := onCore {};
      s.issuing 143 = some 2 ∧ 2 < (s.dsp 143).slots.length ∧ 7 < ((s.dsp 143).slot 2).a.length ∧
        31 < ((s.dsp 143).slot 2).d.length ∧ s.issuing 0 = none ∧ besideBad {} ((s.dsp 143).slot 2) = false ∧
        besideBad { macs := [{ acc := 6, a0 := 0, b0 := 1, a1 := 2, b1 := 3 }] } ((s.dsp 143).slot 2) = false ∧
        (besideRun {} ((s.dsp 143).slot 2)).sv = ((s.dsp 143).slot 2).sv ∧
        (besideRun {} ((s.dsp 143).slot 2)).sx = ((s.dsp 143).slot 2).sx) ∧
    let s := onCore { pm := true, pmSince := 0 }
    s.issuing 143 = some 2 ∧ ((s.dsp 143).slot 2).pm = true ∧ ((s.dsp 143).slot 2).pmSince * 18 + 5120 ≤ s.now * 18 := by decide +kernel

theorem test_meets_DspControlAndMemory :
    let x : DspSlot := { task := some 5, loops := [(3, 16, 64)], pc := 32, p := List.replicate 16 131064 }
    let s := onCore x
    let store : DspAccess := { store := true, size := 8, ptr := 0, dreg := 30, step := none, useM := false, offset := 0 }
    let load : DspAccess := { store := false, size := 4, ptr := 15, dreg := 30, step := none, useM := false, offset := -512 }
    s.issuing 143 = some 2 ∧ 2 < (s.dsp 143).slots.length ∧ (s.dsp 143).slot 2 = x ∧ x.loops.length < 4 ∧ 65536 % 65536 = 0 ∧
      65535 % 65536 ≠ 0 ∧ 4 ≤ (List.replicate 4 (1, 16, 64)).length ∧ x.inBodies 64 = true ∧ x.inBodies 80 = false ∧
      ({ x with loops := [] } : DspSlot).loops = [] ∧ s.live? 5 = some { onEngine 0 2 with eng := 143 } ∧
      s.faults.queue.length < 256 ∧ besideBad {} x = false ∧ besideBad { mem := [{ store with offset := 8 }] } x = true ∧
      x.accessBad store = false ∧ store.size ≤ 8 ∧ x.accessBad load = false ∧ load.size ≤ 4 ∧ load.dreg + 1 < x.d.length ∧
      x.accessBad { load with offset := 8 } = true ∧ x.accessBad { load with offset := -511 } = true := by decide +kernel

theorem test_meets_DspMovesDataAndEnds :
    let x : DspSlot := { task := some 5, windows := [0, 4096, 0, 0], chans := [[], [], [], List.replicate 8 (descOf [])] }
    let s := onCore x
    let l := { onEngine 0 2 with eng := 143 }
    let out : DspDesc := { window := 1, toWindow := true, rows := 1, winOffset := 4092, ldmAddr := 8, rowBytes := 4, stride := 0 }
    s.issuing 143 = some 2 ∧ 2 < (s.dsp 143).slots.length ∧ (s.dsp 143).slot 2 = x ∧ s.live? 5 = some l ∧ besideBad {} x = false ∧
      descBad ([0, 1, 2, 3].map fun i => wordAt [0x10005, 4092, 8, 4] i) x.windows = false ∧
      descBad ([0, 1, 2, 3].map fun i => wordAt [0x10005, 4096, 8, 4] i) x.windows = true ∧
      (x.chans.getD 0 []).length < 8 ∧ 3 < x.chans.length ∧ 8 ≤ (x.chans.getD 3 []).length ∧ x.chans.getD 2 [] = [] ∧
      (x.chans.any fun c => !c.isEmpty) = true ∧
      (({ x with chans := [[], [], [], []] } : DspSlot).chans.all fun c => c.isEmpty) = true ∧ s.faults.queue.length < 256 ∧
      residentDecoder l.task.ref = false ∧ residentDecoder 1 = true ∧ (onEngine 1 1).task.op = 1 ∧ (onEngine 1 1).ringAt = 0 ∧
      x.stall = none ∧ x.ending = none ∧ out.rows = 1 ∧ [[out], [], [], []].getD 0 [] = out :: [] ∧ out.toWindow = true ∧
      out.ldmAddr % 4 = 0 ∧ out.rowBytes % 4 = 0 ∧ out.winOffset % 4 = 0 ∧ out.stride % 4 = 0 ∧
      ({ out with toWindow := false, window := 0 } : DspDesc).toWindow = false := by decide +kernel
/-- A 2 by 2 output without a layout. -/
def output : OutputRec :=
  { output := 0, deep := false, dual := false, colour := 0, w := 2, h := 2, bandFbs := 4, region := 0, layout := 0xFFFF0000 }

/-- A session entry of a TYPE, for output 0. -/
def sessRec (typ : Nat) : SessionRec := { session := 4, typ := typ, words := [] }

/-- A plan with a bus, an output and a session of a TYPE. -/
def media (typ : Nat) : Plan :=
  { graphs with
    mix := { buses := [{ bus := 63, rate := 2, route := 0xFFFF0000, columns := [], taps := [{ outRate := 1 }], words := [] }] }
    outputs := [output], sessions := [sessRec typ] }

/-- A device on which conference 3 runs that plan, with bus 1, output 2 and session 8 of the device. -/
def studio (typ : Nat) (l : Live) : State :=
  let s := busy (media typ) l
  { s with
    confs := [(3, { banks := [{ st := .active, plan := some (media typ), sess := [(4, 8)], buses := [(63, 1)], outs := [(0, 2)] }, {}] })]
    buses := [(1, {})], outs := [(2, { fbs := [{}, { st := .writing }] })]
    sess := [(8, { conf := 3, session := 4, typ := typ, fbs := [{}, { st := .writing }], pyramid := [{}, { st := .writing }] })] }

theorem test_meets_AudioFramesAreMixed :
    (let l := onEngine 5 63;
      let s := studio 0 l;
      s.live? 5 = some l ∧ l.st = .dispatched ∧ l.task.op = 5 ∧ l.reported = none ∧
        ((s.runPlan (s.runOf l)).busRec 63).isSome = true ∧ s.busNo (s.runOf l).conf (s.runOf l).bank 63 = some 1 ∧
        ((((s.runPlan (s.runOf l)).busRec 63).map BusRec.taps).getD []).map Tap.outRate = [1]) ∧
    (let s := { studio 0 (onEngine 6 0) with confs := [(4, { conf3 with gainPend := [(63 * 65536 + 511, (0x80000000, 0, 0))] })] };
      (s.conf 4).gainPend.find? (63 * 65536 + 511) = some (0x80000000, 0, 0) ∧ 0 ≤ s.launchNs ∧
        (s.sched.lives.all fun x => x.2.task.op != 5) = true ∧ s.launchNs < s.launchNs + 1) ∧
    let l := onEngine 5 63
    let s := { studio 0 l with confs := [(3, { conf3 with gainPend := [(63 * 65536 + 511, (1, 5, 0))] })] }
    (s.conf 3).gainPend.find? (63 * 65536 + 511) = some (1, 5, 0) ∧ (5, l) ∈ s.sched.lives ∧ l.task.ref = 63 ∧
      l.st ≠ .completed ∧ (s.runOf l).conf = 3 ∧ (s.runOf l).release < 5 := by decide +kernel

theorem test_meets_PicturesAreDecodedAndComposed :
    (let l : Live := { onEngine 6 0 with task := { taskRec 6 0 with session := 4 }, bufs := [(.session 8, 1)] };
      let s := studio 2 l;
      let res : DecodeResult := { pic := { w := 2, h := 2 }, refsRead := [7] };
      let x := { s.sessAt 8 with fbs := [{ st := .valid, count := 7 }, { st := .writing }] };
      s.live? 5 = some l ∧ l.st = .dispatched ∧ l.task.op = 6 ∧ l.reported = none ∧ 1 < (s.sessAt 8).fbs.length ∧
        (s.runPlan (s.runOf l)).sessionRec 4 = some (sessRec 2) ∧ s.sessNo (s.runOf l).conf (s.runOf l).bank 4 = some 8 ∧
        20 < (s.conf (s.runOf l).conf).counters.length ∧ res.rejected = false ∧ res.noHeader = false ∧ res.regionConcealed = false ∧
        res.refsMissing = 0 ∧ res.boundsAt = none ∧ l.budgetHit = false ∧ l.damaged = false ∧
        ({ s with sess := [(8, x)] } : State).sessAt 8 = x ∧ (∀ n ∈ res.refsRead, (x.bufOf n).isSome = true ∧ x.marked n = false) ∧
        ({ res with rejected := true } : DecodeResult).rejected = true) ∧
    let l : Live := { onEngine 7 0 with bufs := [(.output 2, 1)] }
    let x : Latch := { last := [[0]] }
    let s := studio 2 l
    let s := { s with sched := { s.sched with runs := [(0, { conf := 3, bank := 0, loadNo := 0, graph := 2, tasks := [5], latches := [(0, x)] })] } }
    s.live? 5 = some l ∧ l.st = .dispatched ∧ l.task.op = 7 ∧ l.reported = none ∧ (l.bufs.map Prod.snd).Nodup ∧
      (∀ k ∈ l.bufs.map Prod.snd, k < (s.outAt 2).fbs.length) ∧ (s.runPlan (s.runOf l)).outputRec 0 = some output ∧
      s.outNo (s.runOf l).conf (s.runOf l).bank 0 = some 2 ∧ (s.runOf l).latches.find? 0 = some x ∧
      (s.bandResult l (s.runPlan (s.runOf l)) output 2 0 x).1.length = l.bufs.length ∧ (s.outs.find? 2).isSome = true := by
  decide +kernel

theorem test_meets_EncoderCodesBands :
    (let l : Live := { onEngine 8 0 with held := [(.output 2, 0)], bufs := [(.pyramid 8, 1)] };
      let s := studio 3 l;
      s.live? 5 = some l ∧ l.st = .dispatched ∧ l.task.op = 8 ∧ l.reported = none ∧
        (s.runPlan (s.runOf l)).outputRec 0 = some output ∧
        s.outNo (s.runOf l).conf (s.runOf l).bank 0 = some 2 ∧ 1 < (s.sessAt 8).pyramid.length ∧ 0 < (s.sessAt 8).pyramid.length ∧ (s.outs.find? 2).isSome = true ∧
        (onEngine 8 0).held = []) ∧
    (let l : Live := { onEngine 9 0 with task := { taskRec 9 0 with session := 4, outBlocks := 1 }, blocks := 1 };
      let pic : EncPic := { inst := 0, release := 0, budget := 100 };
      let s := { studio 3 l with sess := [(8, { conf := 3, session := 4, typ := 3, enc := { pic := some pic } })] };
      let code : BandCode := { data := [1, 2, 3], units := [3] };
      let limit := min (pic.budget - pic.used - ((sessRec 3).bandsR output - pic.band - 1) * (sessRec 3).skipBytes output) (1 * 4096 - 64);
      s.live? 5 = some l ∧ l.st = .dispatched ∧ l.task.op = 9 ∧ l.reported = none ∧ pic.dropped = false ∧ pic.bandSkip = false ∧
        ({ pic with dropped := true } : EncPic).dropped = true ∧ ({ pic with bandSkip := true } : EncPic).bandSkip = true ∧
        pic.fb = none ∧ code.data.length < 2 ^ 24 ∧ (s.runPlan (s.runOf l)).sessionRec 4 = some (sessRec 3) ∧ (s.runPlan (s.runOf l)).outputRec 0 = some output ∧
        s.sessNo (s.runOf l).conf (s.runOf l).bank 4 = some 8 ∧ (s.sessAt 8).enc.pic = some pic ∧ code.units.sum = code.data.length ∧
        code.skipUnits.sum = code.skipData.length ∧ code.skipData.length ≤ (sessRec 3).skipBytes output ∧ 1 ≤ l.blocks ∧
        code.data.length ≤ limit ∧ limit = 100 ∧ limit < 101) ∧
    let s := studio 3 (onEngine 6 0)
    s.hostUp = true ∧ ({ s with pins := { up with linkUp := false } } : State).hostUp = false ∧ (s.conf 2).activeNo = none ∧ (s.conf (fld (0x30004 : Word) 31 16)).activeNo = some 0 ∧
      (s.planD 3 0).sessionRec (fld (0x30004 : Word) 15 0) = some (sessRec 3) ∧ (sessRec 3).typ = 3 ∧ s.sessNo 3 0 4 = some 8 ∧
      (s.sessAt 8).enc.last.squeeze.getD 63 ≤ 63 ∧ (s.sessAt 8).enc.last.skip.getD 63 ≤ 63 ∧ (s.sessAt 8).enc.last.qpMean < 64 := by
  decide +kernel

/-- Function 63 with a ring of 64 descriptors, two of them posted, on ring `n`. -/
def ringed (n : Nat) (r : Ring) : State :=
  { base .service with funcs := [(63, { rings := [{}, {}, {}, {}].set n { r with enable := true, size := 64, tail := 1, head := 63 } })] }

theorem test_meets_RingsAndVectorsAreControlled :
    let s := ringed 0 {}
    s.hostUp = true ∧ (s.func 63).rings.length = 4 ∧ (63 : Word).toNat < (s.ring 63 0).size ∧ ¬ (64 : Word).toNat < (s.ring 63 0).size ∧
      (s.ring 63 0).enable = true ∧ (s.ring 63 3).enable = false ∧ sizeOk (s.ring 63 3).size = false ∧
      sizeOk ({ s.ring 63 0 with enable := false } : Ring).size = true ∧
      sizeOk 64 = true ∧ (s.func 63).msixMask.length = 5 ∧ (s.func 63).msixPending.length = 5 ∧
      ({ s with pins := { up with linkUp := false } } : State).hostUp = false ∧ 63 < 64 ∧
      (({ s with loads := [(7, { load3 with fn := 63 })] } : State).loads.find? 7).isSome = true := by decide +kernel

theorem test_meets_DescriptorsAreServed :
    (let s := ringed 0 {};
      s.hostUp = true ∧ s.takes 63 0 = true ∧ (∀ r ∈ ringsBefore 0, s.takes 63 r = false) ∧ (s.func 63).rings.length = 4 ∧
        badDesc 0 [0, 0, 0, 64, 0, 4, 0, 0] = false ∧ badDesc 0 [5, 0, 0, 64, 0, 4, 0, 0] = true ∧
        descLength [0, 0, 0, 64, 0, 4, 0, 0] ≤ [1, 2, 3, 4].length) ∧
    (let x : ExcFrame := { reason := 2, frame := default };
      let s := ringed 2 { records := [.exc [0] x.frame] };
      s.takes 63 2 = true ∧ (∀ r ∈ ringsBefore 2, s.takes 63 r = false) ∧ badDesc 2 [0, 0, 0, 64, 0, 4, 0, 0] = false ∧
        (s.ring 63 2).records = .exc [0] x.frame :: []) ∧
    (let f := udpFrame 128 (.raw 0);
      let d : Descriptor := [0, 64, 0, 0, 0, 64, 0, 0];
      let s := { ringed 3 {} with
        ports := [(0, { cfg := { speed := 1 }, st := 4 })]
        confs := [(3, { conf3 with banks := [{ st := .active, plan := some plan }, {}] })]
        grants := [(63, { confBase := 3, confCount := 1 })]
        legs := [(9, { conf := 3, slot := some 0, rAddr := 2, lAddr := 1, rUdp := 6, lUdp := 4 })] };
      s.takes 63 3 = true ∧ (∀ r ∈ ringsBefore 3, s.takes 63 r = false) ∧ badDesc 3 d = false ∧
        s.portUp (fld (wordAt d 0) 23 17) = true ∧ s.portUp 1 = false ∧ s.frameOfGrant 63 0 f = true ∧
        s.frameOfGrant 62 0 f = false) ∧
    (let w : DmaWork := { words := [0, 0, 0, 64, 0, 4], data := [1, 2, 3, 4], bytes := 4 };
      let s := ringed 0 { work := some w };
      (s.ring 63 0).work = some w ∧ w.waits = false ∧ s.pins.linkUp = true ∧ (s.func 63).held = false ∧
        ({ s with pins := { up with linkUp := false } } : State).pins.linkUp = false ∧ 0 < (s.func 63).rings.length ∧
        w.result = 0 ∧ (s.ring 63 0).lastFault = none ∧ (2 : Nat) < w.bytes ∧
        ({ w with result := 1 } : DmaWork).result ≠ 0 ∧ s.faults.queue.length < 256) ∧
    let x : ExcFrame := { reason := 2, frame := default }
    let s := { base .service with ports := [(127, { excQ := [x] })] }
    let r := { ringed 1 {} with ports := [(127, { excQ := [x] })] }
    s.excNext = some 127 ∧ (s.port? 127).map Port.excQ = some (x :: []) ∧ s.excNext ≠ some 0 ∧ 1 < (s.func 0).rings.length ∧
      (s.ring 0 1).enable = false ∧ (r.ring 63 1).enable = true ∧ (r.func 63).held = false ∧ 0 < (r.ring 63 1).spare := by
  decide +kernel
theorem test_meets_EveryCommandCompletes :
    (({ base .service with pending := [.pf0Flr] } : State).pending = .pf0Flr :: []) ∧ (base .service).pending = [] := by decide +kernel

theorem test_meets_StepRunsTheFrontCommand :
    ({ base .reset with pending := [] } : State).pending = [] ∧ State.reset.pending = [] := by decide +kernel

theorem test_meets_FusesOnlyAdvance :
    let h : BootHeader := { magic := 0, word1 := 0, word2 := 0x740, bodyLength := 0, fwVersion := 1, reservedZero := true }
    let s := { base .calibrate with boot := { calDone := [6, 5, 3, 2, 1], image := some h } }
    let p := { base .load with boot := { source := 3 } }
    (match exec (.calibrationStepDone (.c4 [])) s with
      | .next t => t.fuses.svnMin == 64 && t.fuses.revoked0 && decide (t.fuses ≠ s.fuses) | _ => false) = true ∧
      s.fuses.importSet = false ∧ p.fuses.importSet = false ∧ p.boot.source = 3 := by decide +kernel

/-- The end of LOAD of a pushed image that brings an import secret burns it (R60, R212). -/
theorem test_importSecretIsBurned :
    (match exec (.loadComplete ⟨true, some (List.replicate 32 7)⟩) { base .load with boot := { source := 3 } } with
      | .next t => t.fuses.importSet && decide (t.fuses.importSecret = List.replicate 32 7) && t.modes.mode == .calibrate
      | _ => false) = true := by decide +kernel

theorem test_meets_MemoriesStayCanonical :
    (asked .service (cmd 0x010 [])).memWf = true ∧
      (match step { base .service with pending := [.cmdRingWrite 0 0 1 false] } with | .next t => (t.mb 0).ring.wf (0, false) | _ => false) = true := by
  decide +kernel

theorem test_meets_ModesFollowTheTable :
    (base .service).modesWf ∧ ({ base .throttle with modes := { mode := .throttle, returnMode := .service } } : State).modesWf ∧
      (match step { base .service with pending := [.pf0Flr] } with | .next t => t.modes.mode == .service | _ => false) = true := by
  constructor
  · exact ⟨fun h => (by cases h), fun h => (by cases h), fun r h => (by cases h)⟩
  · constructor
    · exact ⟨fun h => (by cases h), fun _ => rfl, fun r h => (by cases h)⟩
    · decide +kernel

theorem test_meets_QuarantineIsLeftOnlyByReset :
    (base .quarantine).modesWf ∧ (base .quarantine).modes.mode = .quarantine ∧
      (match exec .auxPowerLoss (base .quarantine) with | .next t => t.modes.mode == .reset | _ => false) = true := by
  constructor
  · exact ⟨fun _ => ⟨rfl, rfl⟩, fun h => (by cases h), fun r h => (by cases h)⟩
  · decide +kernel

theorem test_meets_ComplementsAreChecked :
    (let c := cmd 0x060 [1 + 16 * 3, 64, 0xFFFFFFFF, 0];
      let s := asked .service c;
      s.waits 0 0x060 c ∧ shaperMalformed c = false ∧ s.hasBucket c.fn (fld (c.w 3) 1 0) (fld (c.w 3) 23 4) = true ∧
        c.w 5 ≠ ~~~(c.w 4) ∧ s.effMode.working = true) ∧
    (let c := cmd 0x061 [65536 + 3, 65535, 0, 0];
      let s := asked .drain c;
      s.waits 0 0x061 c ∧ c.lenIs 7 = true ∧ (c.w 4).toNat < 2 ^ 21 ∧ (c.w 5).toNat < 65536 ∧ c.w 6 ≠ ~~~(c.w 5) ∧
        s.hasConf c.fn (fld (c.w 3) 15 0) = true ∧ 65536 ≤ (c.w 3).toNat ∧ (c.w 3).toNat < 131072 ∧ s.effMode.working = true) := by
  unfold State.waits; decide +kernel

theorem test_meets_ComplementsAreChecked_inService :
    (let c := cmd 0x061 [3, 65535 + 65536 * 20, 0, 0];
      let s := asked .service c;
      s.waits 0 0x061 c ∧ c.lenIs 7 = true ∧ (c.w 3).toNat < 65536 ∧ (c.w 4).toNat < 2 ^ 21 ∧ 2 ≤ fld (c.w 4) 20 16 ∧
        fld (c.w 4) 20 16 ≤ 20 ∧ (c.w 5).toNat < 65536 ∧ c.w 6 ≠ ~~~(c.w 5)) ∧
    (let c := cmd 0x062 [3, 65535, 65535, 0, 0];
      let s := asked .service c;
      s.waits 0 0x062 c ∧ c.lenIs 8 = true ∧ (c.w 3).toNat < 65536 ∧ (c.w 4).toNat < 65536 ∧ (c.w 5).toNat < 65536 ∧
        s.hasConf c.fn (fld (c.w 3) 15 0) = true ∧ c.w 7 ≠ ~~~(c.w 6)) ∧
    let c := cmd 0x030 [3, 0x00010002, 1, 0, 0, 0, 2, 0, 0, 0, 0, 0, 0, 0, 0, 8, 0xFFFFFFF8, 9, 0xFFFFFFF6]
    let s := asked .service c
    s.waits 0 0x030 c ∧ openMalformed c = false ∧ s.hasConf c.fn (fld (c.w 3) 15 0) = true ∧
      s.hasSlot c.fn (c.w 18).toNat = true ∧ s.hasSlot c.fn (c.w 20).toNat = true ∧ fld (c.w 3) 26 25 ≠ 2 ∧
      (s.slot (c.w 18).toNat).profile < 3 ∧ s.effMode ≠ .drain ∧ c.w 19 ≠ ~~~(c.w 18) := by
  unfold State.waits; decide +kernel

theorem test_meets_GrantsSurviveAllButResets :
    (∀ id, Instr.pf0Flr ≠ .tenantGrant id) ∧ (base .service).pins.pwrgoodAux = true ∧ 10000 ≤ 10000 ∧
      (match exec .pf0Flr (base .service) with | .next t => decide (t.grants = (base .service).grants) | _ => false) = true :=
  ⟨fun _ h => (by cases h), by decide +kernel⟩

theorem test_meets_MaskedEventsAreNotRaised :
    (({ base .service with mbx := [(63, { mask := 254 })] } : State).mb 63).mask.testBit 1 = true ∧
      (({ base .service with mbx := [(63, { mask := 254 })] } : State).mb 63).mask.testBit 7 = true := by decide +kernel

theorem test_meets_AlignToleratesSkew :
    let q : Port := { st := 3 }
    let s := { base .service with ports := [(127, q)] }
    s.port? 127 = some q ∧ s.portsRun = true ∧ q.st = 3 ∧ q.retryAt = none ∧ 180000 ≤ 180000 ∧ 180000 < 180001 := by decide +kernel

/-! ### Ill-formed commands -/

/-- One command for each check of `Instr.wf` that fails it. -/
def illFormed : List Instr :=
  [.cmdReserveRead 64 1, .cmdReserveRead 0 0, .cmdReserveRead 0 1025, .cmdRingWrite 0 16384 0 false, .cmdRingWrite 64 0 0 false,
    .cmdAbandoned 64, .evqDataRead 64 false, .timeLatch 64, .vfFlr 0, .vfFlr 64, .registerWrite 64 0 4 0, .registerWrite 0 16777216 4 0,
    .registerWrite 0 0 3 0, .powerOn 4, .railOutOfWindow 7 0, .mainResetRelease 4 true true 0, .bootWindowWrite 12587008 0,
    .freqMonitorWindow (.sdref 8) 0, .ptpMessage 8 false 0, .ppsInputAbsent 8, .holdoverTimeout 8, .mediaTick 65536, .planBankRetired 65536,
    .planRetireTimeout 65536, .portSignalDetect 128 0 true, .portSignalDetect 0 4 true, .waitSignalTimeout 128, .pauseWatchdogInterval 128,
    .trainDone 128 0, .alignDone 128 0 0, .linkLoss 128 [], .pauseHoldExpiry 128 0, .pauseHoldExpiry 0 9, .laneShorted 128]

/-- The same for the commands of the pipeline, the engines, the memory and the host DMA. -/
def illFormedToo : List Instr :=
  [.ingressTakeFrame 8, .localInject 8, .replicatorWalk 8, .egressAssemble 8, .egressCharge 8, .localStarved 262144, .abortAck 262144,
    .taskCompletion 262144 0 0 [] 0, .taskCompletion 0 0 256 [] 0, .taskCompletion 0 65536 0 [] 0, .mixBusFrame 262144,
    .decryptComplete 8 0, .decryptComplete 0 5, .cipherTake 8 0 0, .cipherTake 0 5 0, .reassemblyTimeout 65536 0, .reassemblyTimeout 0 65536, .consentExpiry 1048576,
    .launchHandoff 128 0, .launchHandoff 0 8, .taskDispatch 5, .preempt 144, .pmsk ⟨144, {}⟩, .dspEnd ⟨144, {}⟩ 0,
    .dspMac ⟨0, { macs := [{ acc := 0, a0 := 0, b0 := 0, a1 := 0, b1 := 0 }], clears := [1] }⟩ 0 0 0 0 0,
    .fencedInstanceRelease 6 0 { pass := true, detail := 0 }, .gainStepTimeout 65536 0 0, .gainStepTimeout 0 65536 0,
    .hbmRead 192 0 0 .none false [], .hbmRead 0 805306368 0 .none false [], .hbmRead 0 0 10 .none false [],
    .hbmRead 0 0 0 (.sump 8) false [], .hbmWrite 192 0 0 0 0 false [],
    .patrolScrubRow 192 [], .activateTableClear 192, .refreshDue 192 0 false false, .refreshDue 0 48 false false, .hbmSensorRead 6 0,
    .trainingBurstEnd 6, .trainingBurst 6 0 { ok0 := true, ok1 := true }, .trainingBurst 0 16 { ok0 := true, ok1 := true },
    .neighbourRngReseed [0], .dmaDescriptorTake 0 4 (List.replicate 8 0) [] .complete {}, .dmaDescriptorTake 0 0 [] [] .complete {},
    .dmaWriteBack 0 4 none, .ringTailWrite 64 0 0, .msixUnmask 0 5, .sramSweep 13 0 none 0, .surveySample [0] 0,
    .thermalSensorRead [0] 0, .alarmShort 3 false, .alarmRetry 3 false]

theorem test_illFormedCommandsAreRefused : (illFormed.all fun c => !c.wf) = true ∧ (illFormedToo.all fun c => !c.wf) = true := by decide +kernel

/-- Commands at the ends of their operands' ranges. -/
theorem test_wellFormedCommandsPass :
    [Instr.cmdReserveRead 63 1024, .cmdRingWrite 63 16383 0 true, .vfFlr 63, .registerWrite 63 16777215 8 0, .powerOn 3,
      .railOutOfWindow 6 0, .bootWindowWrite 12587007 0, .freqMonitorWindow (.sdref 7) 0, .ptpMessage 7 true 0, .mediaTick 65535,
      .portSignalDetect 127 3 true, .pauseHoldExpiry 127 8, .taskCompletion 262143 65535 255 [] 0, .decryptComplete 7 4,
      .consentExpiry 1048575, .launchHandoff 127 7, .taskDispatch 4, .preempt 143, .fencedInstanceRelease 5 0 { pass := true, detail := 0 },
      .hbmRead 191 805306367 9 (.audio 65536) false [], .refreshDue 191 47 false false, .trainingBurst 5 15 { ok0 := true, ok1 := true },
      .msixUnmask 63 4, .sramSweep 12 0 none 0, .alarmShort 2 true, .deviceIdentify 0].all Instr.wf = true := by decide +kernel

/-! ### Worked examples of the spec -/

/-- The worked example of narrowing (11): 5 * 2^22, -5 * 2^22 and 2^46 narrow with s = 23 and w = 24. -/
theorem test_nrwNarrowsAsTheExample :
    (let f := fun (v : Int) => match exec (.nrw ⟨143, {}⟩ 0 23 24 31) (onCore { a := [BitVec.ofInt 72 v] }) with
        | .next t => let y := (t.dsp 143).slot 2; ((y.dr 31).toInt, y.sat)
        | _ => (0, false);
      [f (3 * 2 ^ 43), f (5 * 2 ^ 22), f (-5 * 2 ^ 22), f (2 ^ 46)] = [(0x300000, false), (3, false), (-2, false), (0x7FFFFF, true)]) := by
  decide +kernel

/-- MAX keeps the first of the largest values and counts (R283). -/
theorem test_maxKeepsTheLargest :
    (match exec (.max ⟨143, {}⟩ 1) (onCore { d := [0, 9], sv := 5, sx := 1, sc := 3 }) with
      | .next t => let y := (t.dsp 143).slot 2; (y.sv, y.sx, y.sc) | _ => (0, 0, 0)) = (9, 3, 4) := by decide +kernel

/-- The context of leg 303,815 lies in pseudo-channel 166 (16, the worked example of its place). -/
theorem test_legLivesAsTheExample : legPch 303815 = 166 := by decide +kernel

/-- 1,700,000,000 s plus 250.25 ns as three words (R12, the worked example). -/
theorem test_timeWordsAsTheExample : timeWords (2 ^ 40 * (1700000000 * 1000000000 + 250) + 2 ^ 38) = [0x00FA4000, 0xF1000000, 0x00006553] := by
  decide +kernel

/-- A boot source whose SVN is below the minimum is refused as ROLLBACK (R57, the worked example). -/
theorem test_rollbackIsResult3 :
    (match exec (.bootImageCheck (.header { header with word2 := 6 }))
        { base .identify with fuses := { svnMin := 7 }, boot := { toTry := [1, 2] } } with
      | .next t => (t.boot.resultA, t.boot.toTry) | _ => (0, [])) = (3, [2]) := by decide +kernel

/-- The ring end: five words from offset 16,382 (R65, the worked example). -/
theorem test_reserveWrapsTheRing :
    (match exec (.cmdReserveRead 5 5) { base .service with mbx := [(5, { nextOff := 16382 })] } with
      | .next t => (t.out, (t.mb 5).nextOff) | _ => ([], 0)) = ([.readData 0x3FFE false], 3) := by decide +kernel

/-- No row of the table gives bits, so no word spells a command (log entry 2). -/
theorem test_noWordIsACommand : decodeTableWord 32 0x574C0003 = none := rfl

/-- 28 bytes of zeros wrapped under the key 00, 01 ... 1F by RFC 5649 unwrap to them (R213; the wrapped bytes are openssl's). -/
theorem test_keyUnwraps :
    unwrapKey (List.range 32) 1 (bytesOfWords wrapped) = some { key := List.replicate 16 0, salt := List.replicate 12 0 } ∧
      unwrapKey (List.range 32) 1 (bytesOfWords (wrapped.set 9 0)) = none := by decide +kernel

/-- The worked example of coding one group (14), and a mid-grey unit: 48 groups of width 0 in one sector. -/
theorem test_surfaceGroupAsTheExample :
    codeComp 8 32 [] [100, 102, 101, 101] = [55, 4, 1, 0] ∧ (groupBits [55, 4, 1, 0]).length = 28 ∧
      (groupBits [55, 4, 1, 0]).take 4 = bitsOf 4 6 ∧
      codeUnit false (List.replicate 192 128) = { sectors := 1, raw := false, bits := List.replicate 192 false } := by decide +kernel

theorem test_meets_SurfacesReadBack :
    (List.replicate 192 1023).length = 192 ∧ (∀ x ∈ List.replicate 192 1023, x < 2 ^ sampleBits true) := by decide +kernel

/-! ### Reads of BAR0 -/

/-- IDENT0, the order code's first word "KV-T", and STATUS0 in SERVICE, as PF0 reads them (R51). -/
theorem test_identityReads :
    (base .service).readRegister 0 0x000 4 = some 0x4B560B08 ∧ (base .service).readRegister 9 0x008 4 = some 0x542D564B ∧
      ((base .service).bar0 0 0x020).extractLsb' 0 4 = BitVec.ofNat 4 Mode.service.code := by decide +kernel

/-- Reset values of registers with field maps (R64, R274, R397, R426, R433), zero for a VF, and ones for a read of 2 bytes. -/
theorem test_registersAtReset :
    [0x1000, 0x1010, 0x3400, 0x3404, 0x3408, 0x3504, 0x4018].map ((base .ready).bar0 0)
        = [16384, 0x00640001, 10, 0x8000FFFF, 0x7F800000, 0x00FFF000, 0x20000000] ∧
      (base .ready).readRegister 1 0x3504 4 = some 0 ∧ (base .ready).readRegister 0 0x1000 2 = some 0xFFFFFFFF := by
  decide +kernel

/-- An availability transition that waits goes before a DEVICE_MODE_SET that waits (R43). -/
theorem test_arbiterTakesAvailabilityFirst :
    let r : ModeReq := { target := .drain, trigger := 0, cmd := some 0 }
    (match exec .modeArbiterTake { base .service with
        modes := { mode := .service, arb := [r, { target := .degraded, trigger := 5 }] }
        avail := { down := [(instId 0 3, {})] } } with
      | .next t => (t.modes.mode, t.modes.arb) | _ => (.reset, [])) = (.degraded, [r]) := by decide +kernel

end Sys2Proof.Tests
end

section
/-! SUPPORT. Reading a part of the state after an update of it: one rule for the same object and one for every other. -/

namespace Sys2Proof.Machine

/-- Of two writes at one key the later stands. -/
theorem FMap.put_put_self {α : Type} (m : FMap α) (k : Nat) (u v : α) : (m.put k u).put k v = m.put k v := by
  induction m with
  | nil => simp [FMap.put]
  | cons p m ih =>
    obtain ⟨j, x⟩ := p
    by_cases hj : j = k
    · simp [FMap.put, hj]
    · by_cases hk : k < j
      · simp [FMap.put, hj, hk]
      · simp [FMap.put, hj, hk, ih]

variable (s : State)

/-! ### Mailboxes -/

@[simp] theorem State.begin_mb (i : Nat) : s.begin.mb i = s.mb i := rfl

@[simp] theorem State.emit_mb (o : Out) (i : Nat) : (s.emit o).mb i = s.mb i := rfl

@[simp] theorem State.setMb_mb_self (fn : Nat) (m : Mailbox) : (s.setMb fn m).mb fn = m := FMap.getD_put_self s.mbx {} fn m

theorem State.setMb_mb_ne {fn i : Nat} (m : Mailbox) (h : i ≠ fn) : (s.setMb fn m).mb i = s.mb i :=
  FMap.getD_put_ne s.mbx {} fn i m h

@[simp] theorem State.updMb_mb_self (fn : Nat) (f : Mailbox → Mailbox) : (s.updMb fn f).mb fn = f (s.mb fn) :=
  s.setMb_mb_self fn _

theorem State.updMb_mb_ne {fn i : Nat} (f : Mailbox → Mailbox) (h : i ≠ fn) : (s.updMb fn f).mb i = s.mb i :=
  s.setMb_mb_ne _ h

/-- A count after a write of the same mailbox is one write. -/
theorem State.countFn_setMb (fn : Nat) (m : Mailbox) (i k : Nat) :
    (s.setMb fn m).countFn fn i k = s.setMb fn { m with counters := bump m.counters i k } := by
  unfold State.countFn State.updMb
  rw [State.setMb_mb_self]
  simp only [State.setMb, FMap.put_put_self]

/-! ### PCIe functions and their rings -/

@[simp] theorem State.begin_hostUp : s.begin.hostUp = s.hostUp := rfl

@[simp] theorem State.setMb_hostUp (fn : Nat) (m : Mailbox) : (s.setMb fn m).hostUp = s.hostUp := rfl

@[simp] theorem State.begin_func (i : Nat) : s.begin.func i = s.func i := rfl

@[simp] theorem State.setMb_func (fn : Nat) (m : Mailbox) (i : Nat) : (s.setMb fn m).func i = s.func i := rfl

@[simp] theorem State.setFunc_mb (fn : Nat) (g : Func) (i : Nat) : (s.setFunc fn g).mb i = s.mb i := rfl

@[simp] theorem State.setFunc_func_self (fn : Nat) (g : Func) : (s.setFunc fn g).func fn = g :=
  FMap.getD_put_self s.funcs {} fn g

theorem State.setFunc_func_ne {fn i : Nat} (g : Func) (h : i ≠ fn) : (s.setFunc fn g).func i = s.func i :=
  FMap.getD_put_ne s.funcs {} fn i g h

@[simp] theorem State.begin_ring (fn r : Nat) : s.begin.ring fn r = s.ring fn r := rfl

theorem State.updRing_ring_self (fn r : Nat) (f : Ring → Ring) (h : r < (s.func fn).rings.length) :
    (s.updRing fn r f).ring fn r = f (s.ring fn r) := by
  simp [State.updRing, State.ring, h]

theorem State.updRing_func_ne {fn i : Nat} (r : Nat) (f : Ring → Ring) (h : i ≠ fn) :
    (s.updRing fn r f).func i = s.func i := s.setFunc_func_ne _ h

/-! ### Objects that have counters -/

@[simp] theorem State.updConf_conf_self (c : Nat) (f : Conf → Conf) : (s.updConf c f).conf c = f (s.conf c) :=
  FMap.getD_put_self s.confs {} c _

theorem State.updConf_conf_ne {c i : Nat} (f : Conf → Conf) (h : i ≠ c) : (s.updConf c f).conf i = s.conf i :=
  FMap.getD_put_ne s.confs {} c i _ h

@[simp] theorem State.updCore_core_self (c : Nat) (f : Core → Core) : (s.updCore c f).core c = f (s.core c) :=
  FMap.getD_put_self s.cores {} c _

theorem State.updCore_core_ne {c i : Nat} (f : Core → Core) (h : i ≠ c) : (s.updCore c f).core i = s.core i :=
  FMap.getD_put_ne s.cores {} c i _ h

@[simp] theorem State.updPch_pch_self (n : Nat) (f : Pch → Pch) : (s.updPch n f).pch n = f (s.pch n) :=
  FMap.getD_put_self s.pchs {} n _

theorem State.updPch_pch_ne {n i : Nat} (f : Pch → Pch) (h : i ≠ n) : (s.updPch n f).pch i = s.pch i :=
  FMap.getD_put_ne s.pchs {} n i _ h

@[simp] theorem State.updPort_port?_self (p : Nat) (f : Port → Port) : (s.updPort p f).port? p = (s.port? p).map f :=
  FMap.find?_upd_self s.ports p f

theorem State.updPort_port?_ne {p i : Nat} (f : Port → Port) (h : i ≠ p) : (s.updPort p f).port? i = s.port? i :=
  FMap.find?_upd_ne s.ports p i f h

end Sys2Proof.Machine
end

section
/-! PROOF. STATS_READ: saturating counters, the sets and their zeroing, and the command (R15, R80, R84). -/

namespace Sys2Proof.Machine

/-! ### Counters (R15) -/

theorem satAdd_le (c k : Nat) : satAdd c k ≤ 2 ^ 64 - 1 := Nat.min_le_right _ _

theorem satAdd_max (k : Nat) : satAdd (2 ^ 64 - 1) k = 2 ^ 64 - 1 := Nat.min_eq_right (Nat.le_add_right _ _)

/-- Every counter of a set after a count was there before or is a saturated sum. -/
theorem mem_bump {cs : List Nat} {i k x : Nat} (h : x ∈ bump cs i k) : x ∈ cs ∨ ∃ c, x = satAdd c k := by
  obtain ⟨j, hj⟩ := List.mem_iff_getElem?.mp h
  rw [bump, List.getElem?_modify, Option.map_eq_map, Option.map_eq_some_iff] at hj
  obtain ⟨c, hc, hx⟩ := hj
  by_cases hij : i = j
  · exact .inr ⟨c, by simpa [hij] using hx.symm⟩
  · have hcx : c = x := by simpa [hij] using hx
    exact .inl (hcx ▸ List.mem_of_getElem? hc)

theorem bump_le {cs : List Nat} {i k : Nat} (h : ∀ x ∈ cs, x ≤ 2 ^ 64 - 1) : ∀ x ∈ bump cs i k, x ≤ 2 ^ 64 - 1 := by
  intro x hx
  obtain hc | ⟨c, rfl⟩ := mem_bump hx
  · exact h x hc
  · exact satAdd_le c k

theorem bump_getD_max {cs : List Nat} {i k : Nat} (h : cs.getD i 0 = 2 ^ 64 - 1) :
    (bump cs i k).getD i 0 = 2 ^ 64 - 1 := by
  rw [List.getD_eq_getElem?_getD] at h
  cases hc : cs[i]? with
  | none => simp [hc] at h
  | some c =>
    have hm : c = 2 ^ 64 - 1 := by simpa [hc] using h
    rw [List.getD_eq_getElem?_getD, bump, List.getElem?_modify, hc, hm]
    simpa using satAdd_max k

/-! ### Counter sets (R80) -/

/-- The counters of an object are read from its own record and from nothing else of the state. -/
theorem State.statsSet_congr {s t : State} {set i : Nat}
    (hport : set = 0 → t.port? i = s.port? i := by exact fun _ => rfl)
    (hleg : set = 1 → t.legs.find? i = s.legs.find? i := by exact fun _ => rfl)
    (hconf : set = 2 → t.conf i = s.conf i := by exact fun _ => rfl)
    (hmb : set = 3 → (t.mb i).counters = (s.mb i).counters := by exact fun _ => rfl)
    (hcore : set = 4 → t.core i = s.core i := by exact fun _ => rfl)
    (hpch : set = 5 → t.pch i = s.pch i := by exact fun _ => rfl)
    (hsched : 6 ≤ set → t.sched = s.sched := by exact fun _ => rfl) :
    t.statsSet set i = s.statsSet set i := by
  match set with
  | 0 => simp only [State.statsSet, hport rfl]
  | 1 => simp only [State.statsSet, hleg rfl]
  | 2 => simp only [State.statsSet, hconf rfl]
  | 3 => simp only [State.statsSet, hmb rfl]
  | 4 => simp only [State.statsSet, hcore rfl]
  | 5 => simp only [State.statsSet, hpch rfl]
  | n + 6 => simp only [State.statsSet, hsched (Nat.le_add_left 6 n)]

/-- Set 6 is the only one from 6 on, and it has one object (R80). -/
theorem eq_of_lt_statsBound {set i : Nat} (h : i < statsBound set) (h6 : 6 ≤ set) : set = 6 ∧ i = 0 := by
  match set with
  | 6 => exact ⟨rfl, Nat.lt_one_iff.mp h⟩
  | n + 7 => exact absurd h (Nat.not_lt_zero i)

/-- Zeroing leaves the counters of every other object as they are. -/
theorem State.statsClear_statsSet_ne (s : State) {set i set' i' : Nat} (hi : i < statsBound set) (hi' : i' < statsBound set')
    (hne : ¬ (set' = set ∧ i' = i)) : (s.statsClear set i).statsSet set' i' = s.statsSet set' i' := by
  have other : ∀ k, set = k → set' = k → i' ≠ i := fun k hk hk' h => hne ⟨hk'.trans hk.symm, h⟩
  match set with
  | 0 => exact State.statsSet_congr (hport := fun h => s.updPort_port?_ne _ (other 0 rfl h))
  | 1 => exact State.statsSet_congr (hleg := fun h => FMap.find?_upd_ne _ _ _ _ (other 1 rfl h))
  | 2 => exact State.statsSet_congr (hconf := fun h => s.updConf_conf_ne _ (other 2 rfl h))
  | 3 => exact State.statsSet_congr (hmb := fun h => congrArg Mailbox.counters (s.updMb_mb_ne _ (other 3 rfl h)))
  | 4 => exact State.statsSet_congr (hcore := fun h => s.updCore_core_ne _ (other 4 rfl h))
  | 5 => exact State.statsSet_congr (hpch := fun h => s.updPch_pch_ne _ (other 5 rfl h))
  | n + 6 =>
    obtain ⟨hn, h0⟩ := eq_of_lt_statsBound hi (Nat.le_add_left 6 n)
    refine State.statsSet_congr (hsched := fun h => ?_)
    obtain ⟨hn', h0'⟩ := eq_of_lt_statsBound hi' h
    exact absurd ⟨hn'.trans hn.symm, h0'.trans h0.symm⟩ hne

/-- Zeroing sets every counter of the object to zero. -/
theorem State.statsClear_statsSet_self (s : State) (set i : Nat) :
    (s.statsClear set i).statsSet set i = zeroed (s.statsSet set i) := by
  match set with
  | 0 =>
    simp only [State.statsSet, State.statsClear, State.updPort_port?_self]
    cases s.port? i <;> rfl
  | 1 =>
    simp only [State.statsSet, State.statsClear, State.updLeg_legs, FMap.find?_upd_self]
    cases s.legs.find? i <;> rfl
  | 2 => simp [State.statsSet, State.statsClear]
  | 3 => simp [State.statsSet, State.statsClear]
  | 4 => simp [State.statsSet, State.statsClear]
  | 5 => simp [State.statsSet, State.statsClear]
  | n + 6 => rfl

/-- Zeroing changes the tables of the counted objects only. -/
theorem State.statsClear_touches (s : State) (set i : Nat) :
    s.statsClear set i = { s with
      mbx := (s.statsClear set i).mbx, confs := (s.statsClear set i).confs, ports := (s.statsClear set i).ports
      legs := (s.statsClear set i).legs, cores := (s.statsClear set i).cores, pchs := (s.statsClear set i).pchs
      sched := (s.statsClear set i).sched } := by
  unfold State.statsClear
  split <;> rfl

theorem State.begin_statsClear (s : State) (set i : Nat) : s.begin.statsClear set i = (s.statsClear set i).begin := by
  unfold State.statsClear
  split <;> rfl

theorem State.begin_statsSet (s : State) (set i : Nat) : s.begin.statsSet set i = s.statsSet set i := State.statsSet_congr

/-! ### Answers (R73) -/

/-- An answer to a command that began with nothing sent out. -/
theorem State.answered_of_begin {s t : State} {id : Nat} {c : Taken} {ws : List (Word × Bool)} (h : s.begin.answered t id c ws) :
    s.answered t id c ws := by
  obtain ⟨hframe, hw, hmb, hne⟩ := h
  exact ⟨s.onlyAnswers_begin t hframe, hw, hmb, hne⟩

theorem replyWith_plain (c : Taken) (result : Nat) (seq : Word) (ws : List Word) :
    replyWith c result seq (plain ws) = reply c result seq ws := by
  simp [replyWith, reply, plain]

/-- An answer counts nothing. -/
theorem State.answered_statsSet {s t : State} {id : Nat} {c : Taken} {ws : List (Word × Bool)} (h : s.answered t id c ws)
    (set i : Nat) : t.statsSet set i = s.statsSet set i := by
  obtain ⟨hframe, -, hmb, hne⟩ := h
  have hcount : (t.mb i).counters = (s.mb i).counters := by
    by_cases hi : i = c.fn
    · rw [hi, hmb]
    · rw [(hne i hi).1]
  unfold State.onlyAnswers at hframe
  rw [hframe]
  exact State.statsSet_congr (hmb := fun _ => hcount)

/-! ### The command -/

theorem exec_statsRead (id : Nat) (s : State) : exec (.statsRead id) s = .next (s.command id 0x070 (statsReadBody id)) := rfl

/-- STATS_READ with good operands zeroes the set and completes with its counters. -/
theorem statsRead_ok (s : State) (id : Nat) (c : Taken) (hw : s.waits id 0x070 c) (hlen : c.lenIs 5 = true)
    (hz : zeroFrom (c.w 3) 4 = true) (hb : (c.w 4).toNat < statsBound (fld (c.w 3) 3 0))
    (hr : s.statsRight c.fn (fld (c.w 3) 3 0) (c.w 4).toNat = true) (hm : s.effMode.status = true)
    (he : s.statsExists (fld (c.w 3) 3 0) (c.w 4).toNat = true) :
    s.command id 0x070 (statsReadBody id) = (s.statsClear (fld (c.w 3) 3 0) (c.w 4).toNat).begin.complete id rOk 0xFFFFFFFF
      (plain (counterWords (s.statsSet (fld (c.w 3) 3 0) (c.w 4).toNat))) := by
  have hr' : s.begin.statsRight c.fn (fld (c.w 3) 3 0) (c.w 4).toNat = true := hr
  have he' : s.begin.statsExists (fld (c.w 3) 3 0) (c.w 4).toNat = true := he
  have hs : s.begin.serves 0x070 = true := hm
  rw [State.command_waits s id 0x070 c _ hw, statsReadBody, State.checked_ok, State.begin_statsClear, State.begin_statsSet]
  simp [firstFail, hlen, hz, hb, hr', hs, he']

/-- Settles O4: an answer counts nothing, so that after the command the sets are those that the zeroing left. -/
theorem statsReadReturnsAndZeroes : Obligations.StatsReadReturnsAndZeroes := by
  unfold Obligations.StatsReadReturnsAndZeroes
  refine ⟨fun _ _ _ => bump_le, fun _ _ _ => bump_getD_max, ?_⟩
  intro s id c hw hlen hz hb hr hm he
  have hrun := statsRead_ok s id c hw hlen hz hb hr hm he
  obtain ⟨hf, -, -, -, -, ho, -⟩ := hw
  generalize fld (c.w 3) 3 0 = set at *
  generalize (c.w 4).toNat = i at *
  have hclear := s.statsClear_touches set i
  have hf' : (s.statsClear set i).begin.welmus.taken.find? id = some c := by rw [hclear]; exact hf
  have hans := State.answered_of_begin (State.complete_answered (s.statsClear set i).begin id rOk 0xFFFFFFFF
    (plain (counterWords (s.statsSet set i))) c hf' ho)
  rw [replyWith_plain, ← hrun] at hans
  refine ⟨_, exec_statsRead id s, hans, ?_, ?_, ?_, ?_⟩
  · rw [State.answered_statsSet hans, s.statsClear_statsSet_self]; rfl
  · intro set' i' hi' hne
    rw [State.answered_statsSet hans, s.statsClear_statsSet_ne hb hi' hne]
  · obtain ⟨hframe, -⟩ := hans
    unfold State.onlyAnswers at hframe
    rw [hframe, hclear]
  · obtain ⟨-, hwel, -⟩ := hans
    rw [hwel, hclear]

end Sys2Proof.Machine
end

section
/-! PROOF. The event queue's registers and vector 0's hold-off (R64, R69 to R71, R431). -/

namespace Sys2Proof.Machine

theorem exec_evqDataRead (fn : Nat) (bad : Bool) (s : State) : exec (.evqDataRead fn bad) s = .next (evqDataRead fn bad s) := rfl

theorem exec_evqStatusWrite (fn : Nat) (v : Word) (s : State) : exec (.evqStatusWrite fn v) s = .next (evqStatusWrite fn v s) := rfl

theorem exec_msixHoldoffExpiry (fn : Nat) (s : State) : exec (.msixHoldoffExpiry fn) s = .next (msixHoldoffExpiry fn s) := rfl

/-- A read with no readable word gives the last word again (R70). -/
theorem evqDataRead_nil (s : State) (fn : Nat) (bad : Bool) (hup : s.hostUp = true) (hq : (s.mb fn).evq = []) :
    evqDataRead fn bad s =
      (s.begin.setMb fn { s.mb fn with underrun := true, counters := bump (s.mb fn).counters 6 1 }).emit
        (.readData (s.mb fn).lastRead false) := by
  simp [evqDataRead, hup, hq, State.countFn_setMb]

/-- A read takes the oldest readable word; one that comes poisoned is counted (R69, R70). -/
theorem evqDataRead_cons (s : State) (fn : Nat) (bad : Bool) (hup : s.hostUp = true) {w : Word} {p : Bool}
    {rest : List (Word × Bool)} (hq : (s.mb fn).evq = (w, p) :: rest) :
    evqDataRead fn bad s =
      (s.begin.setMb fn { s.mb fn with
        evq := rest, lastRead := w, poison := (s.mb fn).poison || (p || bad)
        counters := if p || bad then bump (s.mb fn).counters 3 1 else (s.mb fn).counters }).emit
          (.readData w (p || bad)) := by
  cases hb : p || bad <;> simp [evqDataRead, hup, hq, hb, State.countFn_setMb]

theorem evqStatusWrite_up (s : State) (fn : Nat) (v : Word) (hup : s.hostUp = true) :
    evqStatusWrite fn v s = s.begin.updMb fn fun m => { m with
      underrun := m.underrun && !bitAt v 31
      poison := m.poison && !bitAt v 30
      discarded := m.discarded && !bitAt v 29 } := by
  simp [evqStatusWrite, hup]

/-- The hold-off that is over restarts and signals vector 0 (R71). -/
theorem msixHoldoffExpiry_due (s : State) (fn : Nat) (hq : (s.mb fn).evq ≠ []) (hh : (s.mb fn).holdoff ≠ 0)
    (hdue : (s.mb fn).signalRef + (s.mb fn).holdoff * 1000 ≤ s.now) :
    msixHoldoffExpiry fn s = (s.begin.setMb fn { s.mb fn with signalRef := s.now }).signal fn 0 := by
  have hwait : ¬ ((s.mb fn).evq.isEmpty || decide ((s.mb fn).holdoff = 0) ||
      decide (s.now < (s.mb fn).signalRef + (s.mb fn).holdoff * 1000)) = true := by simp [hq, hh, hdue]
  exact if_neg hwait

/-- A signal of a masked vector leaves its pending bit and sends nothing (R431). -/
theorem State.signal_masked (s : State) (fn vec : Nat) (h : (s.func fn).msixMask.getD vec false = true) :
    s.signal fn vec = s.setFunc fn { s.func fn with msixPending := (s.func fn).msixPending.set vec true } := by
  simp only [State.signal, h, if_true]

/-- A signal of a vector that is not masked sends a message while the host link is up (R431). -/
theorem State.signal_unmasked (s : State) (fn vec : Nat) (h : (s.func fn).msixMask.getD vec false = false) :
    s.signal fn vec = if s.hostUp then s.emit (.msix fn vec) else s := by
  simp only [State.signal, h, Bool.false_eq_true, if_false]

/-- Settles O7, by the two cases of the queue and of the vector's mask. -/
theorem eventQueueReadsInOrder : Obligations.EventQueueReadsInOrder := by
  unfold Obligations.EventQueueReadsInOrder
  refine ⟨?_, ?_, ?_⟩
  · intro s fn bad hup
    refine ⟨_, exec_evqDataRead fn bad s, ?_⟩
    cases hq : (s.mb fn).evq with
    | nil =>
      rw [evqDataRead_nil s fn bad hup hq]
      exact ⟨rfl, fun i hi => s.begin.setMb_mb_ne _ hi, nofun, by simp [hq]⟩
    | cons wp rest =>
      obtain ⟨w, p⟩ := wp
      rw [evqDataRead_cons s fn bad hup hq]
      refine ⟨rfl, fun i hi => s.begin.setMb_mb_ne _ hi, ?_, nofun⟩
      rintro _ _ _ ⟨⟩
      simp
  · intro s fn v hup
    refine ⟨_, exec_evqStatusWrite fn v s, ?_⟩
    rw [evqStatusWrite_up s fn v hup]
    exact ⟨rfl, by simp, by simp, by simp, by simp, fun i hi => s.begin.updMb_mb_ne _ hi⟩
  · intro s fn hq hh hdue
    refine ⟨_, exec_msixHoldoffExpiry fn s, ?_⟩
    rw [msixHoldoffExpiry_due s fn hq hh hdue]
    cases hmask : (s.func fn).msixMask.getD 0 false with
    | true =>
      rw [State.signal_masked (s.begin.setMb fn _) fn 0 hmask]
      exact ⟨rfl, by simp, by simp⟩
    | false =>
      rw [State.signal_unmasked (s.begin.setMb fn _) fn 0 hmask]
      rw [State.setMb_hostUp, State.begin_hostUp]
      cases s.hostUp with
      | true => exact ⟨rfl, by simp, rfl, rfl⟩
      | false => exact ⟨rfl, by simp, rfl, rfl⟩

end Sys2Proof.Machine
end

section
/-! PROOF. Writes of the registers of BAR0 that a write only sets (R13, R64, R274, R431, R434). -/

namespace Sys2Proof.Machine

theorem exec_registerWrite (fn off size : Nat) (v : Word) (s : State) :
    exec (.registerWrite fn off size v) s = .next (registerWrite fn off size v s) := rfl

/-- A write of another size than 4 bytes changes nothing (R430). -/
theorem registerWrite_size_ne (s : State) (fn off : Nat) {size : Nat} (v : Word) (h : size ≠ 4) :
    registerWrite fn off size v s = s.begin := by
  simp [registerWrite, h]

/-- The upper half of a word. -/
theorem fld_31_16 (v : Word) : fld v 31 16 = v.toNat / 65536 :=
  Nat.mod_eq_of_lt ((Nat.div_lt_iff_lt_mul (by decide)).mpr v.isLt)

section
variable (s : State) {fn : Nat} (v : Word) (hup : s.hostUp = true) (hfn : fn < 64)
include hup hfn

/-- A write of 4 aligned bytes finds its register by the offset. -/
theorem registerWrite_aligned {off : Nat} (h : off % 4 = 0) :
    registerWrite fn off 4 v s =
      if off = 0x100C then s.begin.updMb fn fun m => { m with mask := fld v 8 0 }
      else if off = 0x1010 then s.begin.updMb fn fun m => { m with threshold := fld v 14 0, holdoff := fld v 31 16 }
      else if off = 0x3408 then (if fn = 0 then s.begin.lanternMatch v else s.begin)
      else if 0x4000 ≤ off ∧ off < 0x4080 then
        s.begin.updRing fn ((off - 0x4000) / 32) fun r => r.setReg ((off - 0x4000) % 32) v
      else if 0x5000 ≤ off ∧ off < 0x5050 then s.begin.msixWrite fn ((off - 0x5000) / 16) ((off - 0x5000) % 16 / 4) v
      else s.begin := by
  simp [registerWrite, hup, h, show ¬ 63 < fn by omega]

/-- The event mask has 9 bits (R64). -/
theorem registerWrite_mask :
    registerWrite fn 0x100C 4 v s = s.begin.updMb fn fun m => { m with mask := v.toNat % 512 } := by
  rw [registerWrite_aligned s v hup hfn rfl, if_pos rfl]
  simp [fld]

/-- Interrupt moderation: the threshold stands in bits [14:0], the hold-off in [31:16] (R64, R71). -/
theorem registerWrite_moderation :
    registerWrite fn 0x1010 4 v s =
      s.begin.updMb fn fun m => { m with threshold := v.toNat % 32768, holdoff := v.toNat / 65536 } := by
  rw [registerWrite_aligned s v hup hfn rfl, if_neg (by decide), if_pos rfl, fld_31_16]
  simp [fld]

/-- LANTERN_MATCH is a register of PF0 only (R274). -/
theorem registerWrite_lanternMatch :
    registerWrite fn 0x3408 4 v s = if fn = 0 then s.begin.lanternMatch v else s.begin := by
  rw [registerWrite_aligned s v hup hfn rfl, if_neg (by decide), if_neg (by decide), if_pos rfl]

/-- A write at word offset `k` of ring `r` is a write of that ring's register (R434). -/
theorem registerWrite_ring {r k : Nat} (hr : r < 4) (hk : k < 32) (h4 : k % 4 = 0) :
    registerWrite fn (0x4000 + 32 * r + k) 4 v s = s.begin.updRing fn r fun x => x.setReg k v := by
  rw [registerWrite_aligned s v hup hfn (by omega), if_neg (by omega), if_neg (by omega), if_neg (by omega),
    if_pos (by omega), show (0x4000 + 32 * r + k - 0x4000) / 32 = r by omega,
    show (0x4000 + 32 * r + k - 0x4000) % 32 = k by omega]

/-- A write of word `k` of the MSI-X table's entry `n` (R431). -/
theorem registerWrite_msix {n k : Nat} (hn : n < 5) (hk : k < 4) :
    registerWrite fn (0x5000 + 16 * n + 4 * k) 4 v s = s.begin.msixWrite fn n k v := by
  rw [registerWrite_aligned s v hup hfn (by omega), if_neg (by omega), if_neg (by omega), if_neg (by omega),
    if_neg (by omega), if_pos (by omega), show (0x5000 + 16 * n + 4 * k - 0x5000) / 16 = n by omega,
    show (0x5000 + 16 * n + 4 * k - 0x5000) % 16 / 4 = k by omega]

/-- A ring's register after its write; no other function changes. -/
theorem exec_registerWrite_ring {r k : Nat} (hr : r < 4) (hk : k < 32) (h4 : k % 4 = 0)
    (hlen : (s.func fn).rings.length = 4) :
    ∃ t, exec (.registerWrite fn (0x4000 + 32 * r + k) 4 v) s = .next t ∧ t = { s with funcs := t.funcs, out := [] } ∧
      t.ring fn r = (s.ring fn r).setReg k v ∧ ∀ i, i ≠ fn → t.func i = s.func i := by
  refine ⟨_, exec_registerWrite fn _ 4 v s, ?_⟩
  rw [registerWrite_ring s v hup hfn hr hk h4]
  exact ⟨rfl, s.begin.updRing_ring_self fn r _ (by simpa [hlen] using hr), fun i hi => s.begin.updRing_func_ne r _ hi⟩

end

/-- The mask bit of a vector of the MSI-X table, once written, is set (R431). -/
theorem State.msixWrite_mask (s : State) (fn n : Nat) {v : Word} (hv : bitAt v 0 = true) :
    s.msixWrite fn n 3 v = s.setFunc fn { s.func fn with msixMask := (s.func fn).msixMask.set n true } := by
  simp [State.msixWrite, hv]

/-- Settles O16, register by register; the three words of a ring are one case. -/
theorem registerWritesSetTheirRegister : Obligations.RegisterWritesSetTheirRegister := by
  unfold Obligations.RegisterWritesSetTheirRegister
  intro s fn v hup hfn
  refine ⟨?_, ?_, ?_, ?_, ?_, ?_, ?_, ?_⟩
  · refine ⟨_, exec_registerWrite fn _ 4 v s, ?_⟩
    rw [registerWrite_mask s v hup hfn]
    exact ⟨rfl, s.begin.updMb_mb_self fn _, fun i hi => s.begin.updMb_mb_ne _ hi⟩
  · refine ⟨_, exec_registerWrite fn _ 4 v s, ?_⟩
    rw [registerWrite_moderation s v hup hfn]
    exact ⟨rfl, s.begin.updMb_mb_self fn _, fun i hi => s.begin.updMb_mb_ne _ hi⟩
  · refine ⟨_, exec_registerWrite fn _ 4 v s, ?_⟩
    rw [registerWrite_lanternMatch s v hup hfn]
    split <;> exact ⟨rfl, rfl⟩
  · exact fun r hr hlen => exec_registerWrite_ring s v hup hfn hr (by decide) rfl hlen
  · exact fun r hr hlen => exec_registerWrite_ring s v hup hfn (k := 0) hr (by decide) rfl hlen
  · exact fun r hr hlen => exec_registerWrite_ring s v hup hfn hr (by decide) rfl hlen
  · intro k hk hv hlen
    refine ⟨_, exec_registerWrite fn _ 4 v s, ?_⟩
    rw [registerWrite_msix s v hup hfn (k := 3) hk (by decide), State.msixWrite_mask _ fn k hv]
    refine ⟨rfl, ?_, by simp⟩
    simp [hlen, hk]
  · intro off size hsize
    rw [exec_registerWrite, registerWrite_size_ne s fn off v hsize]
    rfl

end Sys2Proof.Machine
end

section
/-! PROOF. The number that a job's take gives it, against what the statement on the cipher array says (R221, R227). -/

namespace Sys2Proof.Machine

theorem exec_cipherTake (group unit victim : Nat) (s : State) :
    exec (.cipherTake group unit victim) s = .next (cipherTake (5 * group + unit) victim s) := rfl

/-- A copy under slot 0 and its first generation. -/
def firstCopy : Copy := { leg := 0, conf := 0, bank := 0, body := .raw 0 }

/-- A device in SERVICE with its first egress job at the cipher array, under a loaded slot. -/
def firstTake : State :=
  { modes := { mode := .service }, slots := [(0, { loaded := true })], txJobs := [(0, [.tx firstCopy])] }

/-- Core 0, which holds no job, takes the copy as take 1 where no take went before. -/
theorem cipherTake_firstTake :
    firstTake.takeNo = 0 ∧ (firstTake.core 0).jobs = [] ∧
      ((cipherTake 0 0 firstTake).core 0).jobs.map CoreJob.takeNo = [1] := by decide

/-- Refutes O34: the statement has a copy's job carry the number of takes before its own (`takeNo := s.takeNo`), while a take
counts itself first (`State.startJob`): in `firstTake` the job of the first take has number 1, and the statement says 0. -/
theorem not_cipherCoresTakeAndFinish : ¬ Obligations.CipherCoresTakeAndFinish := by
  unfold Obligations.CipherCoresTakeAndFinish
  rintro ⟨htake, -⟩
  obtain ⟨htx, -⟩ := htake firstTake 0 0 0 0 rfl rfl (by decide) (by decide) (by decide)
  obtain ⟨t, hexec, -, -, -, hloaded, -⟩ := htx firstCopy [] rfl rfl (fun g hg => nomatch hg)
  obtain ⟨-, ⟨at_, hjobs⟩, -⟩ := hloaded rfl rfl rfl
  rw [exec_cipherTake] at hexec
  obtain rfl : cipherTake 0 0 firstTake = t := by injection hexec
  obtain ⟨hnone, hempty, htaken⟩ := cipherTake_firstTake
  have hsaid : [1] = [firstTake.takeNo] := by
    rw [← htaken, hjobs, hempty]
    rfl
  rw [hnone] at hsaid
  exact absurd hsaid (by decide)

end Sys2Proof.Machine
end

section
/-! PROOF. References and holdover: time bases that enter and leave holdover, the source of TCLK, and the frequency monitor's
windows (R28, R50, R146, R156, R487). -/

namespace Sys2Proof.Machine

/-! ### Changes of time bases (R143) -/

@[simp] theorem State.begin_tb (s : State) (n : Nat) : s.begin.tb n = s.tb n := rfl

/-- Time base `i` of `t` is `g i` of that of `s`; else only fault records, events and the output differ. -/
def State.rebased (s t : State) (g : Nat → TimeBase → TimeBase) : Prop :=
  ∃ o m f x bs, t = { s with out := o, mbx := m, funcs := f, faults := x, time := { s.time with bases := bs } } ∧
    bs.length = s.time.bases.length ∧ ∀ i, bs.getD i {} = g i (s.tb i)

/-- A change of time base `n` alone. -/
def onBase (n : Nat) (f : TimeBase → TimeBase) (i : Nat) (b : TimeBase) : TimeBase := if i = n then f b else b

@[simp] theorem onBase_self (n : Nat) (f : TimeBase → TimeBase) (b : TimeBase) : onBase n f n b = f b := if_pos rfl

theorem onBase_ne {n i : Nat} (h : i ≠ n) (f : TimeBase → TimeBase) (b : TimeBase) : onBase n f i b = b := if_neg h

theorem State.rebased_tb {s t : State} {g : Nat → TimeBase → TimeBase} (h : s.rebased t g) (i : Nat) : t.tb i = g i (s.tb i) := by
  obtain ⟨_, _, _, _, bs, rfl, -, hread⟩ := h
  exact hread i

theorem State.rebased_length {s t : State} {g : Nat → TimeBase → TimeBase} (h : s.rebased t g) :
    t.time.bases.length = s.time.bases.length := by
  obtain ⟨_, _, _, _, bs, rfl, hlen, -⟩ := h
  exact hlen

theorem State.rebased_time {s t : State} {g : Nat → TimeBase → TimeBase} (h : s.rebased t g) :
    t.time = { s.time with bases := t.time.bases } := by
  obtain ⟨_, _, _, _, _, rfl, -⟩ := h
  rfl

theorem State.rebased_frame {s t : State} {g : Nat → TimeBase → TimeBase} (h : s.rebased t g) :
    t = { s with out := t.out, mbx := t.mbx, funcs := t.funcs, faults := t.faults, time := t.time } := by
  obtain ⟨_, _, _, _, _, rfl, -⟩ := h
  rfl

theorem State.rebased_refl (s : State) : s.rebased s fun _ b => b := ⟨_, _, _, _, s.time.bases, rfl, rfl, fun _ => rfl⟩

theorem State.rebased_trans {s t u : State} {g h : Nat → TimeBase → TimeBase} (hs : s.rebased t g) (ht : t.rebased u h) :
    s.rebased u fun i b => h i (g i b) := by
  have hread := State.rebased_tb hs
  obtain ⟨_, _, _, _, _, rfl, hlen, -⟩ := hs
  obtain ⟨o, m, f, x, cs, rfl, hlen', hread'⟩ := ht
  exact ⟨o, m, f, x, cs, rfl, hlen'.trans hlen, fun i => by rw [hread' i, hread i]⟩

theorem State.rebased_congr {s t : State} {g h : Nat → TimeBase → TimeBase} (hs : s.rebased t g)
    (hgh : ∀ i, g i (s.tb i) = h i (s.tb i)) : s.rebased t h := by
  obtain ⟨o, m, f, x, bs, rfl, hlen, hread⟩ := hs
  exact ⟨o, m, f, x, bs, rfl, hlen, fun i => (hread i).trans (hgh i)⟩

/-- A record changes no time base. -/
theorem State.rebased_fault {s t : State} {g : Nat → TimeBase → TimeBase} (h : s.rebased t g) (cls kind id : Nat)
    (d0 d1 : Word) : s.rebased (t.fault cls kind id d0 d1) g := by
  obtain ⟨o, m, f, _, bs, rfl, hlen, hread⟩ := h
  obtain ⟨x, hf, -⟩ := State.fault_touches _ cls kind id d0 d1
  exact ⟨o, m, f, x, bs, hf, hlen, hread⟩

/-- An event changes no time base. -/
theorem State.rebased_raiseEvent {s t : State} {g : Nat → TimeBase → TimeBase} (h : s.rebased t g) (fn code : Nat)
    (payload : List Word) : s.rebased (t.raiseEvent fn code payload) g := by
  obtain ⟨_, _, _, x, bs, rfl, hlen, hread⟩ := h
  obtain ⟨m, f, o, he⟩ := State.raiseEvent_touches _ fn code payload
  exact ⟨o, m, f, x, bs, he, hlen, hread⟩

theorem State.updTb_rebased (s : State) {n : Nat} (f : TimeBase → TimeBase) (hn : n < s.time.bases.length) :
    s.rebased (s.updTb n f) (onBase n f) := by
  refine ⟨_, _, _, _, s.time.bases.modify n f, rfl, List.length_modify .., fun i => ?_⟩
  rw [List.getD_eq_getElem?_getD, List.getElem?_modify]
  by_cases hi : i = n
  · subst hi
    simp [hn, State.tb]
  · simp [onBase_ne hi, Ne.symm hi, State.tb]

/-- A step that changes each base by `g`, taken for the first `k` bases in turn. -/
theorem State.rebased_foldl_range {step : State → Nat → State} {g : TimeBase → TimeBase}
    (hstep : ∀ (s : State) (n : Nat), n < s.time.bases.length → s.rebased (step s n) (onBase n g)) (s : State) :
    ∀ k, k ≤ s.time.bases.length → s.rebased ((List.range k).foldl step s) fun i b => if i < k then g b else b := by
  intro k
  induction k with
  | zero => exact fun _ => s.rebased_refl.imp (by simp) 
  | succ k ih =>
    intro hk
    have hfirst := ih (Nat.le_of_succ_le hk)
    rw [List.range_succ, List.foldl_append]
    refine State.rebased_congr (State.rebased_trans hfirst (hstep _ k (by rw [State.rebased_length hfirst]; omega))) fun i => ?_
    rcases Nat.lt_trichotomy i k with h | rfl | h
    · simp [onBase_ne (Nat.ne_of_lt h), h, Nat.lt_succ_of_lt h]
    · simp
    · simp [onBase_ne (Nat.ne_of_gt h), Nat.not_lt_of_gt h, show ¬ i < k + 1 by omega]

/-! ### Holdover (R156) -/

/-- A time base as it enters holdover for a cause, or gains one more cause in it (R156). -/
def TimeBase.held (cause : Nat) (b : TimeBase) : TimeBase :=
  if b.state = .holdover then { b with causes := b.causes ||| 2 ^ cause }
  else { b with
    causes := b.causes ||| 2 ^ cause, state := .holdover, rate := rateWord b.freq b.cfg.rateLimit, runIn := 0, runOut := 0
    cause := cause }

@[simp] theorem TimeBase.held_state (b : TimeBase) (cause : Nat) : (b.held cause).state = .holdover := by
  unfold TimeBase.held
  split
  · assumption
  · rfl

@[simp] theorem TimeBase.held_value (b : TimeBase) (cause : Nat) : (b.held cause).value = b.value := by
  unfold TimeBase.held
  split <;> rfl

theorem TimeBase.held_causes (b : TimeBase) (cause : Nat) : (b.held cause).causes.testBit cause = true := by
  have hc : (b.held cause).causes = b.causes ||| 2 ^ cause := by
    unfold TimeBase.held
    split <;> rfl
  simp [hc]

/-- A base that was not in holdover has this cause, and its frequency term as its RATE (R156). -/
theorem TimeBase.held_enters {b : TimeBase} (h : b.state ≠ .holdover) (cause : Nat) :
    (b.held cause).cause = cause ∧ (b.held cause).rate = rateWord b.freq b.cfg.rateLimit := by
  rw [TimeBase.held, if_neg h]
  exact ⟨rfl, rfl⟩

theorem State.enterHoldover_rebased (s : State) {n : Nat} (cause : Nat) (hn : n < s.time.bases.length) :
    s.rebased (s.enterHoldover n cause) (onBase n (TimeBase.held cause)) := by
  have hcause := s.updTb_rebased (fun b => { b with causes := b.causes ||| 2 ^ cause }) hn
  unfold State.enterHoldover
  by_cases hs : (s.tb n).state = .holdover
  · simp only [if_pos hs]
    refine State.rebased_congr hcause fun i => ?_
    by_cases hi : i = n
    · subst hi; simp [TimeBase.held, hs]
    · simp [onBase_ne hi]
  · simp only [if_neg hs]
    have henter := State.rebased_trans hcause (State.updTb_rebased _ (fun b => { b with
      state := .holdover, rate := rateWord b.freq b.cfg.rateLimit, runIn := 0, runOut := 0, cause := cause })
      (by rwa [State.rebased_length hcause]))
    refine State.rebased_raiseEvent (State.rebased_fault (State.rebased_congr henter fun i => ?_) ..) ..
    by_cases hi : i = n
    · subst hi; simp [TimeBase.held, hs]
    · simp [onBase_ne hi]

theorem State.leaveHoldover_rebased (s : State) {n : Nat} (st : ServoState) (hn : n < s.time.bases.length) :
    s.rebased (s.leaveHoldover n st) (onBase n fun b => { b with state := st, causes := 0, runIn := 0, runOut := 0 }) := by
  unfold State.leaveHoldover
  exact State.rebased_raiseEvent (State.rebased_fault (s.updTb_rebased _ hn) ..) ..

theorem exec_holdoverTimeout (n : Nat) (s : State) : exec (.holdoverTimeout n) s = .next (holdoverTimeout n s) := rfl

theorem exec_ppsInputAbsent (n : Nat) (s : State) : exec (.ppsInputAbsent n) s = .next (ppsInputAbsent n s) := rfl

/-- A servo without an offset for its holdover timeout enters holdover (R156). -/
theorem holdoverTimeout_due {s : State} {n : Nat} (hrun : s.time.running = true) (hn : n < 8) (hsrc : (s.tb n).source ≠ 0)
    (hc : (s.tb n).causes.testBit 0 = false)
    (hdue : (s.tb n).lastOffset + (s.tb n).cfg.holdoverTimeout * 1000000 ≤ s.time.elapsed) :
    holdoverTimeout n s = s.begin.enterHoldover n 0 := by
  refine if_neg ?_
  simp [hrun, hsrc, hc, show ¬ 7 < n by omega]
  exact decide_eq_false (Nat.not_lt.mpr hdue)

/-- A PPS base without an accepted edge for 1.5 s enters holdover (R156). -/
theorem ppsInputAbsent_due {s : State} {n e : Nat} (hrun : s.time.running = true) (hn : n < 8) (hsrc : (s.tb n).source = 2)
    (hc : (s.tb n).causes.testBit 1 = false) (he : s.time.ppsInLast = some e) (hdue : e + 1500000000 ≤ s.time.elapsed) :
    ppsInputAbsent n s = s.begin.enterHoldover n 1 := by
  refine if_neg ?_
  simp [hrun, hsrc, hc, he, hdue, show ¬ 7 < n by omega]

/-- What entering holdover leaves of one base and of the others. -/
theorem State.enterHoldover_enters (s : State) {n : Nat} (cause : Nat) (hn : n < s.time.bases.length)
    (hs : (s.tb n).state ≠ .holdover) :
    let t := s.begin.enterHoldover n cause
    t = { s with out := t.out, mbx := t.mbx, funcs := t.funcs, faults := t.faults, time := t.time } ∧
      (t.tb n).state = .holdover ∧ (t.tb n).cause = cause ∧ (t.tb n).rate = rateWord (s.tb n).freq (s.tb n).cfg.rateLimit ∧
      (t.tb n).value = (s.tb n).value ∧ ∀ i, i ≠ n → t.tb i = s.tb i := by
  have h := s.begin.enterHoldover_rebased cause hn
  obtain ⟨hcause, hrate⟩ := TimeBase.held_enters hs cause
  refine ⟨State.rebased_frame h, ?_⟩
  simp only [State.rebased_tb h, onBase_self, State.begin_tb, TimeBase.held_state, TimeBase.held_value, hcause, hrate,
    true_and]
  exact fun i hi => onBase_ne hi _ _

/-! ### The source of TCLK (R28, R146) -/

theorem exec_tclkSourceChange (s : State) : exec .tclkSourceChange s = .next (tclkSourceChange s) := rfl

theorem exec_ref10mReturnTimer (s : State) : exec .ref10mReturnTimer s = .next (ref10mReturnTimer s) := rfl

theorem exec_tclkSourceChangeDone (s : State) : exec .tclkSourceChangeDone s = .next (tclkSourceChangeDone s) := rfl

/-- A change of the TCLK source is recorded, and every base enters holdover. -/
theorem State.startTclk_rebased (s : State) (to10 : Bool) (hlen : s.time.bases.length = 8) :
    (s.setTime { s.time with changing := some (to10, s.time.elapsed) }).rebased (s.startTclk to10)
      fun i b => if i < 8 then b.held 2 else b := by
  unfold State.startTclk
  refine State.rebased_fault ?_ ..
  exact State.rebased_foldl_range (fun u _ hn => u.enterHoldover_rebased 2 hn) _ 8 hlen.ge

/-- A change of the TCLK source puts every time base in holdover, and no time jumps (R146). -/
theorem State.startTclk_holds (s : State) (to10 : Bool) (hlen : s.time.bases.length = 8) :
    let t := s.begin.startTclk to10
    t = { s with out := t.out, mbx := t.mbx, funcs := t.funcs, faults := t.faults, time := t.time } ∧
      t.time.changing = some (to10, s.time.elapsed) ∧
      ∀ n, n < 8 → (t.tb n).state = .holdover ∧ (t.tb n).causes.testBit 2 = true ∧ (t.tb n).value = (s.tb n).value := by
  have h := s.begin.startTclk_rebased to10 hlen
  have hframe := State.rebased_frame h
  have htime := congrArg TimeUnit.changing (State.rebased_time h)
  refine ⟨hframe, htime, fun n hn => ?_⟩
  have hread : (s.begin.startTclk to10).tb n = (s.tb n).held 2 := (State.rebased_tb h n).trans (if_pos hn)
  simp [hread, TimeBase.held_causes]

/-- The loss of the 10 MHz reference starts a change (R146). -/
theorem tclkSourceChange_lost {s : State} (hrun : s.time.running = true) (hch : s.time.changing = none)
    (h10 : s.time.tclkRef10 = true) (hmiss : s.freq.ref10m.missing = true) :
    tclkSourceChange s = s.begin.startTclk false := by
  simp [tclkSourceChange, hrun, hch, h10, hmiss]

theorem State.ref10Ready_since {s : State} {since : Nat} (hmiss : s.freq.ref10m.missing = false)
    (hs : s.time.refSince = some since) (hdue : since + 10000000000 ≤ s.now) : s.ref10Ready = true := by
  unfold State.ref10Ready
  rw [hmiss, hs, Option.any_some, Bool.not_false, Bool.true_and]
  exact decide_eq_true hdue

/-- The return of the reference for 10 s starts a change back (R146). -/
theorem ref10mReturnTimer_due {s : State} {since : Nat} (hrun : s.time.running = true) (hch : s.time.changing = none)
    (h10 : s.time.tclkRef10 = false) (hmiss : s.freq.ref10m.missing = false) (hs : s.time.refSince = some since)
    (hdue : since + 10000000000 ≤ s.now) : ref10mReturnTimer s = s.begin.startTclk true := by
  have hready : s.begin.ref10Ready = true := State.ref10Ready_since (s := s.begin) hmiss hs hdue
  simp [ref10mReturnTimer, hrun, hch, h10, hready]

/-- A time base at the end of a change of the TCLK source: one that runs free leaves holdover (R146, R156). -/
def TimeBase.tclkDone (b : TimeBase) : TimeBase :=
  if b.state = .holdover ∧ b.source = 0 then { b with causes := 0, state := .free, runIn := 0, runOut := 0 }
  else { b with causes := b.causes &&& 3 }

@[simp] theorem TimeBase.tclkDone_value (b : TimeBase) : b.tclkDone.value = b.value := by
  unfold TimeBase.tclkDone
  split <;> rfl

theorem TimeBase.tclkDone_causes (b : TimeBase) : b.tclkDone.causes.testBit 2 = false := by
  unfold TimeBase.tclkDone
  split
  · exact Nat.zero_testBit 2
  · rw [Nat.testBit_and]
    exact Bool.and_false _

theorem TimeBase.tclkDone_state {b : TimeBase} (hsrc : b.source = 0) (hs : b.state = .holdover) : b.tclkDone.state = .free := by
  rw [TimeBase.tclkDone, if_pos ⟨hs, hsrc⟩]

theorem endTclk_rebased (s : State) (n : Nat) (hn : n < s.time.bases.length) :
    s.rebased (endTclk s n) (onBase n TimeBase.tclkDone) := by
  have hcause := s.updTb_rebased (fun b => { b with causes := b.causes &&& 3 }) hn
  unfold endTclk
  by_cases hs : (s.tb n).state = .holdover ∧ (s.tb n).source = 0
  · simp only [if_pos hs]
    refine State.rebased_congr (State.rebased_trans hcause (State.leaveHoldover_rebased _ .free
      (by rwa [State.rebased_length hcause]))) fun i => ?_
    by_cases hi : i = n
    · subst hi; simp [TimeBase.tclkDone, hs]
    · simp [onBase_ne hi]
  · simp only [if_neg hs]
    refine State.rebased_congr hcause fun i => ?_
    by_cases hi : i = n
    · subst hi; simp [TimeBase.tclkDone, hs]
    · simp [onBase_ne hi]

/-- A change that is done: the source is the new one, and no time base is held for it (R146, R156). -/
theorem tclkSourceChangeDone_changing {s : State} {to10 : Bool} {since : Nat} (hch : s.time.changing = some (to10, since))
    (hlen : s.time.bases.length = 8) :
    let t := tclkSourceChangeDone s
    t = { s with out := t.out, mbx := t.mbx, funcs := t.funcs, faults := t.faults, time := t.time } ∧
      t.time.changing = none ∧ t.time.tclkRef10 = to10 ∧ ∀ n, n < 8 → t.tb n = (s.tb n).tclkDone := by
  have heq : tclkSourceChangeDone s = (List.range 8).foldl endTclk
      (s.begin.setTime { s.time with tclkRef10 := to10, changing := none }) := by
    simp [tclkSourceChangeDone, hch]
  have h := State.rebased_foldl_range endTclk_rebased
    (s.begin.setTime { s.time with tclkRef10 := to10, changing := none }) 8 hlen.ge
  rw [← heq] at h
  have hframe := State.rebased_frame h
  have htime := State.rebased_time h
  exact ⟨hframe, congrArg TimeUnit.changing htime, congrArg TimeUnit.tclkRef10 htime,
    fun n hn => (State.rebased_tb h n).trans (if_pos hn)⟩

/-! ### The frequency monitor (R28, R50, R487) -/

theorem exec_freqMonitorWindow (ref : Ref) (p : Nat) (s : State) :
    exec (.freqMonitorWindow ref p) s = .next (freqMonitorWindow ref p s) := rfl

/-- A reference outside its window for one interval is missing (R487). -/
theorem RefState.window_outside (r : RefState) {p : Nat} (h : p < 850 ∨ 1150 < p) :
    r.window p = { missing := true, goodWindows := 0 } := if_pos h

/-- A missing reference is back with its hundredth good window in a row (R487). -/
theorem RefState.window_back {r : RefState} {p : Nat} (hlo : 950 ≤ p) (hhi : p ≤ 1050) (hm : r.missing = true)
    (hg : r.goodWindows = 99) : r.window p = { missing := false, goodWindows := 0 } := by
  simp [RefState.window, show ¬ (p < 850 ∨ 1150 < p) by omega, hlo, hhi, hm, hg]

theorem FMap.has_put {α : Type} (m : FMap α) (k i : Nat) (v : α) : (m.put k v).has i = (decide (i = k) || m.has i) := by
  by_cases h : i = k
  · subst h; simp [FMap.has]
  · simp [FMap.has, FMap.find?_put_ne m k i v h, h]

/-- Keys put into a table are listed, with those that were listed before. -/
theorem FMap.has_foldl_put {α : Type} (key : Nat → Nat) (v : α) (l : List Nat) (m : FMap α) (k : Nat)
    (h : m.has k = true ∨ ∃ i ∈ l, key i = k) : (l.foldl (fun m i => m.put (key i) v) m).has k = true := by
  induction l generalizing m with
  | nil => simpa using h
  | cons a l ih =>
    refine ih _ ?_
    rw [FMap.has_put]
    rcases h with h | ⟨i, hi, rfl⟩
    · simp [h]
    · rcases List.mem_cons.mp hi with rfl | hi
      · simp
      · exact .inr ⟨i, hi, rfl⟩

/-- Everything lost in CALIBRATE is listed as unavailable (R40). -/
theorem State.calibrationLost_down (s : State) (kind : Nat) {idxs : List Nat} {i : Nat} (h : i ∈ idxs) :
    (s.calibrationLost kind idxs).avail.down.has (instId kind i) = true := by
  unfold State.calibrationLost
  exact FMap.has_foldl_put (instId kind) _ idxs s.avail.down (instId kind i) (.inr ⟨i, h, rfl⟩)

/-- The lanes of a SerDes reference that goes in CALIBRATE are unavailable; no mode changes (R50). -/
theorem State.calRefLost_down (s : State) (q : Nat) :
    ∃ a f, s.calRefLost q = { s with avail := a, faults := f } ∧ ∀ l ∈ refLanes q, a.down.has (instId 7 l) = true := by
  have hdown := fun l hl => s.calibrationLost_down 7 (idxs := refLanes q) (i := l) hl
  unfold State.calRefLost
  obtain ⟨f, hf, -⟩ := (s.calibrationLost 7 (refLanes q)).fault_touches 0x0C 7 (instId 8 (4 * q)) 0 0
  rw [hf]
  exact ⟨_, f, rfl, hdown⟩

/-- The arbiter is asked for QUARANTINE where it has no request (R42, R474). -/
theorem State.fatal_asks {s : State} (hq : s.modes.mode ≠ .quarantine) (hr : s.modes.mode ≠ .reset) (harb : s.modes.arb = [])
    (htr : s.modes.transition = none) (cause : Nat) (d : Word) :
    s.fatal cause d = s.setModes { s.modes with
      arb := [{ target := .quarantine, trigger := 10, cause := cause, detail := d }] } := by
  simp [State.fatal, Modes.quarantines, hq, hr, harb, htr]

section
variable {s : State} (haux : s.pins.pwrgoodAux = true) {p : Nat}
include haux

/-- The loss of the system reference is fatal (R28, R42). -/
theorem freqMonitorWindow_sysclk_lost (hp : p < 850 ∨ 1150 < p) (hq : s.modes.mode ≠ .quarantine)
    (hr : s.modes.mode ≠ .reset) (harb : s.modes.arb = []) (htr : s.modes.transition = none) :
    freqMonitorWindow .sysclk p s = { s with
      out := [], freq := { s.freq with sysclk := { missing := true, goodWindows := 0 } }
      modes := { s.modes with arb := [{ target := .quarantine, trigger := 10, cause := 1, detail := 0 }] } } := by
  simp only [freqMonitorWindow, State.begin_pins, haux, RefState.window_outside _ hp, Bool.not_true, Bool.false_eq_true,
    if_false, if_true]
  exact State.fatal_asks (s := { s.begin with freq := { s.freq with sysclk := { missing := true, goodWindows := 0 } } })
    hq hr harb htr 1 0

/-- The loss of the PCIe reference takes the link down (R28, R487). -/
theorem freqMonitorWindow_pcie_lost (hp : p < 850 ∨ 1150 < p) (hm : s.freq.pcie.missing = false) :
    ∃ f, freqMonitorWindow .pcie p s = { s with
      out := [], freq := { s.freq with pcie := { missing := true, goodWindows := 0 } }
      pins := { s.pins with linkUp := false }, faults := f } := by
  have hrun : freqMonitorWindow .pcie p s = ({ s.begin with
      freq := { s.freq with pcie := { missing := true, goodWindows := 0 } }
      pins := { s.pins with linkUp := false } } : State).fault 0x0C 7 0 2 0 := by
    simp only [freqMonitorWindow, State.begin_pins, haux, RefState.window_outside _ hp, State.begin_freq, hm, Bool.not_true,
      Bool.not_false, Bool.and_true, Bool.false_eq_true, if_false, if_true]
  obtain ⟨f, hf, -⟩ := State.fault_touches _ 0x0C 7 0 2 0
  exact ⟨f, hrun.trans hf⟩

/-- The loss of a SerDes reference in CALIBRATE makes its lanes unavailable (R50). -/
theorem freqMonitorWindow_sdref_lost {q : Nat} (hp : p < 850 ∨ 1150 < p) (hm : (s.freq.sdref.getD q {}).missing = false)
    (hcal : s.modes.mode = .calibrate) :
    ∃ a f, freqMonitorWindow (.sdref q) p s = { s with
      out := [], freq := { s.freq with sdref := s.freq.sdref.set q { missing := true, goodWindows := 0 } }, avail := a
      faults := f } ∧ ∀ l ∈ refLanes q, a.down.has (instId 7 l) = true := by
  simp only [freqMonitorWindow, State.begin_pins, haux, RefState.window_outside _ hp, State.begin_freq, hm,
    State.begin_modes, hcal, Bool.not_true, Bool.not_false, Bool.and_true, Bool.false_eq_true, if_false, if_true]
  obtain ⟨a, f, hf, hdown⟩ := State.calRefLost_down { s.begin with
    freq := { s.freq with sdref := s.freq.sdref.set q { missing := true, goodWindows := 0 } } } q
  exact ⟨a, f, hf, hdown⟩

/-- The 10 MHz reference is back from its hundredth good window on (R146, R487). -/
theorem freqMonitorWindow_ref10m_back (hlo : 950 ≤ p) (hhi : p ≤ 1050) (hm : s.freq.ref10m.missing = true)
    (hg : s.freq.ref10m.goodWindows = 99) :
    freqMonitorWindow .ref10m p s = { s with
      out := [], freq := { s.freq with ref10m := { missing := false, goodWindows := 0 } }
      time := { s.time with refSince := some s.now } } := by
  simp only [freqMonitorWindow, State.begin_pins, haux, State.begin_freq, RefState.window_back hlo hhi hm hg, hm,
    Bool.not_true, Bool.not_false, Bool.and_true, Bool.and_false, Bool.false_eq_true, if_false, if_true]
  rfl

end

/-- Settles O14, clause by clause: the TCLK source, the two ways into holdover, and each reference of the monitor. -/
theorem referencesAndHoldover : Obligations.ReferencesAndHoldover := by
  unfold Obligations.ReferencesAndHoldover
  refine ⟨⟨?_, ?_, ?_⟩, ?_, ?_⟩
  · intro s hrun hch h10 hmiss hlen
    refine ⟨_, exec_tclkSourceChange s, ?_⟩
    rw [tclkSourceChange_lost hrun hch h10 hmiss]
    exact s.startTclk_holds false hlen
  · intro s since hrun hch h10 hmiss hs hdue hlen
    refine ⟨_, exec_ref10mReturnTimer s, ?_⟩
    rw [ref10mReturnTimer_due hrun hch h10 hmiss hs hdue]
    obtain ⟨hframe, hchanging, hbases⟩ := s.startTclk_holds true hlen
    exact ⟨hframe, hchanging, fun n hn => ⟨(hbases n hn).1, (hbases n hn).2.1⟩⟩
  · intro s to10 since hch hlen
    obtain ⟨hframe, hnone, hsrc, hbases⟩ := tclkSourceChangeDone_changing hch hlen
    refine ⟨_, exec_tclkSourceChangeDone s, hframe, hnone, hsrc, fun n hn => ?_⟩
    rw [hbases n hn]
    exact ⟨TimeBase.tclkDone_value _, TimeBase.tclkDone_causes _, TimeBase.tclkDone_state⟩
  · intro s n hrun hn hlen hstate
    have hn' : n < s.time.bases.length := hlen ▸ hn
    refine ⟨fun hsrc hc hdue => ⟨_, exec_holdoverTimeout n s, ?_⟩, fun e hsrc hc he hdue => ⟨_, exec_ppsInputAbsent n s, ?_⟩⟩
    · rw [holdoverTimeout_due hrun hn hsrc hc hdue]
      exact s.enterHoldover_enters 0 hn' hstate
    · rw [ppsInputAbsent_due hrun hn hsrc hc he hdue]
      exact s.enterHoldover_enters 1 hn' hstate
  · intro s haux
    refine ⟨?_, ?_, ?_, ?_⟩
    · intro p hp hq hr harb htr
      refine ⟨_, exec_freqMonitorWindow .sysclk p s, ?_⟩
      rw [freqMonitorWindow_sysclk_lost haux hp hq hr harb htr]
      exact ⟨rfl, rfl, _, rfl, rfl, rfl⟩
    · intro p hp hm
      refine ⟨_, exec_freqMonitorWindow .pcie p s, ?_⟩
      obtain ⟨f, hf⟩ := freqMonitorWindow_pcie_lost haux hp hm
      rw [hf]
      exact ⟨rfl, rfl, rfl, rfl⟩
    · intro q p l hp hq hlen hm hcal hl
      refine ⟨_, exec_freqMonitorWindow (.sdref q) p s, ?_⟩
      obtain ⟨a, f, hf, hdown⟩ := freqMonitorWindow_sdref_lost haux hp hm hcal
      rw [hf]
      exact ⟨rfl, by simp [hlen, hq], hdown l hl, rfl⟩
    · intro p hlo hhi hm hg
      refine ⟨_, exec_freqMonitorWindow .ref10m p s, ?_⟩
      rw [freqMonitorWindow_ref10m_back haux hlo hhi hm hg]
      exact ⟨rfl, rfl, rfl, rfl⟩

end Sys2Proof.Machine
end

section
/-! PROOF. The ingress pipelines: a frame in its turn, and where it goes (R26, R116, R118, R135, R171 to R178). -/

namespace Sys2Proof.Machine

/-! ### One port changes -/

@[simp] theorem State.begin_port? (s : State) (p : Nat) : s.begin.port? p = s.port? p := rfl

@[simp] theorem State.begin_moves (s : State) : s.begin.moves = s.moves := rfl

@[simp] theorem State.begin_nextTurn (s : State) (p : Nat) : s.begin.nextTurn p = s.nextTurn p := rfl

/-- `t` is `s` but for port `p`, which is now `q`, and the output. -/
def State.portSet (s t : State) (p : Nat) (q : Port) : Prop :=
  ∃ o ps, t = { s with out := o, ports := ps } ∧ ps.find? p = some q ∧ ∀ i, i ≠ p → ps.find? i = s.ports.find? i

theorem State.portSet_refl {s : State} {p : Nat} {q : Port} (h : s.port? p = some q) : s.portSet s p q :=
  ⟨s.out, s.ports, rfl, h, fun _ _ => rfl⟩

theorem State.portSet_trans {s t u : State} {p : Nat} {q q' : Port} (h : s.portSet t p q) (k : t.portSet u p q') :
    s.portSet u p q' := by
  obtain ⟨_, ps, rfl, -, hne⟩ := h
  obtain ⟨o, ps', rfl, hq, hne'⟩ := k
  exact ⟨o, ps', rfl, hq, fun i hi => (hne' i hi).trans (hne i hi)⟩

theorem State.portSet_port? {s t : State} {p : Nat} {q : Port} (h : s.portSet t p q) : t.port? p = some q := by
  obtain ⟨_, ps, rfl, hq, -⟩ := h
  exact hq

theorem State.updPort_portSet {s : State} {p : Nat} {q : Port} (h : s.port? p = some q) (f : Port → Port) :
    s.portSet (s.updPort p f) p (f q) :=
  ⟨s.out, s.ports.upd p f, rfl, (s.updPort_port?_self p f).trans (by rw [h]; rfl), fun i hi => s.updPort_port?_ne f hi⟩

/-- What a pause frame leaves of a port: its queues, its configuration and its state. -/
def Port.paused (q q' : Port) : Prop := q'.pipeQ = q.pipeQ ∧ q'.excQ = q.excQ ∧ q'.cfg = q.cfg ∧ q'.st = q.st

theorem State.sendPause_portSet {s : State} {p : Nat} {q : Port} (h : s.port? p = some q) (quanta : Nat) :
    ∃ q', s.portSet (s.sendPause p quanta) p q' ∧ q.paused q' := by
  unfold State.sendPause
  simp only [h]
  have hsent : s.portSet (s.emit (.pause p (q.cfg.pfc != 0) q.cfg.pfc quanta)) p q := ⟨_, s.ports, rfl, h, fun _ _ => rfl⟩
  have hcount := State.portSet_trans hsent (State.updPort_portSet (State.portSet_port? hsent)
    fun q' => { q' with counters := bump q'.counters (if (q.cfg.pfc != 0) = true then 19 else 18) 1 })
  exact ⟨_, State.portSet_trans hcount (State.updPort_portSet (State.portSet_port? hcount) _), rfl, rfl, rfl, rfl⟩

theorem State.pauseCheck_portSet {s : State} {p : Nat} {q : Port} (h : s.port? p = some q) (before : Nat) :
    ∃ q', s.portSet (s.pauseCheck p before) p q' ∧ q.paused q' := by
  have hsame : ∃ q', s.portSet s p q' ∧ q.paused q' := ⟨q, State.portSet_refl h, rfl, rfl, rfl, rfl⟩
  unfold State.pauseCheck
  simp only [h]
  split
  · exact hsame
  · split
    · exact State.sendPause_portSet h _
    · split
      · exact State.sendPause_portSet h _
      · exact hsame

/-- A port as a frame comes to its host exception queue: counted where the queue has no room (R135). -/
def Port.excepted (q : Port) (x : ExcFrame) : Port :=
  if 65536 < (q.excQ.map fun x => x.frame.length).sum + x.frame.length then { q with counters := bump q.counters 10 1 }
  else { q with excQ := q.excQ ++ [x] }

theorem Port.excepted_room {q : Port} {x : ExcFrame}
    (h : (q.excQ.map fun x => x.frame.length).sum + x.frame.length ≤ 65536) :
    q.excepted x = { q with excQ := q.excQ ++ [x] } := if_neg (Nat.not_lt.mpr h)

theorem Port.excepted_keeps (q : Port) (x : ExcFrame) :
    (q.excepted x).pipeQ = q.pipeQ ∧ (q.excepted x).cfg = q.cfg ∧ (q.excepted x).st = q.st := by
  unfold Port.excepted
  split <;> exact ⟨rfl, rfl, rfl⟩

theorem State.exception_eq {s : State} {p : Nat} {q : Port} (h : s.port? p = some q) (f : Frame) (reason : Nat)
    (leg : Option Nat) (stamp : Nat) :
    s.exception p f reason leg stamp = { s with ports := s.ports.put p (q.excepted
      { frame := f, reason := reason, leg := leg, conf := (leg.bind s.legs.find?).map Leg.conf, stamp := stamp }) } := by
  have hq : s.ports.find? p = some q := h
  unfold State.exception Port.excepted
  simp only [h, State.countPort, State.updPort, FMap.upd, hq]
  split <;> rfl

/-! ### The turn (R135) -/

theorem exec_ingressTakeFrame (p : Nat) (s : State) : exec (.ingressTakeFrame p) s = .next (ingressTakeFrame p s) := rfl

/-- The frame in turn leaves its queue, and the pipeline sorts it. -/
theorem ingressTakeFrame_turn {s : State} {p l port : Nat} {q : Port} {r : RxFrame} {rest : List RxFrame}
    (hm : s.moves = true) (ht : s.nextTurn p = some (l, port)) (hq : s.port? port = some q) (hr : q.pipeQ = r :: rest) :
    ∃ u q', ingressTakeFrame p s = u.ingressFrame port r ∧
      State.portSet { s with turns := s.turns.put p l } u port q' ∧
      q'.pipeQ = rest ∧ q'.excQ = q.excQ ∧ q'.cfg = q.cfg ∧ q'.st = q.st := by
  have hq0 : State.port? { s.begin with turns := s.turns.put p l } port = some q := hq
  have htake := State.updPort_portSet hq0 fun q => { q with pipeQ := rest }
  obtain ⟨q', hpause, hpipe, hexc, hcfg, hst⟩ := State.pauseCheck_portSet (State.portSet_port? htake) q.fill
  obtain ⟨o, ps, hu, hq', hne⟩ := State.portSet_trans htake hpause
  refine ⟨_, q', ?_, ⟨o, ps, hu, hq', hne⟩, hpipe, hexc, hcfg, hst⟩
  simp only [ingressTakeFrame, State.begin_moves, hm, State.begin_nextTurn, ht, State.begin_port?, hq, hr, Bool.not_true,
    Bool.false_eq_true, if_false]
  rfl

end Sys2Proof.Machine
end

section
/-! PROOF. Where an ingress pipeline sends the frame that it has taken (R171 to R178). -/

namespace Sys2Proof.Machine

/-! ### What sorting a frame may change -/

/-- Sorting a frame of port `p` leaves the port's pipeline queue, configuration and state, every other port, and all of the
state but the legs and the queues that a frame may enter. -/
def State.sorts (s t : State) (p : Nat) (q : Port) : Prop :=
  ∃ ps ls js sq n q', t = { s with ports := ps, legs := ls, rxJobs := js, stunQ := sq, lookNo := n } ∧
    ps.find? p = some q' ∧ (q'.pipeQ = q.pipeQ ∧ q'.cfg = q.cfg ∧ q'.st = q.st) ∧
    ∀ i, i ≠ p → ps.find? i = s.ports.find? i

section
variable {s : State} {port : Nat} {q : Port} (hq : s.port? port = some q)
include hq

theorem State.exception_sorts (f : Frame) (reason : Nat) (leg : Option Nat) (stamp : Nat) :
    s.sorts (s.exception port f reason leg stamp) port q := by
  rw [State.exception_eq hq]
  exact ⟨_, _, _, _, _, _, rfl, FMap.find?_put_self .., Port.excepted_keeps q _, fun i hi => FMap.find?_put_ne _ _ _ _ hi⟩

theorem State.sorts_of_port {t : State} {ls : FMap Leg} {js : FMap (List Job)} {sq : List Stun} {n : Nat}
    (ht : t = { s with legs := ls, rxJobs := js, stunQ := sq, lookNo := n }) : s.sorts t port q :=
  ⟨s.ports, ls, js, sq, n, q, ht, hq, ⟨rfl, rfl, rfl⟩, fun _ _ => rfl⟩

theorem State.legPacket_sorts (r : RxFrame) (leg : Nat) : s.sorts (s.legPacket port r leg) port q := by
  unfold State.legPacket
  split
  · exact State.sorts_of_port hq rfl
  · split
    · exact State.sorts_of_port hq rfl
    · split
      · dsimp only
        split
        · exact State.sorts_of_port hq rfl
        · exact State.sorts_of_port hq rfl
      · exact State.sorts_of_port hq rfl

theorem State.ingressFrame_sorts (r : RxFrame) : s.sorts (s.ingressFrame port r) port q := by
  unfold State.ingressFrame
  dsimp only
  split
  · generalize (ite (decide (r.frame.firstByte ≤ 3) = true) _ _ : Option Nat) = leg
    split
    · cases leg with
      | none => exact State.exception_sorts hq ..
      | some l => exact State.sorts_of_port hq rfl
    · split
      · exact State.sorts_of_port hq rfl
      · split
        · exact State.exception_sorts hq ..
        · cases leg with
          | none => exact State.exception_sorts hq ..
          | some l =>
            dsimp only
            split
            · exact State.legPacket_sorts hq r l
            · exact State.exception_sorts hq ..
  · exact State.exception_sorts hq ..
  · exact State.exception_sorts hq ..

end

/-! ### The rows of R171 -/

/-- The leg of a frame: of a STUN packet the lowest on its addresses, of any other that of the lookup (R171, R175). -/
def State.frameLeg (s : State) (f : Frame) (ip : IpHdr) (u : UdpHdr) : Option Nat :=
  if decide (f.firstByte ≤ 3) then (s.tupleLegs ip u (frameVid (parsedTags f).1)).head?
  else s.lookup ip u (lookupSsrc f) (frameVid (parsedTags f).1)

theorem State.ingressFrame_reason (s : State) (port : Nat) (r : RxFrame) {reason : Nat} (h : ipReason r.frame = some reason) :
    s.ingressFrame port r = s.exception port r.frame reason none (r.stamps.headD 0) := by
  simp only [State.ingressFrame, h]

section
variable (s : State) (port : Nat) (r : RxFrame) {ip : IpHdr} {u : UdpHdr} (hreason : ipReason r.frame = none)
  (hip : r.frame.ip = some ip) (hu : r.frame.udp = some u)
include hreason hip hu

/-- A bad UDP length or checksum where no leg is found. -/
theorem State.ingressFrame_bad_none (hbad : (!u.lenOk || !u.csumOk) = true) (hleg : s.frameLeg r.frame ip u = none) :
    s.ingressFrame port r = s.exception port r.frame 6 none (r.stamps.headD 0) := by
  unfold State.frameLeg at hleg
  simp only [State.ingressFrame, hreason, hip, hu, hbad, hleg, if_true]

/-- A bad UDP length or checksum counts at its leg (R173). -/
theorem State.ingressFrame_bad_some (hbad : (!u.lenOk || !u.csumOk) = true) {leg : Nat}
    (hleg : s.frameLeg r.frame ip u = some leg) : s.ingressFrame port r = s.countLeg leg 8 1 := by
  unfold State.frameLeg at hleg
  simp only [State.ingressFrame, hreason, hip, hu, hbad, hleg, if_true]

variable (hgood : (!u.lenOk || !u.csumOk) = false)
include hgood

/-- A STUN packet goes to Welmus. -/
theorem State.ingressFrame_stun (hstun : decide (r.frame.firstByte ≤ 3) = true) :
    ∃ x, s.ingressFrame port r = { s with stunQ := s.stunQ ++ [x] } ∧ x.frame = r.frame ∧ x.port = port := by
  simp only [State.ingressFrame, hreason, hip, hu, hgood, hstun, if_true, Bool.false_eq_true, if_false]
  exact ⟨_, rfl, rfl, rfl⟩

/-- A DTLS record goes to the host with reason 8. -/
theorem State.ingressFrame_dtls (hlo : 20 ≤ r.frame.firstByte) (hhi : r.frame.firstByte ≤ 63) :
    s.ingressFrame port r = s.exception port r.frame 8 (s.frameLeg r.frame ip u) (r.stamps.headD 0) := by
  have hstun : decide (r.frame.firstByte ≤ 3) = false := decide_eq_false (by omega)
  simp only [State.ingressFrame, State.frameLeg, hreason, hip, hu, hgood, hstun, hlo, hhi, Bool.false_eq_true, if_false,
    if_true, and_self]

variable (hstun : decide (r.frame.firstByte ≤ 3) = false) (hdtls : ¬ (20 ≤ r.frame.firstByte ∧ r.frame.firstByte ≤ 63))
include hstun hdtls

/-- A payload of no leg goes to the host with reason 1. -/
theorem State.ingressFrame_none (hleg : s.frameLeg r.frame ip u = none) :
    s.ingressFrame port r = s.exception port r.frame 1 none (r.stamps.headD 0) := by
  unfold State.frameLeg at hleg
  simp only [hstun, Bool.false_eq_true, if_false] at hleg
  simp only [State.ingressFrame, hreason, hip, hu, hgood, hstun, hdtls, hleg, Bool.false_eq_true, if_false]

/-- A payload of a leg goes on to its binding where it is of a kind that the leg takes, else to the host with reason 9. -/
theorem State.ingressFrame_some {leg : Nat} {g : Leg} (hleg : s.frameLeg r.frame ip u = some leg)
    (hg : s.legs.find? leg = some g) :
    s.ingressFrame port r =
      if (128 ≤ r.frame.firstByte ∧ r.frame.firstByte ≤ 191 ∧ g.kind ≤ 1) ∨ (r.frame.firstByte = 0x5A ∧ g.kind = 2) then
        s.legPacket port r leg
      else s.exception port r.frame 9 (some leg) (r.stamps.headD 0) := by
  unfold State.frameLeg at hleg
  simp only [hstun, Bool.false_eq_true, if_false] at hleg
  have hkind : s.legs.getD {} leg = g := by simp [FMap.getD, hg]
  simp only [State.ingressFrame, hreason, hip, hu, hgood, hstun, hdtls, hleg, hkind, Bool.false_eq_true, if_false]

end

/-! ### The binding of the leg (R26, R116, R118, R178) -/

section
variable {s : State} (port : Nat) (r : RxFrame) {leg : Nat} {g : Leg} (hg : s.legs.find? leg = some g)
include hg

theorem State.legPacket_fenced (hf : g.fenced = true) : s.legPacket port r leg = s.countLeg leg 6 1 := by
  simp only [State.legPacket, hg, hf, if_true]

variable (hf : g.fenced = false)
include hf

theorem State.legPacket_unbound (h : g.slot = none ∨ (s.conf g.conf).activeNo = none) :
    s.legPacket port r leg = s.countLeg leg 5 1 := by
  simp only [State.legPacket, hg, hf, Bool.false_eq_true, if_false]
  split
  · rename_i k b hk hb
    rcases h with h | h
    · exact nomatch hk.symm.trans h
    · exact nomatch hb.symm.trans h
  · rfl

variable {k b : Nat} (hk : g.slot = some k) (hb : (s.conf g.conf).activeNo = some b)
include hk hb

theorem State.legPacket_malformed
    (h : legPayload r.frame ((s.planD g.conf b).classOf k) ((((s.planD g.conf b).rosterSlot k).map sourceRun).getD 0) = none) :
    s.legPacket port r leg = s.countLeg leg 8 1 := by
  simp only [State.legPacket, hg, hf, hk, hb, h, Bool.false_eq_true, if_false]

theorem State.legPacket_job {app : App}
    (h : legPayload r.frame ((s.planD g.conf b).classOf k) ((((s.planD g.conf b).rosterSlot k).map sourceRun).getD 0) =
      some app) :
    s.legPacket port r leg = { s with
      lookNo := s.lookNo + 1
      rxJobs := s.rxJobs.put (port / 16) (s.rxJobs.getD [] (port / 16) ++
        [.rx leg g.serial g.conf b k port r.frame app (r.stamps.headD 0) g.rxGen s.lookNo]) } := by
  simp only [State.legPacket, hg, hf, hk, hb, h, Bool.false_eq_true, if_false]

end

end Sys2Proof.Machine
end

section
/-! PROOF. STUN and consent: the reply, the legs that it gives consent to, and consent's end (R171, R172, R232). -/

namespace Sys2Proof.Machine

/-! ### Consent (R172) -/

theorem exec_consentExpiry (leg : Nat) (s : State) : exec (.consentExpiry leg) s = .next (consentExpiry leg s) := rfl

/-- 30 s without an answered request take a leg its consent. -/
theorem consentExpiry_due {s : State} {leg since : Nat} {g : Leg} (hg : s.legs.find? leg = some g)
    (hc : g.consent = some since) (hl : g.consentLost = false) (hdue : since + 30000000000 ≤ s.now) :
    consentExpiry leg s = (s.begin.updLeg leg fun g => { g with consentLost := true }).legState leg g.stateCode 4 := by
  have hlate : decide (s.begin.now < since + 30000000000) = false := decide_eq_false (Nat.not_lt.mpr hdue)
  unfold consentExpiry
  simp only [State.begin_legs, hg, hc, hl, hlate, Bool.or_self, Bool.false_eq_true, if_false]

theorem consentExpiry_early {s : State} {leg since : Nat} {g : Leg} (hg : s.legs.find? leg = some g)
    (hc : g.consent = some since) (hearly : s.now < since + 30000000000) : consentExpiry leg s = s.begin := by
  have hsoon : decide (s.begin.now < since + 30000000000) = true := decide_eq_true hearly
  unfold consentExpiry
  simp only [State.begin_legs, hg, hc, hsoon, Bool.or_true, if_true]

/-- A leg `g` after an answered request at `now`: consent, unless it is a trunk; where consent was lost, sending resumes with a
lookup after number `look`. -/
def Leg.consents (now look : Nat) (g g' : Leg) : Prop :=
  (g.kind = 2 → g' = g) ∧
  (g.kind ≠ 2 → ∃ n, g' = { g with consent := some now, consentLost := false, resume := n } ∧
    (g.consentLost = false → n = g.resume) ∧ (g.consentLost = true → look < n))

/-- Two answers at one instant are as one. -/
theorem Leg.consents_trans {now look look' : Nat} {g g' g'' : Leg} (h : g.consents now look g')
    (h' : g'.consents now look' g'') : g.consents now look g'' := by
  obtain ⟨htrunk, hleg⟩ := h
  obtain ⟨htrunk', hleg'⟩ := h'
  refine ⟨fun hk => ?_, fun hk => ?_⟩
  · obtain rfl := htrunk hk
    exact htrunk' hk
  · obtain ⟨n, rfl, hkept, hlost⟩ := hleg hk
    obtain ⟨n', rfl, hkept', -⟩ := hleg' hk
    obtain rfl : n' = n := hkept' rfl
    exact ⟨n', rfl, hkept, hlost⟩

theorem Leg.consents_mono {now look look' : Nat} {g g' : Leg} (h : g.consents now look' g') (hle : look ≤ look') :
    g.consents now look g' := by
  obtain ⟨htrunk, hleg⟩ := h
  refine ⟨htrunk, fun hk => ?_⟩
  obtain ⟨n, rfl, hkept, hlost⟩ := hleg hk
  exact ⟨n, rfl, hkept, fun hl => Nat.lt_of_le_of_lt hle (hlost hl)⟩

/-- `t` is `s` but for its legs, the count of lookups, which does not fall, and events: the legs in `ls` have consent. -/
def State.consented (s t : State) (ls : List Nat) : Prop :=
  (∃ o m f gs n, t = { s with out := o, mbx := m, funcs := f, legs := gs, lookNo := n } ∧ s.lookNo ≤ n) ∧
  (∀ k, k ∉ ls → t.legs.find? k = s.legs.find? k) ∧
  ∀ k g, k ∈ ls → s.legs.find? k = some g → ∃ g', t.legs.find? k = some g' ∧ g.consents s.now s.lookNo g'

theorem State.consented_nil (s : State) : s.consented s [] :=
  ⟨⟨_, _, _, _, _, rfl, Nat.le_refl _⟩, fun _ _ => rfl, fun _ _ hk => nomatch hk⟩

theorem State.consented_cons {s t u : State} {l : Nat} {ls : List Nat} (h : s.consented t [l]) (h' : t.consented u ls) :
    s.consented u (l :: ls) := by
  obtain ⟨⟨_, _, _, gs, n, rfl, hle⟩, hother, hthis⟩ := h
  obtain ⟨⟨o, m, f, gs', n', rfl, hle'⟩, hothers, hthese⟩ := h'
  refine ⟨⟨o, m, f, gs', n', rfl, Nat.le_trans hle hle'⟩, fun k hk => ?_, fun k g hk hg => ?_⟩
  · rw [List.mem_cons, not_or] at hk
    exact (hothers k hk.2).trans (hother k (by simpa using hk.1))
  · by_cases hkl : k = l
    · obtain ⟨g', hg', hcons⟩ := hthis k g (by simpa using hkl) hg
      by_cases hks : k ∈ ls
      · obtain ⟨g'', hg'', hcons'⟩ := hthese k g' hks hg'
        exact ⟨g'', hg'', Leg.consents_trans hcons hcons'⟩
      · exact ⟨g', (hothers k hks).trans hg', hcons⟩
    · have hks : k ∈ ls := (List.mem_cons.mp hk).resolve_left hkl
      obtain ⟨g', hg', hcons⟩ := hthese k g hks ((hother k (by simpa using hkl)).trans hg)
      exact ⟨g', hg', Leg.consents_mono hcons hle⟩

/-- Consent for one leg: `t` differs from `s` in that leg, which is `g'`. -/
theorem State.consented_one {s t : State} {leg : Nat} {g g' : Leg} (hg : s.legs.find? leg = some g)
    (ht : ∃ o m f gs n, t = { s with out := o, mbx := m, funcs := f, legs := gs, lookNo := n } ∧ s.lookNo ≤ n)
    (hthis : t.legs.find? leg = some g') (hother : ∀ k, k ≠ leg → t.legs.find? k = s.legs.find? k)
    (hc : g.consents s.now s.lookNo g') : s.consented t [leg] := by
  refine ⟨ht, fun k hk => hother k (by simpa using hk), fun k g1 hk hg1 => ?_⟩
  obtain rfl := List.mem_singleton.mp hk
  obtain rfl := Option.some.inj (hg.symm.trans hg1)
  exact ⟨g', hthis, hc⟩

theorem State.updLeg_find?_self {s : State} {leg : Nat} {g : Leg} (hg : s.legs.find? leg = some g) (f : Leg → Leg) :
    (s.updLeg leg f).legs.find? leg = some (f g) := by
  rw [State.updLeg_legs, FMap.find?_upd_self, hg]
  rfl

theorem State.updLeg_find?_ne (s : State) {leg k : Nat} (h : k ≠ leg) (f : Leg → Leg) :
    (s.updLeg leg f).legs.find? k = s.legs.find? k := FMap.find?_upd_ne _ _ _ _ h

theorem State.legState_legs (s : State) (leg st cause : Nat) : (s.legState leg st cause).legs = s.legs := by
  obtain ⟨m, f, o, h⟩ := s.legState_touches leg st cause
  rw [h]

theorem State.grantConsent_consented (s : State) (leg : Nat) : s.consented (s.grantConsent leg) [leg] := by
  unfold State.grantConsent
  cases hg : s.legs.find? leg with
  | none =>
    refine ⟨⟨_, _, _, _, _, rfl, Nat.le_refl _⟩, fun _ _ => rfl, fun k g hk hk' => ?_⟩
    rw [List.mem_singleton.mp hk, hg] at hk'
    exact nomatch hk'
  | some g =>
    dsimp only
    have hfirst := State.updLeg_find?_self hg fun g => { g with consent := some s.now, consentLost := false }
    by_cases hk : g.kind = 2
    · rw [if_pos hk]
      exact State.consented_one hg ⟨_, _, _, _, _, rfl, Nat.le_refl _⟩ hg (fun _ _ => rfl) ⟨fun _ => rfl, fun h => absurd hk h⟩
    · rw [if_neg hk]
      by_cases hl : g.consentLost = true
      · rw [if_pos hl]
        have hnext := State.updLeg_find?_self hfirst fun g => { g with resume := s.lookNo + 1 }
        refine State.consented_one hg ?_ ?_ (fun k hne => ?_)
          ⟨fun h => absurd h hk, fun _ => ⟨s.lookNo + 1, rfl, fun h => ?_, fun _ => Nat.lt_succ_self _⟩⟩
        · obtain ⟨m, f, o, he⟩ := State.legState_touches
            { (s.updLeg leg fun g => { g with consent := some s.now, consentLost := false }).updLeg leg
              (fun g => { g with resume := s.lookNo + 1 }) with lookNo := s.lookNo + 1 } leg g.stateCode 5
          exact ⟨o, m, f, _, s.lookNo + 1, he, Nat.le_succ _⟩
        · rw [State.legState_legs]
          exact hnext
        · rw [State.legState_legs]
          exact (State.updLeg_find?_ne _ hne _).trans (s.updLeg_find?_ne hne _)
        · exact absurd (h.symm.trans hl) Bool.false_ne_true
      · rw [if_neg hl]
        refine State.consented_one hg ⟨_, _, _, _, _, rfl, Nat.le_refl _⟩ hfirst (fun k hne => s.updLeg_find?_ne hne _)
          ⟨fun h => absurd h hk, fun _ => ⟨g.resume, rfl, fun _ => rfl, fun h => absurd h hl⟩⟩

/-- An answered request gives every leg on its addresses consent. -/
theorem State.foldl_grantConsent (ls : List Nat) (s : State) : s.consented (ls.foldl State.grantConsent s) ls := by
  induction ls generalizing s with
  | nil => exact s.consented_nil
  | cons l ls ih => exact State.consented_cons (s.grantConsent_consented l) (ih (s.grantConsent l))

end Sys2Proof.Machine
end

section
/-! PROOF. Frames of class 0, and Welmus's answer to a STUN request (R171, R232). -/

namespace Sys2Proof.Machine

/-! ### Class 0 (R232) -/

theorem State.chargeOne_touches (s : State) (level idx w : Nat) : ∃ b, s.chargeOne level idx w = { s with buckets := b } := by
  unfold State.chargeOne
  dsimp only
  split
  · exact ⟨s.buckets, rfl⟩
  · exact ⟨_, rfl⟩

theorem State.endWait_touches (s : State) (w : WaitFrame) : ∃ f q, s.endWait w = { s with funcs := f, waitQ := q } := by
  unfold State.endWait
  dsimp only
  split
  · exact ⟨s.funcs, _, rfl⟩
  · exact ⟨_, _, rfl⟩

theorem State.admitOne_touches (s : State) (port : Nat) :
    ∃ p f q, s.admitOne port = { s with ports := p, funcs := f, waitQ := q } := by
  unfold State.admitOne
  split
  · split
    · obtain ⟨f, q, h⟩ := s.endWait_touches ‹_›
      rw [h]
      exact ⟨_, f, q, rfl⟩
    · exact ⟨s.ports, s.funcs, s.waitQ, rfl⟩
  · exact ⟨s.ports, s.funcs, s.waitQ, rfl⟩

theorem State.foldl_admitOne_touches (port : Nat) (ws : List WaitFrame) (s : State) :
    ∃ p f q, ws.foldl (fun s _ => s.admitOne port) s = { s with ports := p, funcs := f, waitQ := q } := by
  induction ws generalizing s with
  | nil => exact ⟨s.ports, s.funcs, s.waitQ, rfl⟩
  | cons w ws ih =>
    obtain ⟨p, f, q, h⟩ := ih (s.admitOne port)
    obtain ⟨p', f', q', h'⟩ := s.admitOne_touches port
    rw [List.foldl_cons, h, h']
    exact ⟨p, f, q, rfl⟩

/-- Where no frame waits for a port, none is admitted. -/
theorem State.admitWaiting_idle {s : State} {port : Nat} (h : ∀ w ∈ s.waitQ, w.port ≠ port) : s.admitWaiting port = s := by
  have hone : s.admitOne port = s := by
    have hnone : (s.waitQ.find? fun w => w.port == port) = none := by simpa using h
    unfold State.admitOne
    rw [hnone]
    split
    · exact nomatch ‹none = some _›
    · rfl
  unfold State.admitWaiting
  generalize s.waitQ = ws
  induction ws with
  | nil => rfl
  | cons w ws ih => rw [List.foldl_cons, hone, ih]

/-- Class 0 changes ports, buckets, the frames that wait, and rings whose frames wait no more. -/
theorem State.sendClass0_touches (s : State) (port : Nat) (f : TxFrame) (ring : Option (Nat × Nat)) :
    ∃ p g q b, s.sendClass0 port f ring = { s with ports := p, funcs := g, waitQ := q, buckets := b } := by
  unfold State.sendClass0 State.admitWaiting
  obtain ⟨b, hb⟩ := s.chargeOne_touches 2 (port * 8) (f.length + 20)
  obtain ⟨b', hb'⟩ := State.chargeOne_touches { s with buckets := b } 3 port (f.length + 20)
  rw [hb, hb']
  obtain ⟨p, g, q, h⟩ := State.foldl_admitOne_touches port s.waitQ { s with buckets := b' }
  dsimp only at h ⊢
  rw [h]
  split
  · exact ⟨p, g, q, b', rfl⟩
  · split
    · exact ⟨_, g, q, b', rfl⟩
    · exact ⟨p, g, _, b', rfl⟩

/-- Marking the heads of a port's queues leaves their frames. -/
theorem Port.markHeads_frames (q : Port) (clock : Int) (i : Nat) :
    ((q.markHeads clock).txq.getD i []).map TxFrame.frame = (q.txq.getD i []).map TxFrame.frame := by
  simp only [Port.markHeads, List.getD_eq_getElem?_getD, List.getElem?_map]
  cases q.txq[i]? with
  | none => rfl
  | some fs => cases fs <;> rfl

/-- A frame put into a transmit queue is its last; no other port changes. -/
theorem State.pushTx_frames {s : State} {port : Nat} {q : Port} (hq : s.port? port = some q) {cls : Nat}
    (hcls : cls < q.txq.length) (f : TxFrame) :
    (∃ q', (s.pushTx port cls f).port? port = some q' ∧
      (q'.txq.getD cls []).map TxFrame.frame = (q.txq.getD cls []).map TxFrame.frame ++ [f.frame]) ∧
    ∀ i, i ≠ port → (s.pushTx port cls f).port? i = s.port? i := by
  refine ⟨⟨_, (s.updPort_port?_self port _).trans (by rw [hq]; rfl), ?_⟩, fun i hi => s.updPort_port?_ne _ hi⟩
  rw [Port.markHeads_frames]
  simp [hcls]

section
variable {s : State} {port : Nat} {q : Port} (f : TxFrame) (ring : Option (Nat × Nat)) (hq : s.port? port = some q)
  (hidle : ∀ w ∈ s.waitQ, w.port ≠ port)
include hq hidle

/-- A frame of class 0 enters its queue where that has room, behind the frames there. -/
theorem State.sendClass0_room (htx : 0 < q.txq.length) (hroom : q.txRoom 0 f.length = true) :
    (s.sendClass0 port f ring).waitQ = s.waitQ ∧
      ∃ q', (s.sendClass0 port f ring).port? port = some q' ∧
        (q'.txq.getD 0 []).map TxFrame.frame = (q.txq.getD 0 []).map TxFrame.frame ++ [f.frame] ∧
        ∀ i, i ≠ port → (s.sendClass0 port f ring).port? i = s.port? i := by
  obtain ⟨b, hb⟩ := s.chargeOne_touches 2 (port * 8) (f.length + 20)
  obtain ⟨b', hb'⟩ := State.chargeOne_touches { s with buckets := b } 3 port (f.length + 20)
  have hq' : State.port? { s with buckets := b' } port = some q := hq
  have hany : (s.waitQ.any fun w => w.port == port) = false := by simpa using hidle
  have hsent : s.sendClass0 port f ring = State.pushTx { s with buckets := b' } port 0 f := by
    unfold State.sendClass0
    rw [hb, hb', State.admitWaiting_idle (s := { s with buckets := b' }) hidle]
    simp only [hq', hroom, hany, Bool.not_false, Bool.and_true, if_true]
  obtain ⟨⟨q', hlast, hframes⟩, hne⟩ := State.pushTx_frames hq' htx f
  rw [hsent]
  exact ⟨rfl, q', hlast, hframes, hne⟩

/-- A frame of class 0 waits where its queue has no room. -/
theorem State.sendClass0_full (hroom : q.txRoom 0 f.length = false) :
    ∃ b, s.sendClass0 port f ring = { s with buckets := b, waitQ := s.waitQ ++ [{ port := port, tx := f, ring := ring }] } := by
  obtain ⟨b, hb⟩ := s.chargeOne_touches 2 (port * 8) (f.length + 20)
  obtain ⟨b', hb'⟩ := State.chargeOne_touches { s with buckets := b } 3 port (f.length + 20)
  have hq' : State.port? { s with buckets := b' } port = some q := hq
  unfold State.sendClass0
  rw [hb, hb', State.admitWaiting_idle (s := { s with buckets := b' }) hidle]
  simp only [hq', hroom, Bool.false_and, Bool.false_eq_true, if_false]
  exact ⟨b', rfl⟩

end

/-! ### The answer (R171) -/

theorem exec_stunRequest (s : State) : exec .stunRequest s = .next (stunRequest s) := rfl

section
variable {s : State} {r : Stun} {rest : List Stun} {ip : IpHdr} {u : UdpHdr} (hq : s.stunQ = r :: rest)
  (hw : s.welmusRuns = true) (hip : r.frame.ip = some ip) (hu : r.frame.udp = some u)
include hq hw hip hu

/-- The template of the lowest leg that has one answers, and every leg on the addresses has consent. -/
theorem stunRequest_answers (hreq : r.request = true) {l : Nat} {g : Leg} {q : Port} {a : Nat × Nat} {more : List (Nat × Nat)}
    (hl : (s.tupleLegs ip u (frameVid (parsedTags r.frame).1)).find? (fun k => (s.legs.getD {} k).stun) = some l)
    (hg : s.legs.find? l = some g) (hport : s.port? r.port = some q) (ha : q.cfg.addrs = a :: more) :
    stunRequest s = (s.tupleLegs ip u (frameVid (parsedTags r.frame).1)).foldl State.grantConsent
      (State.sendClass0 { s.begin with stunQ := rest } r.port (stunReply g r.frame a.1) none) := by
  have hl' : (State.tupleLegs { s.begin with stunQ := rest } ip u (frameVid (parsedTags r.frame).1)).find?
      (fun k => (s.begin.legs.getD {} k).stun) = some l := hl
  have hw' : State.welmusRuns { s.begin with stunQ := rest } = true := hw
  have hport' : State.port? { s.begin with stunQ := rest } r.port = some q := hport
  have hg' : s.begin.legs.find? l = some g := hg
  dsimp only at hl' hw' hport'
  simp only [stunRequest, State.begin_stunQ, hq, hw', hip, hu, hl', hreq, Bool.not_true, Bool.false_eq_true, if_false,
    if_true, State.answerStun, hg', hport', Option.getD_some, ha]
  rfl

/-- Where no leg has a template, the packet goes to the host with reason 7. -/
theorem stunRequest_unanswered
    (hl : ∀ l ∈ s.tupleLegs ip u (frameVid (parsedTags r.frame).1), (s.legs.getD {} l).stun = false) {q : Port}
    (hport : s.port? r.port = some q) (hroom : (q.excQ.map fun x => x.frame.length).sum + r.frame.length ≤ 65536) :
    ∃ x, stunRequest s = { s with
        out := [], stunQ := rest, ports := s.ports.put r.port { q with excQ := q.excQ ++ [x] } } ∧
      x.reason = 7 ∧ x.leg = (s.tupleLegs ip u (frameVid (parsedTags r.frame).1)).head? := by
  have hl' : (State.tupleLegs { s.begin with stunQ := rest } ip u (frameVid (parsedTags r.frame).1)).find?
      (fun k => (s.begin.legs.getD {} k).stun) = none := List.find?_eq_none.mpr fun k hk => Bool.eq_false_iff.mp (hl k hk)
  have hw' : State.welmusRuns { s.begin with stunQ := rest } = true := hw
  have hport' : State.port? { s.begin with stunQ := rest } r.port = some q := hport
  dsimp only at hl' hw' hport'
  simp only [stunRequest, State.begin_stunQ, hq, hw', hip, hu, hl', Bool.not_true, Bool.false_eq_true, if_false]
  rw [State.exception_eq hport', Port.excepted_room hroom]
  exact ⟨_, rfl, rfl, rfl⟩

end

end Sys2Proof.Machine
end

section
/-! PROOF. Records of locally originated sources: into their pipeline, or discarded (R22, R23, R178, R464). -/

namespace Sys2Proof.Machine

theorem exec_localInject (p : Nat) (s : State) : exec (.localInject p) s = .next (localInject p s) := rfl

theorem exec_localStarved (task : Nat) (s : State) : exec (.localStarved task) s = .next (localStarved task s) := rfl

/-- The end of a CREDIT lease touches the scheduler only. -/
theorem State.endCredit_touches (s : State) (credit : Option Nat) : ∃ x, s.endCredit credit = { s with sched := x } := by
  unfold State.endCredit
  split
  · exact ⟨s.sched, rfl⟩
  · split
    · exact ⟨s.sched, rfl⟩
    · exact ⟨_, rfl⟩

theorem State.toReplicator_room {s : State} {p : Nat} (pk : ReplPacket) (h : (s.replQ.getD [] p).length < 512) :
    s.toReplicator p pk = { s with replQ := s.replQ.put p (s.replQ.getD [] p ++ [pk]) } := if_neg (Nat.not_le.mpr h)

/-- An audio record reaches the replicator as its source's; of the conferences only its own changes. -/
theorem State.injectLocal_audio {s : State} {p : Nat} {q : LocalRec} (ha : q.audio = true)
    (hroom : (s.replQ.getD [] p).length < 512) :
    ∃ cs pk, s.injectLocal p q = { s with confs := cs, replQ := s.replQ.put p (s.replQ.getD [] p ++ [pk]) } ∧
      pk.conf = q.conf ∧ pk.bank = q.bank ∧ pk.source = q.source ∧ pk.srcLeg = none ∧ pk.cls.audio = true ∧
      ∀ i, i ≠ q.conf → cs.getD {} i = s.conf i := by
  unfold State.injectLocal
  simp only [ha, if_true, Bool.not_true, Bool.false_and, Bool.false_eq_true, if_false]
  rw [State.toReplicator_room]
  case h => exact hroom
  refine ⟨_, _, rfl, rfl, rfl, rfl, rfl, rfl, fun i hi => ?_⟩
  exact (State.updConf_conf_ne _ _ hi).trans (State.updConf_conf_ne _ _ hi)

/-- The oldest record of a pipeline with no network frame ready is injected. -/
theorem localInject_turn {s : State} {p : Nat} {q : LocalRec} {rest : List LocalRec} (hm : s.moves = true)
    (ht : s.nextTurn p = none) (hq : s.localQ.getD [] p = q :: rest) :
    localInject p s =
      (State.injectLocal { s.begin with localQ := s.localQ.put p rest } p q).endCredit q.credit := by
  simp only [localInject, State.begin_moves, hm, State.begin_nextTurn, ht, State.begin_localQ, hq, Bool.not_true,
    Option.isSome_none, Bool.or_self, Bool.false_eq_true, if_false]

/-- A filter of every queue, read at one of them. -/
theorem FMap.getD_map_filter {α : Type} (m : FMap (List α)) (f : α → Bool) (k : Nat) :
    FMap.getD (m.map fun x => (x.1, x.2.filter f)) [] k = (m.getD [] k).filter f := by
  induction m with
  | nil => rfl
  | cons x m ih =>
    obtain ⟨j, l⟩ := x
    by_cases h : j = k
    · simp [FMap.getD, FMap.find?, h]
    · simpa [FMap.getD, FMap.find?, h] using ih

/-- Records that have waited 20 ms are discarded together, with one fault record (R464). -/
theorem localStarved_due {s : State} {task : Nat} {q : LocalRec}
    (h : (s.localQ.flatMap Prod.snd).find? (fun x => x.task == task && decide (x.at_ + 20000000 ≤ s.now)) = some q) :
    ∃ d, localStarved task s = (State.endCredit { s.begin with
      localQ := s.localQ.map fun x => (x.1, x.2.filter fun y => !(y.task == task && y.at_ == q.at_)) } q.credit).fault
        0x22 1 q.conf d 0 := by
  have h' : (s.begin.localQ.flatMap Prod.snd).find? (fun x => x.task == task && decide (x.at_ + 20000000 ≤ s.begin.now)) =
      some q := h
  simp only [localStarved, h']
  exact ⟨_, rfl⟩

end Sys2Proof.Machine
end

section
/-! PROOF. An ingress pipeline's whole step, the frame taken and sorted, seen from the state before it (R135, R171 to R178). -/

namespace Sys2Proof.Machine

/-! ### The state that is sorted from -/

section
variable {s u : State} {tn : FMap Nat} {port : Nat} {q : Port} (hu : State.portSet { s with turns := tn } u port q)
include hu

theorem State.taken_reads : u.legs = s.legs ∧ u.rxJobs = s.rxJobs ∧ u.stunQ = s.stunQ ∧ u.lookNo = s.lookNo := by
  obtain ⟨_, _, rfl, -⟩ := hu
  exact ⟨rfl, rfl, rfl, rfl⟩

theorem State.taken_conf (c : Nat) : u.conf c = s.conf c := by
  obtain ⟨_, _, rfl, -⟩ := hu
  rfl

theorem State.taken_planD (c b : Nat) : u.planD c b = s.planD c b := by
  obtain ⟨_, _, rfl, -⟩ := hu
  rfl

theorem State.taken_frameLeg (f : Frame) (ip : IpHdr) (d : UdpHdr) : u.frameLeg f ip d = s.frameLeg f ip d := by
  obtain ⟨_, _, rfl, -⟩ := hu
  rfl

/-- Taking a frame and sorting it changes the frame's port, the turn, and what sorting may change. -/
theorem State.taken_sorts {t : State} (h : u.sorts t port q) :
    t = { s with
      out := t.out, ports := t.ports, turns := t.turns, legs := t.legs, rxJobs := t.rxJobs, stunQ := t.stunQ
      lookNo := t.lookNo } ∧ t.turns = tn ∧ ∀ i, i ≠ port → t.port? i = s.port? i := by
  obtain ⟨_, _, rfl, -, hne⟩ := hu
  obtain ⟨_, _, _, _, _, _, rfl, -, -, hne'⟩ := h
  exact ⟨rfl, rfl, fun i hi => (hne' i hi).trans (hne i hi)⟩

end

/-! ### Outcomes -/

/-- The frame `r` of port `q` went to the host with a reason; the port is then `q'` (R171). -/
def State.excepts (s t : State) (q q' : Port) (r : RxFrame) (reason : Nat) (leg : Option Nat) : Prop :=
  t.legs = s.legs ∧ t.rxJobs = s.rxJobs ∧ t.stunQ = s.stunQ ∧
    ((q.excQ.map fun x => x.frame.length).sum + r.frame.length ≤ 65536 → q'.excQ = q.excQ ++ [{
      frame := r.frame, reason := reason, leg := leg, conf := (leg.bind s.legs.find?).map Leg.conf
      stamp := r.stamps.headD 0 }])

/-- A frame of port `q` was dropped and counted in counter `i` of its leg; the port is then `q'`. -/
def State.drops (s t : State) (q q' : Port) (leg i : Nat) (g : Leg) : Prop :=
  t.legs.find? leg = some { g with counters := bump g.counters i 1 } ∧ t.rxJobs = s.rxJobs ∧ t.stunQ = s.stunQ ∧
    q'.excQ = q.excQ

/-- `t` is `s` after the frame `r` left the pipeline queue of port `q` in its turn and was sorted; the port is then `q'`. -/
def State.ingested (s t : State) (port : Nat) (q q' : Port) (r : RxFrame) : Prop :=
  ∃ u tn q1, State.portSet { s with turns := tn } u port q1 ∧ q1.excQ = q.excQ ∧ t = u.ingressFrame port r ∧
    t.port? port = some q'

/-- The frame in turn is taken and sorted: what the step sets and leaves wherever the frame goes. -/
theorem ingressTakeFrame_ingested {s : State} {p l port : Nat} {q : Port} {r : RxFrame} {rest : List RxFrame}
    (hm : s.moves = true) (hturn : s.nextTurn p = some (l, port)) (hq : s.port? port = some q) (hr : q.pipeQ = r :: rest) :
    let t := ingressTakeFrame p s
    ∃ q', s.ingested t port q q' r ∧ t = { s with
      out := t.out, ports := t.ports, turns := t.turns, legs := t.legs, rxJobs := t.rxJobs, stunQ := t.stunQ
      lookNo := t.lookNo } ∧ t.turns.getD 15 p = l ∧ t.port? port = some q' ∧ q'.pipeQ = rest ∧ q'.cfg = q.cfg ∧
      q'.st = q.st ∧ ∀ i, i ≠ port → t.port? i = s.port? i := by
  obtain ⟨u, q1, hrun, hu, hpipe, hexc, hcfg, hst⟩ := ingressTakeFrame_turn hm hturn hq hr
  have hsorts := State.ingressFrame_sorts (State.portSet_port? hu) r
  rw [← hrun] at hsorts
  obtain ⟨hframe, hturns, hothers⟩ := State.taken_sorts hu hsorts
  obtain ⟨_, _, _, _, _, q', ht, hfind, ⟨hpipe', hcfg', hst'⟩, -⟩ := hsorts
  have hq' : (ingressTakeFrame p s).port? port = some q' := by rw [ht]; exact hfind
  exact ⟨q', ⟨u, _, q1, hu, hexc, hrun, hq'⟩, hframe, by rw [hturns, FMap.getD_put_self], hq', hpipe'.trans hpipe,
    hcfg'.trans hcfg, hst'.trans hst, hothers⟩

section
variable {s u t : State} {tn : FMap Nat} {port : Nat} {q q1 q' : Port} {r : RxFrame}
  (hu : State.portSet { s with turns := tn } u port q1) (hexc : q1.excQ = q.excQ) (hq' : t.port? port = some q')
include hu hexc hq'

theorem State.excepts_of_exception {reason : Nat} {leg : Option Nat}
    (ht : t = u.exception port r.frame reason leg (r.stamps.headD 0)) : s.excepts t q q' r reason leg := by
  rw [State.exception_eq (State.portSet_port? hu)] at ht
  subst ht
  obtain rfl := Option.some.inj ((FMap.find?_put_self ..).symm.trans hq')
  obtain ⟨hlegs, hjobs, hstun, -⟩ := State.taken_reads hu
  refine ⟨hlegs, hjobs, hstun, fun hroom => ?_⟩
  rw [← hexc] at hroom ⊢
  rw [Port.excepted_room hroom, hlegs]

theorem State.excQ_of_ports (ht : t.ports = u.ports) : q'.excQ = q.excQ := by
  have hq1 : t.port? port = some q1 := by rw [State.port?, ht]; exact State.portSet_port? hu
  obtain rfl := Option.some.inj (hq1.symm.trans hq')
  exact hexc

theorem State.drops_of_countLeg {leg i : Nat} {g : Leg} (hg : s.legs.find? leg = some g) (ht : t = u.countLeg leg i 1) :
    s.drops t q q' leg i g := by
  obtain ⟨hlegs, hjobs, hstun, -⟩ := State.taken_reads hu
  subst ht
  refine ⟨?_, hjobs, hstun, State.excQ_of_ports hu hexc hq' rfl⟩
  rw [State.countLeg, State.updLeg_legs, FMap.find?_upd_self, hlegs, hg]
  rfl

end

/-! ### The rows of R171, from the state before the step -/

section
variable {s t : State} {port : Nat} {q q' : Port} {r : RxFrame} (h : s.ingested t port q q' r)
include h

theorem State.ingested_reason {reason : Nat} (hreason : ipReason r.frame = some reason) :
    s.excepts t q q' r reason none := by
  obtain ⟨u, tn, q1, hu, hexc, rfl, hq'⟩ := h
  exact State.excepts_of_exception hu hexc hq' (u.ingressFrame_reason port r hreason)

variable {ip : IpHdr} {d : UdpHdr} (hreason : ipReason r.frame = none) (hip : r.frame.ip = some ip)
  (hd : r.frame.udp = some d)
include hreason hip hd

theorem State.ingested_bad_none (hbad : d.lenOk = false ∨ d.csumOk = false) (hleg : s.frameLeg r.frame ip d = none) :
    s.excepts t q q' r 6 none := by
  obtain ⟨u, tn, q1, hu, hexc, rfl, hq'⟩ := h
  rw [← State.taken_frameLeg hu] at hleg
  exact State.excepts_of_exception hu hexc hq' (u.ingressFrame_bad_none port r hreason hip hd (by simpa using hbad) hleg)

theorem State.ingested_bad_some (hbad : d.lenOk = false ∨ d.csumOk = false) {leg : Nat} {g : Leg}
    (hleg : s.frameLeg r.frame ip d = some leg) (hg : s.legs.find? leg = some g) : s.drops t q q' leg 8 g := by
  obtain ⟨u, tn, q1, hu, hexc, rfl, hq'⟩ := h
  rw [← State.taken_frameLeg hu] at hleg
  exact State.drops_of_countLeg hu hexc hq' hg (u.ingressFrame_bad_some port r hreason hip hd (by simpa using hbad) hleg)

variable (hgood : (!d.lenOk || !d.csumOk) = false)
include hgood

theorem State.ingested_stun (hstun : decide (r.frame.firstByte ≤ 3) = true) :
    t.rxJobs = s.rxJobs ∧ t.legs = s.legs ∧ q'.excQ = q.excQ ∧
      ∃ x, t.stunQ = s.stunQ ++ [x] ∧ x.frame = r.frame ∧ x.port = port := by
  obtain ⟨u, tn, q1, hu, hexc, rfl, hq'⟩ := h
  obtain ⟨hlegs, hjobs, hstunQ, -⟩ := State.taken_reads hu
  obtain ⟨x, hx, hframe, hport⟩ := u.ingressFrame_stun port r hreason hip hd hgood hstun
  have hexc' := State.excQ_of_ports hu hexc hq' (by rw [hx])
  rw [hx]
  exact ⟨hjobs, hlegs, hexc', x, by rw [hstunQ], hframe, hport⟩

theorem State.ingested_dtls (hlo : 20 ≤ r.frame.firstByte) (hhi : r.frame.firstByte ≤ 63) :
    s.excepts t q q' r 8 (s.frameLeg r.frame ip d) := by
  obtain ⟨u, tn, q1, hu, hexc, rfl, hq'⟩ := h
  rw [← State.taken_frameLeg hu]
  exact State.excepts_of_exception hu hexc hq' (u.ingressFrame_dtls port r hreason hip hd hgood hlo hhi)

variable (hstun : decide (r.frame.firstByte ≤ 3) = false) (hdtls : ¬ (20 ≤ r.frame.firstByte ∧ r.frame.firstByte ≤ 63))
include hstun hdtls

theorem State.ingested_none (hleg : s.frameLeg r.frame ip d = none) : s.excepts t q q' r 1 none := by
  obtain ⟨u, tn, q1, hu, hexc, rfl, hq'⟩ := h
  rw [← State.taken_frameLeg hu] at hleg
  exact State.excepts_of_exception hu hexc hq' (u.ingressFrame_none port r hreason hip hd hgood hstun hdtls hleg)

variable {leg : Nat} {g : Leg} (hleg : s.frameLeg r.frame ip d = some leg) (hg : s.legs.find? leg = some g)
include hleg hg

theorem State.ingested_other (hits : ¬ ((128 ≤ r.frame.firstByte ∧ r.frame.firstByte ≤ 191 ∧ g.kind ≤ 1) ∨
    (r.frame.firstByte = 0x5A ∧ g.kind = 2))) : s.excepts t q q' r 9 (some leg) := by
  obtain ⟨u, tn, q1, hu, hexc, rfl, hq'⟩ := h
  rw [← State.taken_frameLeg hu] at hleg
  have hg' : u.legs.find? leg = some g := by rw [(State.taken_reads hu).1, hg]
  exact State.excepts_of_exception hu hexc hq'
    ((u.ingressFrame_some port r hreason hip hd hgood hstun hdtls hleg hg').trans (if_neg hits))

variable (hits : (128 ≤ r.frame.firstByte ∧ r.frame.firstByte ≤ 191 ∧ g.kind ≤ 1) ∨ (r.frame.firstByte = 0x5A ∧ g.kind = 2))
include hits

/-- A frame that its leg takes goes on to the leg's binding. -/
theorem State.ingested_legPacket : ∃ u tn q1, State.portSet { s with turns := tn } u port q1 ∧ q1.excQ = q.excQ ∧
    t = u.legPacket port r leg ∧ t.port? port = some q' ∧ u.legs.find? leg = some g := by
  obtain ⟨u, tn, q1, hu, hexc, rfl, hq'⟩ := h
  rw [← State.taken_frameLeg hu] at hleg
  have hg' : u.legs.find? leg = some g := by rw [(State.taken_reads hu).1, hg]
  exact ⟨u, tn, q1, hu, hexc,
    (u.ingressFrame_some port r hreason hip hd hgood hstun hdtls hleg hg').trans (if_pos hits), hq', hg'⟩

theorem State.ingested_fenced (hf : g.fenced = true) : s.drops t q q' leg 6 g := by
  obtain ⟨u, tn, q1, hu, hexc, ht, hq', hg'⟩ := State.ingested_legPacket h hreason hip hd hgood hstun hdtls hleg hg hits
  exact State.drops_of_countLeg hu hexc hq' hg (ht.trans (State.legPacket_fenced port r hg' hf))

variable (hf : g.fenced = false)
include hf

theorem State.ingested_unbound (hun : g.slot = none ∨ (s.conf g.conf).activeNo = none) : s.drops t q q' leg 5 g := by
  obtain ⟨u, tn, q1, hu, hexc, ht, hq', hg'⟩ := State.ingested_legPacket h hreason hip hd hgood hstun hdtls hleg hg hits
  rw [← State.taken_conf hu] at hun
  exact State.drops_of_countLeg hu hexc hq' hg (ht.trans (State.legPacket_unbound port r hg' hf hun))

variable {k b : Nat} (hk : g.slot = some k) (hb : (s.conf g.conf).activeNo = some b)
include hk hb

theorem State.ingested_malformed
    (hp : legPayload r.frame ((s.planD g.conf b).classOf k) ((((s.planD g.conf b).rosterSlot k).map sourceRun).getD 0) =
      none) : s.drops t q q' leg 8 g := by
  obtain ⟨u, tn, q1, hu, hexc, ht, hq', hg'⟩ := State.ingested_legPacket h hreason hip hd hgood hstun hdtls hleg hg hits
  rw [← State.taken_conf hu] at hb
  rw [← State.taken_planD hu] at hp
  exact State.drops_of_countLeg hu hexc hq' hg (ht.trans (State.legPacket_malformed port r hg' hf hk hb hp))

theorem State.ingested_job {app : App}
    (hp : legPayload r.frame ((s.planD g.conf b).classOf k) ((((s.planD g.conf b).rosterSlot k).map sourceRun).getD 0) =
      some app) :
    t.legs = s.legs ∧ t.lookNo = s.lookNo + 1 ∧ q'.excQ = q.excQ ∧ t.stunQ = s.stunQ ∧
      t.rxJobs.getD [] (port / 16) = s.rxJobs.getD [] (port / 16) ++
        [.rx leg g.serial g.conf b k port r.frame app (r.stamps.headD 0) g.rxGen s.lookNo] := by
  obtain ⟨u, tn, q1, hu, hexc, ht, hq', hg'⟩ := State.ingested_legPacket h hreason hip hd hgood hstun hdtls hleg hg hits
  obtain ⟨hlegs, hjobs, hstunQ, hlook⟩ := State.taken_reads hu
  rw [← State.taken_conf hu] at hb
  rw [← State.taken_planD hu] at hp
  rw [State.legPacket_job port r hg' hf hk hb hp] at ht
  have hexc' := State.excQ_of_ports hu hexc hq' (by rw [ht])
  rw [ht]
  exact ⟨hlegs, by rw [hlook], hexc', hstunQ, by rw [FMap.getD_put_self, hjobs, hlook]⟩

end

end Sys2Proof.Machine
end

section
/-! PROOF. The statement on ingress, STUN, consent and locally originated records (R23, R135, R171 to R173, R177, R178, R464). -/

namespace Sys2Proof.Machine

/-- What a grant of consent leaves as it was. -/
theorem State.consented_keeps {s t : State} {ls : List Nat} (h : s.consented t ls) :
    t.ports = s.ports ∧ t.waitQ = s.waitQ := by
  obtain ⟨⟨_, _, _, _, _, rfl, -⟩, -⟩ := h
  exact ⟨rfl, rfl⟩

/-- Settles O33, row by row of R171 for a frame in its turn, then STUN, consent and locally originated records. -/
theorem ingressFindsTheLeg : Obligations.IngressFindsTheLeg := by
  unfold Obligations.IngressFindsTheLeg
  refine ⟨?_, ⟨?_, ?_, ?_⟩, ?_, ?_⟩
  · intro s p l port q r rest hm hturn hq hr
    obtain ⟨q', h, hframe, hl, hq', hpipe, hcfg, hst, hothers⟩ := ingressTakeFrame_ingested hm hturn hq hr
    refine ⟨_, q', exec_ingressTakeFrame p s, hframe, hl, hq', hpipe, hcfg, hst, hothers,
      fun reason hreason => State.ingested_reason h hreason, fun ip d hreason hip hd => ⟨fun hbad => ⟨?_, ?_⟩, ?_⟩⟩
    · exact State.ingested_bad_none h hreason hip hd hbad
    · exact fun leg g hleg hg => State.ingested_bad_some h hreason hip hd hbad hleg hg
    · intro hlen hcsum
      have hgood : (!d.lenOk || !d.csumOk) = false := by simp [hlen, hcsum]
      refine ⟨State.ingested_stun h hreason hip hd hgood, State.ingested_dtls h hreason hip hd hgood,
        State.ingested_none h hreason hip hd hgood, fun leg g hstun hdtls hleg hg => ⟨?_, ?_, ?_, ?_⟩⟩
      · exact State.ingested_other h hreason hip hd hgood hstun hdtls hleg hg
      · exact State.ingested_fenced h hreason hip hd hgood hstun hdtls hleg hg
      · exact State.ingested_unbound h hreason hip hd hgood hstun hdtls hleg hg
      · exact fun k b hits hf hk hb => ⟨State.ingested_malformed h hreason hip hd hgood hstun hdtls hleg hg hits hf hk hb,
          fun app => State.ingested_job h hreason hip hd hgood hstun hdtls hleg hg hits hf hk hb⟩
  · intro s r rest ip u l g q a more hstun hw hip hu hreq ls hl hg hq ha htx
    have hans := stunRequest_answers hstun hw hip hu hreq hl hg hq ha
    have hcons := State.foldl_grantConsent ls
      (State.sendClass0 { s.begin with stunQ := rest } r.port (stunReply g r.frame a.1) none)
    rw [← hans] at hcons
    have hsent := State.sendClass0_touches { s.begin with stunQ := rest } r.port (stunReply g r.frame a.1) none
    have hroom' := State.sendClass0_room (s := { s.begin with stunQ := rest }) (stunReply g r.frame a.1) none hq
    have hfull' := State.sendClass0_full (s := { s.begin with stunQ := rest }) (stunReply g r.frame a.1) none hq
    generalize State.sendClass0 { s.begin with stunQ := rest } r.port (stunReply g r.frame a.1) none = v at *
    obtain ⟨hports, hwait⟩ := State.consented_keeps hcons
    obtain ⟨_, _, _, _, hsent⟩ := hsent
    obtain ⟨hlegs, hnow, hlook⟩ : v.legs = s.legs ∧ v.now = s.now ∧ v.lookNo = s.lookNo := by
      rw [hsent]; exact ⟨rfl, rfl, rfl⟩
    obtain ⟨⟨_, _, _, _, _, hframe, -⟩, hothers, hthese⟩ := hcons
    rw [hlegs] at hothers hthese
    rw [hnow, hlook] at hthese
    refine ⟨_, exec_stunRequest s, ?_, ?_, fun hroom hidle => ?_, fun hroom hidle => ?_,
      fun k h hk hh hkind => ?_, fun k h hk hh hkind => ?_, hothers⟩
    · rw [hframe, hsent]; rfl
    · rw [hframe, hsent]
    · rw [hwait]
      simp only [State.port?, hports]
      exact hroom' hidle (by omega) hroom
    · obtain ⟨b, hb⟩ := hfull' hidle hroom
      rw [hports, hwait, hb]
      exact ⟨rfl, rfl⟩
    · obtain ⟨g', hg', -, hconsents⟩ := hthese k h hk hh
      obtain ⟨n, rfl, hkept, hlost⟩ := hconsents hkind
      exact ⟨n, hg', hkept, hlost⟩
    · obtain ⟨g', hg', htrunk, -⟩ := hthese k h hk hh
      rw [hg', htrunk hkind]
  · intro s r rest ip u q hstun hw hip hu ls hnone hq hroom
    obtain ⟨x, hx, hreason, hleg⟩ := stunRequest_unanswered hstun hw hip hu hnone hq hroom
    refine ⟨_, { q with excQ := q.excQ ++ [x] }, exec_stunRequest s, ?_⟩
    rw [hx]
    exact ⟨rfl, rfl, rfl, rfl, FMap.find?_put_self .., rfl, by rw [List.map_append, List.map_singleton, hreason],
      by rw [List.map_append, List.map_singleton, hleg]⟩
  · intro s leg since g hg hc
    refine ⟨fun hl hdue => ⟨_, exec_consentExpiry leg s, ?_⟩, fun hearly => ?_⟩
    · rw [consentExpiry_due hg hc hl hdue]
      obtain ⟨m, f, o, he⟩ := State.legState_touches (s.begin.updLeg leg fun g => { g with consentLost := true }) leg
        g.stateCode 4
      rw [he]
      exact ⟨rfl, State.updLeg_find?_self hg _, fun k hk => s.updLeg_find?_ne hk _⟩
    · rw [exec_consentExpiry, consentExpiry_early hg hc hearly]
      rfl
  · intro s p q rest hm hturn hq ha hroom
    obtain ⟨cs, pk, hinj, hpk⟩ := State.injectLocal_audio (s := { s.begin with localQ := s.localQ.put p rest }) (p := p) ha hroom
    obtain ⟨hconf, hbank, hsource, hleg, haudio, hothers⟩ := hpk
    obtain ⟨x, hx⟩ := State.endCredit_touches (State.injectLocal { s.begin with localQ := s.localQ.put p rest } p q) q.credit
    refine ⟨_, pk, exec_localInject p s, ?_⟩
    rw [localInject_turn hm hturn hq, hx, hinj]
    exact ⟨rfl, FMap.getD_put_self .., rfl, fun i hi => FMap.getD_put_ne _ _ _ _ _ hi, FMap.getD_put_self .., hconf, hbank,
      hsource, hleg, haudio, hothers⟩
  · intro s task q hroom hq
    obtain ⟨d, hd⟩ := localStarved_due hq
    refine ⟨_, exec_localStarved task s, ?_⟩
    obtain ⟨x, hx⟩ := State.endCredit_touches { s.begin with
      localQ := s.localQ.map fun x => (x.1, x.2.filter fun y => !(y.task == task && y.at_ == q.at_)) } q.credit
    rw [hd, hx, State.fault_queue]
    case h => exact hroom
    exact ⟨rfl, fun p => FMap.getD_map_filter s.localQ _ p, _, rfl, rfl, rfl, rfl⟩

end Sys2Proof.Machine
end

section
/-! PROOF. The spine of the state: the queue, the clock, the fuses, the grants, the boot and the modes. Every function of
the model that leaves it has a lemma here, in the order of the model's parts; the rows that change it come after. -/

namespace Sys2Proof.Machine

/-- The spine of the state: what few commands change. -/
structure Spine where
  pending : List Instr
  now : Nat
  fuses : Fuses
  grants : FMap Grant
  boot : Boot
  modes : Modes

/-- The spine of a state. -/
def State.spine (s : State) : Spine :=
  ⟨s.pending, s.now, s.fuses, s.grants, s.boot, s.modes⟩

@[simp] theorem State.spine_mk pending out now fresh modes pins boot fuses mbx funcs welmus grants audit faults avail survey vdd thermal
    smbus freq sram jtag loads loadSeq confs ports shorted turns excLast time legs legSerial gone lookups slots
    keyCache storageKey kik cores hmacs takeNo rxJobs txJobs replQ egressQ localQ stunQ buckets store chargeNo
    lookNo pchs towers hbm panic waitQ sched sess buses outs dsps mediaSerial encProbe probe :
    (State.mk pending out now fresh modes pins boot fuses mbx funcs welmus grants audit faults avail survey vdd thermal
    smbus freq sram jtag loads loadSeq confs ports shorted turns excLast time legs legSerial gone lookups slots
    keyCache storageKey kik cores hmacs takeNo rxJobs txJobs replQ egressQ localQ stunQ buckets store chargeNo
    lookNo pchs towers hbm panic waitQ sched sess buses outs dsps mediaSerial encProbe probe).spine =
      ⟨pending, now, fuses, grants, boot, modes⟩ := by rfl

@[simp] theorem State.spine_eta (s : State) : (⟨s.pending, s.now, s.fuses, s.grants, s.boot, s.modes⟩ : Spine) = s.spine := by rfl

@[simp] theorem State.spine_ite (c : Prop) [Decidable c] (s t : State) :
    (if c then s else t).spine = if c then s.spine else t.spine := apply_ite State.spine c s t

@[simp] theorem State.spine_foldl {α : Type} {f : State → α → State} (hf : ∀ s a, (f s a).spine = s.spine) (l : List α)
    (s : State) :
    (l.foldl f s).spine = s.spine := by
  induction l generalizing s with
  | nil => rfl
  | cons a l ih => exact (ih _).trans (hf s a)

/-- A fold that carries something beside the state. -/
theorem State.spine_foldl_fst {α β : Type} {f : State × β → α → State × β} (hf : ∀ x a, (f x a).1.spine = x.1.spine)
    (l : List α) (x : State × β) : (l.foldl f x).1.spine = x.1.spine := by
  induction l generalizing x with
  | nil => rfl
  | cons a l ih => exact (ih _).trans (hf x a)

theorem State.onlySched_spine {s t : State} (h : s.onlySched t) : t.spine = s.spine := by
  obtain ⟨x, b, rfl⟩ := h
  rfl

/-! #### The shared operations -/

@[simp] theorem State.begin_spine (s : State) : s.begin.spine = s.spine := by rfl

@[simp] theorem State.emit_spine (s : State) (o : Out) : (s.emit o).spine = s.spine := by rfl

@[simp] theorem State.setMb_spine (s : State) (fn : Nat) (m : Mailbox) : (s.setMb fn m).spine = s.spine := by rfl

@[simp] theorem State.updMb_spine (s : State) (fn : Nat) (f : Mailbox → Mailbox) : (s.updMb fn f).spine = s.spine := by rfl

@[simp] theorem State.setFunc_spine (s : State) (fn : Nat) (g : Func) : (s.setFunc fn g).spine = s.spine := by rfl

@[simp] theorem State.updPort_spine (s : State) (p : Nat) (f : Port → Port) : (s.updPort p f).spine = s.spine := by rfl

@[simp] theorem State.countPort_spine (s : State) (p i k : Nat) : (s.countPort p i k).spine = s.spine := by rfl

@[simp] theorem State.updLeg_spine (s : State) (l : Nat) (f : Leg → Leg) : (s.updLeg l f).spine = s.spine := by rfl

@[simp] theorem State.countLeg_spine (s : State) (l i k : Nat) : (s.countLeg l i k).spine = s.spine := by rfl

@[simp] theorem State.updConf_spine (s : State) (c : Nat) (f : Conf → Conf) : (s.updConf c f).spine = s.spine := by rfl

@[simp] theorem State.countConf_spine (s : State) (c i k : Nat) : (s.countConf c i k).spine = s.spine := by rfl

@[simp] theorem State.countFn_spine (s : State) (fn i k : Nat) : (s.countFn fn i k).spine = s.spine := by rfl

@[simp] theorem State.updCore_spine (s : State) (c : Nat) (f : Core → Core) : (s.updCore c f).spine = s.spine := by rfl

@[simp] theorem State.updSlot_spine (s : State) (k : Nat) (f : Slot → Slot) : (s.updSlot k f).spine = s.spine := by rfl

@[simp] theorem State.draw_spine (s : State) : s.draw.2.spine = s.spine := by rfl

@[simp] theorem State.signal_spine (s : State) (fn vec : Nat) : (s.signal fn vec).spine = s.spine := by simp [State.signal]

@[simp] theorem State.pushMessage_spine (s : State) (fn : Nat) (ws : List Word) : (s.pushMessage fn ws).spine = s.spine := by
  simp [State.pushMessage]

@[simp] theorem State.raiseEvent_spine (s : State) (fn code : Nat) (payload : List Word) :
    (s.raiseEvent fn code payload).spine = s.spine := by
  simp [State.raiseEvent]

@[simp] theorem State.legStateTo_spine (s : State) (fn leg st cause : Nat) :
    (s.legStateTo fn leg st cause).spine = s.spine := by
  simp [State.legStateTo]

@[simp] theorem State.legState_spine (s : State) (leg st cause : Nat) : (s.legState leg st cause).spine = s.spine := by
  simp [State.legState]

@[simp] theorem State.auditEntry_spine (s : State) (fn origin op result phase : Nat) (tag : Word) (kind id : Nat)
    (detail : Word) : (s.auditEntry fn origin op result phase tag kind id detail).spine = s.spine := by
  rfl

@[simp] theorem State.auditAuto_spine (s : State) (op kind id : Nat) (tag : Word) :
    (s.auditAuto op kind id tag).spine = s.spine := by
  rfl

@[simp] theorem State.auditMode_spine (s : State) (target : Mode) (trigger : Nat) (ret : Bool) :
    (s.auditMode target trigger ret).spine = s.spine := by
  rfl

@[simp] theorem State.fault_spine (s : State) (cls kind id : Nat) (d0 d1 : Word) :
    (s.fault cls kind id d0 d1).spine = s.spine := by
  unfold State.fault
  split <;> rfl

@[simp] theorem State.fenceLeg_spine (s : State) (leg cls : Nat) (d0 d1 : Word) :
    (s.fenceLeg leg cls d0 d1).spine = s.spine := by
  unfold State.fenceLeg
  split <;> simp

@[simp] theorem State.fenceConf_spine (s : State) (c row off : Nat) : (s.fenceConf c row off).spine = s.spine := by
  simp [State.fenceConf]

@[simp] theorem State.fenceLegPair_spine (s : State) (leg row : Nat) : (s.fenceLegPair leg row).spine = s.spine := by
  simp [State.fenceLegPair]

@[simp] theorem State.fenceRefs_spine (s : State) (c : Nat) (rs : List RosterSlot) : (s.fenceRefs c rs).spine = s.spine := by
  simp [State.fenceRefs]

@[simp] theorem State.checkRefs_spine (s : State) (c : Nat) (p : Plan) : (s.checkRefs c p).spine = s.spine := by
  simp [State.checkRefs]

@[simp] theorem State.releaseSlot_spine (s : State) (k : Nat) : (s.releaseSlot k).spine = s.spine := by rfl

@[simp] theorem State.dropScores_spine (s : State) (c k : Nat) : (s.dropScores c k).spine = s.spine := by
  unfold State.dropScores
  split <;> rfl

@[simp] theorem State.countTo_spine (s : State) (n serial i k : Nat) : (s.countTo n serial i k).spine = s.spine := by
  unfold State.countTo
  split <;> rfl

@[simp] theorem State.asClosed_spine (s : State) (n serial : Nat) {f : State → State} (hf : ∀ s, (f s).spine = s.spine) :
    (s.asClosed n serial f).spine = s.spine := by
  unfold State.asClosed
  split
  · rfl
  · exact hf _

@[simp] theorem State.asOpened_spine (s : State) (n serial : Nat) {f : State → State} (hf : ∀ s, (f s).spine = s.spine) :
    (s.asOpened n serial f).spine = s.spine := by
  simp [State.asOpened, hf]

@[simp] theorem State.removeLeg_spine (s : State) (leg : Nat) : (s.removeLeg leg).spine = s.spine := by
  unfold State.removeLeg
  split
  · simp
  · split <;> simp


/-! #### Lantern -/

@[simp] theorem State.updSched_spine (s : State) (f : Sched → Sched) : (s.updSched f).spine = s.spine := by rfl

@[simp] theorem State.countSched_spine (s : State) (i k : Nat) : (s.countSched i k).spine = s.spine := by rfl

@[simp] theorem State.lanternPut_spine (s : State) (ws : List Word) : (s.lanternPut ws).spine = s.spine := by
  simp [State.lanternPut]

@[simp] theorem State.trace_spine (s : State) (kind prio engKind engInst status task conf arg : Nat) :
    (s.trace kind prio engKind engInst status task conf arg).spine = s.spine := by
  simp [State.trace]

@[simp] theorem State.traceSync_spine (s : State) : s.traceSync.spine = s.spine := by simp [State.traceSync]

@[simp] theorem lanternSync_spine (s : State) : (lanternSync s).spine = s.spine := by simp [lanternSync]

@[simp] theorem lanternCtrlWrite_spine (fn : Nat) (value : Word) (s : State) :
    (lanternCtrlWrite fn value s).spine = s.spine := by
  simp [lanternCtrlWrite]

@[simp] theorem schedTickWrite_spine (fn : Nat) (value : Word) (s : State) :
    (schedTickWrite fn value s).spine = s.spine := by
  simp [schedTickWrite]


/-! #### Memory shared by the machine parts -/

@[simp] theorem State.updPch_spine (s : State) (n : Nat) (f : Pch → Pch) : (s.updPch n f).spine = s.spine := by rfl

@[simp] theorem State.countPch_spine (s : State) (n i k : Nat) : (s.countPch n i k).spine = s.spine := by rfl

@[simp] theorem State.updStack_spine (s : State) (k : Nat) (f : Stack → Stack) : (s.updStack k f).spine = s.spine := by rfl


/-! #### The frame of a mailbox command -/

@[simp] theorem State.complete_spine (s : State) (id result : Nat) (seq : Word) (payload : List (Word × Bool)) :
    (s.complete id result seq payload).spine = s.spine := by
  unfold State.complete
  split <;> simp

@[simp] theorem State.reject_spine (s : State) (id result : Nat) : (s.reject id result).spine = s.spine := by
  simp [State.reject]

@[simp] theorem State.commitEntry_spine (s : State) (c : Taken) (result kind id : Nat) (detail : Word) :
    (s.commitEntry c result kind id detail).spine = s.spine := by
  rfl

@[simp] theorem State.doneEntry_spine (s : State) (c : Taken) (result kind id : Nat) (detail : Word) :
    (s.doneEntry c result kind id detail).spine = s.spine := by
  rfl

@[simp] theorem State.commitOk_spine (s : State) (id : Nat) (c : Taken) (kind obj : Nat) (payload : List Word) :
    (s.commitOk id c kind obj payload).spine = s.spine := by
  simp [State.commitOk]

@[simp] theorem State.markCommitted_spine (s : State) (id : Nat) : (s.markCommitted id).spine = s.spine := by rfl

@[simp] theorem State.finish_spine (s : State) (id : Nat) (c : Taken) (result kind obj : Nat) (payload : List Word) :
    (s.finish id c result kind obj payload).spine = s.spine := by
  simp [State.finish]

@[simp] theorem State.command_spine (s : State) (id op : Nat) {body : Taken → State → State}
    (hb : ∀ c s, (body c s).spine = s.spine) : (s.command id op body).spine = s.spine := by
  unfold State.command
  simp only
  split <;> simp [hb]

@[simp] theorem State.checked_spine (s : State) (id : Nat) (checks : List (Bool × Nat)) {ok : State → State}
    (hok : (ok s).spine = s.spine) : (s.checked id checks ok).spine = s.spine := by
  unfold State.checked
  split <;> simp [hok]


/-! #### Shaping -/

@[simp] theorem State.setBucket_spine (s : State) (level idx : Nat) (b : Bucket) :
    (s.setBucket level idx b).spine = s.spine := by
  rfl

@[simp] theorem State.shape_spine (s : State) (level idx : Nat) (rate rateC : Word) (ceil : Nat) :
    (s.shape level idx rate rateC ceil).spine = s.spine := by
  rfl

@[simp] theorem State.reSpeed_spine (s : State) (p : Nat) (f : Port → Port) : (s.reSpeed p f).spine = s.spine := by
  simp [State.reSpeed]

@[simp] theorem State.bindBucket_spine (s : State) (leg : Nat) (first ov : Bool) (r : ShaperRec) :
    (s.bindBucket leg first ov r).spine = s.spine := by
  simp [State.bindBucket]


/-! #### Ports -/

@[simp] theorem State.pushTx_spine (s : State) (port cls : Nat) (f : TxFrame) : (s.pushTx port cls f).spine = s.spine := by
  rfl

@[simp] theorem State.endWait_spine (s : State) (w : WaitFrame) : (s.endWait w).spine = s.spine := by
  unfold State.endWait
  split <;> rfl

@[simp] theorem State.admitOne_spine (s : State) (port : Nat) : (s.admitOne port).spine = s.spine := by
  unfold State.admitOne
  split <;> simp

@[simp] theorem State.admitWaiting_spine (s : State) (port : Nat) : (s.admitWaiting port).spine = s.spine := by
  simp [State.admitWaiting]

@[simp] theorem State.portTo_spine (s : State) (p st : Nat) : (s.portTo p st).spine = s.spine := by
  unfold State.portTo
  split <;> simp

@[simp] theorem State.portDark_spine (s : State) (p : Nat) : (s.portDark p).spine = s.spine := by simp [State.portDark]


/-! #### Packets built by the device -/

@[simp] theorem State.exception_spine (s : State) (port : Nat) (f : Frame) (reason : Nat) (leg : Option Nat) (stamp : Nat) :
    (s.exception port f reason leg stamp).spine = s.spine := by
  unfold State.exception
  split <;> simp

@[simp] theorem State.chargeOne_spine (s : State) (level idx w : Nat) : (s.chargeOne level idx w).spine = s.spine := by
  simp [State.chargeOne]

@[simp] theorem State.sendClass0_spine (s : State) (port : Nat) (f : TxFrame) (ring : Option (Nat × Nat)) :
    (s.sendClass0 port f ring).spine = s.spine := by
  unfold State.sendClass0
  simp only
  split <;> simp

@[simp] theorem State.pushCopy_spine (s : State) (c : Copy) : (s.pushCopy c).spine = s.spine := by rfl

@[simp] theorem State.rtcpTo_spine (s : State) (leg b look : Nat) (body : App) (src : Option Nat) :
    (s.rtcpTo leg b look body src).spine = s.spine := by
  unfold State.rtcpTo
  split <;> simp

@[simp] theorem State.sendRtcp_spine (s : State) (leg : Nat) (body : App) (src : Option Nat) :
    (s.sendRtcp leg body src).spine = s.spine := by
  simp [State.sendRtcp]

@[simp] theorem State.keyRequest_spine (s : State) (leg : Nat) (fir : Bool) (media : Nat) (trunk : Option Nat) :
    (s.keyRequest leg fir media trunk).spine = s.spine := by
  unfold State.keyRequest
  split
  · simp
  · split <;> simp

@[simp] theorem keyReqIntervalEnd_spine (leg : Nat) (s : State) : (keyReqIntervalEnd leg s).spine = s.spine := by
  unfold keyReqIntervalEnd
  simp only
  split
  · simp
  · split <;> simp


/-! #### Media tables -/

@[simp] theorem State.updSess_spine (s : State) (i : Nat) (f : Sess → Sess) : (s.updSess i f).spine = s.spine := by rfl

@[simp] theorem State.updEnc_spine (s : State) (i : Nat) (f : EncState → EncState) : (s.updEnc i f).spine = s.spine := by rfl

@[simp] theorem State.updBus_spine (s : State) (i : Nat) (f : BusState → BusState) : (s.updBus i f).spine = s.spine := by rfl

@[simp] theorem State.endXfade_spine (s : State) (i : Nat) (next : Bool) : (s.endXfade i next).spine = s.spine := by
  unfold State.endXfade
  split <;> simp

@[simp] theorem State.endXfades_spine (s : State) : s.endXfades.spine = s.spine := by simp [State.endXfades]

@[simp] theorem State.updOut_spine (s : State) (i : Nat) (f : OutState → OutState) : (s.updOut i f).spine = s.spine := by rfl

@[simp] theorem State.updFb_spine (s : State) (o : FbOwner) (k : Nat) (f : Fb → Fb) : (s.updFb o k f).spine = s.spine := by
  unfold State.updFb
  split <;> rfl

@[simp] theorem State.readFb_spine (s : State) (b : FbOwner × Nat) : (s.readFb b).spine = s.spine := by simp [State.readFb]

@[simp] theorem State.unreadFb_spine (s : State) (b : FbOwner × Nat) : (s.unreadFb b).spine = s.spine := by
  simp [State.unreadFb]

@[simp] theorem State.endWrite_spine (s : State) (status : Nat) (b : FbOwner × Nat) :
    (s.endWrite status b).spine = s.spine := by
  simp [State.endWrite]

@[simp] theorem State.refreshSession_spine (s : State) (i : Nat) : (s.refreshSession i).spine = s.spine := by rfl

@[simp] theorem State.refreshSource_spine (s : State) (c b source stream : Nat) :
    (s.refreshSource c b source stream).spine = s.spine := by
  unfold State.refreshSource
  split
  · simp
  · split <;> simp

@[simp] theorem State.decoderRequest_spine (s : State) (c b session : Nat) (fresh : Bool) :
    (s.decoderRequest c b session fresh).spine = s.spine := by
  unfold State.decoderRequest
  simp only
  repeat' split
  all_goals simp


/-! #### Latches and state copies -/

@[simp] theorem State.updRun_spine (s : State) (r : Nat) (f : GraphRun → GraphRun) : (s.updRun r f).spine = s.spine := by rfl

@[simp] theorem State.updLive_spine (s : State) (t : Nat) (f : Live → Live) : (s.updLive t f).spine = s.spine := by rfl

@[simp] theorem State.latch_spine (s : State) (r : Nat) (o : OutputRec) : (s.latch r o).spine = s.spine := by
  unfold State.latch
  split <;> simp

@[simp] theorem State.latchBand_spine (s : State) (r : Nat) (o : OutputRec) (band : Nat) :
    (s.latchBand r o band).spine = s.spine := by
  unfold State.latchBand
  split
  · simp
  · split <;> simp


/-! #### Encoder state -/

@[simp] theorem State.encDispatch_spine (s : State) (run : Nat) (t : TaskRec) (fb : Nat) :
    (s.encDispatch run t fb).spine = s.spine := by
  unfold State.encDispatch
  simp only
  repeat' split
  all_goals simp

@[simp] theorem State.encBandEnd_spine (s : State) (run : Nat) (t : TaskRec) (status : Nat) :
    (s.encBandEnd run t status).spine = s.spine := by
  unfold State.encBandEnd
  simp only
  repeat' split
  all_goals simp


/-! #### DSP cores -/

@[simp] theorem State.updDsp_spine (s : State) (c : Nat) (f : DspCore → DspCore) : (s.updDsp c f).spine = s.spine := by rfl

@[simp] theorem State.updDspSlot_spine (s : State) (c k : Nat) (f : DspSlot → DspSlot) :
    (s.updDspSlot c k f).spine = s.spine := by
  rfl

@[simp] theorem State.dspStart_spine (s : State) (c k t : Nat) : (s.dspStart c k t).spine = s.spine := by
  unfold State.dspStart
  split
  · rfl
  · simp only
    split <;> simp

@[simp] theorem State.dspWriteBack_spine (s : State) (l : Live) (x : DspSlot) : (s.dspWriteBack l x).spine = s.spine := by
  unfold State.dspWriteBack
  simp only
  split <;> simp

@[simp] theorem State.kernelFault_spine (s : State) (c : Nat) : (s.kernelFault c).spine = s.spine := by
  unfold State.kernelFault
  split
  · rfl
  · simp only
    split <;> simp


/-! #### The scheduler tables -/

@[simp] theorem State.traceTask_spine (s : State) (kind t arg : Nat) : (s.traceTask kind t arg).spine = s.spine := by
  unfold State.traceTask
  split <;> simp

@[simp] theorem State.waitFlow_spine (s : State) (t key : Nat) (l : Live) : (s.waitFlow t key l).spine = s.spine := by
  simp [State.waitFlow]

@[simp] theorem State.pushReady_spine (s : State) (t : Nat) (l : Live) : (s.pushReady t l).spine = s.spine := by rfl

@[simp] theorem State.makeReady_spine (s : State) (t : Nat) : (s.makeReady t).spine = s.spine := by
  unfold State.makeReady
  split
  · rfl
  · simp only
    split <;> simp

@[simp] theorem State.passFlow_spine (s : State) (k : Nat) : (s.passFlow k).spine = s.spine := by
  unfold State.passFlow
  simp only
  repeat' split
  all_goals simp

@[simp] theorem State.freeFlow_spine (s : State) (t : Nat) (l : Live) : (s.freeFlow t l).spine = s.spine := by
  unfold State.freeFlow
  split <;> simp

@[simp] theorem State.putDue_spine (s : State) (i due : Nat) (e : Due) : (s.putDue i due e).spine = s.spine := by rfl

@[simp] theorem State.dropDue_spine (s : State) (bad : Due → Bool) : (s.dropDue bad).spine = s.spine := by rfl

@[simp] theorem State.grant_spine (s : State) (kind inst lkind object t pool : Nat) :
    (s.grant kind inst lkind object t pool).2.spine = s.spine := by
  rfl

@[simp] theorem State.endLeases_spine (s : State) (t : Nat) (which : Lease → Bool) :
    (s.endLeases t which).spine = s.spine := by
  rfl

@[simp] theorem State.handPackets_spine (s : State) (t : Nat) (l : Live) (status : Nat) :
    (s.handPackets t l status).spine = s.spine := by
  unfold State.handPackets
  simp only
  split
  · simp
  · split
    · simp
    · refine (State.spine_foldl (fun s q => ?_) _ _).trans ?_
      · rfl
      · simp

@[simp] theorem State.walkDead_spine (s : State) (l : Live) : (s.walkDead l).spine = s.spine := by simp [State.walkDead]

@[simp] theorem State.noteComplete_spine (s : State) (t status cycles : Nat) :
    (s.noteComplete t status cycles).spine = s.spine := by
  simp [State.noteComplete]

@[simp] theorem State.failUndispatched_spine (deadline : Bool) (s : State) (t : Nat) :
    (s.failUndispatched deadline t).spine = s.spine := by
  unfold State.failUndispatched
  split
  · rfl
  · simp
    split <;> simp

@[simp] theorem State.dropAu_spine (s : State) (c b session : Nat) (a : Au) : (s.dropAu c b session a).spine = s.spine := by
  unfold State.dropAu
  split <;> rfl

@[simp] theorem State.freeAu_spine (s : State) (g : GraphRun) : (s.freeAu g).spine = s.spine := by
  unfold State.freeAu
  split <;> simp

@[simp] theorem State.finishRun_spine (s : State) (r : Nat) : (s.finishRun r).spine = s.spine := by
  unfold State.finishRun
  split <;> simp

@[simp] theorem State.endRun_spine (s : State) (r : Nat) (deadline : Bool) : (s.endRun r deadline).spine = s.spine := by
  unfold State.endRun
  split <;> simp

@[simp] theorem State.succEntry_spine (pred : Nat) (l : Live) (status : Nat) (s : State) (p : (Word × Word) × Nat) :
    (s.succEntry pred l status p).spine = s.spine := by
  unfold State.succEntry
  simp only
  repeat' split
  all_goals simp

@[simp] theorem State.drained_spine (s : State) (kind i : Nat) : (s.drained kind i).spine = s.spine := by
  unfold State.drained
  split <;> simp

@[simp] theorem State.takeRing_spine (s : State) (l : Live) (st : Nat) : (s.takeRing l st).spine = s.spine := by
  unfold State.takeRing
  simp
  split <;> simp

@[simp] theorem State.endHold_spine (s : State) (t : Nat) (l : Live) (st : Nat) : (s.endHold t l st).spine = s.spine := by
  simp [State.endHold]

@[simp] theorem State.completeTask_spine (s : State) (t st cycles : Nat) : (s.completeTask t st cycles).spine = s.spine := by
  unfold State.completeTask
  split <;> simp

@[simp] theorem State.countFrames_spine (s : State) (c b : Nat) (d : GraphRec) (made : Bool) :
    (s.countFrames c b d made).1.spine = s.spine := State.onlySched_spine (s.countFrames_only c b d made)

@[simp] theorem State.release_spine (s : State) (c b : Nat) (d : GraphRec) (k instant : Nat) (au : Option Au) :
    (s.release c b d k instant au).spine = s.spine := State.onlySched_spine (s.release_only c b d k instant au)

@[simp] theorem State.releaseAu_spine (s : State) (c b session : Nat) (a : Au) :
    (s.releaseAu c b session a).spine = s.spine := by
  unfold State.releaseAu
  split <;> simp

@[simp] theorem State.noteRevoke_spine (s : State) (t lkind : Nat) : (s.noteRevoke t lkind).spine = s.spine := by
  simp [State.noteRevoke]

@[simp] theorem State.revokeKinds_spine (s : State) (t : Nat) (which : Nat → Bool) :
    (s.revokeKinds t which).spine = s.spine := by
  simp [State.revokeKinds]

@[simp] theorem State.revokeWrites_spine (s : State) (t : Nat) : (s.revokeWrites t).spine = s.spine := by
  unfold State.revokeWrites
  split <;> simp

@[simp] theorem State.revokeCompletion_spine (s : State) (t : Nat) : (s.revokeCompletion t).spine = s.spine := by
  unfold State.revokeCompletion
  split <;> simp

@[simp] theorem State.revokeFlow_spine (s : State) (t : Nat) : (s.revokeFlow t).spine = s.spine := by
  unfold State.revokeFlow
  split <;> simp

@[simp] theorem State.revokeRest_spine (s : State) (t : Nat) : (s.revokeRest t).spine = s.spine := by
  unfold State.revokeRest
  split <;> simp

@[simp] theorem State.revokeTasks_spine (s : State) (ts : List Nat) : (s.revokeTasks ts).spine = s.spine := by
  simp [State.revokeTasks]

@[simp] theorem State.revokeTask_spine (s : State) (t : Nat) : (s.revokeTask t).spine = s.spine := by simp [State.revokeTask]

@[simp] theorem State.selftestFailed_spine (s : State) (id cmd detail : Nat) :
    (s.selftestFailed id cmd detail).spine = s.spine := by
  unfold State.selftestFailed
  simp only
  split <;> simp


/-! #### Audio -/

@[simp] theorem State.drawMany_spine (s : State) (n : Nat) : (s.drawMany n).2.spine = s.spine := by
  induction n generalizing s with
  | zero => rfl
  | succ n ih => exact ih _

@[simp] theorem State.startBus_spine (s : State) (i : Nat) (bus : BusRec) : (s.startBus i bus).spine = s.spine := by
  simp [State.startBus]

@[simp] theorem State.applySteps_spine (s : State) (c bus : Nat) (steps : List (Option (Nat × Bool))) :
    (s.applySteps c bus steps).spine = s.spine := by
  unfold State.applySteps
  refine State.spine_foldl (fun s p => ?_) _ s
  split <;> simp

@[simp] theorem State.mixFrame_spine (s : State) (t : Nat) (l : Live) (g : GraphRun) (p : Plan) (bus : BusRec) (i : Nat) :
    (s.mixFrame t l g p bus i).spine = s.spine := by
  simp [State.mixFrame]

@[simp] theorem mixBusFrame_spine (task : Nat) (s : State) : (mixBusFrame task s).spine = s.spine := by
  unfold mixBusFrame
  simp only
  repeat' split
  all_goals simp

@[simp] theorem gainStepTimeout_spine (c bus col : Nat) (s : State) : (gainStepTimeout c bus col s).spine = s.spine := by
  unfold gainStepTimeout
  simp only
  split
  · simp
  · split <;> simp

@[simp] theorem routeSetAudioBody_spine (id : Nat) (c : Taken) (s : State) : (routeSetAudioBody id c s).spine = s.spine := by
  unfold routeSetAudioBody
  simp
  split <;> simp

@[simp] theorem gainSetBody_spine (id : Nat) (c : Taken) (s : State) : (gainSetBody id c s).spine = s.spine := by
  simp [gainSetBody]


/-! #### Device commands -/

@[simp] theorem deviceIdentifyBody_spine (id : Nat) (c : Taken) (s : State) :
    (deviceIdentifyBody id c s).spine = s.spine := by
  simp [deviceIdentifyBody]

@[simp] theorem eraseGranted_spine (tag : Word) (s : State) (k : Nat) : (eraseGranted tag s k).spine = s.spine := by rfl

@[simp] theorem logReadBody_spine (op : Nat) (log : State → Log) (id : Nat) (c : Taken) (s : State) :
    (logReadBody op log id c s).spine = s.spine := by
  simp [logReadBody]

@[simp] theorem unknownOpcode_spine (id : Nat) (s : State) : (unknownOpcode id s).spine = s.spine := by
  unfold unknownOpcode
  simp only
  split <;> simp

@[simp] theorem malformedMessage_spine (id : Nat) (s : State) : (malformedMessage id s).spine = s.spine := by
  unfold malformedMessage
  simp only
  split <;> simp


/-! #### Modes -/

@[simp] theorem State.revokeDma_spine (s : State) (fn : Nat) : (s.revokeDma fn).spine = s.spine := by simp [State.revokeDma]

@[simp] theorem perstRelease_spine (pcieRef : Bool) (s : State) : (perstRelease pcieRef s).spine = s.spine := by
  simp [perstRelease]

@[simp] theorem jtagInstruction_spine (code : Nat) (s : State) : (jtagInstruction code s).spine = s.spine := by
  simp [jtagInstruction]

@[simp] theorem State.portsDown_spine (s : State) : s.portsDown.spine = s.spine := by simp [State.portsDown]

@[simp] theorem State.finishModeSet_spine (s : State) (cmd : Option Nat) : (s.finishModeSet cmd).spine = s.spine := by
  unfold State.finishModeSet
  split
  · simp
  · split <;> simp

@[simp] theorem State.calibrationLost_spine (s : State) (kind : Nat) (idxs : List Nat) :
    (s.calibrationLost kind idxs).spine = s.spine := by
  rfl

@[simp] theorem State.calRefLost_spine (s : State) (q : Nat) : (s.calRefLost q).spine = s.spine := by simp [State.calRefLost]

@[simp] theorem flushCommand_spine (s : State) (p : Nat × Taken) : (flushCommand s p).spine = s.spine := by
  simp [flushCommand]

@[simp] theorem failCommand_spine (s : State) (p : Nat × Taken) : (failCommand s p).spine = s.spine := by simp [failCommand]

@[simp] theorem State.fatalRecord_spine (s : State) (cause : Nat) (detail : Word) :
    (s.fatalRecord cause detail).spine = s.spine := by
  simp [State.fatalRecord]

@[simp] theorem State.stopData_spine (s : State) : s.stopData.spine = s.spine := by rfl

@[simp] theorem State.dropLoads_spine (s : State) : s.dropLoads.spine = s.spine := by rfl


/-! #### Boot -/

@[simp] theorem State.avsCommand_spine (s : State) (mv tries : Nat) (ack : Bool) :
    (s.avsCommand mv tries ack).spine = s.spine := by
  rfl

@[simp] theorem State.initQueues_spine (s : State) : s.initQueues.spine = s.spine := by rfl

@[simp] theorem State.drawKey_spine (s : State) (n : Nat) : (s.drawKey n).2.spine = s.spine := by
  induction n generalizing s with
  | zero => rfl
  | succ n ih => exact ih _


/-! #### Cipher cores -/

@[simp] theorem State.countCore_spine (s : State) (c i k : Nat) : (s.countCore c i k).spine = s.spine := by rfl

@[simp] theorem State.keyDrop_spine (s : State) (core leg serial legCtr : Nat) (k : KeyCheck) :
    (s.keyDrop core leg serial legCtr k).spine = s.spine := by
  unfold State.keyDrop
  split <;> simp

@[simp] theorem State.startJob_spine (s : State) (core slot : Nat) (j : Job) (a : App) (index : Nat) :
    (s.startJob core slot j a index).spine = s.spine := by
  rfl

@[simp] theorem State.readKey_spine (s : State) (core slot : Nat) (pairGood : Bool) (victim : Nat) :
    (s.readKey core slot pairGood victim).spine = s.spine := by
  unfold State.readKey
  split <;> rfl

@[simp] theorem State.keyEvent_spine (s : State) (code slot idx : Nat) (rtcp : Bool) :
    (s.keyEvent code slot idx rtcp).spine = s.spine := by
  simp [State.keyEvent]

@[simp] theorem State.advanceIndex_spine (s : State) (slot : Nat) (rtcp : Bool) :
    (s.advanceIndex slot rtcp).spine = s.spine := by
  simp [State.advanceIndex]

@[simp] theorem State.takeTx_spine (s : State) (core : Nat) (c : Copy) (victim : Nat) :
    (s.takeTx core c victim).spine = s.spine := by
  unfold State.takeTx
  simp only
  split <;> simp

@[simp] theorem State.takeFor_spine (core leg conf bank k : Nat) (app : App) (gen : Nat) (j : Job) (victim : Nat)
    (s : State) : (s.takeFor core leg conf bank k app gen j victim).spine = s.spine := by
  unfold State.takeFor
  split
  · rfl
  · simp
    split <;> simp

@[simp] theorem State.takeRx_spine (s : State) (core : Nat) (j : Job) (victim : Nat) :
    (s.takeRx core j victim).spine = s.spine := by
  unfold State.takeRx
  split <;> simp

@[simp] theorem cipherTake_spine (core victim : Nat) (s : State) : (cipherTake core victim s).spine = s.spine := by
  unfold cipherTake
  simp only
  repeat' split
  all_goals simp


/-! #### Composition -/

@[simp] theorem composeRowDone_spine (task : Nat) (s : State) : (composeRowDone task s).spine = s.spine := by
  unfold composeRowDone
  simp only
  repeat' split
  all_goals simp

@[simp] theorem routeSetLayoutBody_spine (id : Nat) (c : Taken) (s : State) :
    (routeSetLayoutBody id c s).spine = s.spine := by
  simp [routeSetLayoutBody]


/-! #### Replication -/

@[simp] theorem State.trackRequest_spine (s : State) (pk : ReplPacket) (stream : Nat) (fir : Bool) :
    (s.trackRequest pk stream fir).spine = s.spine := by
  unfold State.trackRequest
  split <;> simp

@[simp] theorem State.track_spine (s : State) (r : Nat) (pk : ReplPacket) (want : Nat × Nat) (fir : Bool) :
    (s.track r pk want fir).2.spine = s.spine := by
  unfold State.track
  simp only
  split <;> simp

@[simp] theorem State.emitCopy_spine (s : State) (pk : ReplPacket) (c : Copy) : (s.emitCopy pk c).spine = s.spine := by
  unfold State.emitCopy
  split <;> rfl

@[simp] theorem State.trunkCopy_spine (s : State) (pk : ReplPacket) (r k : Nat) (g : Leg) (want : Option (Nat × Nat)) :
    (s.trunkCopy pk r k g want).spine = s.spine := by
  unfold State.trunkCopy
  simp only
  repeat' split
  all_goals simp

@[simp] theorem State.videoCopy_spine (s : State) (pk : ReplPacket) (r k : Nat) (want : Nat × Nat) (fir : Bool) :
    (s.videoCopy pk r k want fir).spine = s.spine := by
  unfold State.videoCopy
  split <;> simp

@[simp] theorem State.laneTest_spine (plan : Plan) (pk : ReplPacket) (fir : Bool) (k r : Nat) (e : RosterSlot) (s : State) :
    (s.laneTest plan pk fir k r e).spine = s.spine := by
  unfold State.laneTest
  simp
  split <;> simp

@[simp] theorem State.walkEntry_spine (plan : Plan) (pk : ReplPacket) (fir : Bool) (s : State) (k : Nat) :
    (s.walkEntry plan pk fir k).spine = s.spine := by
  unfold State.walkEntry
  split <;> simp

@[simp] theorem State.walk_spine (pk : ReplPacket) (s : State) : (s.walk pk).spine = s.spine := by
  unfold State.walk
  simp only
  split <;> simp

@[simp] theorem replicatorWalk_spine (p : Nat) (s : State) : (replicatorWalk p s).spine = s.spine := by
  unfold replicatorWalk
  simp only
  repeat' split
  all_goals simp


/-! #### The bandwidth estimator -/

@[simp] theorem State.feedback_spine (s : State) (leg : Nat) (c : ClassRec) (reportUs : Nat) (blocks : List CcfbBlock) :
    (s.feedback leg c reportUs blocks).spine = s.spine := by
  unfold State.feedback
  split
  · rfl
  · simp
    split <;> simp

@[simp] theorem State.requestSource_spine (s : State) (c b source stream : Nat) (fir : Bool) (media : Nat) :
    (s.requestSource c b source stream fir media).spine = s.spine := by
  unfold State.requestSource
  simp only
  split <;> simp

@[simp] theorem State.requestTrack_spine (s : State) (leg conf b media : Nat) :
    (s.requestTrack leg conf b media).spine = s.spine := by
  unfold State.requestTrack
  simp only
  split
  · simp
  · split <;> simp

@[simp] theorem State.serveNack_spine (leg conf b look : Nat) (track : Option Nat) (s : State) (o : Nat) :
    (s.serveNack leg conf b look track o).spine = s.spine := by
  unfold State.serveNack
  simp only
  repeat' split
  all_goals simp

@[simp] theorem State.nack_spine (s : State) (leg conf b look media : Nat) (fci : List (Nat × Nat)) :
    (s.nack leg conf b look media fci).spine = s.spine := by
  simp [State.nack]

@[simp] theorem State.audioSr_spine (r b look leg source : Nat) (body : Bool → App) (s : State) :
    (s.audioSr r b look leg source body).spine = s.spine := by
  simp [State.audioSr]

@[simp] theorem State.forwardSr_spine (s : State) (conf b look leg source k : Nat) (bySource : Bool)
    (ssrc ntp ts packets octets : Nat) (cname : Option (List Nat)) :
    (s.forwardSr conf b look leg source k bySource ssrc ntp ts packets octets cname).spine = s.spine := by
  unfold State.forwardSr
  split
  · simp only
    split
    · simp
    · refine State.spine_foldl (fun s slot => ?_) _ s
      split
      · rfl
      · exact State.asOpened_spine _ _ _ fun s => by simp
  · refine State.spine_foldl (fun s x => ?_) _ s
    split
    · rfl
    · split <;> simp

@[simp] theorem State.crossRequest_spine (s : State) (c : RtcpFrom) (media : Nat) :
    (s.crossRequest c media).spine = s.spine := by
  simp [State.crossRequest]

@[simp] theorem State.rtcpPart_spine (c : RtcpFrom) (cls : ClassRec) (cname : Option (List Nat)) (s : State)
    (part : RtcpPart) : (State.rtcpPart c cls cname s part).spine = s.spine := by
  unfold State.rtcpPart
  cases part with
  | sr ssrc ntp ts packets octets bs =>
    simp only
    split
    · simp
    · split <;> simp
  | _ => simp

@[simp] theorem State.rtcpIn_spine (s : State) (c : RtcpFrom) (cls : ClassRec) (m : Rtcp) :
    (s.rtcpIn c cls m).spine = s.spine := by
  simp [State.rtcpIn]


/-! #### Classification -/

@[simp] theorem State.noteRenumbered_spine (s : State) (leg : Nat) (x : Renumbered) :
    (s.noteRenumbered leg x).spine = s.spine := by
  simp [State.noteRenumbered]


/-! #### Egress -/

@[simp] theorem State.assemble_spine (s : State) (p : Nat) (c : Copy) : (s.assemble p c).spine = s.spine := by
  unfold State.assemble
  simp only
  repeat' split
  all_goals simp

@[simp] theorem egressAssemble_spine (p : Nat) (s : State) : (egressAssemble p s).spine = s.spine := by
  unfold egressAssemble
  simp
  split <;> simp

@[simp] theorem State.checkLevel_spine (s : State) (k : Nat × Nat) : (s.checkLevel k).spine = s.spine := by
  unfold State.checkLevel
  split <;> simp

@[simp] theorem State.wakeLevel_spine (t0 : Int) (s : State) (k : Nat × Nat) : (s.wakeLevel t0 k).spine = s.spine := by
  simp [State.wakeLevel]

@[simp] theorem State.chargeLevel_spine (w : Nat) (s : State) (k : Nat × Nat) : (s.chargeLevel w k).spine = s.spine := by
  simp [State.chargeLevel]

@[simp] theorem State.charge_spine (s : State) (c : Copy) : (s.charge c).spine = s.spine := by simp [State.charge]

@[simp] theorem State.startTest_spine (s : State) (id : Nat) : (s.startTest id).spine = s.spine := by rfl

@[simp] theorem State.freeCore_spine (s : State) (core n : Nat) : (s.freeCore core n).spine = s.spine := by
  simp [State.freeCore]

@[simp] theorem egressCharge_spine (p : Nat) (s : State) : (egressCharge p s).spine = s.spine := by
  unfold egressCharge
  simp only
  split <;> simp

@[simp] theorem sumpSpill_spine (copy : Nat) (s : State) : (sumpSpill copy s).spine = s.spine := by
  unfold sumpSpill
  simp only
  split <;> simp

@[simp] theorem State.sumpPanic_spine (s : State) : s.sumpPanic.spine = s.spine := by rfl

@[simp] theorem sumpFetch_spine (copy : Nat) (poisoned : Bool) (s : State) :
    (sumpFetch copy poisoned s).spine = s.spine := by
  unfold sumpFetch
  simp only
  split <;> simp

@[simp] theorem State.logSend_spine (s : State) (x : Stored) : (s.logSend x).spine = s.spine := by
  unfold State.logSend
  split <;> rfl

@[simp] theorem launchHandoff_spine (port cls : Nat) (s : State) : (launchHandoff port cls s).spine = s.spine := by
  unfold launchHandoff
  simp only
  split <;> simp


/-! #### Bring-up of the ports -/

@[simp] theorem State.clearPortBuckets_spine (s : State) (p : Nat) : (s.clearPortBuckets p).spine = s.spine := by rfl

@[simp] theorem State.chooseWidth_spine (s : State) (p : Nat) : (s.chooseWidth p).spine = s.spine := by
  unfold State.chooseWidth
  split
  · rfl
  · simp
    split <;> simp

@[simp] theorem State.laneFault_spine (s : State) (p lane kind : Nat) : (s.laneFault p lane kind).spine = s.spine := by
  simp [State.laneFault]

@[simp] theorem portSignalDetect_spine (p lane : Nat) (signal : Bool) (s : State) :
    (portSignalDetect p lane signal s).spine = s.spine := by
  unfold portSignalDetect
  simp only
  split <;> simp

@[simp] theorem waitSignalTimeout_spine (p : Nat) (s : State) : (waitSignalTimeout p s).spine = s.spine := by
  unfold waitSignalTimeout
  simp only
  split <;> simp

@[simp] theorem trainDone_spine (p inverted : Nat) (s : State) : (trainDone p inverted s).spine = s.spine := by
  unfold trainDone
  simp only
  split <;> simp

@[simp] theorem State.bringupFails_spine (s : State) (p : Nat) : (s.bringupFails p).spine = s.spine := by rfl

@[simp] theorem trainTimeout_spine (p : Nat) (s : State) : (trainTimeout p s).spine = s.spine := by
  unfold trainTimeout
  simp only
  split <;> simp

@[simp] theorem alignTimeout_spine (p : Nat) (s : State) : (alignTimeout p s).spine = s.spine := by
  unfold alignTimeout
  simp only
  split <;> simp

@[simp] theorem bringupRetryExpiry_spine (p : Nat) (s : State) : (bringupRetryExpiry p s).spine = s.spine := by
  unfold bringupRetryExpiry
  simp only
  split
  · simp
  · split <;> simp

@[simp] theorem linkLoss_spine (p : Nat) (lanesLost : List Nat) (s : State) : (linkLoss p lanesLost s).spine = s.spine := by
  unfold linkLoss
  simp only
  split <;> simp

@[simp] theorem laneShorted_spine (lane : Nat) (s : State) : (laneShorted lane s).spine = s.spine := by
  unfold laneShorted
  simp
  split <;> simp


/-! #### The MACs -/

@[simp] theorem State.watchTest_spine (p : Nat) (s : State) (which : Nat) : (s.watchTest p which).spine = s.spine := by
  unfold State.watchTest
  split <;> simp

@[simp] theorem pauseHoldExpiry_spine (p which : Nat) (s : State) : (pauseHoldExpiry p which s).spine = s.spine := by
  unfold pauseHoldExpiry
  simp only
  split <;> simp

@[simp] theorem watchBoundary_spine (p : Nat) (s : State) (which : Nat) : (watchBoundary p s which).spine = s.spine := by
  unfold watchBoundary
  split <;> simp

@[simp] theorem pauseWatchdogInterval_spine (p : Nat) (s : State) : (pauseWatchdogInterval p s).spine = s.spine := by
  unfold pauseWatchdogInterval
  simp only
  split
  · simp
  · split <;> simp

@[simp] theorem State.sendPause_spine (s : State) (p quanta : Nat) : (s.sendPause p quanta).spine = s.spine := by
  unfold State.sendPause
  split <;> rfl

@[simp] theorem State.pauseCheck_spine (s : State) (p before : Nat) : (s.pauseCheck p before).spine = s.spine := by
  unfold State.pauseCheck
  split <;> simp

@[simp] theorem pauseTxRepeat_spine (p : Nat) (s : State) : (pauseTxRepeat p s).spine = s.spine := by
  unfold pauseTxRepeat
  simp only
  split
  · simp
  · split <;> simp

@[simp] theorem State.enqueueRx_spine (s : State) (p : Nat) (q : Port) (f : Frame) (queue : Nat) :
    (s.enqueueRx p q f queue).spine = s.spine := by
  unfold State.enqueueRx
  split <;> simp

@[simp] theorem State.macReceive_spine (s : State) (p : Nat) (q : Port) (f : Frame) :
    (s.macReceive p q f).spine = s.spine := by
  unfold State.macReceive
  simp
  split <;> simp

@[simp] theorem frameReceive_spine (p : Nat) (f : Frame) (fecCorrected fecBad : Nat) (symbols : List Nat) (s : State) :
    (frameReceive p f fecCorrected fecBad symbols s).spine = s.spine := by
  unfold frameReceive
  simp only
  repeat' split
  all_goals simp


/-! #### Ingress -/

@[simp] theorem State.legPacket_spine (s : State) (port : Nat) (r : RxFrame) (leg : Nat) :
    (s.legPacket port r leg).spine = s.spine := by
  unfold State.legPacket
  simp only
  repeat' split
  all_goals simp

@[simp] theorem State.ingressFrame_spine (s : State) (port : Nat) (r : RxFrame) :
    (s.ingressFrame port r).spine = s.spine := by
  unfold State.ingressFrame
  simp only
  repeat' split
  all_goals simp

@[simp] theorem ingressTakeFrame_spine (p : Nat) (s : State) : (ingressTakeFrame p s).spine = s.spine := by
  unfold ingressTakeFrame
  simp only
  repeat' split
  all_goals simp

@[simp] theorem State.grantConsent_spine (s : State) (leg : Nat) : (s.grantConsent leg).spine = s.spine := by
  unfold State.grantConsent
  split <;> simp

@[simp] theorem State.answerStun_spine (s : State) (r : Stun) (leg : Nat) (legs : List Nat) :
    (s.answerStun r leg legs).spine = s.spine := by
  unfold State.answerStun
  split <;> simp

@[simp] theorem stunRequest_spine (s : State) : (stunRequest s).spine = s.spine := by
  unfold stunRequest
  simp only
  repeat' split
  all_goals simp

@[simp] theorem consentExpiry_spine (leg : Nat) (s : State) : (consentExpiry leg s).spine = s.spine := by
  unfold consentExpiry
  simp only
  split
  · simp
  · split <;> simp


/-! #### RTCP and reports -/

@[simp] theorem State.audioIn_spine (s : State) (i ringKib : Nat) (e : RingEntry) :
    (s.audioIn i ringKib e).spine = s.spine := by
  unfold State.audioIn
  split <;> rfl

@[simp] theorem State.audioTo_spine (s : State) (c b n : Nat) (e : RingEntry) : (s.audioTo c b n e).spine = s.spine := by
  unfold State.audioTo
  split <;> simp

@[simp] theorem State.rankIn_spine (s : State) (c b source : Nat) (e : RingEntry) :
    (s.rankIn c b source e).spine = s.spine := by
  unfold State.rankIn
  split <;> simp

@[simp] theorem State.releaseHead_spine (s : State) (c b i session : Nat) (damaged : Bool) :
    (s.releaseHead c b i session damaged).spine = s.spine := by
  unfold State.releaseHead
  split <;> simp

@[simp] theorem State.releaseDue_spine (c b i session : Nat) (r : SessionRec) (n : Nat) (s : State) :
    (State.releaseDue c b i session r n s).spine = s.spine := by
  induction n generalizing s with
  | zero => rfl
  | succ n ih =>
    unfold State.releaseDue
    split <;> simp [ih]

@[simp] theorem State.releaseAll_spine (c b i session : Nat) (n : Nat) (s : State) :
    (State.releaseAll c b i session n s).spine = s.spine := by
  induction n generalizing s with
  | zero => rfl
  | succ n ih => simp [State.releaseAll, ih]

@[simp] theorem State.videoIn_spine (s : State) (c b i : Nat) (r : SessionRec) (e : RingEntry) :
    (s.videoIn c b i r e).spine = s.spine := by
  simp [State.videoIn]

@[simp] theorem State.videoTo_spine (s : State) (c b : Nat) (slot : RosterSlot) (stream : Nat) (e : RingEntry) :
    (s.videoTo c b slot stream e).spine = s.spine := by
  unfold State.videoTo
  split
  · rfl
  · simp
    split <;> simp

@[simp] theorem reassemblyTimeout_spine (c session : Nat) (s : State) : (reassemblyTimeout c session s).spine = s.spine := by
  unfold reassemblyTimeout
  simp only
  split
  · simp
  · split <;> simp


/-! #### Decryption -/

@[simp] theorem State.toReplicator_spine (s : State) (p : Nat) (pk : ReplPacket) :
    (s.toReplicator p pk).spine = s.spine := by
  unfold State.toReplicator
  split <;> simp

@[simp] theorem State.putLevel_spine (s : State) (c source level : Nat) (v : Bool) :
    (s.putLevel c source level v).spine = s.spine := by
  rfl

@[simp] theorem State.handOn_spine (s : State) (j : RxJob) (source : Option Nat) (offset : Nat) (pk : ReplPacket) :
    (s.handOn j source offset pk).spine = s.spine := by
  unfold State.handOn
  split <;> simp

@[simp] theorem State.rxAudio_spine (s : State) (j : RxJob) (g : Leg) (r : RosterSlot) (cls : ClassRec) (fmt : Nat)
    (p : RtpPacket) : (s.rxAudio j g r cls fmt p).spine = s.spine := by
  unfold State.rxAudio
  simp only
  repeat' split
  all_goals simp

@[simp] theorem State.putRenumbered_spine (s : State) (leg k n : Nat) (nack : Bool) (x : Renumbered) (h : History) :
    (s.putRenumbered leg k n nack x h).spine = s.spine := by
  rfl

@[simp] theorem State.rxVideo_spine (s : State) (j : RxJob) (g : Leg) (r : RosterSlot) (cls : ClassRec) (fmt k : Nat)
    (old : SsrcState) (p : RtpPacket) : (s.rxVideo j g r cls fmt k old p).spine = s.spine := by
  unfold State.rxVideo
  simp
  split <;> simp

@[simp] theorem State.rxRtp_spine (s : State) (j : RxJob) (g : Leg) (r : RosterSlot) (cls : ClassRec) (p : RtpPacket) :
    (s.rxRtp j g r cls p).spine = s.spine := by
  simp [State.rxRtp]

@[simp] theorem State.rxTrunkRtp_spine (s : State) (j : RxJob) (r : RosterSlot) (cls : ClassRec) (z : Zwiva)
    (p : RtpPacket) : (s.rxTrunkRtp j r cls z p).spine = s.spine := by
  unfold State.rxTrunkRtp
  simp only
  repeat' split
  all_goals simp

@[simp] theorem State.rxTrunk_spine (s : State) (j : RxJob) (g : Leg) (r : RosterSlot) (cls : ClassRec) (z : Zwiva) :
    (s.rxTrunk j g r cls z).spine = s.spine := by
  unfold State.rxTrunk
  split <;> simp

@[simp] theorem State.rxRtcp_spine (s : State) (j : RxJob) (g : Leg) (r : RosterSlot) (cls : ClassRec) (m : Rtcp) :
    (s.rxRtcp j g r cls m).spine = s.spine := by
  simp [State.rxRtcp]

@[simp] theorem State.verified_spine (s : State) (j : RxJob) (app : App) : (s.verified j app).spine = s.spine := by
  unfold State.verified
  split
  · split <;> simp
  · simp

@[simp] theorem State.judged_spine (j : RxJob) (app : App) (gen : Nat) (tagOk : Bool) (s : State) :
    (s.judged j app gen tagOk).spine = s.spine := by
  unfold State.judged
  simp
  split <;> simp

@[simp] theorem decryptComplete_spine (core : Nat) (s : State) : (decryptComplete core s).spine = s.spine := by
  unfold decryptComplete
  simp only
  split <;> simp

@[simp] theorem State.endCredit_spine (s : State) (credit : Option Nat) : (s.endCredit credit).spine = s.spine := by
  unfold State.endCredit
  split <;> simp

@[simp] theorem State.injectLocal_spine (s : State) (p : Nat) (q : LocalRec) : (s.injectLocal p q).spine = s.spine := by
  simp [State.injectLocal]

@[simp] theorem localInject_spine (p : Nat) (s : State) : (localInject p s).spine = s.spine := by
  unfold localInject
  simp
  split <;> simp

@[simp] theorem localStarved_spine (task : Nat) (s : State) : (localStarved task s).spine = s.spine := by
  unfold localStarved
  simp only
  split <;> simp

@[simp] theorem rrSend_spine (leg : Nat) (s : State) : (rrSend leg s).spine = s.spine := by
  unfold rrSend
  simp only
  split <;> simp

@[simp] theorem upstreamNackSend_spine (leg : Nat) (s : State) : (upstreamNackSend leg s).spine = s.spine := by
  unfold upstreamNackSend
  simp only
  split <;> simp


/-! #### DSP instructions -/

@[simp] theorem State.bundleWith_spine (s : State) (c : Nat) (b : DspBeside) (bad : DspSlot → Bool)
    (f : DspSlot → DspSlot → DspSlot) : (s.bundleWith c b bad f).spine = s.spine := by
  unfold State.bundleWith
  simp only
  split <;> simp

@[simp] theorem State.bundle_spine (s : State) (c : Nat) (b : DspBeside) (f : DspSlot → DspSlot → DspSlot) :
    (s.bundle c b f).spine = s.spine := by
  simp [State.bundle]

@[simp] theorem pmForcedUnmask_spine (core : Nat) (s : State) : (pmForcedUnmask core s).spine = s.spine := by
  unfold pmForcedUnmask
  simp only
  split <;> simp

@[simp] theorem State.epilogue_spine (s : State) (core k t status : Nat) : (s.epilogue core k t status).spine = s.spine := by
  unfold State.epilogue
  split <;> simp

@[simp] theorem dspEnd_spine (core status : Nat) (beside : DspBeside) (s : State) :
    (dspEnd core status beside s).spine = s.spine := by
  unfold dspEnd
  simp only
  split
  · simp
  · split <;> simp

@[simp] theorem dspDmaComplete_spine (core slot channel : Nat) (windowData : List Word) (s : State) :
    (dspDmaComplete core slot channel windowData s).spine = s.spine := by
  unfold dspDmaComplete
  simp only
  repeat' split
  all_goals simp


/-! #### Host DMA -/

@[simp] theorem State.updRing_spine (s : State) (fn r : Nat) (f : Ring → Ring) : (s.updRing fn r f).spine = s.spine := by rfl

@[simp] theorem State.grantDma_spine (s : State) (fn ring : Nat) : (s.grantDma fn ring).spine = s.spine := by rfl

@[simp] theorem State.endDma_spine (s : State) (fn ring : Nat) : (s.endDma fn ring).spine = s.spine := by rfl

@[simp] theorem ringTailWrite_spine (fn ring : Nat) (value : Word) (s : State) :
    (ringTailWrite fn ring value s).spine = s.spine := by
  simp [ringTailWrite]

@[simp] theorem ringCtrlWrite_spine (fn ring : Nat) (value : Word) (s : State) :
    (ringCtrlWrite fn ring value s).spine = s.spine := by
  simp [ringCtrlWrite]

@[simp] theorem ringStatusWrite_spine (fn ring : Nat) (value : Word) (s : State) :
    (ringStatusWrite fn ring value s).spine = s.spine := by
  simp [ringStatusWrite]

@[simp] theorem State.ringRecord_spine (s : State) (fn ring : Nat) (rec : Nat → DmaRecord) :
    (s.ringRecord fn ring rec).spine = s.spine := by
  simp [State.ringRecord]

@[simp] theorem State.statsRecord_spine (s : State) (c : Nat) (words : List Word) :
    (s.statsRecord c words).spine = s.spine := by
  simp [State.statsRecord]

@[simp] theorem exceptionDelivery_spine (port : Nat) (s : State) : (exceptionDelivery port s).spine = s.spine := by
  unfold exceptionDelivery
  simp only
  repeat' split
  all_goals simp

@[simp] theorem State.transmitWork_spine (s : State) (fn idx : Nat) (ws : List Word) (e : SrcEnd) (frame : Frame) :
    (s.transmitWork fn idx ws e frame).2.spine = s.spine := by
  unfold State.transmitWork
  simp only
  repeat' split
  all_goals simp

@[simp] theorem dmaDescriptorTake_spine (fn ring : Nat) (desc : Descriptor) (data : List Nat) (srcEnd : SrcEnd)
    (frame : Frame) (s : State) : (dmaDescriptorTake fn ring desc data srcEnd frame s).spine = s.spine := by
  unfold dmaDescriptorTake
  simp
  split <;> simp

@[simp] theorem dmaWriteBack_spine (fn ring : Nat) (linkFailedAt : Option Nat) (s : State) :
    (dmaWriteBack fn ring linkFailedAt s).spine = s.spine := by
  unfold dmaWriteBack
  simp only
  split
  · rfl
  · split
    · rfl
    · simp [State.spine_foldl State.emit_spine]

@[simp] theorem msixUnmask_spine (fn vector : Nat) (s : State) : (msixUnmask fn vector s).spine = s.spine := by
  simp [msixUnmask]

@[simp] theorem busMasterChange_spine (fn : Nat) (bme d3hot : Bool) (s : State) :
    (busMasterChange fn bme d3hot s).spine = s.spine := by
  simp [busMasterChange]


/-! #### Encoding -/

@[simp] theorem coarseSearchDone_spine (task : Nat) (s : State) : (coarseSearchDone task s).spine = s.spine := by
  unfold coarseSearchDone
  simp only
  repeat' split
  all_goals simp

@[simp] theorem State.reconstruct_spine (s : State) (i : Nat) (r : SessionRec) (o : OutputRec) (c : EncPic) (band : Nat)
    (skip : Bool) (given : Picture) : (s.reconstruct i r o c band skip given).spine = s.spine := by
  unfold State.reconstruct
  split <;> simp

@[simp] theorem encodeRowDone_spine (task : Nat) (code : BandCode) (s : State) :
    (encodeRowDone task code s).spine = s.spine := by
  unfold encodeRowDone
  simp only
  split
  · rfl
  · split
    · rfl
    · split
      · split
        · simp
        · split <;> simp
      · simp

@[simp] theorem encSelWrite_spine (fn : Nat) (value : Word) (s : State) : (encSelWrite fn value s).spine = s.spine := by
  simp [encSelWrite]


/-! #### HBM lines and upkeep -/

@[simp] theorem State.pchAccess_spine (s : State) (n line cls : Nat) : (s.pchAccess n line cls).spine = s.spine := by rfl

@[simp] theorem State.freshenSess_spine (s : State) (i : Nat) : (s.freshenSess i).spine = s.spine := by
  unfold State.freshenSess
  split <;> simp

@[simp] theorem State.poisonPool_spine (s : State) (n line cls : Nat) : (s.poisonPool n line cls).spine = s.spine := by
  unfold State.poisonPool
  split <;> simp

@[simp] theorem State.readStack_spine (s : State) (n line : Nat) (flips : List Nat) :
    (s.readStack n line flips).2.spine = s.spine := by
  simp [State.readStack]

@[simp] theorem State.mergeBase_spine (s : State) (n line cls : Nat) (ws : List QWrite) (flips : List Nat) :
    (s.mergeBase n line cls ws flips).2.spine = s.spine := by
  unfold State.mergeBase
  split <;> simp

@[simp] theorem State.mergeWrites_spine (s : State) (n : Nat) : (s.mergeWrites n).spine = s.spine := by
  unfold State.mergeWrites
  split
  · rfl
  · refine Eq.trans (State.updPch_spine ..) (State.spine_foldl_fst (fun x w => ?_) _ _)
    split <;> simp

@[simp] theorem State.drainWrite_spine (s : State) (n : Nat) : (s.drainWrite n).spine = s.spine := by
  unfold State.drainWrite
  split <;> rfl

@[simp] theorem State.drainHigh_spine (s : State) (n : Nat) : (s.drainHigh n).spine = s.spine := by simp [State.drainHigh]


/-! #### HBM training and retraining -/

@[simp] theorem hbmWrite_spine (n addr cls mask data : Nat) (poison : Bool) (flips : List Nat) (s : State) :
    (hbmWrite n addr cls mask data poison flips s).spine = s.spine := by
  unfold hbmWrite
  simp only
  repeat' split
  all_goals simp [-Nat.reducePow]

@[simp] theorem refreshDue_spine (n bank : Nat) (postpone pullIn : Bool) (s : State) :
    (refreshDue n bank postpone pullIn s).spine = s.spine := by
  simp [refreshDue]

@[simp] theorem hbmSensorRead_spine (stack : Nat) (eighths : Int) (s : State) :
    (hbmSensorRead stack eighths s).spine = s.spine := by
  unfold hbmSensorRead
  simp only
  split <;> simp

@[simp] theorem activateTableClear_spine (n : Nat) (s : State) : (activateTableClear n s).spine = s.spine := by
  unfold activateTableClear
  split <;> rfl

@[simp] theorem neighbourRngReseed_spine (words : List Word) (s : State) : (neighbourRngReseed words s).spine = s.spine := by
  simp [neighbourRngReseed]

@[simp] theorem trainingBurst_spine (stack channel : Nat) (result : BurstResult) (s : State) :
    (trainingBurst stack channel result s).spine = s.spine := by
  simp [trainingBurst]

@[simp] theorem State.startRetrain_spine (s : State) (stack : Nat) : (s.startRetrain stack).spine = s.spine := by
  simp [State.startRetrain]

@[simp] theorem State.endRetrain_spine (s : State) (stack result : Nat) : (s.endRetrain stack result).spine = s.spine := by
  unfold State.endRetrain
  split
  · rfl
  · simp only
    split <;> simp

@[simp] theorem setPointChange_spine (s : State) : (setPointChange s).spine = s.spine := by
  unfold setPointChange
  simp only
  split <;> simp

@[simp] theorem setPointChangeDone_spine (s : State) : (setPointChangeDone s).spine = s.spine := by
  unfold setPointChangeDone
  simp only
  split <;> simp

@[simp] theorem memRetrainBody_spine (whole : Bool) (id : Nat) (c : Taken) (s : State) :
    (memRetrainBody whole id c s).spine = s.spine := by
  simp [memRetrainBody]

@[simp] theorem memRetrainPchBody_spine (id : Nat) (c : Taken) (s : State) : (memRetrainPchBody id c s).spine = s.spine := by
  simp [memRetrainPchBody]

@[simp] theorem memRetrainStackBody_spine (id : Nat) (c : Taken) (s : State) :
    (memRetrainStackBody id c s).spine = s.spine := by
  simp [memRetrainStackBody]

@[simp] theorem State.retrainValues_spine (s : State) (k : Nat) (r : Retrain) (values : List Nat) :
    (s.retrainValues k r values).spine = s.spine := by
  unfold State.retrainValues
  split
  · exact State.spine_foldl (fun s i => by simp) _ s
  · simp

@[simp] theorem memRetrainDone_spine (id : Nat) (pass : Bool) (values : List Nat) (s : State) :
    (memRetrainDone id pass values s).spine = s.spine := by
  unfold memRetrainDone
  simp only
  split <;> simp

@[simp] theorem memRetrainStartTimeout_spine (id : Nat) (s : State) : (memRetrainStartTimeout id s).spine = s.spine := by
  unfold memRetrainStartTimeout
  simp only
  split <;> simp


/-! #### Heat and alarms -/

@[simp] theorem State.throttleStep_spine (s : State) : s.throttleStep.spine = s.spine := by simp [State.throttleStep]

@[simp] theorem throttleStepTest_spine (s : State) : (throttleStepTest s).spine = s.spine := by
  unfold throttleStepTest
  simp only
  split
  · simp
  · split <;> simp

@[simp] theorem State.setAlarm_spine (s : State) (k : Nat) (a : Alarm) : (s.setAlarm k a).spine = s.spine := by rfl

@[simp] theorem State.alarmShorted_spine (s : State) (k : Nat) : (s.alarmShorted k).spine = s.spine := by
  simp [State.alarmShorted]

@[simp] theorem alarmShort_spine (k : Nat) (readsHigh : Bool) (s : State) : (alarmShort k readsHigh s).spine = s.spine := by
  simp [alarmShort]

@[simp] theorem alarmRetry_spine (k : Nat) (readsHigh : Bool) (s : State) : (alarmRetry k readsHigh s).spine = s.spine := by
  simp [alarmRetry]


/-! #### Key slots -/

@[simp] theorem State.importKey_spine (s : State) (k profile : Nat) (m : KeyMat) (kcv : Nat) :
    (s.importKey k profile m kcv).spine = s.spine := by
  simp [State.importKey]

@[simp] theorem keyImportBody_spine (dropped : Bool) (id : Nat) (c : Taken) (s : State) :
    (keyImportBody dropped id c s).spine = s.spine := by
  simp [keyImportBody]

@[simp] theorem keyEraseBody_spine (id : Nat) (c : Taken) (s : State) : (keyEraseBody id c s).spine = s.spine := by
  simp [keyEraseBody]


/-! #### Leg commands -/

@[simp] theorem State.holdSlot_spine (s : State) (k leg : Nat) (role : Bool) : (s.holdSlot k leg role).spine = s.spine := by
  rfl

@[simp] theorem State.openLeg_spine (s : State) (c : Taken) (n : Nat) (stun : Bool) :
    (s.openLeg c n stun).spine = s.spine := by
  rfl

@[simp] theorem legOpenBody_spine (stun : Bool) (id : Nat) (c : Taken) (s : State) :
    (legOpenBody stun id c s).spine = s.spine := by
  simp [legOpenBody]

@[simp] theorem State.bindLeg_spine (s : State) (leg : Nat) (g : Leg) (p : Plan) (r : RosterSlot) :
    (s.bindLeg leg g p r).spine = s.spine := by
  unfold State.bindLeg
  simp
  split <;> simp

@[simp] theorem legBindBody_spine (id : Nat) (c : Taken) (s : State) : (legBindBody id c s).spine = s.spine := by
  unfold legBindBody
  simp only
  split <;> simp


/-! #### Logs -/

@[simp] theorem State.writeRecord_spine (s : State) (r : FaultRec) : (s.writeRecord r).spine = s.spine := by
  unfold State.writeRecord
  simp
  split <;> simp

@[simp] theorem faultRecordWrite_spine (fail : Option Nat) (s : State) : (faultRecordWrite fail s).spine = s.spine := by
  unfold faultRecordWrite
  simp only
  repeat' split
  all_goals simp

@[simp] theorem resetMarkWrite_spine (s : State) : (resetMarkWrite s).spine = s.spine := by
  unfold resetMarkWrite
  simp only
  split <;> simp

@[simp] theorem lgStatusWrite_spine (fn : Nat) (value : Word) (s : State) : (lgStatusWrite fn value s).spine = s.spine := by
  simp [lgStatusWrite]


/-! #### The mailbox -/

@[simp] theorem cmdReserveRead_spine (fn n : Nat) (s : State) : (cmdReserveRead fn n s).spine = s.spine := by
  simp [cmdReserveRead]

@[simp] theorem cmdRingWrite_spine (fn off : Nat) (value : Word) (poison : Bool) (s : State) :
    (cmdRingWrite fn off value poison s).spine = s.spine := by
  simp [cmdRingWrite]

@[simp] theorem State.take_spine (s : State) (fn : Nat) (bad : List Nat) : (s.take fn bad).spine = s.spine := by
  unfold State.take
  split <;> rfl

@[simp] theorem commandTake_spine (bad : List Nat) (s : State) : (commandTake bad s).spine = s.spine := by
  unfold commandTake
  simp only
  split <;> simp

@[simp] theorem cmdAbandoned_spine (fn : Nat) (s : State) : (cmdAbandoned fn s).spine = s.spine := by
  unfold cmdAbandoned
  simp only
  split <;> simp

@[simp] theorem evqDataRead_spine (fn : Nat) (parityBad : Bool) (s : State) :
    (evqDataRead fn parityBad s).spine = s.spine := by
  unfold evqDataRead
  simp
  split <;> simp

@[simp] theorem evqStatusWrite_spine (fn : Nat) (value : Word) (s : State) :
    (evqStatusWrite fn value s).spine = s.spine := by
  simp [evqStatusWrite]

@[simp] theorem msixHoldoffExpiry_spine (fn : Nat) (s : State) : (msixHoldoffExpiry fn s).spine = s.spine := by
  simp [msixHoldoffExpiry]


/-! #### Management -/

@[simp] theorem State.mctp_spine (s : State) (ws : List Word) : (s.mctp ws).spine = s.spine := by
  unfold State.mctp
  split <;> rfl

@[simp] theorem State.sdaTry_spine (s : State) (clocks : Nat) (recovered : Bool) :
    (s.sdaTry clocks recovered).spine = s.spine := by
  unfold State.sdaTry
  simp only
  split <;> simp

@[simp] theorem smbusSdaStuck_spine (clocks : Nat) (recovered : Bool) (s : State) :
    (smbusSdaStuck clocks recovered s).spine = s.spine := by
  simp [smbusSdaStuck]

@[simp] theorem smbusSclStuck_spine (recovered : Bool) (s : State) : (smbusSclStuck recovered s).spine = s.spine := by
  simp [smbusSclStuck]

@[simp] theorem smbusRetry_spine (clocks : Nat) (recovered : Bool) (s : State) :
    (smbusRetry clocks recovered s).spine = s.spine := by
  simp [smbusRetry]


/-! #### The scheduler -/

@[simp] theorem State.skip_spine (s : State) (t typ : Nat) : (s.skip t typ).spine = s.spine := by
  unfold State.skip
  split <;> simp

@[simp] theorem State.claimFlow_spine (s : State) (t : Nat) (l : Live) : (s.claimFlow t l).spine = s.spine := by
  unfold State.claimFlow
  split <;> simp

@[simp] theorem State.grantAll_spine (s : State) (t : Nat) (l : Live) (kind e : Nat) (held : List (FbOwner × Nat)) :
    (s.grantAll t l kind e held).2.spine = s.spine := by
  unfold State.grantAll
  simp only [State.spine_ite, State.grant_spine, ite_self]
  rw [State.spine_foldl fun s b => by simp, State.spine_foldl fun s b => by simp]
  split <;> simp

@[simp] theorem State.dispatch_spine (s : State) (t e : Nat) (bufs : List (FbOwner × Nat)) :
    (s.dispatch t e bufs).spine = s.spine := by
  unfold State.dispatch
  split
  · rfl
  · simp only [State.traceTask_spine, State.countSched_spine]
    split <;> simp only [State.updSched_spine, State.spine_ite] <;> split
    · split <;> simp <;> split <;> simp
    · simp
      split <;> simp
    · split <;> simp <;> split <;> simp
    · simp
      split <;> simp

@[simp] theorem State.tryDispatch_spine (s : State) (kind : Nat) (l : List Nat) :
    (s.tryDispatch kind l).spine = s.spine := by
  induction l generalizing s with
  | nil => rfl
  | cons a l ih =>
    unfold State.tryDispatch
    split
    · exact ih s
    · split
      · rfl
      · split <;> simp [ih]

@[simp] theorem taskDispatch_spine (kind : Nat) (s : State) : (taskDispatch kind s).spine = s.spine := by simp [taskDispatch]

@[simp] theorem preempt_spine (core : Nat) (s : State) : (preempt core s).spine = s.spine := by
  unfold preempt
  simp only
  split
  · simp
  · split <;> simp

@[simp] theorem resume_spine (core : Nat) (s : State) : (resume core s).spine = s.spine := by
  unfold resume
  simp only
  repeat' split
  all_goals simp

@[simp] theorem taskCompletion_spine (task owner gen : Nat) (records : List (List Word)) (cycles : Nat) (s : State) :
    (taskCompletion task owner gen records cycles s).spine = s.spine := by
  unfold taskCompletion
  simp only
  repeat' split
  all_goals simp

@[simp] theorem schedulerTick_spine (s : State) : (schedulerTick s).spine = s.spine := by simp [schedulerTick]

theorem State.takeDue_spine {s t : State} {e : Due} (h : s.takeDue = some (e, t)) : t.spine = s.spine := by
  unfold State.takeDue at h
  split at h
  · cases h
  · cases h
    rfl

@[simp] theorem State.putRelease_spine (s : State) (c b loadNo : Nat) (d : GraphRec) (k : Nat) :
    (s.putRelease c b loadNo d k).spine = s.spine := by
  rfl

@[simp] theorem graphRelease_spine (s : State) : (graphRelease s).spine = s.spine := by
  unfold graphRelease
  simp only
  split
  next h =>
    have hs := State.takeDue_spine h
    split
    · exact hs
    · split
      · exact hs
      · split <;> simp [hs]
  · rfl

@[simp] theorem instanceDeadline_spine (s : State) : (instanceDeadline s).spine = s.spine := by
  unfold instanceDeadline
  simp only
  split
  next h => simp [State.takeDue_spine h]
  · rfl

@[simp] theorem State.requestAbort_spine (s : State) (t : Nat) (revoke : Bool) :
    (s.requestAbort t revoke).spine = s.spine := by
  simp [State.requestAbort]

@[simp] theorem taskBudgetExpiry_spine (s : State) : (taskBudgetExpiry s).spine = s.spine := by
  unfold taskBudgetExpiry
  simp only
  split
  next h => split <;> simp [State.takeDue_spine h]
  · rfl

@[simp] theorem abortAck_spine (task : Nat) (s : State) : (abortAck task s).spine = s.spine := by
  unfold abortAck
  simp only
  split <;> simp

theorem State.takeAbort_spine {s t : State} {n : Nat} (h : s.takeAbort n = some t) : t.spine = s.spine := by
  unfold State.takeAbort at h
  split at h
  · split at h
    · cases h
      exact State.takeDue_spine ‹_›
    · cases h
  · cases h


/-! #### Plans -/

@[simp] theorem State.endFetch_spine (s : State) (fn : Nat) : (s.endFetch fn).spine = s.spine := by
  unfold State.endFetch
  split <;> rfl

@[simp] theorem State.startLoad_spine (s : State) (id fn conf addr length : Nat) :
    (s.startLoad id fn conf addr length).spine = s.spine := by
  rfl

@[simp] theorem planLoadBody_spine (id : Nat) (c : Taken) (s : State) : (planLoadBody id c s).spine = s.spine := by
  unfold planLoadBody
  exact State.checked_spine _ _ _ (by simp)

@[simp] theorem State.endLoad_spine (s : State) (id conf result : Nat) (payload : List Word) :
    (s.endLoad id conf result payload).spine = s.spine := by
  unfold State.endLoad
  split <;> simp

@[simp] theorem State.leaveLoading_spine (s : State) (l : Load) (f : Bank → Bank) :
    (s.leaveLoading l f).spine = s.spine := by
  rfl

@[simp] theorem State.install_spine (s : State) (l : Load) (p : Plan) : (s.install l p).spine = s.spine := by rfl

@[simp] theorem planLoadFetchDone_spine (id : Nat) (fetch : Fetch) (s : State) :
    (planLoadFetchDone id fetch s).spine = s.spine := by
  unfold planLoadFetchDone
  simp only
  repeat' split
  all_goals simp

@[simp] theorem planCommitBody_spine (id : Nat) (c : Taken) (s : State) : (planCommitBody id c s).spine = s.spine := by
  simp [planCommitBody]

@[simp] theorem State.shapeSwitch_spine (s : State) (c : Nat) (p : Plan) : (s.shapeSwitch c p).spine = s.spine := by
  unfold State.shapeSwitch
  refine (State.spine_foldl (fun s x => ?_) _ _).trans (by simp)
  split <;> simp

@[simp] theorem State.bindSess_spine (old : Option (Plan × Bank)) (p : Plan) (bases : FMap Nat) (s : State) (r : SessionRec)
    (m : FMap Nat) : (s.bindSess old p bases r m).1.spine = s.spine := by
  unfold State.bindSess
  split <;> rfl

@[simp] theorem State.bindBus_spine (old : Option (Plan × Bank)) (p : Plan) (s : State) (r : BusRec) (m : FMap Nat) :
    (s.bindBus old p r m).1.spine = s.spine := by
  unfold State.bindBus
  split <;> rfl

@[simp] theorem State.bindOut_spine (old : Option (Plan × Bank)) (s : State) (r : OutputRec) (m : FMap Nat) :
    (s.bindOut old r m).1.spine = s.spine := by
  unfold State.bindOut
  split <;> rfl

@[simp] theorem State.bindObjects_spine (s : State) (c b : Nat) (old : Option (Plan × Bank)) (p : Plan) :
    (s.bindObjects c b old p).spine = s.spine := by
  unfold State.bindObjects
  simp only [State.updConf_spine]
  rw [State.spine_foldl_fst fun x r => by simp, State.spine_foldl_fst fun x r => by simp,
    State.spine_foldl_fst fun x r => by simp]
  simp

@[simp] theorem State.freshStart_spine (s : State) (c b : Nat) (old : Option (Plan × Bank)) (p : Plan) :
    (s.freshStart c b old p).spine = s.spine := by
  refine State.spine_foldl (fun s r => ?_) _ s
  split
  · simp
  · split
    · split <;> simp
    · rfl

@[simp] theorem State.routeSwitch_spine (before : List (Nat × Option Resolved)) (c b : Nat) (p : Plan) (s : State)
    (r : BusRec) : (s.routeSwitch before c b p r).spine = s.spine := by
  unfold State.routeSwitch
  split <;> simp

@[simp] theorem State.startGraphs_spine (s : State) (c b : Nat) (p : Plan) : (s.startGraphs c b p).spine = s.spine := by
  unfold State.startGraphs
  exact (State.spine_foldl (fun s g => by simp) _ _).trans (by simp)

@[simp] theorem State.carryScores_spine (s : State) (c : Nat) (was p : Plan) : (s.carryScores c was p).spine = s.spine := by
  rfl

@[simp] theorem State.switch_spine (s : State) (c b : Nat) (p : Plan) : (s.switch c b p).spine = s.spine := by
  unfold State.switch
  simp
  split <;> simp

@[simp] theorem State.handover_spine (s : State) (c b : Nat) (m : Mix) (r : Nat) : (s.handover c b m r).spine = s.spine := by
  unfold State.handover
  simp only
  split <;> simp

@[simp] theorem State.publish_spine (s : State) (c : Nat) : (s.publish c).spine = s.spine := by
  unfold State.publish
  split
  · rfl
  · simp only
    split <;> simp

@[simp] theorem State.publishDue_spine (s : State) : s.publishDue.spine = s.spine := by simp [State.publishDue]

@[simp] theorem State.select_spine (s : State) (c : Nat) : (s.select c).spine = s.spine := by
  unfold State.select
  simp only
  split <;> simp

@[simp] theorem mediaTick_spine (conf : Nat) (s : State) : (mediaTick conf s).spine = s.spine := by
  unfold mediaTick
  simp only
  repeat' split
  all_goals simp

@[simp] theorem State.retire_spine (s : State) (c b : Nat) : (s.retire c b).spine = s.spine := by rfl

@[simp] theorem planBankRetired_spine (conf : Nat) (s : State) : (planBankRetired conf s).spine = s.spine := by
  unfold planBankRetired
  simp only
  split <;> simp

@[simp] theorem State.revokeRun_spine (s : State) (r : Nat) : (s.revokeRun r).spine = s.spine := by
  unfold State.revokeRun
  simp only
  split
  · simp
  · refine (State.finishRun_spine ..).trans ((State.spine_foldl (fun s t => ?_) _ _).trans (by simp))
    split <;> simp

@[simp] theorem planRetireTimeout_spine (conf : Nat) (s : State) : (planRetireTimeout conf s).spine = s.spine := by
  unfold planRetireTimeout
  simp only
  split <;> simp


/-! #### Time -/

@[simp] theorem State.setTime_spine (s : State) (t : TimeUnit) : (s.setTime t).spine = s.spine := by rfl

@[simp] theorem State.updTb_spine (s : State) (n : Nat) (f : TimeBase → TimeBase) : (s.updTb n f).spine = s.spine := by rfl

@[simp] theorem State.stepTb_spine (s : State) (n : Nat) (d : Int) : (s.stepTb n d).spine = s.spine := by simp [State.stepTb]

@[simp] theorem State.enterHoldover_spine (s : State) (n cause : Nat) : (s.enterHoldover n cause).spine = s.spine := by
  simp [State.enterHoldover]

@[simp] theorem State.leaveHoldover_spine (s : State) (n : Nat) (st : ServoState) :
    (s.leaveHoldover n st).spine = s.spine := by
  simp [State.leaveHoldover]

@[simp] theorem holdoverTimeout_spine (n : Nat) (s : State) : (holdoverTimeout n s).spine = s.spine := by
  simp [holdoverTimeout]

@[simp] theorem ppsInputAbsent_spine (n : Nat) (s : State) : (ppsInputAbsent n s).spine = s.spine := by simp [ppsInputAbsent]

@[simp] theorem State.servoApply_spine (s : State) (n : Nat) (theta : ℚ) (t : Int) :
    (s.servoApply n theta t).spine = s.spine := by
  simp [State.servoApply]

@[simp] theorem State.servoOffset_spine (s : State) (n : Nat) (theta : ℚ) (t : Int) :
    (s.servoOffset n theta t).spine = s.spine := by
  simp [State.servoOffset]

@[simp] theorem ppsInputEdge_spine (s : State) : (ppsInputEdge s).spine = s.spine := by simp [ppsInputEdge]

@[simp] theorem ppsOutputRise_spine (s : State) : (ppsOutputRise s).spine = s.spine := by
  unfold ppsOutputRise
  simp only
  split
  · simp
  · split <;> simp

@[simp] theorem ppsOutputFall_spine (s : State) : (ppsOutputFall s).spine = s.spine := by
  unfold ppsOutputFall
  simp only
  split <;> simp

@[simp] theorem State.startTclk_spine (s : State) (to10 : Bool) : (s.startTclk to10).spine = s.spine := by
  simp [State.startTclk]

@[simp] theorem tclkSourceChange_spine (s : State) : (tclkSourceChange s).spine = s.spine := by simp [tclkSourceChange]

@[simp] theorem ref10mReturnTimer_spine (s : State) : (ref10mReturnTimer s).spine = s.spine := by simp [ref10mReturnTimer]

@[simp] theorem endTclk_spine (s : State) (n : Nat) : (endTclk s n).spine = s.spine := by simp [endTclk]

@[simp] theorem tclkSourceChangeDone_spine (s : State) : (tclkSourceChangeDone s).spine = s.spine := by
  unfold tclkSourceChangeDone
  simp only
  split <;> simp

@[simp] theorem timeLatch_spine (fn : Nat) (s : State) : (timeLatch fn s).spine = s.spine := by simp [timeLatch]

@[simp] theorem State.sdrefLost_spine (s : State) (q : Nat) : (s.sdrefLost q).spine = s.spine := by simp [State.sdrefLost]

@[simp] theorem State.sdrefBack_spine (s : State) (q : Nat) : (s.sdrefBack q).spine = s.spine := by rfl

@[simp] theorem State.ppsConfig_spine (s : State) (n : Nat) (on : Bool) : (s.ppsConfig n on).spine = s.spine := by
  simp [State.ppsConfig]

@[simp] theorem State.timeConfig_spine (s : State) (n src : Nat) (pps : Bool) (g : ServoCfg) (freq : Option Int) :
    (s.timeConfig n src pps g freq).spine = s.spine := by
  simp [State.timeConfig]

@[simp] theorem timeConfigBody_spine (id : Nat) (c : Taken) (s : State) : (timeConfigBody id c s).spine = s.spine := by
  simp [timeConfigBody]

@[simp] theorem timeOffsetStepBody_spine (id : Nat) (c : Taken) (s : State) :
    (timeOffsetStepBody id c s).spine = s.spine := by
  simp [timeOffsetStepBody]

@[simp] theorem timeOffsetServoBody_spine (id : Nat) (c : Taken) (s : State) :
    (timeOffsetServoBody id c s).spine = s.spine := by
  simp [timeOffsetServoBody]


/-! #### PTP -/

@[simp] theorem State.ptpSend_spine (s : State) (n : Nat) (m : PtpMsg) (stamp : Option Nat) :
    (s.ptpSend n m stamp).spine = s.spine := by
  simp [State.ptpSend]

@[simp] theorem State.updPtp_spine (s : State) (n : Nat) (f : PtpState → PtpState) : (s.updPtp n f).spine = s.spine := by rfl

@[simp] theorem State.ptpOffset_spine (s : State) (n : Nat) (y : PtpSync) (sent : Nat) (delay : ℚ) :
    (s.ptpOffset n y sent delay).spine = s.spine := by
  simp [State.ptpOffset]

@[simp] theorem State.ptpRequest_spine (s : State) (n : Nat) (ask : Bool) (origin : Nat) :
    (s.ptpRequest n ask origin).spine = s.spine := by
  simp [State.ptpRequest]

@[simp] theorem State.ptpDelayResp_spine (s : State) (n : Nat) (m : PtpMsg) : (s.ptpDelayResp n m).spine = s.spine := by
  unfold State.ptpDelayResp
  split
  · split <;> simp
  · simp

@[simp] theorem State.ptpPeerDelay_spine (s : State) (n back : Nat) (turn : ℚ) :
    (s.ptpPeerDelay n back turn).spine = s.spine := by
  unfold State.ptpPeerDelay
  split
  · split <;> simp
  · simp

@[simp] theorem State.ptpTake_spine (s : State) (n : Nat) (m : PtpMsg) (stamp at_ : Nat) (ask : Bool) (origin : Nat) :
    (s.ptpTake n m stamp at_ ask origin).spine = s.spine := by
  unfold State.ptpTake
  simp only
  repeat' split
  all_goals simp

@[simp] theorem ptpMessage_spine (n : Nat) (ask : Bool) (origin : Nat) (s : State) :
    (ptpMessage n ask origin s).spine = s.spine := by
  unfold ptpMessage
  simp only
  repeat' split
  all_goals simp

@[simp] theorem State.stampBack_spine (s : State) (k : Nat) (stamps : List Nat) :
    (s.stampBack k stamps).spine = s.spine := by
  unfold State.stampBack
  simp
  split <;> simp

@[simp] theorem macFrameStart_spine (p : Nat) (s : State) : (macFrameStart p s).spine = s.spine := by
  unfold macFrameStart
  simp only
  repeat' split
  all_goals simp

@[simp] theorem State.welmusReads_spine (s : State) : s.welmusReads.spine = s.spine := by
  unfold State.welmusReads
  split <;> rfl


/-! #### Registers -/

@[simp] theorem State.msixWrite_spine (s : State) (fn v k : Nat) (value : Word) :
    (s.msixWrite fn v k value).spine = s.spine := by
  simp [State.msixWrite]

@[simp] theorem State.lanternMatch_spine (s : State) (value : Word) : (s.lanternMatch value).spine = s.spine := by rfl

@[simp] theorem registerWrite_spine (fn off size : Nat) (value : Word) (s : State) :
    (registerWrite fn off size value s).spine = s.spine := by
  simp [registerWrite]


/-! #### Self-tests -/

@[simp] theorem State.lend_spine (s : State) (id : Nat) (c : Taken) (key scope : Nat) (now : Bool) :
    (s.lend id c key scope now).spine = s.spine := by
  rfl

@[simp] theorem lendBody_spine (id : Nat) (c : Taken) (s : State) : (lendBody id c s).spine = s.spine := by
  unfold lendBody
  exact State.checked_spine _ _ _ (by simp)

@[simp] theorem selftestInstanceBody_spine (id : Nat) (c : Taken) (s : State) :
    (selftestInstanceBody id c s).spine = s.spine := by
  simp [selftestInstanceBody]

@[simp] theorem selftestEyeScanBody_spine (id : Nat) (c : Taken) (s : State) :
    (selftestEyeScanBody id c s).spine = s.spine := by
  simp [selftestEyeScanBody]

@[simp] theorem selftestDeviceBody_spine (id : Nat) (c : Taken) (s : State) :
    (selftestDeviceBody id c s).spine = s.spine := by
  unfold selftestDeviceBody
  split
  · rfl
  · exact State.checked_spine _ _ _ (by simp)

@[simp] theorem State.unlend_spine (s : State) (key : Nat) : (s.unlend key).spine = s.spine := by rfl

@[simp] theorem State.testReply_spine (s : State) (id result : Nat) (payload : List Word) :
    (s.testReply id result payload).spine = s.spine := by
  unfold State.testReply
  split <;> simp

@[simp] theorem State.scanDone_spine (s : State) (id key detail : Nat) (eye : EyeScan) :
    (s.scanDone id key detail eye).spine = s.spine := by
  simp [State.scanDone]

@[simp] theorem State.stayDown_spine (s : State) (key : Nat) : (s.stayDown key).spine = s.spine := by rfl

@[simp] theorem drainTimeout_spine (id : Nat) (s : State) : (drainTimeout id s).spine = s.spine := by
  unfold drainTimeout
  simp only
  split
  · simp
  · split <;> simp


/-! #### Shapers and the probe -/

@[simp] theorem State.markShaper_spine (s : State) (level idx : Nat) : (s.markShaper level idx).spine = s.spine := by
  unfold State.markShaper
  split <;> rfl

@[simp] theorem shaperSetBody_spine (id : Nat) (c : Taken) (s : State) : (shaperSetBody id c s).spine = s.spine := by
  simp [shaperSetBody]

@[simp] theorem probeSelWrite_spine (fn : Nat) (value : Word) (s : State) : (probeSelWrite fn value s).spine = s.spine := by
  simp [probeSelWrite]


/-! #### SRAM -/

@[simp] theorem State.loseTask_spine (s : State) (t : Nat) : (s.loseTask t).spine = s.spine := by
  unfold State.loseTask
  split
  · simp
  · split <;> simp

@[simp] theorem State.engineUe_spine (s : State) (t : Nat) : (s.engineUe t).spine = s.spine := by
  unfold State.engineUe
  split <;> simp

@[simp] theorem State.sramStorm_spine (s : State) (array corrected : Nat) :
    (s.sramStorm array corrected).spine = s.spine := by
  simp [State.sramStorm]


/-! #### Statistics -/

@[simp] theorem State.statsClear_spine (s : State) (set i : Nat) : (s.statsClear set i).spine = s.spine := by
  unfold State.statsClear
  split <;> rfl

@[simp] theorem statsReadBody_spine (id : Nat) (c : Taken) (s : State) : (statsReadBody id c s).spine = s.spine := by
  simp [statsReadBody]


/-! #### Survey and voltage -/

@[simp] theorem surveyReadBody_spine (id : Nat) (c : Taken) (s : State) : (surveyReadBody id c s).spine = s.spine := by
  simp [surveyReadBody]

@[simp] theorem State.sampleMonitor_spine (values : List Nat) (railMv : Nat) (s : State) (m : Nat) :
    (s.sampleMonitor values railMv m).spine = s.spine := by
  unfold State.sampleMonitor
  split <;> simp

@[simp] theorem surveySample_spine (values : List Nat) (railMv : Nat) (s : State) :
    (surveySample values railMv s).spine = s.spine := by
  simp [surveySample]

@[simp] theorem State.surveyLimit_spine (s : State) (wanted : Nat) : (s.surveyLimit wanted).spine = s.spine := by
  simp [State.surveyLimit]

@[simp] theorem guardReplan_spine (ack : Bool) (s : State) : (guardReplan ack s).spine = s.spine := by
  unfold guardReplan
  simp only
  split
  · simp
  · split <;> simp

@[simp] theorem avsRetry_spine (ack : Bool) (s : State) : (avsRetry ack s).spine = s.spine := by
  unfold avsRetry
  simp only
  split <;> simp

@[simp] theorem hbmMarginReplan_spine (s : State) : (hbmMarginReplan s).spine = s.spine := by simp [hbmMarginReplan]


/-! #### Video decoding -/

@[simp] theorem State.requests_spine (s : State) (c b session : Nat) (fresh : Bool) (n : Nat) :
    (s.requests c b session fresh n).spine = s.spine := by
  induction n generalizing s with
  | zero => rfl
  | succ n ih => simp [State.requests, ih]

@[simp] theorem decodePictureDone_spine (task : Nat) (res : DecodeResult) (s : State) :
    (decodePictureDone task res s).spine = s.spine := by
  unfold decodePictureDone
  simp only
  repeat' split
  all_goals simp

end Sys2Proof.Machine
end

section
/-! PROOF. Drift: what most commands may do to the spine. They ask the arbiter, and where they change the mode at all
they do so by an automatic transition of R40. -/

namespace Sys2Proof.Machine

/-! ### Modes alone -/

/-- The mode in force, or in THROTTLE the return mode (R41). -/
def Modes.eff (m : Modes) : Mode := if m.mode = .throttle then m.returnMode else m.mode

/-- The arbiter's invariant, on the modes alone. -/
def Modes.wf (m : Modes) : Prop :=
  (m.mode = .quarantine → m.arb = [] ∧ m.transition = none) ∧
  (m.mode = .throttle → m.returnMode.mayReturn = true) ∧
  ∀ r, m.transition = some r → r.target = .quarantine ∨ m.eff.commanded r.target = true

/-- The automatic transitions of R40 (triggers 5 to 7). -/
def Mode.auto : Mode → Mode → Bool
  | .service, .degraded | .degraded, .service | .drain, .ready => true
  | _, _ => false

/-- The modes between which the availability of instances chooses. -/
def Mode.serves (m : Mode) : Prop := m = .service ∨ m = .degraded

/-- Where automatic transitions, one after another, may take a mode. -/
def Mode.drifts (a b : Mode) : Prop := b = a ∨ a.serves ∧ b.serves ∨ a = .drain ∧ b = .ready

theorem Mode.drifts_of_auto {a b : Mode} (h : a.auto b = true) : a.drifts b := by
  cases a <;> cases b <;> simp_all [Mode.auto, Mode.drifts, Mode.serves]

theorem Mode.drifts_trans {a b c : Mode} (h : a.drifts b) (k : b.drifts c) : a.drifts c := by
  unfold Mode.drifts Mode.serves at *
  rcases h with rfl | ⟨h, rfl | rfl⟩ | ⟨rfl, rfl⟩ <;> rcases k with rfl | ⟨k, k'⟩ | ⟨k, k'⟩ <;> simp_all

/-- What an ordinary command may do to the spine: the queue, the clock, the fuses and the grants stay, the arbiter's invariant is
kept, and the mode changes by automatic transitions only. -/
structure Spine.drifts (a b : Spine) : Prop where
  pending : b.pending = a.pending
  now : b.now = a.now
  fuses : b.fuses = a.fuses
  grants : b.grants = a.grants
  wf : a.modes.wf → b.modes.wf
  mode : a.modes.mode.drifts b.modes.mode

@[simp] theorem Spine.drifts_refl (a : Spine) : a.drifts a := ⟨rfl, rfl, rfl, rfl, id, .inl rfl⟩

theorem Spine.drifts_trans {a b c : Spine} (h : a.drifts b) (k : b.drifts c) : a.drifts c :=
  ⟨k.pending.trans h.pending, k.now.trans h.now, k.fuses.trans h.fuses, k.grants.trans h.grants, k.wf ∘ h.wf,
    Mode.drifts_trans h.mode k.mode⟩

/-- A change of the modes that keeps the mode itself. -/
theorem Spine.drifts_modes {a : Spine} {m : Modes} (hm : m.mode = a.modes.mode) (hw : a.modes.wf → m.wf) :
    a.drifts { a with modes := m } := ⟨rfl, rfl, rfl, rfl, hw, .inl hm⟩

@[simp] theorem Spine.drifts_boot (a : Spine) (b : Boot) : a.drifts { a with boot := b } :=
  ⟨rfl, rfl, rfl, rfl, id, .inl rfl⟩

variable (s : State)

@[simp] theorem State.setModes_spine (m : Modes) : (s.setModes m).spine = { s.spine with modes := m } := by rfl
@[simp] theorem State.setBoot_spine (b : Boot) : (s.setBoot b).spine = { s.spine with boot := b } := by rfl

/-- A mode's entry sets the mode, and ends the drain deadline outside DRAIN and THROTTLE. -/
@[simp] theorem State.setMode_spine (target : Mode) (trigger : Nat) : (s.setMode target trigger).spine =
    { s.spine with modes := { s.modes with
      mode := target
      drainDeadline := if target = .drain ∨ target = .throttle then s.modes.drainDeadline else none } } := by
  simp [State.setMode]

@[simp] theorem State.autoReturn_spine (target : Mode) (trigger : Nat) : (s.autoReturn target trigger).spine =
    { s.spine with modes := { s.modes with returnMode := target } } := by
  simp [State.autoReturn]

/-! ### The arbiter's invariant through changes of the modes -/

theorem Modes.wf_arb {m : Modes} (arb : List ModeReq) (hq : m.mode ≠ .quarantine) (h : m.wf) : ({ m with arb := arb } : Modes).wf :=
  ⟨fun hm => absurd hm hq, h.2.1, h.2.2⟩

/-- The three pairs of modes of the automatic transitions. -/
theorem Mode.auto_cases {a b : Mode} (h : a.auto b = true) :
    a = .service ∧ b = .degraded ∨ a = .degraded ∧ b = .service ∨ a = .drain ∧ b = .ready := by
  cases a <;> cases b <;> simp_all [Mode.auto]

theorem Modes.mode_eq_eff {m : Modes} (h : m.mode ≠ .throttle) : m.mode = m.eff := (if_neg h).symm

/-- The mode in force after an automatic transition, with none in progress. -/
theorem Modes.wf_of_idle {m : Modes} (hq : m.mode ≠ .quarantine) (hr : m.mode = .throttle → m.returnMode.mayReturn = true)
    (ht : m.transition = none) : m.wf :=
  ⟨fun h => absurd h hq, hr, fun r h => by simp [ht] at h⟩

theorem Modes.not_quarantine_of_eff {m : Modes} {a b : Mode} (ha : a.auto b = true) (he : m.eff = a) : m.mode ≠ .quarantine := by
  intro hq
  have : m.eff = .quarantine := by simp [Modes.eff, hq]
  rcases Mode.auto_cases ha with ⟨h, -⟩ | ⟨h, -⟩ | ⟨h, -⟩ <;> simp_all

/-- An automatic transition that takes place while none is in progress. -/
theorem State.autoNow_drifts {source target : Mode} (trigger : Nat) (ha : source.auto target = true)
    (ht : s.effMode = source → s.modes.transition = none) : s.spine.drifts (s.autoNow source target trigger).spine := by
  unfold State.autoNow
  split
  · simp
  next hne =>
    have he : s.modes.eff = source := not_not.mp hne
    have hno := ht he
    have hq := Modes.not_quarantine_of_eff ha he
    split
    next hgo =>
      have hcmd : source.commanded target = true := by
        rcases Mode.auto_cases ha with ⟨rfl, rfl⟩ | ⟨rfl, rfl⟩ | ⟨rfl, rfl⟩ <;> simp_all [Mode.carries, Mode.commanded]
      simp only [hno, Option.isNone_none, if_true, State.setModes_spine]
      refine Spine.drifts_modes rfl fun hw => ⟨fun h => absurd h hq, hw.2.1, fun r hr => .inr ?_⟩
      cases hr
      exact he ▸ hcmd
    · split
      next hth =>
        rw [State.autoReturn_spine]
        refine Spine.drifts_modes rfl fun _ => Modes.wf_of_idle hq (fun _ => ?_) hno
        rcases Mode.auto_cases ha with ⟨rfl, rfl⟩ | ⟨rfl, rfl⟩ | ⟨rfl, rfl⟩ <;> rfl
      next hth =>
        rw [State.setMode_spine]
        have hmode : s.modes.mode = source := (Modes.mode_eq_eff hth).trans he
        refine ⟨rfl, rfl, rfl, rfl, fun _ => Modes.wf_of_idle ?_ (fun h => ?_) hno, hmode ▸ Mode.drifts_of_auto ha⟩
        · rcases Mode.auto_cases ha with ⟨-, rfl⟩ | ⟨-, rfl⟩ | ⟨-, rfl⟩ <;> exact nofun
        · rcases Mode.auto_cases ha with ⟨-, rfl⟩ | ⟨-, rfl⟩ | ⟨-, rfl⟩ <;> cases h

theorem State.autoMode_drifts {source target : Mode} (trigger : Nat) (ha : source.auto target = true) :
    s.spine.drifts (s.autoMode source target trigger).spine := by
  unfold State.autoMode
  split
  next hw =>
    have hq : s.modes.mode ≠ .quarantine := by
      rcases hw with ⟨h, -⟩ | ⟨h, -⟩
      · rw [h]
        rcases Mode.auto_cases ha with ⟨rfl, -⟩ | ⟨rfl, -⟩ | ⟨rfl, -⟩ <;> decide
      · exact Modes.not_quarantine_of_eff ha h
    exact Spine.drifts_modes rfl fun h => Modes.wf_arb _ hq h
  next hw =>
    refine s.autoNow_drifts trigger ha fun he => ?_
    cases htr : s.modes.transition with
    | none => rfl
    | some r => exact absurd (.inr ⟨he, by simp [htr]⟩) hw

/-! ### Changes that ask the arbiter or may change the mode -/

@[simp] theorem Spine.drifts_ite (a b c : Spine) (p : Prop) [Decidable p] :
    a.drifts (if p then b else c) ↔ if p then a.drifts b else a.drifts c := by
  split <;> rfl

@[simp] theorem Spine.drifts_setBoot {a b : Spine} (h : a.drifts b) (x : Boot) :
    a.drifts ⟨b.pending, b.now, b.fuses, b.grants, x, b.modes⟩ := Spine.drifts_trans h (b.drifts_boot x)

section
variable {a : Spine} {s : State} (h : a.drifts s.spine)
include h

theorem State.drifts_autoMode {source target : Mode} (trigger : Nat) (ha : source.auto target = true) :
    a.drifts (s.autoMode source target trigger).spine := Spine.drifts_trans h (s.autoMode_drifts trigger ha)

@[simp] theorem State.drifts_instanceDown (kind idx : Nat) (held : Bool) : a.drifts (s.instanceDown kind idx held).spine := by
  unfold State.instanceDown
  exact State.drifts_autoMode (by simp [h]) 5 rfl

@[simp] theorem State.drifts_instanceUp (kind idx : Nat) : a.drifts (s.instanceUp kind idx).spine := by
  unfold State.instanceUp
  simp only
  split
  · simp [h]
  · exact State.drifts_autoMode (by simp [h]) 6 rfl

@[simp] theorem State.drifts_drainCheck : a.drifts s.drainCheck.spine := by
  unfold State.drainCheck
  split
  · exact State.drifts_autoMode h 7 rfl
  · exact h

/-- A fatal condition only asks the arbiter, and not in QUARANTINE. -/
@[simp] theorem State.drifts_fatal (cause : Nat) (d : Word) : a.drifts (s.fatal cause d).spine := by
  unfold State.fatal
  split
  · exact h
  next hm =>
    split
    · simpa using h
    · exact Spine.drifts_trans h (Spine.drifts_modes rfl fun hw => Modes.wf_arb _ (fun hq => hm (.inl hq)) hw)

@[simp] theorem State.drifts_closeLeg (leg cause fn : Nat) : a.drifts (s.closeLeg leg cause fn).spine := by
  unfold State.closeLeg
  split
  · exact h
  · simp [h]

end

end Sys2Proof.Machine
end

section
/-! PROOF. Drift of the rows that may lose an instance, ask for QUARANTINE or close a leg. -/

namespace Sys2Proof.Machine

section
variable {a : Spine} {s : State} (h : a.drifts s.spine)
include h

@[simp] theorem State.drifts_foldl_of {α : Type} {f : State → α → State}
    (hf : ∀ (s : State) x, a.drifts s.spine → a.drifts (f s x).spine) (l : List α) : a.drifts (l.foldl f s).spine := by
  induction l generalizing s with
  | nil => exact h
  | cons x l ih => exact ih (hf s x h)

theorem State.drifts_checked (id : Nat) (checks : List (Bool × Nat)) {ok : State → State}
    (hok : firstFail checks = none → a.drifts (ok s).spine) : a.drifts (s.checked id checks ok).spine := by
  unfold State.checked
  split
  · simpa using h
  next hn => exact hok hn

theorem State.drifts_command (id op : Nat) {body : Taken → State → State}
    (hb : ∀ c (s : State), a.drifts s.spine → a.drifts (body c s).spine) : a.drifts (s.command id op body).spine := by
  unfold State.command
  simp only
  split
  · simpa using h
  · split
    · simpa using h
    · split
      · simpa using h
      · exact hb _ _ (by simpa using h)

@[simp] theorem State.drifts_portWhole (p : Nat) : a.drifts (s.portWhole p).spine := by
  unfold State.portWhole
  split <;> simp [h]

@[simp] theorem State.drifts_fenceEngine (kind i cause task : Nat) : a.drifts (s.fenceEngine kind i cause task).spine := by
  unfold State.fenceEngine
  simp only
  split <;> simp [h]

@[simp] theorem drifts_closeGranted (fn : Nat) (tag : Word) (leg : Nat) : a.drifts (closeGranted fn tag s leg).spine := by
  simp [closeGranted, h]

@[simp] theorem drifts_closeDrained (leg : Nat) : a.drifts (closeDrained s leg).spine := by
  simp [closeDrained, h]

@[simp] theorem State.drifts_poisonAct (n line cls : Nat) : a.drifts (s.poisonAct n line cls).spine := by
  simp [State.poisonAct, h]

@[simp] theorem State.drifts_poisonDelivered (n line cls : Nat) : a.drifts (s.poisonDelivered n line cls).spine := by
  simp [State.poisonDelivered, h]

@[simp] theorem State.drifts_serveRead (n line cls : Nat) (flips : List Nat) :
    a.drifts (s.serveRead n line cls flips).2.spine := by
  unfold State.serveRead
  split
  · simp [h]
  · split <;> simp [h]

@[simp] theorem State.drifts_serveQueued (n : Nat) (q : QRead) : a.drifts (s.serveQueued n q).spine := by
  simp [State.serveQueued, h]

@[simp] theorem State.drifts_serveNext (n : Nat) : a.drifts (s.serveNext n).spine := by
  unfold State.serveNext
  simp only
  split
  · simp [h]
  · split
    · simp [h]
    · split <;> simp [h]

@[simp] theorem State.drifts_drainIdle : a.drifts s.drainIdle.spine := by
  unfold State.drainIdle
  split
  · exact h
  · exact State.drifts_foldl_of h (fun s p hs => by simp [hs]) _

@[simp] theorem drifts_hbmRead (n addr cls : Nat) (port : RtPort) (hostDma : Bool) (flips : List Nat) :
    a.drifts (hbmRead n addr cls port hostDma flips s).spine := by
  unfold hbmRead
  simp only
  split
  · simp [h]
  · split <;> split <;> simp [h]

@[simp] theorem State.drifts_patrolLine (n u : Nat) (flips : List (Nat × List Nat)) (i : Nat) :
    a.drifts (State.patrolLine n u flips s i).spine := by
  unfold State.patrolLine
  simp only
  split <;> simp [h]

@[simp] theorem drifts_patrolScrubRow (n : Nat) (flips : List (Nat × List Nat)) : a.drifts (patrolScrubRow n flips s).spine := by
  unfold patrolScrubRow
  simp only
  split
  · simp [h]
  · exact State.drifts_foldl_of (by simp [h]) (fun s i hs => by simp [hs]) _

@[simp] theorem State.drifts_retirePch (n : Nat) : a.drifts (s.retirePch n).spine := by
  simp [State.retirePch, h]

@[simp] theorem State.drifts_trained (n sp : Nat) (ok : Bool) (value : Nat) : a.drifts (s.trained n sp ok value).spine := by
  simp [State.trained, h]

@[simp] theorem drifts_trainingBurstEnd (stack : Nat) : a.drifts (trainingBurstEnd stack s).spine := by
  unfold trainingBurstEnd
  simp only
  split <;> simp [h]

@[simp] theorem drifts_junctionFatal : a.drifts (junctionFatal s).spine := by
  unfold junctionFatal
  simp only
  split
  · simp [h]
  · split <;> simp [h]

@[simp] theorem drifts_railOutOfWindow (rail lowNs : Nat) : a.drifts (railOutOfWindow rail lowNs s).spine := by
  simp [railOutOfWindow, h]

theorem drifts_abortTimeout (task : Nat) : a.drifts (abortTimeout task s).spine := by
  unfold abortTimeout
  simp only
  split
  next h' =>
    have hs := State.takeAbort_spine h'
    split <;> simp [hs, h]
  · simp [h]

theorem drifts_decoderOverrun (task : Nat) : a.drifts (decoderOverrun task s).spine := by
  unfold decoderOverrun
  simp only
  split
  next h' =>
    have hs := State.takeAbort_spine h'
    split <;> simp [hs, h]
  · simp [h]

theorem drifts_fencedInstanceRelease (kind inst : Nat) (result : TestResult) :
    a.drifts (fencedInstanceRelease kind inst result s).spine := by
  unfold fencedInstanceRelease
  simp only
  split <;> simp [h]

theorem drifts_alignDone (p order skewPs : Nat) : a.drifts (alignDone p order skewPs s).spine := by
  unfold alignDone
  simp only
  split <;> simp [h]

@[simp] theorem State.drifts_portConfig (p : Nat) (g : PortCfg) : a.drifts (s.portConfig p g).spine := by
  simp [State.portConfig, h]

theorem drifts_portConfigBody (id : Nat) (c : Taken) : a.drifts (portConfigBody id c s).spine := by
  refine State.drifts_checked h _ _ fun _ => ?_
  split <;> simp [h]

theorem drifts_legCloseBody (id : Nat) (c : Taken) : a.drifts (legCloseBody id c s).spine :=
  State.drifts_checked h _ _ fun _ => by simp [h]

@[simp] theorem State.drifts_returnInst (key : Nat) : a.drifts (s.returnInst key).spine := by
  simp [State.returnInst, h]

@[simp] theorem State.drifts_failInst (key detail : Nat) : a.drifts (s.failInst key detail).spine := by
  simp [State.failInst, h]

@[simp] theorem State.drifts_fenceCore (core : Nat) : a.drifts (s.fenceCore core).spine := by
  simp [State.fenceCore, h]

@[simp] theorem State.drifts_deviceFailure (f : Nat × Nat) : a.drifts (s.deviceFailure f).spine := by
  simp [State.deviceFailure, h]

@[simp] theorem State.drifts_deviceDone (id : Nat) (failures : List (Nat × Nat)) : a.drifts (s.deviceDone id failures).spine := by
  unfold State.deviceDone
  rw [State.testReply_spine]
  refine State.drifts_foldl_of (State.drifts_foldl_of (by simp [h]) (fun s f hs => ?_) _) (fun s k hs => ?_) _
  · simp [hs]
  · simp [hs]

theorem drifts_selftestDone (id : Nat) (result : TestResult) (eye : EyeScan) (failures : List (Nat × Nat)) :
    a.drifts (selftestDone id result eye failures s).spine := by
  unfold selftestDone
  simp only
  split
  · simp [h]
  · split <;> simp [h]

theorem drifts_selftestTimeout (id : Nat) : a.drifts (selftestTimeout id s).spine := by
  unfold selftestTimeout
  simp only
  split <;> simp [h]

theorem drifts_freqMonitorWindow (ref : Ref) (permille : Nat) : a.drifts (freqMonitorWindow ref permille s).spine := by
  unfold freqMonitorWindow
  simp only
  split
  · simp [h]
  · split
    · split <;> simp [h]
    all_goals simp [h]
end

end Sys2Proof.Machine
end

section
/-! PROOF. Drift of resets of functions, of restarts, of the boot rows and of DEVICE_MODE_SET. -/

namespace Sys2Proof.Machine

theorem Modes.wf_arb_filter {m : Modes} (p : ModeReq → Bool) (h : m.wf) : ({ m with arb := m.arb.filter p } : Modes).wf :=
  ⟨fun hq => by obtain ⟨ha, ht⟩ := h.1 hq; exact ⟨by simp [ha], ht⟩, h.2.1, h.2.2⟩

/-- The commands behind the requests do not matter. -/
theorem Modes.wf_dropCmds {m : Modes} (p : ModeReq → Bool) (h : m.wf) : ({ m with
    transition := m.transition.map fun r => { r with cmd := none }
    arb := m.arb.filter p } : Modes).wf := by
  refine ⟨fun hq => ?_, h.2.1, fun r hr => ?_⟩
  · obtain ⟨ha, ht⟩ := h.1 hq
    simp [ha, ht]
  · obtain ⟨q, hq, rfl⟩ := Option.map_eq_some_iff.mp hr
    exact h.2.2 q hq

section
variable {a : Spine} {s : State} (h : a.drifts s.spine)
include h

omit h in
theorem State.modes_of_spine {t : State} (e : t.spine = s.spine) : t.modes = s.modes := congrArg Spine.modes e

/-- A change of the modes that keeps the mode and the arbiter's invariant. -/
theorem State.drifts_modes {m : Modes} (hm : m.mode = s.modes.mode) (hw : s.modes.wf → m.wf) :
    a.drifts { s.spine with modes := m } := Spine.drifts_trans h (Spine.drifts_modes hm hw)

@[simp] theorem State.drifts_resetFn (fn : Nat) : a.drifts (s.resetFn fn).spine := by
  have h' : a.drifts (s.revokeDma fn).spine := by simpa using h
  exact State.drifts_modes h' rfl (Modes.wf_arb_filter _)

@[simp] theorem State.drifts_resetFns (fns : List Nat) : a.drifts (s.resetFns fns).spine :=
  State.drifts_foldl_of h (fun _ fn hs => State.drifts_resetFn hs fn) fns

@[simp] theorem State.drifts_setCause (bits : Nat) : a.drifts (s.setCause bits).spine := by
  simp [State.setCause, h]

@[simp] theorem State.drifts_pushAgain : a.drifts s.pushAgain.spine := by
  simp [State.pushAgain, h]

theorem drifts_perst : a.drifts (perst s).spine := by
  unfold perst
  simp only
  split
  · simp [h]
  · have hr : a.drifts ((State.resetFns { s.begin with pins := { s.begin.pins with perstN := false, linkUp := false } }
        (List.range 64)).setCause 16).spine := State.drifts_setCause (by simp [h]) 16
    split
    · exact State.drifts_pushAgain hr
    · exact hr

theorem drifts_vfFlr (fn : Nat) : a.drifts (vfFlr fn s).spine := by
  simp [vfFlr, h]

theorem drifts_drainDeadlineExpiry : a.drifts (drainDeadlineExpiry s).spine := by
  unfold drainDeadlineExpiry
  simp only
  split
  · simpa using h
  · split
    · simpa using h
    · exact State.drifts_foldl_of
        (s := s.begin.setModes { s.begin.modes with drainDeadline := none })
        (State.drifts_modes (s := s.begin) (by simpa using h) rfl id)
        (fun _ l hs => drifts_closeDrained hs l) _

theorem State.drifts_fwRestartNow : a.drifts s.fwRestartNow.spine := by
  unfold State.fwRestartNow
  simp only [State.spine_mk, State.spine_eta, State.dropLoads_spine, State.setModes_spine]
  refine State.drifts_modes (s := List.foldl ..) ?_ rfl (Modes.wf_dropCmds _)
  rw [State.spine_foldl failCommand_spine]
  exact State.drifts_modes (s := s.setCause 32) (State.drifts_setCause h 32) rfl id

theorem State.drifts_watchdog : a.drifts s.watchdog.spine := by
  unfold State.watchdog
  simp only
  have h' : a.drifts (((s.setModes { s.modes with
      watchdogs := s.now :: s.modes.watchdogs.filter fun t => decide (s.now < t + 60000000000) }).fault 0x58 0 0
        (w32 ((s.modes.watchdogs.filter fun t => decide (s.now < t + 60000000000)).length + 1)) 0).spine) := by
    rw [State.fault_spine]
    exact State.drifts_modes h rfl id
  split
  · exact State.drifts_fwRestartNow h'
  · exact State.drifts_fatal h' _ _

theorem drifts_watchdogExpiry : a.drifts (watchdogExpiry s).spine := by
  unfold watchdogExpiry
  simp only
  split
  · exact State.drifts_watchdog (by simpa using h)
  · simpa using h

theorem State.drifts_sramUe (array x obj : Nat) : a.drifts (s.sramUe array x obj).spine := by
  unfold State.sramUe
  split
  case h_3 =>
    split
    · exact State.drifts_watchdog h
    · exact h
  case h_6 =>
    split
    · exact h
    · split <;> simp [h]
  case h_7 =>
    split <;> simp [h]
  all_goals simp [h]

theorem drifts_sramSweep (array corrected : Nat) (uncorrectable : Option Nat) (object : Nat) :
    a.drifts (sramSweep array corrected uncorrectable object s).spine := by
  unfold sramSweep
  simp only
  split
  · simpa using h
  · split
    · simpa using h
    · exact State.drifts_sramUe (by simpa using h) _ _ _

theorem drifts_fwRestartDone : a.drifts (s.begin.setModes { s.begin.modes with fwRestart := false }).spine :=
  State.drifts_modes h rfl id

/-! ### Boot rows -/

@[simp] theorem State.drifts_openWindow : a.drifts s.openWindow.spine := by
  simp [State.openWindow, h]

@[simp] theorem State.drifts_setResult (src code : Nat) : a.drifts (s.setResult src code).spine := by
  simp [State.setResult, h]

@[simp] theorem State.drifts_headerChecked (src : Nat) (x : BootHeader) (code : Nat) :
    a.drifts (s.headerChecked src x code).spine := by
  simp [State.headerChecked, h]

theorem drifts_bootImageCheck (read : BootRead) : a.drifts (bootImageCheck read s).spine := by
  unfold bootImageCheck
  simp only
  split
  · simp [h]
  · split
    · cases read with
      | header x => simp [h]
      | noImage => exact State.drifts_openWindow (State.drifts_setResult (by simp [h]) _ 2)
      | flashError => exact State.drifts_openWindow (State.drifts_setResult (by simp [h]) _ 7)
    · split <;> simp [h]

theorem drifts_bootWindowWrite (off : Nat) (value : Byte) : a.drifts (bootWindowWrite off value s).spine := by
  unfold bootWindowWrite
  simp only
  split <;> simp [h]

theorem drifts_bootDoorbell (length : Word) : a.drifts (bootDoorbell length s).spine := by
  unfold bootDoorbell
  simp only
  split <;> simp [h]

theorem drifts_resetCauseWrite (fn : Nat) (value : Word) : a.drifts (resetCauseWrite fn value s).spine := by
  unfold resetCauseWrite
  simp only
  split <;> simp [h]

theorem State.drifts_calEffect (step : CalStep) : a.drifts (s.calEffect step).spine := by
  cases step <;> simp [State.calEffect, h]

/-! ### DEVICE_MODE_SET and TENANT_GRANT -/

end

/-- Checks that all pass do not hold back. -/
theorem firstFail_eq_none {checks : List (Bool × Nat)} (h : firstFail checks = none) {b : Bool} {code : Nat}
    (hm : (b, code) ∈ checks) : b = false := by
  induction checks with
  | nil => cases hm
  | cons p r ih =>
    obtain ⟨bad, k⟩ := p
    cases bad with
    | true => simp [firstFail] at h
    | false =>
      rcases List.mem_cons.mp hm with he | hr
      · exact congrArg Prod.fst he
      · exact ih (by simpa [firstFail] using h) hr

/-- A mode that serves DEVICE_MODE_SET is not QUARANTINE. -/
theorem State.mode_ne_quarantine_of_serves {s : State} (h : s.serves 0x011 = true) : s.modes.mode ≠ .quarantine := by
  intro hq
  simp [State.serves, State.effMode, hq, Mode.working] at h

section
variable {a : Spine} {s : State} (h : a.drifts s.spine)
include h

/-- DEVICE_MODE_SET reaches the arbiter in a mode that serves it only, which QUARANTINE is not. -/
theorem drifts_deviceModeSetBody (id : Nat) (c : Taken) : a.drifts (deviceModeSetBody id c s).spine := by
  refine State.drifts_checked h _ _ fun hn => ?_
  have hq : s.modes.mode ≠ .quarantine :=
    State.mode_ne_quarantine_of_serves (by simpa using firstFail_eq_none hn (.tail _ (.tail _ (.head _))))
  split
  · exact h
  · split
    · simp only
      generalize hu : (s.commitEntry c rOk 0 0 0).finish id c rOk 0 0 _ = u
      have he : u.spine = s.spine := by simp [← hu]
      exact State.drifts_modes (he ▸ h) rfl (Modes.wf_arb _ (State.modes_of_spine he ▸ hq))
    · split
      · exact h
      · exact State.drifts_modes h rfl (Modes.wf_arb _ hq)

omit h in
theorem drifts_replaceGrant (fn : Nat) (g : Grant) (tag : Word) :
    ∃ gs, ({ s.spine with grants := gs } : Spine).drifts (s.replaceGrant fn g tag).spine := by
  unfold State.replaceGrant
  simp only
  refine ⟨if g.confCount = 0 ∧ g.slotCount = 0 then s.grants.del fn else s.grants.put fn g, ?_⟩
  rw [State.spine_foldl (eraseGranted_spine tag)]
  exact State.drifts_foldl_of (s := { s with grants := _ }) (Spine.drifts_refl _) (fun _ l hs => drifts_closeGranted hs fn tag l) _

end

/-- A cycle of TCLK: the clock advances by one. -/
theorem State.drifts_idle (s : State) : ({ s.spine with now := s.now + 1 } : Spine).drifts s.idle.spine := by
  simp only [State.idle, State.sumpPanic_spine, State.endXfades_spine, State.publishDue_spine]
  exact State.drifts_drainIdle ((State.welmusReads_spine _).symm ▸ Spine.drifts_refl _)

end Sys2Proof.Machine
end

section
/-! PROOF. The table of R40 as a relation between states, and THROTTLE. -/

namespace Sys2Proof.Machine

/-! ### Drift and the table of R40 -/

theorem Mode.mayGo_of_drifts {a b : Mode} (h : a.drifts b) : a.mayGo b = true := by
  rcases h with rfl | ⟨rfl | rfl, rfl | rfl⟩ | ⟨rfl, rfl⟩ <;> simp [Mode.mayGo]

theorem Mode.eq_of_drifts {a b : Mode} (h : a.drifts b) (hs : ¬ a.serves) (hd : a ≠ .drain) : b = a := by
  rcases h with rfl | ⟨ha, -⟩ | ⟨ha, -⟩
  · rfl
  · exact absurd ha hs
  · exact absurd ha hd

theorem Mode.mayGo_self (a : Mode) : a.mayGo a = true := by simp [Mode.mayGo]

theorem Mode.mayGo_reset (a : Mode) : a.mayGo .reset = true := by simp [Mode.mayGo]

theorem Mode.mayGo_of_commanded {a b : Mode} (h : a.commanded b = true) : a.mayGo b = true := by simp [Mode.mayGo, h]

theorem Mode.mayGo_throttle {a : Mode} (h : a.throttles = true) : a.mayGo .throttle = true := by simp [Mode.mayGo, h]

theorem Mode.mayGo_return {b : Mode} (h : b.mayReturn = true) : Mode.throttle.mayGo b = true := by simp [Mode.mayGo, h]

theorem Mode.mayGo_quarantine {a : Mode} (h : a ≠ .reset) : a.mayGo .quarantine = true := by simp [Mode.mayGo, h]

theorem Mode.mayReturn_of_throttles {a : Mode} (h : a.throttles = true) : a.mayReturn = true := by
  cases a <;> simp_all [Mode.throttles, Mode.mayReturn]

/-- Where a commanded transition may lead. -/
theorem Mode.commanded_cases {a b : Mode} (h : a.commanded b = true) : b.mayReturn = true ∧ b ≠ .quarantine ∧ b ≠ .throttle := by
  cases a <;> cases b <;> simp_all [Mode.commanded, Mode.mayReturn]

/-- SERVICE and DEGRADED are commanded alike. -/
theorem Mode.commanded_serves {a b c : Mode} (h : a.commanded b = true) (hb : b.serves) (hc : c.serves) : a.commanded c = true := by
  rcases hb with rfl | rfl <;> rcases hc with rfl | rfl <;> cases a <;> simp_all [Mode.commanded]

/-- The queue, the clock and the fuses stay. -/
def Spine.stays (a b : Spine) : Prop := b.pending = a.pending ∧ b.now = a.now ∧ b.fuses = a.fuses

@[simp] theorem Spine.stays_refl (a : Spine) : a.stays a := ⟨rfl, rfl, rfl⟩

theorem Spine.stays_trans {a b c : Spine} (h : a.stays b) (k : b.stays c) : a.stays c :=
  ⟨k.1.trans h.1, k.2.1.trans h.2.1, k.2.2.trans h.2.2⟩

theorem Spine.stays_of_drifts {a b : Spine} (h : a.drifts b) : a.stays b := ⟨h.pending, h.now, h.fuses⟩

/-- The mode changes along the table of R40, or from SERVICE or DEGRADED through DRAIN to READY where the last leg is gone; the
arbiter's invariant is kept. -/
def State.tabled (s t : State) : Prop :=
  s.modesWf → t.modesWf ∧ (s.modes.mode.mayGo t.modes.mode = true ∨
    ((s.modes.mode = .service ∨ s.modes.mode = .degraded) ∧ t.modes.mode = .ready ∧ t.legs = []))

/-- What a command that writes no fuse does: queue, clock and fuses stay, and the mode follows the table. -/
structure State.follows (s t : State) : Prop where
  stays : s.spine.stays t.spine
  tabled : s.tabled t

theorem State.follows_of_drifts {s t : State} (h : s.spine.drifts t.spine) : s.follows t :=
  ⟨Spine.stays_of_drifts h, fun hw => ⟨h.wf hw, .inl (Mode.mayGo_of_drifts h.mode)⟩⟩

/-- What goes before and leaves the spine does not matter. -/
theorem State.follows_congr {s u t : State} (hs : u.spine = s.spine) (h : u.follows t) : s.follows t := by
  have hm := State.modes_of_spine hs
  refine ⟨hs ▸ h.stays, fun hw => ?_⟩
  have := h.tabled (show u.modes.wf from hm ▸ hw)
  rwa [hm] at this

/-- A command that leaves the modes as they are in a reset follows the table. -/
theorem Modes.wf_reset {m : Modes} (hm : m.mode = .reset) (ht : m.transition = none) : m.wf :=
  Modes.wf_of_idle (by simp [hm]) (by simp [hm]) ht

/-! ### Resets -/

theorem State.mainReset_spine (s : State) (bit : Nat) (lost warm : Bool) : (s.mainReset bit lost warm).spine =
    { s.spine with
      grants := [], boot := (s.mainReset bit lost warm).boot
      modes := { ({} : Modes) with bootCount := if warm then min (s.modes.bootCount + 1) 0xFFFF else s.modes.bootCount } } := by
  rfl

theorem State.follows_reset {s t : State} (hs : s.spine.stays t.spine) (hm : t.modes.mode = .reset)
    (ht : t.modes.transition = none) : s.follows t :=
  ⟨hs, fun _ => ⟨Modes.wf_reset hm ht, .inl (hm ▸ Mode.mayGo_reset _)⟩⟩

/-! ### THROTTLE (R41, R472) -/

/-- The invariant goes on where the mode in force for the data path and the transition stay. -/
theorem Modes.wf_of_eff {m m' : Modes} (hw : m.wf) (he : m'.eff = m.eff) (ht : m'.transition = m.transition)
    (hq : m'.mode ≠ .quarantine) (hr : m'.mode = .throttle → m'.returnMode.mayReturn = true) : m'.wf :=
  ⟨fun h => absurd h hq, hr, fun r h => he ▸ hw.2.2 r (ht ▸ h)⟩

theorem Modes.eff_of_ne {m : Modes} (h : m.mode ≠ .throttle) : m.eff = m.mode := if_neg h

theorem Modes.eff_throttle {m : Modes} (h : m.mode = .throttle) : m.eff = m.returnMode := if_pos h

theorem State.enterThrottle_spine {s : State} (h : s.modes.mode.throttles = true) : s.enterThrottle.spine =
    { s.spine with modes := { s.modes with mode := .throttle, returnMode := s.modes.mode } } := by
  simp [State.enterThrottle, h]

theorem State.enterThrottle_follows {s : State} (h : s.modes.mode.throttles = true) : s.follows s.enterThrottle := by
  refine ⟨by rw [State.enterThrottle_spine h]; exact ⟨rfl, rfl, rfl⟩, fun hw => ?_⟩
  have hm : s.enterThrottle.modes = { s.modes with mode := .throttle, returnMode := s.modes.mode } :=
    congrArg Spine.modes (State.enterThrottle_spine h)
  have hne : s.modes.mode ≠ .throttle := fun he => by simp [he, Mode.throttles] at h
  refine ⟨?_, .inl (by rw [hm]; exact Mode.mayGo_throttle h)⟩
  show s.enterThrottle.modes.wf
  rw [hm]
  exact Modes.wf_of_eff hw (Modes.eff_of_ne hne).symm rfl nofun fun _ => Mode.mayReturn_of_throttles h

theorem State.startResume_modes (s : State) (cmd : Option Nat) : (s.startResume cmd).modes =
    { s.modes with resuming := true, resumeCmd := cmd } := by rfl

theorem State.setMode_stays (s : State) (target : Mode) (trigger : Nat) : s.spine.stays (s.setMode target trigger).spine := by
  rw [State.setMode_spine]
  exact ⟨rfl, rfl, rfl⟩

theorem State.setMode_modes (s : State) (target : Mode) (trigger : Nat) : (s.setMode target trigger).modes = { s.modes with
    mode := target
    drainDeadline := if target = .drain ∨ target = .throttle then s.modes.drainDeadline else none } :=
  congrArg Spine.modes (s.setMode_spine target trigger)

/-- THROTTLE's return mode as it is entered; on the way to CALIBRATE the resume steps start (R62). -/
def State.toReturn (s : State) : State :=
  let u := s.setMode s.modes.returnMode 9
  if u.modes.mode = .calibrate then u.startResume none else u

theorem State.toReturn_spec (s : State) : s.spine.stays s.toReturn.spine ∧ s.toReturn.modes.mode = s.modes.returnMode ∧
    s.toReturn.modes.transition = s.modes.transition := by
  have hs := s.setMode_stays s.modes.returnMode 9
  have hm := s.setMode_modes s.modes.returnMode 9
  unfold State.toReturn
  simp only
  split
  · exact ⟨hs, by rw [State.startResume_modes, hm], by rw [State.startResume_modes, hm]⟩
  · exact ⟨hs, by rw [hm], by rw [hm]⟩

/-- Leaving THROTTLE enters the return mode and keeps a transition in progress. -/
theorem State.leaveThrottle_spine {s : State} (h : s.modes.mode = .throttle) : s.leaveThrottle.spine =
    { s.toReturn.spine with modes := { s.toReturn.modes with returnMode := .reset } } := by
  simp only [State.leaveThrottle, h, if_true, State.raiseEvent_spine, State.fault_spine, State.spine_mk, State.spine_eta,
    State.setModes_spine]
  rfl

theorem State.leaveThrottle_modes {s : State} (h : s.modes.mode = .throttle) : s.leaveThrottle.modes.mode = s.modes.returnMode ∧
    s.leaveThrottle.modes.transition = s.modes.transition := by
  have hm : s.leaveThrottle.modes = { s.toReturn.modes with returnMode := .reset } :=
    congrArg Spine.modes (State.leaveThrottle_spine h)
  rw [hm]
  exact s.toReturn_spec.2

theorem State.leaveThrottle_follows {s : State} (h : s.modes.mode = .throttle) : s.follows s.leaveThrottle := by
  obtain ⟨hm, ht⟩ := State.leaveThrottle_modes h
  refine ⟨by rw [State.leaveThrottle_spine h]; exact s.toReturn_spec.1, fun hw => ?_⟩
  have hr := hw.2.1 h
  have hne : s.leaveThrottle.modes.mode ≠ .throttle := fun he => by simp [← hm, he, Mode.mayReturn] at hr
  refine ⟨?_, .inl (by rw [h, hm]; exact Mode.mayGo_return hr)⟩
  exact Modes.wf_of_eff hw ((Modes.eff_of_ne hne).trans (hm.trans (Modes.eff_throttle h).symm)) ht
    (fun hq => by simp [← hm, hq, Mode.mayReturn] at hr) (fun he => absurd he hne)

/-- THROTTLE's entry, its exit, or a request to the arbiter, which QUARANTINE does not take. -/
theorem State.throttleReq_follows {s : State} {trigger : Nat} (hq : s.modes.mode ≠ .quarantine)
    (h8 : trigger = 8 → s.modes.mode.throttles = true) (h9 : trigger ≠ 8 → s.modes.mode = .throttle) :
    s.follows (s.throttleReq trigger) := by
  unfold State.throttleReq
  split
  · split
    next h => exact State.enterThrottle_follows (h8 h)
    next h => exact State.leaveThrottle_follows (h9 h)
  · split
    · exact State.follows_of_drifts (Spine.drifts_refl _)
    · exact State.follows_of_drifts (State.drifts_modes (Spine.drifts_refl _) rfl (Modes.wf_arb _ hq))

theorem thermalSensorRead_follows (sensors : List Int) (caseSide : Int) (s : State) :
    s.follows (thermalSensorRead sensors caseSide s) := by
  unfold thermalSensorRead
  simp only
  split
  · exact State.follows_of_drifts (by simp)
  · split
    next h =>
      have hq : ∀ m : Mode, m.throttles = true → m ≠ .quarantine := by intro m hm he; simp [he, Mode.throttles] at hm
      exact State.follows_congr (u := { s.begin with thermal := _ }) rfl
        (State.throttleReq_follows (hq _ h.2) (fun _ => h.2) (fun h8 => absurd rfl h8))
    · exact State.follows_of_drifts (by simp)

theorem thermalExit_follows (s : State) : s.follows (thermalExit s) := by
  unfold thermalExit
  simp only
  split
  next h =>
    exact State.follows_congr (u := s.begin) rfl
      (State.throttleReq_follows (by rw [h.1]; exact nofun) (fun h8 => absurd h8 (by decide)) (fun _ => h.1))
  · exact State.follows_of_drifts (by simp)

end Sys2Proof.Machine
end

section
/-! PROOF. What the mode arbiter takes. -/

namespace Sys2Proof.Machine

/-! ### The arbiter (R43, R44) -/

theorem State.serviceMode_serves (s : State) : s.serviceMode.serves := by
  unfold State.serviceMode Mode.serves
  split <;> simp

/-- The table of R40 for DEVICE_MODE_SET gives transitions that may be in progress. -/
theorem State.commandTarget_commanded {s : State} {a t m : Mode} (h : s.commandTarget a t = some m) : a.commanded m = true := by
  unfold State.commandTarget at h
  split at h
  case h_1 => cases h; exact Mode.commanded_serves (b := .service) rfl (.inl rfl) s.serviceMode_serves
  case h_2 => cases h; exact Mode.commanded_serves (b := .service) rfl (.inl rfl) s.serviceMode_serves
  all_goals cases h
  all_goals rfl

theorem State.setReturn_spine (s : State) (id : Nat) (c : Taken) (m : Mode) (deadline : Nat) :
    (s.setReturn id c m deadline).spine = { s.spine with modes := { s.modes with
      returnMode := m
      drainDeadline := if m = .drain ∧ deadline ≠ 0 then some (s.now + deadline * 1000000000) else none } } := by
  unfold State.setReturn
  have h : (if m = .retain then s.portsDown else s).spine = s.spine := by split <;> simp
  generalize (if m = .retain then s.portsDown else s) = u at h
  simp only [State.finish_spine, State.auditMode_spine, State.setModes_spine]
  rw [State.modes_of_spine h, show u.now = s.now from congrArg Spine.now h, h]

/-- A change of THROTTLE's return mode while no transition is in progress. -/
theorem State.drifts_setReturn {a : Spine} {s : State} (h : a.drifts s.spine) (id : Nat) (c : Taken) {m : Mode} (deadline : Nat)
    (hm : m.mayReturn = true) (hq : s.modes.mode ≠ .quarantine) (ht : s.modes.transition = none) :
    a.drifts (s.setReturn id c m deadline).spine := by
  rw [State.setReturn_spine]
  exact State.drifts_modes h rfl fun _ => Modes.wf_of_idle hq (fun _ => hm) ht

/-- A DEVICE_MODE_SET that the arbiter takes while no transition is in progress is refused, puts one in progress, or changes
THROTTLE's return mode. -/
theorem State.drifts_takeCommand {s : State} (r : ModeReq) (id : Nat) (c : Taken) (ht : s.modes.transition = none) :
    s.spine.drifts (s.takeCommand r id c).spine := by
  unfold State.takeCommand
  split
  · simp
  next m hm =>
    have hcmd := State.commandTarget_commanded hm
    have hq : s.modes.mode ≠ .quarantine := fun hq => by
      simp [State.effMode, hq] at hcmd
      cases m <;> simp [Mode.commanded] at hcmd
    have hc : (s.commitEntry c rOk 0 0 0).spine = s.spine := State.commitEntry_spine ..
    have hmodes := State.modes_of_spine hc
    simp only
    split
    · exact State.drifts_drainCheck (State.drifts_setReturn (by simp) id c r.deadline (Mode.commanded_cases hcmd).1
        (hmodes ▸ hq) (hmodes ▸ ht))
    · have hk : ((s.commitEntry c rOk 0 0 0).markCommitted id).spine = s.spine := by simp
      rw [State.setModes_spine, hk, hmodes]
      refine Spine.drifts_modes rfl fun hw => ⟨fun h => absurd h hq, hw.2.1, fun q hr => .inr ?_⟩
      cases hr
      exact hcmd

theorem State.drifts_takeAuto {s : State} (r : ModeReq) (ht : s.modes.transition = none) :
    s.spine.drifts (s.takeAuto r).spine := by
  unfold State.takeAuto
  split
  · split
    · exact s.autoNow_drifts 5 rfl fun _ => ht
    · simp
  · split
    · split
      · simp
      · exact s.autoNow_drifts 6 rfl fun _ => ht
    · split
      · split
        · exact s.autoNow_drifts 7 rfl fun _ => ht
        · simp
      · simp

/-- What goes before and leaves the mode. -/
theorem State.follows_of_same {s u t : State} (h : s.spine.drifts u.spine) (hm : u.modes.mode = s.modes.mode) (k : u.follows t) :
    s.follows t :=
  ⟨Spine.stays_trans (Spine.stays_of_drifts h) k.stays, fun hw => hm ▸ k.tabled (h.wf hw)⟩

theorem ModeReq.rank_gt {r : ModeReq} (h1 : r.target ≠ .reset) (h2 : r.target ≠ .quarantine) (h3 : r.trigger ≠ 8)
    (h4 : r.trigger ≠ 9) : 2 < r.rank := by
  unfold ModeReq.rank
  rw [if_neg h1, if_neg h2, if_neg (by simp [h3, h4])]
  split <;> decide

theorem Modes.wf_erase {m : Modes} (r : ModeReq) (h : m.wf) : ({ m with arb := m.arb.erase r } : Modes).wf :=
  ⟨fun hq => ⟨by rw [(h.1 hq).1]; rfl, (h.1 hq).2⟩, h.2.1, h.2.2⟩

theorem modeArbiterTake_follows (s : State) : s.follows (modeArbiterTake s) := by
  unfold modeArbiterTake
  refine State.follows_congr (u := s.begin) (by simp) ?_
  generalize s.begin = s
  simp only
  split
  · exact State.follows_of_drifts (by simp)
  next r _ =>
    split
    · exact State.follows_of_drifts (by simp)
    next hfree =>
      have he : s.spine.drifts (s.setModes { s.modes with arb := s.modes.arb.erase r }).spine :=
        Spine.drifts_modes rfl fun hw => Modes.wf_erase r hw
      refine State.follows_of_same he rfl ?_
      have htr : 2 < r.rank → (s.setModes { s.modes with arb := s.modes.arb.erase r }).modes.transition = none := fun hr => by
        simpa [hr] using hfree
      generalize s.setModes { s.modes with arb := s.modes.arb.erase r } = u at htr
      split
      · split
        · exact State.follows_of_drifts (by simp)
        · exact State.follows_reset (by rw [State.mainReset_spine]; exact ⟨rfl, rfl, rfl⟩) rfl rfl
      next h1 =>
      split
      · split
        · exact State.follows_of_drifts (by simp)
        next hm =>
          refine State.follows_of_drifts (Spine.drifts_modes rfl fun hw => ⟨fun hq => absurd (.inr hq) hm, hw.2.1, fun q hq => ?_⟩)
          cases hq
          exact .inl ‹_›
      next h2 =>
      split
      · cases hth : u.modes.mode.throttles with
        | true => exact State.enterThrottle_follows hth
        | false => exact State.follows_of_drifts (by simp [State.enterThrottle, hth])
      next h3 =>
      split
      · by_cases hth : u.modes.mode = .throttle
        · exact State.leaveThrottle_follows hth
        · exact State.follows_of_drifts (by simp [State.leaveThrottle, hth])
      next h4 =>
      have ht := htr (ModeReq.rank_gt h1 h2 h3 h4)
      split
      · exact State.follows_of_drifts (State.drifts_takeAuto r ht)
      · split
        · exact State.follows_of_drifts (by simp)
        · exact State.follows_of_drifts (State.drifts_takeCommand r _ _ ht)

end Sys2Proof.Machine
end

section
/-! PROOF. Transitions that end, the entry into QUARANTINE, resets of the main domain and the boot up to LOAD. -/

namespace Sys2Proof.Machine

/-! ### The end of a transition (R36, R38, R44) -/

/-- The end of a waiting change of THROTTLE's return mode. -/
theorem State.drifts_returnDone {s : State} (r : ModeReq) {m : Mode} (hm : m.mayReturn = true) (hq : s.modes.mode ≠ .quarantine)
    (ht : s.modes.transition = none) : s.spine.drifts (s.returnDone r m).spine := by
  have hauto : s.spine.drifts (s.autoReturn m r.trigger).spine := by
    rw [State.autoReturn_spine]
    exact Spine.drifts_modes rfl fun _ => Modes.wf_of_idle hq (fun _ => hm) ht
  unfold State.returnDone
  split
  · exact hauto
  · split
    · exact hauto
    · exact State.drifts_drainCheck (State.drifts_setReturn (Spine.drifts_refl _) _ _ r.deadline hm hq ht)

/-- The check of DRAIN enters READY only where no leg is open. -/
theorem State.drainCheck_mode (s : State) : s.drainCheck.modes.mode = s.modes.mode ∨
    s.modes.mode = .drain ∧ s.drainCheck.modes.mode = .ready ∧ s.drainCheck.legs = [] := by
  obtain ⟨m, a, f, o, h, hm⟩ := s.drainCheck_touches
  rcases hm with hm | ⟨hd, hr⟩
  · exact .inl (by rw [h]; exact hm)
  · by_cases hl : s.legs.isEmpty = true
    · exact .inr ⟨hd, by rw [h]; exact hr, by rw [h]; exact List.isEmpty_iff.mp hl⟩
    · exact .inl (by simp [State.drainCheck, hl])

/-- The mode that a transition to `target` reaches, by instance availability (R40). -/
def State.reached (s : State) (target : Mode) : Mode :=
  if target = .service ∨ target = .degraded then s.serviceMode else target

theorem State.reached_commanded {s : State} {a target : Mode} (h : a.commanded target = true) :
    a.commanded (s.reached target) = true := by
  unfold State.reached
  split
  next hs => exact Mode.commanded_serves h hs s.serviceMode_serves
  · exact h

/-- DRAIN is commanded from SERVICE and DEGRADED only. -/
theorem Mode.commanded_drain {a : Mode} (h : a.commanded .drain = true) : a.serves := by
  cases a <;> simp_all [Mode.commanded, Mode.serves]

/-- A commanded mode is entered with no transition in progress. -/
theorem Modes.wf_entered {m : Modes} {a : Mode} (h : a.commanded m.mode = true) (ht : m.transition = none) : m.wf :=
  Modes.wf_of_idle (Mode.commanded_cases h).2.1 (fun he => absurd he (Mode.commanded_cases h).2.2) ht

theorem State.returnDone_stays (s : State) (r : ModeReq) (m : Mode) : s.spine.stays (s.returnDone r m).spine := by
  have hauto : s.spine.stays (s.autoReturn m r.trigger).spine := by rw [State.autoReturn_spine]; exact ⟨rfl, rfl, rfl⟩
  unfold State.returnDone
  split
  · exact hauto
  · split
    · exact hauto
    next c _ =>
      refine Spine.stays_trans (b := (s.setReturn _ c m r.deadline).spine) ?_
        (Spine.stays_of_drifts (State.drifts_drainCheck (Spine.drifts_refl _)))
      rw [State.setReturn_spine]
      exact ⟨rfl, rfl, rfl⟩

/-- The state as the transition `r` enters mode `m`. -/
def State.enteredBy (s : State) (r : ModeReq) (m : Mode) : State :=
  let s := (s.setModes { s.modes with transition := none }).setMode m r.trigger
  if m = .retain then s.portsDown else s

theorem State.enteredBy_spec (s : State) (r : ModeReq) (m : Mode) : s.spine.stays (s.enteredBy r m).spine ∧
    (s.enteredBy r m).modes.mode = m ∧ (s.enteredBy r m).modes.transition = none := by
  have h : (s.enteredBy r m).spine = ((s.setModes { s.modes with transition := none }).setMode m r.trigger).spine := by
    unfold State.enteredBy
    simp only
    split <;> simp
  rw [State.modes_of_spine h, h, State.setMode_modes]
  exact ⟨State.setMode_stays _ m r.trigger, rfl, rfl⟩

/-- The command behind a finished transition completes; a deadline of DRAIN begins (R36, R44). -/
def State.completedBy (s : State) (r : ModeReq) (m : Mode) : State :=
  (if m = .drain ∧ r.deadline ≠ 0 then
    s.setModes { s.modes with drainDeadline := some (s.now + r.deadline * 1000000000) } else s).finishModeSet r.cmd

theorem State.completedBy_spec (s : State) (r : ModeReq) (m : Mode) : s.spine.stays (s.completedBy r m).spine ∧
    (s.completedBy r m).modes.mode = s.modes.mode ∧ (s.completedBy r m).modes.transition = s.modes.transition := by
  unfold State.completedBy
  rw [State.modes_of_spine (State.finishModeSet_spine _ r.cmd), State.finishModeSet_spine]
  split
  · exact ⟨⟨rfl, rfl, rfl⟩, rfl, rfl⟩
  · exact ⟨Spine.stays_refl _, rfl, rfl⟩

/-- A transition that is done outside THROTTLE. -/
theorem modeTransitionDone_done {s : State} {r : ModeReq} (hr : s.modes.transition = some r)
    (hgo : ¬ (r.target = .quarantine ∨ (r.target.carries || s.trafficGone) = false)) (ht : s.modes.mode ≠ .throttle) :
    modeTransitionDone s = let u := s.begin.enteredBy r (s.reached r.target)
      if s.reached r.target = .calibrate then u.startResume r.cmd else (u.completedBy r (s.reached r.target)).drainCheck := by
  unfold modeTransitionDone
  have hr' : s.begin.modes.transition = some r := hr
  simp only [hr']
  exact (if_neg hgo).trans (if_neg ht)

/-- A transition that is done in THROTTLE. -/
theorem modeTransitionDone_throttle {s : State} {r : ModeReq} (hr : s.modes.transition = some r)
    (hgo : ¬ (r.target = .quarantine ∨ (r.target.carries || s.trafficGone) = false)) (ht : s.modes.mode = .throttle) :
    modeTransitionDone s =
      (s.begin.setModes { s.modes with transition := none }).returnDone r (s.reached r.target) := by
  unfold modeTransitionDone
  have hr' : s.begin.modes.transition = some r := hr
  simp only [hr']
  exact (if_neg hgo).trans (if_pos ht)

/-- A transition that cannot be done yet. -/
theorem modeTransitionDone_waits {s : State} (h : ∀ r, s.modes.transition = some r →
    r.target = .quarantine ∨ (r.target.carries || s.trafficGone) = false) : modeTransitionDone s = s.begin := by
  unfold modeTransitionDone
  simp only
  split
  · rfl
  next r hr => exact if_pos (h r hr)

theorem modeTransitionDone_stays (s : State) : s.spine.stays (modeTransitionDone s).spine := by
  by_cases h : ∀ r, s.modes.transition = some r → r.target = .quarantine ∨ (r.target.carries || s.trafficGone) = false
  · simp [modeTransitionDone_waits h]
  · push Not at h
    obtain ⟨r, hr, hgo⟩ := h
    by_cases ht : s.modes.mode = .throttle
    · rw [modeTransitionDone_throttle hr (by simpa using hgo) ht]
      exact State.returnDone_stays _ r _
    · rw [modeTransitionDone_done hr (by simpa using hgo) ht]
      obtain ⟨hs, -, -⟩ := s.begin.enteredBy_spec r (s.reached r.target)
      simp only
      split
      · exact hs
      · exact Spine.stays_trans (Spine.stays_trans hs (State.completedBy_spec _ r _).1)
          (Spine.stays_of_drifts (State.drifts_drainCheck (Spine.drifts_refl _)))

theorem modeTransitionDone_tabled (s : State) : s.tabled (modeTransitionDone s) := by
  intro hw
  by_cases h : ∀ r, s.modes.transition = some r → r.target = .quarantine ∨ (r.target.carries || s.trafficGone) = false
  · rw [modeTransitionDone_waits h]
    exact ⟨hw, .inl (Mode.mayGo_self _)⟩
  · push Not at h
    obtain ⟨r, hr, hgo⟩ := h
    have hcmd : s.modes.eff.commanded (s.reached r.target) = true :=
      State.reached_commanded ((hw.2.2 r hr).resolve_left hgo.1)
    have hq : s.modes.mode ≠ .quarantine := fun hq => by simp [(hw.1 hq).2] at hr
    by_cases ht : s.modes.mode = .throttle
    · rw [modeTransitionDone_throttle hr (by simpa using hgo) ht]
      have hd := State.drifts_returnDone (s := s.begin.setModes { s.modes with transition := none }) r
        (Mode.commanded_cases hcmd).1 hq rfl
      refine ⟨hd.wf (Modes.wf_of_idle hq hw.2.1 rfl), .inl (Mode.mayGo_of_drifts hd.mode)⟩
    · rw [modeTransitionDone_done hr (by simpa using hgo) ht]
      rw [Modes.eff_of_ne ht] at hcmd
      obtain ⟨-, hm, htr⟩ := s.begin.enteredBy_spec r (s.reached r.target)
      generalize s.reached r.target = m at *
      generalize s.begin.enteredBy r m = u at *
      simp only
      split
      · refine ⟨Modes.wf_entered (a := s.modes.mode) ?_ htr, .inl ?_⟩
        · exact (congrArg _ hm).trans hcmd
        · exact (congrArg _ hm).trans (Mode.mayGo_of_commanded hcmd)
      · obtain ⟨-, hm', htr'⟩ := u.completedBy_spec r m
        generalize u.completedBy r m = v at *
        have hvm : v.modes.mode = m := hm'.trans hm
        refine ⟨(State.drifts_drainCheck (Spine.drifts_refl v.spine)).wf (Modes.wf_entered (hvm ▸ hcmd) (htr'.trans htr)), ?_⟩
        rcases v.drainCheck_mode with hsame | ⟨hd, hready, hlegs⟩
        · exact .inl (by rw [hsame, hvm]; exact Mode.mayGo_of_commanded hcmd)
        · exact .inr ⟨Mode.commanded_drain (hvm.symm.trans hd ▸ hcmd), hready, hlegs⟩

/-! ### QUARANTINE (R39, R474) -/

/-- The data path stopped, with the record of the fatal condition that asks for QUARANTINE (R474). -/
def State.stoppedFor (s : State) (r : ModeReq) : State :=
  if r.trigger = 10 then s.stopData.fatalRecord r.cause r.detail else s.stopData

theorem State.stoppedFor_spine (s : State) (r : ModeReq) : (s.stoppedFor r).spine = s.spine := by
  unfold State.stoppedFor
  split <;> simp

/-- The mode QUARANTINE entered for the request `r`, with the arbiter emptied. -/
def State.quarantined (s : State) (r : ModeReq) : State :=
  (s.setModes { s.modes with transition := none, arb := [], fwRestart := false, resuming := false }).setMode .quarantine r.trigger

/-- The entry for a request, where it takes place. -/
theorem quarantineEntry_eq {s : State} {r : ModeReq} (hr : s.modes.quarantineReq = some r)
    (hgo : ¬ (s.modes.mode = .quarantine ∨ s.modes.mode = .reset ∨ s.modes.resetAsked = true)) :
    quarantineEntry s = let u := (s.begin.stoppedFor r).quarantined r
      (u.welmus.taken.foldl flushCommand u).dropLoads := by
  unfold quarantineEntry
  have hr' : s.begin.modes.quarantineReq = some r := hr
  simp only [hr']
  exact if_neg hgo

/-- Entry into QUARANTINE leaves the arbiter empty; queue, clock and fuses stay. -/
theorem quarantineEntry_entered {s : State} {r : ModeReq} (hr : s.modes.quarantineReq = some r)
    (hgo : ¬ (s.modes.mode = .quarantine ∨ s.modes.mode = .reset ∨ s.modes.resetAsked = true)) :
    s.spine.stays (quarantineEntry s).spine ∧ (quarantineEntry s).modes.mode = .quarantine ∧
      (quarantineEntry s).modes.arb = [] ∧ (quarantineEntry s).modes.transition = none := by
  have hu := s.begin.stoppedFor_spine r
  have he : (quarantineEntry s).spine = ((s.begin.stoppedFor r).quarantined r).spine := by
    rw [quarantineEntry_eq hr hgo]
    exact (State.dropLoads_spine _).trans (State.spine_foldl flushCommand_spine _ _)
  rw [State.modes_of_spine he, he]
  generalize s.begin.stoppedFor r = u at hu
  refine ⟨?_, congrArg Modes.mode (State.setMode_modes _ _ _), congrArg Modes.arb (State.setMode_modes _ _ _),
    congrArg Modes.transition (State.setMode_modes _ _ _)⟩
  · exact Spine.stays_trans (b := u.spine) (by rw [hu]; exact ⟨rfl, rfl, rfl⟩) (State.setMode_stays (u.setModes _) _ _)

theorem quarantineEntry_stands {s : State} (h : s.modes.quarantineReq = none ∨ s.modes.mode = .quarantine ∨ s.modes.mode = .reset ∨
    s.modes.resetAsked = true) : quarantineEntry s = s.begin := by
  unfold quarantineEntry
  simp only
  split
  · rfl
  next r hr =>
    refine if_pos (h.resolve_left fun hn => ?_)
    have : s.modes.quarantineReq = some r := hr
    simp [hn] at this

theorem quarantineEntry_follows (s : State) : s.follows (quarantineEntry s) := by
  by_cases h : s.modes.quarantineReq = none ∨ s.modes.mode = .quarantine ∨ s.modes.mode = .reset ∨ s.modes.resetAsked = true
  · rw [quarantineEntry_stands h]
    exact State.follows_of_drifts (by simp)
  · obtain ⟨hr, hgo⟩ := not_or.mp h
    obtain ⟨r, hr⟩ := Option.ne_none_iff_exists'.mp hr
    obtain ⟨hs, hm, ha, ht⟩ := quarantineEntry_entered hr hgo
    refine ⟨hs, fun _ => ⟨⟨fun _ => ⟨ha, ht⟩, fun h => by simp [hm] at h, fun q hq => by simp [ht] at hq⟩, .inl ?_⟩⟩
    rw [hm]
    exact Mode.mayGo_quarantine fun h => hgo (.inr (.inl h))

/-! ### Resets and boot (R40, R46, R57, R60) -/

theorem powerOn_follows (smbAddr : Nat) (s : State) : s.follows (powerOn smbAddr s) :=
  State.follows_reset ⟨rfl, rfl, rfl⟩ rfl rfl

theorem auxPowerLoss_follows (s : State) : s.follows (auxPowerLoss s) :=
  State.follows_reset ⟨rfl, rfl, rfl⟩ rfl rfl

theorem mainPowerLoss_follows (sramKept : Bool) (s : State) : s.follows (mainPowerLoss sramKept s) := by
  unfold mainPowerLoss
  simp only
  split
  · exact State.follows_of_drifts (by simp)
  · exact State.follows_reset ⟨rfl, rfl, rfl⟩ rfl rfl

theorem pinWarmReset_follows (lowNs : Nat) (taken : Bool) (s : State) : s.follows (pinWarmReset lowNs taken s) := by
  unfold pinWarmReset
  simp only
  split
  · exact State.follows_of_drifts (by simp)
  · exact State.follows_reset ⟨rfl, rfl, rfl⟩ rfl rfl

/-- No transition but to QUARANTINE may be in progress where none is commanded. -/
theorem Modes.transition_quarantine {m : Modes} (hw : m.wf) (hc : ∀ b, m.eff.commanded b = false) :
    ∀ r, m.transition = some r → r.target = .quarantine := fun r hr =>
  (hw.2.2 r hr).resolve_right (by simp [hc])

/-- The next mode of the boot: the arbiter's invariant holds where no transition but to QUARANTINE is in progress. -/
theorem Modes.wf_booted {m : Modes} (hq : m.mode ≠ .quarantine) (ht : m.mode ≠ .throttle)
    (h : ∀ r, m.transition = some r → r.target = .quarantine) : m.wf :=
  ⟨fun e => absurd e hq, fun e => absurd e ht, fun r hr => .inl (h r hr)⟩

/-- A step of the boot from mode `m` to the next one. -/
theorem State.tabled_boot {s t : State} {m : Mode} (hm : s.modes.mode = m) (hc : ∀ b, m.commanded b = false)
    (hgo : m.mayGo t.modes.mode = true) (hq : t.modes.mode ≠ .quarantine) (ht : m ≠ .throttle ∧ t.modes.mode ≠ .throttle)
    (htr : t.modes.transition = s.modes.transition) : s.tabled t := by
  intro hw
  have he : s.modes.eff = m := (Modes.eff_of_ne (hm ▸ ht.1)).trans hm
  exact ⟨Modes.wf_booted hq ht.2 fun r hr => Modes.transition_quarantine hw (he ▸ hc) r (htr ▸ hr), .inl (hm ▸ hgo)⟩

theorem State.openWindow_modes (s : State) : s.openWindow.modes = s.modes := by
  unfold State.openWindow
  split <;> rfl

theorem mainResetRelease_follows (bootSrc : Nat) (railsOk sysclkOk : Bool) (heldNs : Nat) (s : State) :
    s.follows (mainResetRelease bootSrc railsOk sysclkOk heldNs s) := by
  unfold mainResetRelease
  simp only
  split
  · exact State.follows_of_drifts (by simp)
  next h =>
    have hm : s.modes.mode = .reset := by
      by_contra hne
      exact h (by simp [hne])
    generalize hu : (State.setBoot _ _).setMode .identify 1 = u
    have hs : s.spine.stays u.spine := hu ▸ State.setMode_stays _ .identify 1
    have hmodes : u.modes.mode = .identify ∧ u.modes.transition = s.modes.transition := by
      rw [← hu, State.setMode_modes]
      exact ⟨rfl, rfl⟩
    have ho := u.openWindow_modes
    refine ⟨Spine.stays_trans hs (Spine.stays_of_drifts (by simp)), State.tabled_boot hm (fun _ => rfl) ?_ ?_ ?_ ?_⟩ <;>
      simp [ho, hmodes, Mode.mayGo]

theorem imageAuthenticated_follows (digestOk signatureOk bodyRead : Bool) (s : State) :
    s.follows (imageAuthenticated digestOk signatureOk bodyRead s) := by
  unfold imageAuthenticated
  simp only
  split
  · exact State.follows_of_drifts (by simp)
  next src x _ =>
    split
    · exact State.follows_of_drifts (by simp)
    next hgo =>
      have hm : s.modes.mode = .identify := not_not.mp (not_or.mp hgo).1
      have hb : s.spine.drifts (s.begin.setBoot { s.begin.boot with checking := none }).spine := by simp
      split
      · exact State.follows_of_drifts (State.drifts_openWindow (State.drifts_setResult hb src 7))
      · split
        · exact State.follows_of_drifts (State.drifts_openWindow (State.drifts_setResult hb src 4))
        · refine ⟨State.setMode_stays _ .load 2, State.tabled_boot hm (fun _ => rfl) ?_ ?_ ?_ ?_⟩ <;>
            rw [State.setMode_modes] <;> simp [Mode.mayGo, State.setResult, State.setBoot, State.begin]

end Sys2Proof.Machine
end

section
/-! PROOF. The ends of LOAD and CALIBRATE, which burn fuses, and TENANT_GRANT. -/

namespace Sys2Proof.Machine

/-! ### LOAD, CALIBRATE and the fuses (R58, R60, R62, R212) -/

/-- The fuses that a step may burn, and when (R58, R212). -/
def Fuses.advances (f g : Fuses) : Prop :=
  g = { f with svnMin := g.svnMin, revoked0 := g.revoked0, importSet := g.importSet, importSecret := g.importSecret } ∧
  f.svnMin ≤ g.svnMin ∧ (f.revoked0 = true → g.revoked0 = true) ∧
  (f.importSet = true → g.importSet = true ∧ g.importSecret = f.importSecret)

theorem Fuses.advances_refl (f : Fuses) : f.advances f := ⟨rfl, Nat.le_refl _, id, fun h => ⟨h, rfl⟩⟩

/-- What every command does to queue, clock, fuses and mode. -/
structure State.obeys (s t : State) : Prop where
  pending : t.pending = s.pending
  now : t.now = s.now
  tabled : s.tabled t
  advances : s.fuses.advances t.fuses
  secret : t.fuses.importSet ≠ s.fuses.importSet ∨ t.fuses.importSecret ≠ s.fuses.importSecret →
    s.modes.mode = .load ∧ t.modes.mode = .calibrate ∧ s.boot.source = 3 ∧ s.fuses.importSet = false ∧ t.fuses.importSet = true
  minimum : t.fuses.svnMin ≠ s.fuses.svnMin ∨ t.fuses.revoked0 ≠ s.fuses.revoked0 →
    t.modes.mode = .ready ∧ s.boot.readyUnderImage = false ∧ t.boot.readyUnderImage = true ∧
    ∃ h, s.boot.image = some h ∧
      t.fuses.svnMin = (if bitAt h.word2 8 then max s.fuses.svnMin (fld h.word2 7 0) else s.fuses.svnMin) ∧
      t.fuses.revoked0 = (s.fuses.revoked0 || (bitAt h.word2 9 && bitAt h.word2 10))

theorem State.obeys_of_follows {s t : State} (h : s.follows t) : s.obeys t := by
  have hf : t.fuses = s.fuses := h.stays.2.2
  exact ⟨h.stays.1, h.stays.2.1, h.tabled, hf ▸ Fuses.advances_refl _, fun hn => by simp [hf] at hn,
    fun hn => by simp [hf] at hn⟩

/-- The secret that a pushed provisioning image burns (R212). -/
theorem State.burnSecret_cases (s : State) (provision : Option (List Nat)) : s.burnSecret provision = s ∨
    s.boot.source = 3 ∧ s.fuses.importSet = false ∧ ∃ secret,
      s.burnSecret provision = { s with fuses := { s.fuses with importSecret := secret, importSet := true } } := by
  unfold State.burnSecret
  split
  · exact .inl rfl
  next secret =>
    split
    next h => exact .inr ⟨h.1, h.2.1, secret, rfl⟩
    · exact .inl rfl

/-- LOAD_COMPLETE where LOAD ends. -/
theorem loadComplete_spine {s : State} (avsAck : Bool) (provision : Option (List Nat)) (hm : s.modes.mode = .load)
    (he : s.modes.ending = false) : (loadComplete avsAck provision s).spine =
      { s.spine with
        fuses := (s.begin.burnSecret provision).fuses, boot := { s.boot with calDone := [] }
        modes := { s.modes with mode := .calibrate, drainDeadline := none } } := by
  unfold loadComplete
  have hgo : ¬ (s.begin.modes.mode ≠ .load ∨ s.begin.modes.ending = true) := by
    rintro (h | h)
    · exact h hm
    · exact absurd (he.symm.trans h) (by decide)
  simp only
  rw [if_neg hgo, State.setMode_spine]
  have hb : (s.begin.burnSecret provision).spine = { s.spine with fuses := (s.begin.burnSecret provision).fuses } := by
    rcases s.begin.burnSecret_cases provision with h | ⟨-, -, _, h⟩ <;> rw [h] <;> rfl
  generalize s.begin.burnSecret provision = u at hb
  generalize hv : State.initQueues _ = v
  have hv : v.spine = { s.spine with fuses := u.fuses } := by
    rw [← hb, ← u.drawKey_spine 16, ← hv, State.initQueues_spine, State.avsCommand_spine]
    rfl
  rw [State.setBoot_spine, hv, show v.boot = s.boot from congrArg Spine.boot hv]
  show (⟨_, _, _, _, _, { v.modes with mode := _, drainDeadline := _ }⟩ : Spine) = _
  rw [show v.modes = s.modes from congrArg Spine.modes hv]
  rfl

theorem loadComplete_obeys (avsAck : Bool) (provision : Option (List Nat)) (s : State) :
    s.obeys (loadComplete avsAck provision s) := by
  by_cases hgo : s.modes.mode ≠ .load ∨ s.modes.ending = true
  · have h : loadComplete avsAck provision s = s.begin := if_pos hgo
    exact h ▸ State.obeys_of_follows (State.follows_of_drifts (by simp))
  · obtain ⟨hm, he⟩ := not_or.mp hgo
    have hm := not_not.mp hm
    have hs := loadComplete_spine avsAck provision hm (by simpa using he)
    have hf := congrArg Spine.fuses hs
    have hmo : (loadComplete avsAck provision s).modes = _ := congrArg Spine.modes hs
    simp only [State.spine] at hf
    have htab : s.tabled (loadComplete avsAck provision s) :=
      State.tabled_boot hm (fun _ => rfl) (by rw [hmo]; rfl) (by rw [hmo]; exact nofun) (by rw [hmo]; exact ⟨nofun, nofun⟩)
        (by rw [hmo])
    refine ⟨congrArg Spine.pending hs, congrArg Spine.now hs, htab, ?_, ?_, ?_⟩ <;>
      rw [hf] <;> rcases s.begin.burnSecret_cases provision with hb | ⟨h3, hset, secret, hb⟩ <;> rw [hb]
    · exact Fuses.advances_refl _
    · exact ⟨rfl, Nat.le_refl _, id, fun h => by simp [h, State.begin] at hset⟩
    · exact fun hn => by simp [State.begin] at hn
    · exact fun _ => ⟨hm, by rw [hmo], h3, hset, rfl⟩
    · exact fun hn => by simp [State.begin] at hn
    · exact fun hn => by simp [State.begin] at hn

/-- A calibration step may only ask the arbiter for QUARANTINE. -/
def Spine.asks (a b : Spine) : Prop := ∃ arb, b = { a with modes := { a.modes with arb := arb } }

theorem Spine.asks_refl (a : Spine) : a.asks a := ⟨a.modes.arb, rfl⟩

theorem State.asks_arb {a : Spine} {s : State} (h : a.asks s.spine) (x : List ModeReq) :
    a.asks (s.setModes { s.modes with arb := x }).spine := by
  obtain ⟨arb, h⟩ := h
  refine ⟨x, ?_⟩
  rw [State.setModes_spine, show s.modes = _ from congrArg Spine.modes h, h]

theorem State.asks_fatal {a : Spine} {s : State} (h : a.asks s.spine) (cause : Nat) (d : Word) :
    a.asks (s.fatal cause d).spine := by
  unfold State.fatal
  split
  · exact h
  · split
    · simpa using h
    · exact State.asks_arb h _

theorem State.asks_calEffect (s : State) (step : CalStep) : s.spine.asks (s.calEffect step).spine := by
  have hrefl := Spine.asks_refl s.spine
  have hsame : ∀ t : State, t.spine = s.spine → s.spine.asks t.spine := fun t h => h.symm ▸ hrefl
  cases step with
  | c1 ok =>
    unfold State.calEffect
    simp only
    split
    · exact hsame _ (by simp)
    · exact State.asks_fatal hrefl 5 0
  | c2 ok =>
    unfold State.calEffect
    simp only
    split
    · exact hrefl
    · exact State.asks_fatal hrefl 5 0
  | c3 failed =>
    unfold State.calEffect
    simp only
    split
    · exact State.asks_fatal (hsame _ (by simp)) 5 0
    · exact hsame _ (by simp)
  | c4 failed => exact hsame _ (by simp [State.calEffect])
  | c5 means excluded flash writable => exact hsame _ (by simp [State.calEffect])
  | c6 ok =>
    unfold State.calEffect
    simp only
    split
    · exact hsame _ (by simp)
    · exact State.asks_fatal hrefl 5 0
  | hbmResume => exact hrefl

/-- The fuses written as the device first reaches READY under its image (R58). -/
def Boot.burned (b : Boot) (f : Fuses) : Fuses :=
  if b.readyUnderImage then f
  else match b.image with
    | none => f
    | some h => { f with
        svnMin := if headAdvance h then max f.svnMin (headSvn h) else f.svnMin
        revoked0 := f.revoked0 || (headRevoke0 h && headKey1 h) }

theorem State.advanceFuses_spine (s : State) : s.advanceFuses.spine =
    { s.spine with fuses := s.boot.burned s.fuses, boot := { s.boot with readyUnderImage := true } } := by
  unfold State.advanceFuses Boot.burned
  split
  next h =>
    obtain ⟨_⟩ := s
    simp only [State.spine] at h ⊢
    simp [← h]
  next h =>
    cases hi : s.boot.image <;> simp [State.setBoot, hi] <;> exact ⟨rfl, rfl, rfl, rfl⟩

theorem State.calDone_spine (s : State) : s.calDone.spine =
    { s.spine with
      fuses := s.boot.burned s.fuses, boot := { s.boot with readyUnderImage := true }
      modes := { s.modes with resuming := false, resumeCmd := none, mode := .ready, drainDeadline := none } } := by
  unfold State.calDone
  simp only [State.finishModeSet_spine, State.advanceFuses_spine, State.setMode_spine, State.setModes_spine]
  have h := State.setMode_spine (s.setModes { s.modes with resuming := false, resumeCmd := none }) .ready 4
  rw [show (State.setMode _ Mode.ready 4).boot = s.boot from congrArg Spine.boot h,
    show (State.setMode _ Mode.ready 4).fuses = s.fuses from congrArg Spine.fuses h]
  rfl

theorem Boot.burned_advances (b : Boot) (f : Fuses) : f.advances (b.burned f) := by
  unfold Boot.burned
  split
  · exact Fuses.advances_refl f
  · split
    · exact Fuses.advances_refl f
    · refine ⟨rfl, ?_, fun h => by simp [h], fun h => ⟨h, rfl⟩⟩
      simp only
      split
      · exact Nat.le_max_left ..
      · exact Nat.le_refl _

theorem Boot.burned_secret (b : Boot) (f : Fuses) :
    (b.burned f).importSet = f.importSet ∧ (b.burned f).importSecret = f.importSecret := by
  unfold Boot.burned
  split
  · exact ⟨rfl, rfl⟩
  · split <;> exact ⟨rfl, rfl⟩

theorem Boot.burned_minimum {b : Boot} {f : Fuses}
    (h : (b.burned f).svnMin ≠ f.svnMin ∨ (b.burned f).revoked0 ≠ f.revoked0) : b.readyUnderImage = false ∧
      ∃ x, b.image = some x ∧ (b.burned f).svnMin = (if bitAt x.word2 8 then max f.svnMin (fld x.word2 7 0) else f.svnMin) ∧
        (b.burned f).revoked0 = (f.revoked0 || (bitAt x.word2 9 && bitAt x.word2 10)) := by
  unfold Boot.burned at *
  cases hr : b.readyUnderImage with
  | true => simp [hr] at h
  | false =>
    cases hi : b.image with
    | none => simp [hr, hi] at h
    | some x => exact ⟨rfl, x, rfl, rfl, rfl⟩

/-- The end of CALIBRATE enters READY and burns what the image's header says. -/
theorem State.calDone_obeys {s u : State} (hu : s.spine.asks u.spine) (hm : s.modes.mode = .calibrate)
    (x : Boot) (hx : x.readyUnderImage = s.boot.readyUnderImage ∧ x.image = s.boot.image) :
    s.obeys (u.setBoot x).calDone := by
  obtain ⟨arb, hu⟩ := hu
  have hs := (u.setBoot x).calDone_spine
  rw [State.setBoot_spine, hu, show (u.setBoot x).boot = x from rfl,
    show (u.setBoot x).fuses = s.fuses from congrArg Spine.fuses hu,
    show (u.setBoot x).modes = { s.modes with arb := arb } from congrArg Spine.modes hu] at hs
  generalize (u.setBoot x).calDone = t at hs
  have hf : t.fuses = x.burned s.fuses := congrArg Spine.fuses hs
  have hmo : t.modes = _ := congrArg Spine.modes hs
  have hb : t.boot = _ := congrArg Spine.boot hs
  refine ⟨congrArg Spine.pending hs, congrArg Spine.now hs, ?_, hf ▸ Boot.burned_advances .., ?_, ?_⟩
  · exact State.tabled_boot hm (fun _ => rfl) (by rw [hmo]; rfl) (by rw [hmo]; exact nofun) (by rw [hmo]; exact ⟨nofun, nofun⟩)
      (by rw [hmo])
  · intro hn
    obtain ⟨h1, h2⟩ := Boot.burned_secret x s.fuses
    simp [hf, h1, h2] at hn
  · intro hn
    rw [hf] at hn ⊢
    obtain ⟨hr, y, hi, h1, h2⟩ := Boot.burned_minimum hn
    exact ⟨by rw [hmo], hx.1 ▸ hr, by rw [hb], y, hx.2 ▸ hi, h1, h2⟩

theorem calibrationStepDone_obeys (step : CalStep) (s : State) : s.obeys (calibrationStepDone step s) := by
  unfold calibrationStepDone
  simp only
  split
  · exact State.obeys_of_follows (State.follows_of_drifts (by simp))
  next hgo =>
    have hm : s.modes.mode = .calibrate := not_not.mp (not_or.mp hgo).1
    have hask : s.spine.asks _ := s.begin.asks_calEffect step
    have hdrift : s.spine.drifts (s.begin.calEffect step).spine := State.drifts_calEffect (by simp) step
    generalize s.begin.calEffect step = u at *
    split
    · exact State.obeys_of_follows (State.follows_of_drifts (by simp [hdrift]))
    next hend =>
      split
      · exact State.calDone_obeys hask hm _ ⟨rfl, rfl⟩
      · exact State.obeys_of_follows (State.follows_of_drifts (by simp [hdrift]))

/-! ### TENANT_GRANT (R85) -/

/-- A command of the mailbox leaves the spine, or its body takes it from there. -/
theorem State.command_cases (s : State) (id op : Nat) (body : Taken → State → State) :
    (s.command id op body).spine = s.spine ∨ ∃ c u, u.spine = s.spine ∧ s.command id op body = body c u := by
  unfold State.command
  simp only
  split
  · exact .inl (by simp)
  · split
    · exact .inl (by simp)
    · split
      · exact .inl (by simp)
      · exact .inr ⟨_, _, by simp, rfl⟩

theorem State.checked_cases (s : State) (id : Nat) (checks : List (Bool × Nat)) (ok : State → State) :
    (s.checked id checks ok).spine = s.spine ∨ s.checked id checks ok = ok s := by
  unfold State.checked
  split
  · exact .inl (by simp)
  · exact .inr rfl

theorem State.follows_of_grants {s t : State} {gs : FMap Grant} (h : ({ s.spine with grants := gs } : Spine).drifts t.spine) :
    s.follows t :=
  ⟨⟨h.pending, h.now, h.fuses⟩, fun hw => ⟨h.wf hw, .inl (Mode.mayGo_of_drifts h.mode)⟩⟩

theorem tenantGrantBody_drifts (id : Nat) (c : Taken) (s : State) :
    ∃ gs, ({ s.spine with grants := gs } : Spine).drifts (tenantGrantBody id c s).spine := by
  rcases s.checked_cases id _ _ with h | h
  · refine ⟨s.grants, ?_⟩
    rw [show (tenantGrantBody id c s).spine = s.spine from h]
    exact Spine.drifts_refl _
  · obtain ⟨gs, hg⟩ := drifts_replaceGrant (s := s.commitOk id c 6 (c.w 3).toNat []) (c.w 3).toNat (grantOf c) c.tag
    rw [State.commitOk_spine] at hg
    exact ⟨gs, (show tenantGrantBody id c s = _ from h) ▸ hg⟩

/-- TENANT_GRANT drifts, but for the grants. -/
theorem tenantGrant_drifts (id : Nat) (s : State) :
    ∃ gs, ({ s.spine with grants := gs } : Spine).drifts (s.command id 0x012 (tenantGrantBody id)).spine := by
  rcases s.command_cases id 0x012 (tenantGrantBody id) with h | ⟨c, u, hu, h⟩
  · refine ⟨s.grants, ?_⟩
    rw [h]
    exact Spine.drifts_refl _
  · rw [h, ← hu]
    exact tenantGrantBody_drifts id c u

theorem tenantGrant_follows (id : Nat) (s : State) : s.follows (s.command id 0x012 (tenantGrantBody id)) := by
  obtain ⟨gs, h⟩ := tenantGrant_drifts id s
  exact State.follows_of_grants h

end Sys2Proof.Machine
end

section
/-! PROOF. Every command together: the modes follow R40, QUARANTINE is left by a reset only, fuses only advance. -/

namespace Sys2Proof.Machine

/-! ### Every command, and a cycle without one -/

/-- The commands that change the mode other than by drift, burn a fuse or change the grants. -/
def governs : Instr → Bool
  | .tenantGrant _ | .modeArbiterTake | .modeTransitionDone | .quarantineEntry | .powerOn _ | .auxPowerLoss | .mainPowerLoss _
  | .pinWarmReset _ _ | .mainResetRelease _ _ _ _ | .imageAuthenticated _ _ _ | .loadComplete _ | .calibrationStepDone _
  | .thermalSensorRead _ _ | .thermalExit => true
  | _ => false

/-- Every other command drifts: the rows that ask the arbiter, change the boot or change a served mode are named, and the rest leave
the spine. -/
theorem exec_drifts (c : Instr) (s : State) (hc : governs c = false) : ∃ t, exec c s = .next t ∧ s.spine.drifts t.spine := by
  have h := Spine.drifts_refl s.spine
  cases c with
  | tenantGrant | modeArbiterTake | modeTransitionDone | quarantineEntry | powerOn | auxPowerLoss | mainPowerLoss
  | pinWarmReset | mainResetRelease | imageAuthenticated | loadComplete | calibrationStepDone | thermalSensorRead
  | thermalExit => cases hc
  | deviceModeSet id => exact ⟨_, rfl, State.drifts_command h id 0x011 fun c _ hs => drifts_deviceModeSetBody hs id c⟩
  | portConfig id => exact ⟨_, rfl, State.drifts_command h id 0x050 fun c _ hs => drifts_portConfigBody hs id c⟩
  | legClose id => exact ⟨_, rfl, State.drifts_command h id 0x032 fun c _ hs => drifts_legCloseBody hs id c⟩
  | selftestDone id result eye failures => exact ⟨_, rfl, drifts_selftestDone h id result eye failures⟩
  | selftestTimeout id => exact ⟨_, rfl, drifts_selftestTimeout h id⟩
  | drainDeadlineExpiry => exact ⟨_, rfl, drifts_drainDeadlineExpiry h⟩
  | railOutOfWindow rail lowNs => exact ⟨_, rfl, drifts_railOutOfWindow h rail lowNs⟩
  | perst => exact ⟨_, rfl, drifts_perst h⟩
  | pf0Flr => exact ⟨_, rfl, State.drifts_resetFns (State.begin_spine s ▸ h) _⟩
  | vfFlr fn => exact ⟨_, rfl, drifts_vfFlr h fn⟩
  | watchdogExpiry => exact ⟨_, rfl, drifts_watchdogExpiry h⟩
  | fwRestartDone => exact ⟨_, rfl, drifts_fwRestartDone h⟩
  | bootImageCheck read => exact ⟨_, rfl, drifts_bootImageCheck h read⟩
  | bootWindowWrite off value => exact ⟨_, rfl, drifts_bootWindowWrite h off value⟩
  | bootDoorbell length => exact ⟨_, rfl, drifts_bootDoorbell h length⟩
  | resetCauseWrite fn value => exact ⟨_, rfl, drifts_resetCauseWrite h fn value⟩
  | freqMonitorWindow ref permille => exact ⟨_, rfl, drifts_freqMonitorWindow h ref permille⟩
  | alignDone port order skewPs => exact ⟨_, rfl, drifts_alignDone h port order skewPs⟩
  | abortTimeout task => exact ⟨_, rfl, drifts_abortTimeout h task⟩
  | decoderOverrun task => exact ⟨_, rfl, drifts_decoderOverrun h task⟩
  | fencedInstanceRelease kind inst result => exact ⟨_, rfl, drifts_fencedInstanceRelease h kind inst result⟩
  | hbmRead pch addr cls port hostDma flips => exact ⟨_, rfl, drifts_hbmRead h pch addr cls port hostDma flips⟩
  | patrolScrubRow pch flips => exact ⟨_, rfl, drifts_patrolScrubRow h pch flips⟩
  | trainingBurstEnd stack => exact ⟨_, rfl, drifts_trainingBurstEnd h stack⟩
  | sramSweep array corrected uncorrectable object =>
    exact ⟨_, rfl, drifts_sramSweep h array corrected uncorrectable object⟩
  | junctionFatal => exact ⟨_, rfl, drifts_junctionFatal h⟩
  | _ => exact ⟨_, rfl, by simp⟩


/-- Every command answers with a state, and keeps the rules of queue, clock, fuses and modes. -/
theorem exec_obeys (c : Instr) (s : State) : ∃ t, exec c s = .next t ∧ s.obeys t := by
  cases hc : governs c with
  | false =>
    obtain ⟨t, ht, hd⟩ := exec_drifts c s hc
    exact ⟨t, ht, State.obeys_of_follows (State.follows_of_drifts hd)⟩
  | true =>
    have ok {t : State} (ht : exec c s = .next t) (hf : s.follows t) : ∃ t, exec c s = .next t ∧ s.obeys t :=
      ⟨t, ht, State.obeys_of_follows hf⟩
    cases c with
    | tenantGrant id => exact ok rfl (tenantGrant_follows id s)
    | modeArbiterTake => exact ok rfl (modeArbiterTake_follows s)
    | modeTransitionDone => exact ok rfl ⟨modeTransitionDone_stays s, modeTransitionDone_tabled s⟩
    | quarantineEntry => exact ok rfl (quarantineEntry_follows s)
    | powerOn smbAddr => exact ok rfl (powerOn_follows smbAddr s)
    | auxPowerLoss => exact ok rfl (auxPowerLoss_follows s)
    | mainPowerLoss sramKept => exact ok rfl (mainPowerLoss_follows sramKept s)
    | pinWarmReset lowNs taken => exact ok rfl (pinWarmReset_follows lowNs taken s)
    | mainResetRelease bootSrc railsOk sysclkOk heldNs =>
      exact ok rfl (mainResetRelease_follows bootSrc railsOk sysclkOk heldNs s)
    | imageAuthenticated digestOk signatureOk bodyRead =>
      exact ok rfl (imageAuthenticated_follows digestOk signatureOk bodyRead s)
    | loadComplete load => exact ⟨_, rfl, loadComplete_obeys load.avsAck load.provision s⟩
    | calibrationStepDone step => exact ⟨_, rfl, calibrationStepDone_obeys step s⟩
    | thermalSensorRead sensors caseSide => exact ok rfl (thermalSensorRead_follows sensors caseSide s)
    | thermalExit => exact ok rfl (thermalExit_follows s)
    | _ => cases hc

theorem obeys_of_exec {c : Instr} {s t : State} (h : exec c s = .next t) : s.obeys t := by
  obtain ⟨u, hu, ho⟩ := exec_obeys c s
  cases hu.symm.trans h
  exact ho

/-- A step is the command at the front of the queue, or a cycle that drifts. -/
theorem step_cases {s t : State} (h : step s = .next t) :
    (∃ c rest, s.pending = c :: rest ∧ exec c { s with pending := rest } = .next t) ∨
      s.pending = [] ∧ ({ s.spine with now := s.now + 1 } : Spine).drifts t.spine := by
  unfold step at h
  split at h
  next hp =>
    cases h
    exact .inr ⟨hp, s.drifts_idle⟩
  next c rest hp => exact .inl ⟨c, rest, hp, h⟩

/-- Settles O55: drift keeps the arbiter's invariant and the table, and so does each command that governs the mode. -/
theorem modesFollowTheTable : Obligations.ModesFollowTheTable := by
  unfold Obligations.ModesFollowTheTable
  intro s t hw h
  rcases step_cases h with ⟨c, rest, -, hc⟩ | ⟨-, hd⟩
  · exact (obeys_of_exec hc).tabled hw
  · exact ⟨hd.wf hw, .inl (Mode.mayGo_of_drifts hd.mode)⟩

/-! ### QUARANTINE is left only by a reset -/

/-- From QUARANTINE the table leads to itself and to RESET only. -/
theorem Mode.mayGo_from_quarantine {b : Mode} (h : Mode.quarantine.mayGo b = true) : b = .quarantine ∨ b = .reset := by
  cases b <;> simp_all [Mode.mayGo, Mode.commanded, Mode.throttles]

theorem Mode.drifts_quarantine {b : Mode} (h : Mode.quarantine.drifts b) : b = .quarantine :=
  Mode.eq_of_drifts h (by simp [Mode.serves]) nofun

/-- The rows that boot, calibrate and throttle leave QUARANTINE alone, and the arbiter has nothing to take there. -/
theorem governs_quarantine {c : Instr} {s t : State} (hw : s.modesWf) (hq : s.modes.mode = .quarantine) (hc : governs c = true)
    (hr : isReset c = false) (h : exec c s = .next t) : t.modes.mode = .quarantine := by
  obtain ⟨harb, htr⟩ := hw.1 hq
  have stands {u : State} (hu : exec c s = .next u) (he : u = s.begin) : t.modes.mode = .quarantine := by
    cases hu.symm.trans h
    exact he ▸ hq
  cases c with
  | tenantGrant id =>
    obtain ⟨gs, hd⟩ := tenantGrant_drifts id s
    cases h
    have hm := hd.mode
    rw [show ({ s.spine with grants := gs } : Spine).modes.mode = .quarantine from hq] at hm
    exact Mode.drifts_quarantine hm
  | modeArbiterTake =>
    refine stands rfl ?_
    have : bestReq s.begin.modes.arb = none := congrArg bestReq harb
    unfold modeArbiterTake
    simp only [this]
  | modeTransitionDone => exact stands rfl (modeTransitionDone_waits fun r hr => by simp [htr] at hr)
  | quarantineEntry => exact stands rfl (quarantineEntry_stands (.inr (.inl hq)))
  | powerOn | auxPowerLoss | mainPowerLoss | pinWarmReset => cases hr
  | mainResetRelease bootSrc railsOk sysclkOk heldNs => exact stands rfl (if_pos (by simp [hq, State.begin]))
  | imageAuthenticated digestOk signatureOk bodyRead =>
    refine stands rfl ?_
    unfold imageAuthenticated
    simp only
    split
    · rfl
    · exact if_pos (.inl (by simp [hq, State.begin]))
  | loadComplete load => exact stands rfl (if_pos (.inl (by simp [hq, State.begin])))
  | calibrationStepDone step => exact stands rfl (if_pos (.inl (by simp [hq, State.begin])))
  | thermalSensorRead sensors caseSide =>
    cases h
    show (thermalSensorRead sensors caseSide s).modes.mode = .quarantine
    unfold thermalSensorRead
    simp only
    split
    · exact hq
    · split
      next hot => simp [hq, Mode.throttles, State.begin] at hot
      · exact hq
  | thermalExit => exact stands rfl (if_neg (by simp [hq, State.begin]))
  | _ => cases hc

/-- Settles O56: in QUARANTINE the arbiter holds nothing to take, boot and calibration do not go on, and what else a command
changes of the mode is drift, which QUARANTINE does not know. -/
theorem quarantineIsLeftOnlyByReset : Obligations.QuarantineIsLeftOnlyByReset := by
  unfold Obligations.QuarantineIsLeftOnlyByReset
  intro s t c hw hq h
  cases hr : isReset c with
  | true =>
    refine ((obeys_of_exec h).tabled hw).2.elim (fun hgo => ?_) fun hs => ?_
    · exact (Mode.mayGo_from_quarantine (hq ▸ hgo)).imp id fun hm => ⟨hm, rfl⟩
    · simp [hq] at hs
  | false =>
    cases hc : governs c with
    | true => exact .inl (governs_quarantine hw hq hc hr h)
    | false =>
      obtain ⟨u, hu, hd⟩ := exec_drifts c s hc
      cases hu.symm.trans h
      exact .inl (Mode.drifts_quarantine (hq ▸ hd.mode))

/-! ### Fuses -/

theorem b2n_le_one (b : Bool) : b2n b ≤ 1 := by cases b <;> decide

/-- SVN_STATE as a number. -/
theorem State.svnState_toNat (s : State) :
    s.svnState.toNat = s.fuses.svnMin % 256 + 256 * b2n s.fuses.revoked0 + 512 * b2n s.fuses.revoked1 := by
  have h0 := b2n_le_one s.fuses.revoked0
  have h1 := b2n_le_one s.fuses.revoked1
  have : s.fuses.svnMin % 256 < 256 := Nat.mod_lt _ (by decide)
  simp only [State.svnState, w32, BitVec.toNat_ofNat]
  omega

theorem State.svnState_minimum (s : State) : fld s.svnState 7 0 = s.fuses.svnMin % 256 := by
  simp only [fld, s.svnState_toNat]
  omega

/-- Bits 8 and 9 of a number whose low byte is `m`. -/
theorem testBit_flags {m : Nat} (hm : m < 256) (a b : Bool) :
    (m + 256 * b2n a + 512 * b2n b).testBit 8 = a ∧ (m + 256 * b2n a + 512 * b2n b).testBit 9 = b := by
  simp only [Nat.testBit_eq_decide_div_mod_eq]
  cases a <;> cases b <;> simp only [b2n] <;> simp <;> omega

theorem State.svnState_revoked (s : State) :
    bitAt s.svnState 8 = s.fuses.revoked0 ∧ bitAt s.svnState 9 = s.fuses.revoked1 := by
  simp only [bitAt, s.svnState_toNat]
  exact testBit_flags (Nat.mod_lt _ (by decide)) _ _

/-- Settles O53: no command takes back a fuse, and only the ends of LOAD and CALIBRATE burn one. -/
theorem fusesOnlyAdvance : Obligations.FusesOnlyAdvance := by
  unfold Obligations.FusesOnlyAdvance
  refine ⟨fun s t h => ?_, fun s t c h => (obeys_of_exec h).secret, fun s t c h => (obeys_of_exec h).minimum,
    fun s => ⟨s.svnState_minimum, s.svnState_revoked⟩⟩
  rcases step_cases h with ⟨c, rest, -, hc⟩ | ⟨-, hd⟩
  · exact (obeys_of_exec hc).advances
  · exact (show t.fuses = s.fuses from hd.fuses) ▸ Fuses.advances_refl _

end Sys2Proof.Machine
end

section
/-! PROOF. THROTTLE and the junction sensors (R41, R471, R472). -/

namespace Sys2Proof.Machine

/-! ### Modes entered -/

/-- What a mode's entry changes, with its one audit entry. -/
theorem State.setMode_eq (s : State) (target : Mode) (trigger : Nat) : ∃ a f o, s.setMode target trigger = { s with
    modes := { s.modes with
      mode := target
      drainDeadline := if target = .drain ∨ target = .throttle then s.modes.drainDeadline else none }
    audit := a, funcs := f, out := o } ∧ a.next = s.audit.next + 1 := by
  unfold State.setMode
  simp only
  split
  · exact ⟨_, _, _, rfl, rfl⟩
  · obtain ⟨f, o, h⟩ := State.signal_touches ((s.setModes { s.modes with
      mode := target
      drainDeadline := if target = .drain ∨ target = .throttle then s.modes.drainDeadline else none }).auditMode
        target trigger false) 0 0
    exact ⟨_, f, o, h, rfl⟩

/-- A fault record and an event change nothing else. -/
theorem State.fault_raiseEvent (s : State) (cls kind id : Nat) (d0 d1 : Word) (fn code : Nat) (payload : List Word) :
    ∃ l m f o, (s.fault cls kind id d0 d1).raiseEvent fn code payload = { s with faults := l, mbx := m, funcs := f, out := o } := by
  obtain ⟨l, hl, -⟩ := s.fault_touches cls kind id d0 d1
  rw [hl]
  obtain ⟨m, f, o, h⟩ := State.raiseEvent_touches ({ s with faults := l } : State) fn code payload
  exact ⟨l, m, f, o, h⟩

/-! ### THROTTLE (R41, R471, R472) -/

theorem exec_thermalSensorRead (xs : List Int) (cs : Int) (s : State) :
    exec (.thermalSensorRead xs cs) s = .next (thermalSensorRead xs cs s) := rfl

theorem exec_throttleStepTest (s : State) : exec .throttleStepTest s = .next (throttleStepTest s) := rfl

theorem exec_thermalExit (s : State) : exec .thermalExit s = .next (thermalExit s) := rfl

/-- What entry into THROTTLE leaves, with its mode, return mode and first step. -/
theorem State.enterThrottle_eq {s : State} (h : s.modes.mode.throttles = true) : ∃ m b f a l o, s.enterThrottle = { s with
    modes := m, mbx := b, funcs := f, audit := a, faults := l, out := o
    thermal := { s.thermal with step := 1, lastTest := s.now, coldSince := none } } ∧
    m.mode = .throttle ∧ m.returnMode = s.modes.mode ∧ a.next = s.audit.next + 1 := by
  unfold State.enterThrottle
  rw [if_pos h]
  simp only
  obtain ⟨a, f, o, hm, ha⟩ := (s.setModes { s.modes with returnMode := s.modes.mode }).setMode_eq .throttle 8
  rw [hm]
  simp only
  generalize hu : State.mk .. = u
  obtain ⟨l, b, f', o', he⟩ := u.fault_raiseEvent 0x40 0 0 1 (wInt s.hottest) 0 0x108 [1, wInt s.hottest]
  rw [he, ← hu]
  exact ⟨_, _, _, _, _, _, rfl, rfl, rfl, ha⟩

/-- The return from THROTTLE: every reduction is removed. -/
theorem State.leaveThrottle_eq {s : State} (h : s.modes.mode = .throttle) : ∃ m x b f a l v o, s.leaveThrottle = { s with
    modes := m, boot := x, mbx := b, funcs := f, audit := a, faults := l, avail := v, out := o
    thermal := { s.thermal with step := 0, coldSince := none }, hbm := { s.hbm with request := 0 } } ∧
    m.mode = s.modes.returnMode ∧ m.returnMode = .reset ∧ a.next = s.audit.next + 1 := by
  unfold State.leaveThrottle
  rw [if_pos h]
  simp only
  obtain ⟨a, f, o, hm, ha⟩ := s.setMode_eq s.modes.returnMode 9
  rw [hm]
  simp only
  split
  all_goals
    generalize hu : State.mk .. = u
    obtain ⟨l, b, f', o', he⟩ := u.fault_raiseEvent 0x40 0 0 0 (wInt s.hottest) 0 0x108 [0, wInt s.hottest]
    rw [he, ← hu]
    exact ⟨_, _, _, _, _, _, _, _, rfl, rfl, rfl, ha⟩


/-! ### The sensors -/

theorem le_foldl_max {k a : Int} (l : List Int) : k ≤ l.foldl max a ↔ k ≤ a ∨ ∃ x ∈ l, k ≤ x := by
  induction l generalizing a with
  | nil => simp
  | cons x l ih => simp [ih, or_assoc]

/-- The hottest of the sensors reaches a temperature where one of them does. -/
theorem State.le_hottest {s : State} {k : Int} (h : s.thermal.sensors ≠ []) :
    k ≤ s.hottest ↔ ∃ x ∈ s.thermal.sensors, k ≤ x := by
  obtain ⟨x, l, hx⟩ := List.exists_cons_of_ne_nil h
  rw [State.hottest, le_foldl_max, hx]
  simp

theorem range_map_getD {xs : List Int} (h : xs.length = 24) : (List.range 24).map (fun i => xs.getD i 0) = xs := by
  rw [← h]
  exact List.ext_getElem (by simp) fun i h1 h2 => by simp [h2]

/-- The readings taken, before THROTTLE is asked for. -/
def State.sensed (s : State) (xs : List Int) (cs : Int) : State :=
  let s : State := { s.begin with thermal := { s.thermal with sensors := xs, caseSide := cs } }
  { s with thermal := { s.thermal with
    fatalSince := if 840 ≤ s.hottest then some (s.thermal.fatalSince.getD s.now) else none
    coldSince := if s.modes.mode = .throttle ∧ s.hottest ≤ 760 then some (s.thermal.coldSince.getD s.now) else none } }

theorem thermalSensorRead_eq {s : State} (hp : s.pins.pwrgoodAux = true) {xs : List Int} (hx : xs.length = 24) (cs : Int) :
    thermalSensorRead xs cs s =
      if 800 ≤ (s.sensed xs cs).hottest ∧ s.modes.mode.throttles = true then (s.sensed xs cs).throttleReq 8
      else s.sensed xs cs := by
  unfold thermalSensorRead
  simp only [show s.begin.pins.pwrgoodAux = true from hp, range_map_getD hx]
  rfl

theorem State.throttleReq_free {s : State} (harb : s.modes.arb = []) (ht : s.modes.transition = none) :
    s.throttleReq 8 = s.enterThrottle ∧ s.throttleReq 9 = s.leaveThrottle := by
  simp [State.throttleReq, harb, ht]

theorem throttleStepTest_eq {s : State} (hm : s.modes.mode = .throttle) (ht : s.thermal.lastTest + 100000000 ≤ s.now) :
    throttleStepTest s =
      let u : State := { s with thermal := { s.thermal with lastTest := s.thermal.lastTest + 100000000 }, out := [] }
      if 800 ≤ s.hottest ∧ s.thermal.step < 5 then u.throttleStep else u :=
  if_neg (not_or.mpr ⟨not_not.mpr hm, Nat.not_lt.mpr ht⟩)

/-- The step of R472 with its record, where the writer has room. -/
theorem State.throttleStep_eq {s : State} (hq : s.faults.queue.length < 256) : ∃ r, s.throttleStep = { s with
    thermal := { s.thermal with step := s.thermal.step + 1 }
    hbm := { s.hbm with
      request := if s.thermal.step + 1 = 3 then 1 else if s.thermal.step + 1 = 4 then 2 else s.hbm.request }
    faults := { s.faults with queue := s.faults.queue ++ [r] } } ∧ r.cls = 0x40 ∧ r.d0 = w32 (s.thermal.step + 1) := by
  unfold State.throttleStep
  simp only
  rw [State.fault_queue]
  case h => exact hq
  exact ⟨_, rfl, rfl, rfl⟩

theorem thermalExit_eq {s : State} {u : Nat} (hm : s.modes.mode = .throttle) (hu : s.thermal.coldSince = some u)
    (hnow : u + 1000000000 ≤ s.now) : thermalExit s = s.begin.throttleReq 9 := by
  have h : s.begin.thermal.coldSince.any (fun t => decide (t + 1000000000 ≤ s.begin.now)) = true := by
    rw [show s.begin.thermal.coldSince = some u from hu, Option.any_some]
    exact decide_eq_true hnow
  exact if_pos ⟨hm, h⟩

section
variable {s : State} {xs : List Int} (cs : Int) (hp : s.pins.pwrgoodAux = true) (hx : xs.length = 24)
include hp hx

/-- A hot reading enters THROTTLE where the arbiter is free. -/
theorem thermalSensorRead_hot (hm : s.modes.mode.throttles = true) (harb : s.modes.arb = []) (ht : s.modes.transition = none)
    (hhot : ∃ x ∈ xs, 800 ≤ x) : thermalSensorRead xs cs s = (s.sensed xs cs).enterThrottle := by
  have hne : (s.sensed xs cs).thermal.sensors ≠ [] := fun h => by simp [show xs = [] from h] at hx
  rw [thermalSensorRead_eq hp hx, if_pos ⟨(State.le_hottest hne).mpr hhot, hm⟩]
  exact (State.throttleReq_free (s := s.sensed xs cs) harb ht).1

/-- Readings below 100 degrees C are taken, and no more. -/
theorem thermalSensorRead_cold (hcold : ∀ x ∈ xs, x < 800) : thermalSensorRead xs cs s = s.sensed xs cs ∧
    (s.sensed xs cs).thermal.fatalSince = none := by
  have hne : (s.sensed xs cs).thermal.sensors ≠ [] := fun h => by simp [show xs = [] from h] at hx
  have hlow : ∀ k : Int, 800 ≤ k → ¬ k ≤ (s.sensed xs cs).hottest := fun k hk h => by
    obtain ⟨x, hx, hle⟩ := (State.le_hottest hne).mp h
    exact absurd (hcold x hx) (by omega)
  rw [thermalSensorRead_eq hp hx, if_neg fun h => hlow 800 (by decide) h.1]
  exact ⟨rfl, if_neg (hlow 840 (by decide))⟩

end

/-- A test while it stays hot takes the next step of R472. -/
theorem throttleStepTest_hot {s : State} (hm : s.modes.mode = .throttle) (ht : s.thermal.lastTest + 100000000 ≤ s.now)
    (hq : s.faults.queue.length < 256) (hhot : 800 ≤ s.hottest) (hstep : s.thermal.step < 5) :
    ∃ r, throttleStepTest s = { s with
      thermal := { s.thermal with step := s.thermal.step + 1, lastTest := s.thermal.lastTest + 100000000 }
      hbm := { s.hbm with
        request := if s.thermal.step + 1 = 3 then 1 else if s.thermal.step + 1 = 4 then 2 else s.hbm.request }
      faults := { s.faults with queue := s.faults.queue ++ [r] }, out := [] } ∧
      r.cls = 0x40 ∧ r.d0 = w32 (s.thermal.step + 1) := by
  rw [throttleStepTest_eq hm ht]
  simp only
  rw [if_pos ⟨hhot, hstep⟩]
  exact State.throttleStep_eq (s := { s with thermal := { s.thermal with lastTest := _ }, out := [] }) hq

/-- Settles O19: THROTTLE is entered from the reading itself, and left by the timer, where the arbiter is free. -/
theorem heatDrivesThrottle : Obligations.HeatDrivesThrottle := by
  unfold Obligations.HeatDrivesThrottle
  refine ⟨fun s xs cs hp hx hm harb ht => ⟨fun hhot => ?_, fun hcold => ?_⟩,
    fun s hm ht hq => ⟨fun hhot hstep => ?_, fun hcold => ?_⟩, fun s u hm hu hnow harb ht => ?_⟩
  · refine ⟨_, exec_thermalSensorRead xs cs s, ?_⟩
    rw [thermalSensorRead_hot cs hp hx hm harb ht hhot]
    obtain ⟨m, b, f, a, l, o, he, hmode, hret, haud⟩ := State.enterThrottle_eq (s := s.sensed xs cs) hm
    rw [he]
    exact ⟨rfl, hmode, hret, rfl, rfl, rfl, haud, rfl, rfl⟩
  · obtain ⟨he, hf⟩ := thermalSensorRead_cold cs hp hx hcold
    exact ⟨_, exec_thermalSensorRead xs cs s, he ▸ ⟨rfl, rfl, rfl, hf⟩⟩
  · obtain ⟨r, he, hcls, hd0⟩ := throttleStepTest_hot hm ht hq hhot hstep
    refine ⟨_, exec_throttleStepTest s, ?_⟩
    rw [he]
    refine ⟨rfl, rfl, rfl, fun h => if_pos h, fun h => ?_, r, rfl, hcls, hd0⟩
    exact (if_neg fun h3 => absurd (h3.symm.trans h) (by decide)).trans (if_pos h)
  · rw [exec_throttleStepTest, throttleStepTest_eq hm ht]
    exact congrArg _ (if_neg fun h => absurd h.1 (by omega))
  · refine ⟨_, exec_thermalExit s, ?_⟩
    obtain ⟨m, x, b, f, a, l, v, o, he, hmode, hret, haud⟩ := State.leaveThrottle_eq (s := s.begin) hm
    rw [thermalExit_eq hm hu hnow, (State.throttleReq_free (s := s.begin) harb ht).2, he]
    exact ⟨rfl, hmode, rfl, rfl, hret, haud⟩

end Sys2Proof.Machine
end

section
/-! PROOF. The state right after reset (R33, R52, R64). -/

namespace Sys2Proof.Machine

/-- Right after reset every function has a mailbox as it is created. -/
theorem State.reset_mb (fn : Nat) : State.reset.mb fn = {} := rfl

theorem State.reset_modesWf : State.reset.modesWf := Modes.wf_reset (m := State.reset.modes) rfl rfl

theorem State.reset_tablesSorted : State.reset.tablesSorted = true := by decide

/-- STATUS0 reads 0 after reset: no instance is down, no time base in holdover, and no sensor is hot. -/
theorem State.reset_status0 : State.reset.status0 = 0 := by
  have hdown : State.reset.instDown = false := by decide
  have hhold : State.reset.time.bases.any TimeBase.inHoldover = false := by decide
  have hcool : State.reset.hottest = 0 := by decide
  simp only [State.status0, hdown, hhold, hcool]
  rfl

/-- Settles O2: State.reset is the state of the default values. -/
theorem resetLeavesTheDeviceEmpty : Obligations.ResetLeavesTheDeviceEmpty := by
  unfold Obligations.ResetLeavesTheDeviceEmpty
  refine ⟨⟨rfl, State.reset_status0, rfl, rfl, rfl, rfl, rfl, rfl, rfl, rfl, fun fn => ?_⟩, State.reset_memWf, State.reset_modesWf,
    State.reset_tablesSorted⟩
  rw [State.reset_mb]
  exact ⟨by decide, by decide, rfl, rfl, rfl⟩

end Sys2Proof.Machine
end

section
/-! PROOF. The reads of identity, logs and monitors, and the messages that are refused (R34, R67, R78, R80). -/

namespace Sys2Proof.Machine

/-! ### Answers of the reads (R34, R80) -/

theorem exec_deviceIdentify (id : Nat) (s : State) : exec (.deviceIdentify id) s = .next (s.command id 0x010 (deviceIdentifyBody id)) :=
  rfl

theorem exec_logRead (id : Nat) (s : State) : exec (.logRead id) s =
    .next (s.command id 0x071 (logReadBody 0x071 (fun s => s.faults.log) id)) := rfl

theorem exec_auditRead (id : Nat) (s : State) : exec (.auditRead id) s =
    .next (s.command id 0x072 (logReadBody 0x072 (fun s => s.audit) id)) := rfl

theorem exec_surveyRead (id : Nat) (s : State) : exec (.surveyRead id) s = .next (s.command id 0x073 (surveyReadBody id)) := rfl

theorem exec_malformedMessage (id : Nat) (s : State) : exec (.malformedMessage id) s = .next (malformedMessage id s) := rfl

theorem exec_unknownOpcode (id : Nat) (s : State) : exec (.unknownOpcode id) s = .next (unknownOpcode id s) := rfl

/-- A command that waits and whose body completes it with OK. -/
theorem State.command_answered {s : State} {id op : Nat} {c : Taken} {body : Taken → State → State} {ws : List (Word × Bool)}
    (hw : s.waits id op c) (hb : body c s.begin = s.begin.complete id rOk 0xFFFFFFFF ws) :
    s.answered (s.command id op body) id c (replyWith c rOk 0xFFFFFFFF ws) := by
  rw [State.command_waits s id op c body hw, hb]
  obtain ⟨hf, -, -, -, -, ho, -⟩ := hw
  exact State.answered_of_begin (State.complete_answered s.begin id rOk 0xFFFFFFFF ws c hf ho)

/-- A refused message answers with its result code alone. -/
theorem State.begin_reject_answered {s : State} {id : Nat} {c : Taken} (result : Nat) (hf : s.welmus.taken.find? id = some c)
    (ho : c.orphan = false) : s.answered (s.begin.reject id result) id c (reply c result 0xFFFFFFFF []) := by
  have h := State.complete_answered s.begin id result 0xFFFFFFFF [] c hf ho
  rw [show ([] : List (Word × Bool)) = plain [] from rfl, replyWith_plain] at h
  exact State.answered_of_begin h

theorem deviceIdentify_answered {s : State} {id : Nat} {c : Taken} (hw : s.waits id 0x010 c) (hlen : c.lenIs 3 = true) :
    s.answered (s.command id 0x010 (deviceIdentifyBody id)) id c
      (reply c rOk 0xFFFFFFFF (s.identityWords ++ [s.status0, s.svnState, w32 c.fn])) := by
  rw [← replyWith_plain]
  refine State.command_answered hw ?_
  rw [deviceIdentifyBody, State.checked_ok]
  · rfl
  · simp [firstFail, hlen]

/-- LOG_READ and AUDIT_READ answer with what their log reads. -/
theorem logRead_answered {s : State} {id op : Nat} {c : Taken} {log : State → Log} (hl : log s.begin = log s) (hw : s.waits id op c)
    (hs : s.serves op = true) (hfn : c.fn = 0) (hlen : c.lenIs 5 = true) (h1 : 1 ≤ (c.w 4).toNat)
    (h2 : (c.w 4).toNat ≤ 127) : s.answered (s.command id op (logReadBody op log id)) id c
      (let r := (log s).read (c.w 3) (c.w 4).toNat
       replyWith c rOk 0xFFFFFFFF (plain [r.1, r.2.1, r.2.2.1] ++ r.2.2.2.flatten)) := by
  refine State.command_answered hw ?_
  rw [logReadBody, State.checked_ok]
  · rw [hl]
  · have h0 : (c.w 4).toNat ≠ 0 := by omega
    have h127 : ¬ 127 < (c.w 4).toNat := by omega
    have hs' : s.begin.serves op = true := hs
    simp [firstFail, hlen, hfn, hs', h0, h127]

theorem fld_of_lt {w : Word} {hi : Nat} (h : w.toNat < 2 ^ (hi + 1)) : fld w hi 0 = w.toNat := by
  rw [fld, Nat.pow_zero, Nat.div_one]
  exact Nat.mod_eq_of_lt h

theorem surveyRead_answered {s : State} {id : Nat} {c : Taken} (hw : s.waits id 0x073 c) (hs : s.effMode.status = true)
    (hfn : c.fn = 0) (hlen : c.lenIs 5 = true) (h3 : (c.w 3).toNat < 64) (h4 : 1 ≤ (c.w 4).toNat)
    (h34 : (c.w 3).toNat + (c.w 4).toNat ≤ 64) : s.answered (s.command id 0x073 (surveyReadBody id)) id c
      (reply c rOk 0xFFFFFFFF
        ((List.range (c.w 4).toNat).flatMap fun i => (s.monitor ((c.w 3).toNat + i)).words ((c.w 3).toNat + i))) := by
  have hfirst : fld (c.w 3) 5 0 = (c.w 3).toNat := fld_of_lt h3
  have hn : fld (c.w 4) 6 0 = (c.w 4).toNat := fld_of_lt (by omega)
  rw [← replyWith_plain]
  refine State.command_answered hw ?_
  rw [surveyReadBody, hfirst, hn, State.checked_ok]
  · rfl
  · have hs' : s.begin.serves 0x073 = true := hs
    have h0 : (c.w 4).toNat ≠ 0 := by omega
    simp [firstFail, zeroFrom, hlen, hfn, hs', h0, h3, show (c.w 4).toNat < 128 by omega, show (c.w 4).toNat ≤ 64 by omega, h34]

/-- Settles O3: each read passes its checks and completes with its words; the others are refused. -/
theorem readsAndBadMessagesAnswer : Obligations.ReadsAndBadMessagesAnswer := by
  unfold Obligations.ReadsAndBadMessagesAnswer
  refine ⟨fun s id c hw hlen => ⟨_, exec_deviceIdentify id s, deviceIdentify_answered hw hlen⟩,
    fun s id c hfn hlen => ⟨fun hw h1 h2 hm => ?_, fun hw h1 h2 hm => ?_, fun hw h3 h4 h34 hm => ?_⟩,
    fun s id c hf ho he => ⟨fun hm => ?_, fun hm hop => ?_⟩⟩
  · exact ⟨_, exec_logRead id s, logRead_answered rfl hw (by simpa [State.serves] using hm) hfn hlen h1 h2⟩
  · exact ⟨_, exec_auditRead id s, logRead_answered rfl hw (by simpa [State.serves] using hm) hfn hlen h1 h2⟩
  · exact ⟨_, exec_surveyRead id s, surveyRead_answered hw hm hfn hlen h3 h4 h34⟩
  · have hrun : malformedMessage id s = s.begin.reject id (if c.poison then rIntegrity else rBadArg) := by
      have he' : s.begin.eligible id c = true := he
      simp [malformedMessage, hf, he', hm]
    exact ⟨_, exec_malformedMessage id s, hrun ▸ State.begin_reject_answered _ hf ho⟩
  · have hrun : unknownOpcode id s = s.begin.reject id (if c.poison then rIntegrity else rBadArg) := by
      have hf' : s.begin.welmus.taken.find? id = some c := hf
      have he' : s.begin.eligible id c = true := he
      simp only [unknownOpcode, hf', he', hm, hop]
      rfl
    exact ⟨_, exec_unknownOpcode id s, hrun ▸ State.begin_reject_answered _ hf ho⟩

end Sys2Proof.Machine
end

section
/-! PROOF. MCTP, the recovery of the SMBus and the alarm outputs (R53, R473, R495). -/

namespace Sys2Proof.Machine

/-! ### MCTP (R53) -/

/-- While the management island runs an MCTP request answers with its words alone. -/
theorem State.begin_mctp {s : State} (h : s.pins.pwrgoodAux = true) (ws : List Word) :
    s.begin.mctp ws = { s with out := [.mctp ws] } := if_pos h

/-! ### The SMBus (R495) -/

theorem exec_smbusSdaStuck (n : Nat) (ok : Bool) (s : State) : exec (.smbusSdaStuck n ok) s = .next (smbusSdaStuck n ok s) := rfl

theorem exec_smbusSclStuck (ok : Bool) (s : State) : exec (.smbusSclStuck ok) s = .next (smbusSclStuck ok s) := rfl

theorem exec_smbusRetry (n : Nat) (ok : Bool) (s : State) : exec (.smbusRetry n ok) s = .next (smbusRetry n ok s) := rfl

theorem exec_alarmShort (k : Nat) (high : Bool) (s : State) : exec (.alarmShort k high) s = .next (alarmShort k high s) := rfl

theorem exec_alarmRetry (k : Nat) (high : Bool) (s : State) : exec (.alarmRetry k high) s = .next (alarmRetry k high s) := rfl

/-- The SMBus after a try of its recovery. -/
def smbusAfter (s : State) (ok : Bool) : Smbus := { stuck := !ok, recorded := !ok, lastTry := s.now }

theorem w32_b2n_not (ok : Bool) : w32 (b2n (!ok)) = if ok then 0 else 1 := by cases ok <;> rfl

/-- A try within an episode that has its record. -/
theorem State.sdaTry_recorded {s : State} (h : s.smbus.recorded = true) (n : Nat) (ok : Bool) :
    s.begin.sdaTry n ok = { s with smbus := smbusAfter s ok, out := [.sclPulses (min n 9)] } := by
  unfold State.sdaTry
  simp only
  rw [if_pos (show (s.begin.emit _).smbus.recorded = true from h)]
  rfl

/-- The first try of an episode leaves its record where the writer has room. -/
theorem State.sdaTry_records {s : State} (h : s.smbus.recorded = false) (hq : s.faults.queue.length < 256) (n : Nat) (ok : Bool) :
    ∃ r, s.begin.sdaTry n ok = { s with
      smbus := smbusAfter s ok, faults := { s.faults with queue := s.faults.queue ++ [r] }, out := [.sclPulses (min n 9)] } ∧
      r.cls = 0x51 ∧ r.d0 = w32 (min n 9) ∧ r.d1 = if ok then 0 else 1 := by
  unfold State.sdaTry
  simp only
  rw [if_neg (show ¬ (s.begin.emit _).smbus.recorded = true by simp [h]), State.fault_queue, w32_b2n_not]
  case h => exact hq
  exact ⟨_, rfl, rfl, rfl, rfl⟩

theorem smbusSdaStuck_eq {s : State} (hp : s.pins.pwrgoodAux = true) (hst : s.smbus.stuck = false) (n : Nat) (ok : Bool) :
    smbusSdaStuck n ok s = s.begin.sdaTry n ok := by
  simp [smbusSdaStuck, hp, hst]

theorem smbusSclStuck_eq {s : State} (hp : s.pins.pwrgoodAux = true) (hst : s.smbus.stuck = false)
    (hq : s.faults.queue.length < 256) (ok : Bool) : ∃ r, smbusSclStuck ok s = { s with
      smbus := smbusAfter s ok, faults := { s.faults with queue := s.faults.queue ++ [r] }, out := [.smbusReset] } ∧
      r.cls = 0x51 ∧ r.d0 = 0 ∧ r.d1 = if ok then 0 else 1 := by
  unfold smbusSclStuck
  simp only
  rw [if_neg (by simp [hp, hst]), State.fault_queue, w32_b2n_not]
  case h => exact hq
  exact ⟨_, rfl, rfl, rfl, rfl⟩

theorem smbusRetry_eq {s : State} (hp : s.pins.pwrgoodAux = true) (hst : s.smbus.stuck = true)
    (hnow : s.smbus.lastTry + 1000000000 ≤ s.now) (n : Nat) (ok : Bool) : smbusRetry n ok s = s.begin.sdaTry n ok := by
  have hlt : ¬ s.now < s.smbus.lastTry + 1000000000 := Nat.not_lt.mpr hnow
  simp [smbusRetry, hp, hst, hlt]

/-! ### Alarm outputs (R473) -/

theorem State.setAlarm_alarm {s : State} {k : Nat} (hk : k < s.pins.alarms.length) (a : Alarm) : (s.setAlarm k a).alarm k = a := by
  simp [State.setAlarm, State.alarm, hk]

/-- What asks for an output does not depend on the outputs. -/
theorem State.setAlarm_alarmOn (s : State) (k j : Nat) (a : Alarm) : (s.setAlarm k a).alarmOn j = s.alarmOn j := by
  unfold State.alarmOn
  split <;> rfl

/-- An output found shorted is no longer driven, with its record. -/
theorem alarmShort_eq {s : State} {k : Nat} (hp : s.pins.pwrgoodAux = true) (hq : s.faults.queue.length < 256)
    (hon : s.alarmOn k = true) (hst : (s.alarm k).stopped = false) : ∃ r, alarmShort k true s =
      { s.begin.setAlarm k { stopped := true, lastTry := s.now } with
        faults := { s.faults with queue := s.faults.queue ++ [r] } } ∧ r.cls = 0x50 ∧ r.d0 = w32 k := by
  have hon' : s.begin.alarmOn k = true := hon
  have hst' : (s.begin.alarm k).stopped = false := hst
  unfold alarmShort
  simp only
  rw [if_pos (by simp [hp, State.alarmLow, hon', hst']), State.alarmShorted, State.fault_queue]
  case h => exact hq
  exact ⟨_, rfl, rfl, rfl⟩

/-- A shorted output that reads low again is driven once more. -/
theorem alarmRetry_eq {s : State} {k : Nat} (hp : s.pins.pwrgoodAux = true) (hst : (s.alarm k).stopped = true)
    (hnow : (s.alarm k).lastTry + 1000000000 ≤ s.now) :
    alarmRetry k false s = s.begin.setAlarm k { stopped := false, lastTry := s.now } := by
  have hst' : (s.begin.alarm k).stopped = true := hst
  have hlt : ¬ s.now < (s.begin.alarm k).lastTry + 1000000000 := Nat.not_lt.mpr hnow
  simp [alarmRetry, hp, hst', hlt]

/-- Settles O12: each request, try and retry is what its row says while the management island runs. -/
theorem managementAndAlarms : Obligations.ManagementAndAlarms := by
  unfold Obligations.ManagementAndAlarms
  refine ⟨fun s hp => ⟨congrArg _ (State.begin_mctp hp _), congrArg _ (State.begin_mctp hp _), congrArg _ (State.begin_mctp hp _),
      fun p => congrArg _ (State.begin_mctp hp _)⟩,
    fun s hp hq => ⟨fun n ok hst hrec => ?_, fun ok hst => ?_, fun n ok hst hrec hnow => ?_⟩,
    fun s k hp hk hlen hq => ⟨fun hon hst => ?_, fun hst hnow => ?_⟩⟩
  · obtain ⟨r, he, hr⟩ := State.sdaTry_records hrec hq n ok
    exact ⟨_, exec_smbusSdaStuck n ok s, (smbusSdaStuck_eq hp hst n ok).trans he ▸ ⟨rfl, rfl, r, rfl, hr⟩⟩
  · obtain ⟨r, he, hr⟩ := smbusSclStuck_eq hp hst hq ok
    exact ⟨_, exec_smbusSclStuck ok s, he ▸ ⟨rfl, rfl, r, rfl, hr⟩⟩
  · exact ⟨_, exec_smbusRetry n ok s, (smbusRetry_eq hp hst hnow n ok).trans (State.sdaTry_recorded hrec n ok) ▸ ⟨rfl, rfl⟩⟩
  · obtain ⟨r, he, hr⟩ := alarmShort_eq hp hq hon hst
    have ha := State.setAlarm_alarm (s := s.begin) (k := k) (show k < s.pins.alarms.length by omega)
      { stopped := true, lastTry := s.now }
    refine ⟨_, exec_alarmShort k true s, ?_⟩
    rw [he]
    refine ⟨rfl, ?_, ha, r, rfl, hr⟩
    show (_ && !((s.begin.setAlarm k _).alarm k).stopped) = false
    rw [ha]
    exact Bool.and_false _
  · have ha := State.setAlarm_alarm (s := s.begin) (k := k) (show k < s.pins.alarms.length by omega)
      { stopped := false, lastTry := s.now }
    refine ⟨_, exec_alarmRetry k false s, ?_⟩
    rw [alarmRetry_eq hp hst hnow]
    refine ⟨rfl, ha, ?_⟩
    rw [State.alarmLow, ha, State.setAlarm_alarmOn]
    exact Bool.and_true _

end Sys2Proof.Machine
end

section
/-! PROOF. DEVICE_MODE_SET at the mailbox and at the arbiter, and the end of its transition (R36, R40, R44). -/

namespace Sys2Proof.Machine

/-! ### A command with two entries (R94) -/

/-- A PHASE 1 entry is written, and the command answers with its number. -/
theorem State.finish_answered {s : State} {id : Nat} {c : Taken} (hf : s.welmus.taken.find? id = some c) (ho : c.orphan = false)
    (result kind obj : Nat) (payload : List Word) : ∃ a, a.next = s.audit.next + 1 ∧
      ({ s with audit := a } : State).answered (s.finish id c result kind obj payload) id c
        (reply c result s.audit.next payload) := by
  refine ⟨(s.doneEntry c result kind obj (payload.headD 0)).audit, rfl, ?_⟩
  rw [← replyWith_plain]
  exact State.complete_answered (s.doneEntry c result kind obj (payload.headD 0)) id result s.audit.next (plain payload) c hf ho

/-- An answer changes mailboxes, interrupts and the commands in progress. -/
theorem State.answered_frame {s t : State} {id : Nat} {c : Taken} {ws : List (Word × Bool)} (h : s.answered t id c ws) :
    ∃ b f o, t = { s with mbx := b, funcs := f, welmus := { s.welmus with taken := s.welmus.taken.del id }, out := o } := by
  obtain ⟨hframe, hw, -, -⟩ := h
  unfold State.onlyAnswers at hframe
  rw [hframe, hw]
  exact ⟨t.mbx, t.funcs, t.out, rfl⟩

theorem State.answered_evq {s t : State} {id : Nat} {c : Taken} {ws : List (Word × Bool)} (h : s.answered t id c ws) :
    (t.mb c.fn).evq = (s.mb c.fn).evq ++ ws := by
  obtain ⟨-, -, hmb, -⟩ := h
  rw [hmb]

/-! ### DEVICE_MODE_SET at the mailbox (R43, R80) -/

theorem exec_deviceModeSet (id : Nat) (s : State) : exec (.deviceModeSet id) s = .next (s.command id 0x011 (deviceModeSetBody id)) :=
  rfl

theorem exec_modeArbiterTake (s : State) : exec .modeArbiterTake s = .next (modeArbiterTake s) := rfl

theorem exec_modeTransitionDone (s : State) : exec .modeTransitionDone s = .next (modeTransitionDone s) := rfl

/-- A command of PF0 with a target that R80 names, and a deadline with DRAIN only. -/
structure Taken.setsMode (c : Taken) (m : Mode) : Prop where
  fn : c.fn = 0
  len : c.lenIs 5 = true
  code : (c.w 3).toNat < 16
  target : targetOf (c.w 3).toNat = some m
  bound : (c.w 4).toNat ≤ 86400
  deadline : (c.w 4).toNat = 0 ∨ m = .drain

/-- What DEVICE_MODE_SET does once its checks have passed. -/
theorem deviceModeSetBody_eq {s : State} {id : Nat} {c : Taken} {m : Mode} (hc : c.setsMode m) (hs : s.serves 0x011 = true) :
    deviceModeSetBody id c s =
      if m = .reset ∨ m = .quarantine then
        let s := (s.commitEntry c rOk 0 0 0).finish id c rOk 0 0 [w32 m.code]
        s.setModes { s.modes with arb := s.modes.arb ++ [{ target := m, trigger := 0, deadline := (c.w 4).toNat }] }
      else if s.modes.arb.any (fun r => r.cmd == some id) ∨ s.modes.transition.any (fun r => r.cmd == some id) then s
      else s.setModes { s.modes with
        arb := s.modes.arb ++ [{ target := m, trigger := 0, cmd := some id, deadline := (c.w 4).toNat }] } := by
  obtain ⟨hfn, hlen, hcode, htarget, hbound, hdead⟩ := hc
  have hfld : fld (c.w 3) 3 0 = (c.w 3).toNat := fld_of_lt hcode
  unfold deviceModeSetBody
  simp only [hfld, htarget]
  rw [State.checked_ok]
  have hb : ¬ 86400 < (c.w 4).toNat := Nat.not_lt.mpr hbound
  rcases hdead with h0 | rfl
  · simp [firstFail, zeroFrom, hfn, hlen, hcode, hs, h0]
  · simp [firstFail, zeroFrom, hfn, hlen, hcode, hs, hb]

section
variable {s : State} {id : Nat} {c : Taken} {m : Mode} (hw : s.waits id 0x011 c) (hc : c.setsMode m)
  (hs : s.effMode.working = true ∨ s.effMode = .retain)
include hw hs

theorem deviceModeSet_run : s.command id 0x011 (deviceModeSetBody id) = deviceModeSetBody id c s.begin ∧
    s.begin.serves 0x011 = true := by
  refine ⟨State.command_waits s id 0x011 c _ hw, ?_⟩
  have : s.serves 0x011 = true := by simpa [State.serves] using hs
  exact this

include hc

/-- RESET and QUARANTINE reach the arbiter after the command's completion. -/
theorem deviceModeSet_ends (hm : m = .reset ∨ m = .quarantine) : ∃ b f a o, s.command id 0x011 (deviceModeSetBody id) = { s with
    modes := { s.modes with arb := s.modes.arb ++ [{ target := m, trigger := 0, deadline := (c.w 4).toNat }] }
    mbx := b, funcs := f, audit := a, out := o, welmus := { s.welmus with taken := s.welmus.taken.del id } } ∧
    a.next = s.audit.next + 2 := by
  obtain ⟨hrun, hserves⟩ := deviceModeSet_run hw hs
  obtain ⟨hf, -, -, -, -, ho, -⟩ := hw
  rw [hrun, deviceModeSetBody_eq hc hserves, if_pos hm]
  obtain ⟨a, ha, hans⟩ := State.finish_answered (s := s.begin.commitEntry c rOk 0 0 0) (id := id) hf ho rOk 0 0 [w32 m.code]
  obtain ⟨b, f, o, he⟩ := State.answered_frame hans
  simp only
  rw [he]
  refine ⟨b, f, a, o, rfl, ?_⟩
  rw [ha, show (s.begin.commitEntry c rOk 0 0 0).audit.next = s.audit.next + 1 from rfl, BitVec.add_assoc]
  rfl

/-- Any other target reaches the arbiter with the command, which then waits. -/
theorem deviceModeSet_waits (harb : s.modes.arb = []) (ht : s.modes.transition = none) (hm : ¬ (m = .reset ∨ m = .quarantine)) :
    s.command id 0x011 (deviceModeSetBody id) = { s with out := [], modes := { s.modes with
      arb := [{ target := m, trigger := 0, cmd := some id, deadline := (c.w 4).toNat }] } } := by
  obtain ⟨hrun, hserves⟩ := deviceModeSet_run hw hs
  rw [hrun, deviceModeSetBody_eq hc hserves, if_neg hm, if_neg (by simp [harb, ht]), show s.begin.modes.arb = [] from harb]
  rfl

end

/-! ### The arbiter takes a DEVICE_MODE_SET (R40, R43) -/

section
variable {s : State} {r : ModeReq} {id : Nat} {c : Taken} (harb : s.modes.arb = [r]) (hcmd : r.cmd = some id)
  (hreset : r.target ≠ .reset) (hquar : r.target ≠ .quarantine) (htrig : r.trigger = 0) (htr : s.modes.transition = none)
  (hf : s.welmus.taken.find? id = some c)
include harb hcmd hreset hquar htrig htr hf

/-- A DEVICE_MODE_SET that waits alone is taken. -/
theorem modeArbiterTake_command :
    modeArbiterTake s = (s.begin.setModes { s.modes with arb := [] }).takeCommand r id c := by
  have hbest : bestReq s.begin.modes.arb = some r := congrArg bestReq harb
  unfold modeArbiterTake
  simp only [hbest]
  rw [if_neg (by simp [htr]), if_neg hreset, if_neg hquar, if_neg (by simp [htrig]), if_neg (by simp [htrig])]
  simp only [hcmd]
  have herase : s.begin.modes.arb.erase r = [] := by
    rw [show s.begin.modes.arb = [r] from harb]
    simp
  rw [herase]
  simp only [show (s.begin.setModes { s.begin.modes with arb := [] }).welmus.taken.find? id = some c from hf]
  rfl

variable (hm : s.modes.mode ≠ .throttle)
include hm

omit harb hcmd hreset hquar htrig htr hf in
theorem modeArbiterTake_commandTarget :
    (s.begin.setModes { s.modes with arb := [] }).commandTarget (s.begin.setModes { s.modes with arb := [] }).effMode r.target =
      s.commandTarget s.modes.mode r.target := by
  rw [show (s.begin.setModes { s.modes with arb := [] }).effMode = s.modes.mode from if_neg hm]
  rfl

/-- Along the table: the entry, and the transition in progress. -/
theorem modeArbiterTake_starts {m : Mode} (htab : s.commandTarget s.modes.mode r.target = some m) : ∃ a, modeArbiterTake s = { s with
    out := [], modes := { s.modes with arb := [], transition := some { r with target := m } }, audit := a
    welmus := { s.welmus with taken := s.welmus.taken.upd id fun c => { c with committed := true } } } ∧
    a.next = s.audit.next + 1 := by
  rw [modeArbiterTake_command harb hcmd hreset hquar htrig htr hf, State.takeCommand,
    modeArbiterTake_commandTarget hm, htab]
  simp only
  rw [if_neg fun h => hm h.1]
  exact ⟨_, rfl, rfl⟩

/-- Off the table: WRONG_MODE. -/
theorem modeArbiterTake_refuses (ho : c.orphan = false) (htab : s.commandTarget s.modes.mode r.target = none) :
    ({ s with modes := { s.modes with arb := [] } } : State).answered (modeArbiterTake s) id c
      (reply c rWrongMode 0xFFFFFFFF []) := by
  rw [modeArbiterTake_command harb hcmd hreset hquar htrig htr hf, State.takeCommand,
    modeArbiterTake_commandTarget hm, htab]
  exact State.begin_reject_answered (s := { s with modes := { s.modes with arb := [] } }) rWrongMode hf ho

end

/-! ### The end of a commanded transition (R36, R40, R44) -/

/-- Outside DRAIN the check of DRAIN does nothing where no transition is in progress. -/
theorem State.drainCheck_of_ne {s : State} (hd : s.modes.mode ≠ .drain) (ht : s.modes.mode ≠ .throttle) : s.drainCheck = s := by
  have he : s.effMode ≠ .drain := by rwa [show s.effMode = s.modes.mode from if_neg ht]
  unfold State.drainCheck State.autoMode State.autoNow
  simp [hd, he]

/-- The command behind a finished transition completes with the mode reached. -/
theorem modeTransitionDone_commanded {s : State} {r : ModeReq} {id : Nat} {c : Taken} (hr : s.modes.transition = some r)
    (hcmd : r.cmd = some id) (htrig : r.trigger = 0)
    (hgo : r.target = .service ∨ r.target = .degraded ∨ r.target = .maintenance ∨ r.target = .ready ∧ s.trafficGone = true)
    (hm : s.modes.mode ≠ .throttle) (hf : s.welmus.taken.find? id = some c) (ho : c.orphan = false) :
    ∃ m a, m.mode = s.reached r.target ∧ m.transition = none ∧ a.next = s.audit.next + 2 ∧
      ({ s with modes := m, audit := a } : State).answered (modeTransitionDone s) id c
        (reply c rOk (s.audit.next + 1) [w32 (s.reached r.target).code]) := by
  have hgo' : ¬ (r.target = .quarantine ∨ (r.target.carries || s.trafficGone) = false) := by
    rcases hgo with h | h | h | ⟨h, hg⟩ <;> simp [Mode.carries, *]
  have hreach : s.reached r.target = .service ∨ s.reached r.target = .degraded ∨ s.reached r.target = .maintenance ∨
      s.reached r.target = .ready := by
    unfold State.reached
    rcases hgo with h | h | h | ⟨h, -⟩ <;> rw [h]
    · exact s.serviceMode_serves.imp_right .inl
    · exact s.serviceMode_serves.imp_right .inl
    · exact .inr (.inr (.inl rfl))
    · exact .inr (.inr (.inr rfl))
  have hne : s.reached r.target ≠ .calibrate ∧ s.reached r.target ≠ .drain ∧ s.reached r.target ≠ .throttle ∧
      s.reached r.target ≠ .retain := by
    rcases hreach with h | h | h | h <;> rw [h] <;> decide
  rw [modeTransitionDone_done hr hgo' hm]
  generalize s.reached r.target = m at *
  obtain ⟨hcal, hdr, hth, hret⟩ := hne
  simp only
  rw [if_neg hcal]
  have hu : s.begin.enteredBy r m = ((s.begin.setModes { s.modes with transition := none }).setMode m r.trigger) := if_neg hret
  rw [hu, htrig]
  generalize hv : State.setMode _ m 0 = v
  have hcomp : v.completedBy r m = v.finish id c rOk 0 0 [w32 v.modes.mode.code] := by
    unfold State.completedBy
    rw [if_neg fun h => hdr h.1, hcmd]
    unfold State.finishModeSet
    simp only
    rw [show v.welmus.taken.find? id = some c by rw [← hv]; exact hf]
  have hvm : v.modes.mode = m := by rw [← hv]; rfl
  rw [hcomp, hvm]
  obtain ⟨a, ha, hans⟩ := State.finish_answered (s := v) (id := id) (by rw [← hv]; exact hf) ho rOk 0 0 [w32 m.code]
  obtain ⟨b, f, o, he⟩ := State.answered_frame hans
  have hmode : (v.finish id c rOk 0 0 [w32 m.code]).modes.mode = m := by rw [he]; exact hvm
  rw [State.drainCheck_of_ne (by rw [hmode]; exact hdr) (by rw [hmode]; exact hth)]
  have hnext : v.audit.next = s.audit.next + 1 := by rw [← hv]; rfl
  rw [hnext] at ha hans
  rw [← hv] at hans ⊢
  refine ⟨_, a, rfl, rfl, ?_, State.answered_of_begin hans⟩
  rw [ha, BitVec.add_assoc]
  rfl

/-- Settles O8: the three places that a DEVICE_MODE_SET passes, the mailbox, the arbiter and the end of its transition. -/
theorem commandedModeChanges : Obligations.CommandedModeChanges := by
  unfold Obligations.CommandedModeChanges
  refine ⟨fun s id c m hw hfn hlen hcode htarget hbound hdead hs harb htr => ?_,
    fun s r id c harb hcmd htrig hreset hquar htr hm hf ho => ?_, fun s r id c hr hcmd htrig hgo hm hf ho => ?_⟩
  · refine ⟨_, exec_deviceModeSet id s, ?_⟩
    have hc : c.setsMode m := ⟨hfn, hlen, hcode, htarget, hbound, hdead⟩
    by_cases hend : m = .reset ∨ m = .quarantine
    · obtain ⟨b, f, a, o, he, ha⟩ := deviceModeSet_ends hw hc hs hend
      rw [he]
      exact ⟨rfl, rfl, fun _ => ⟨by rw [harb]; rfl, rfl, ha⟩, fun h1 h2 => absurd hend (not_or.mpr ⟨h1, h2⟩)⟩
    · rw [deviceModeSet_waits hw hc hs harb htr hend]
      exact ⟨rfl, rfl, fun h => absurd h hend, fun _ _ => rfl⟩
  · refine ⟨_, exec_modeArbiterTake s, ?_⟩
    cases htab : s.commandTarget s.modes.mode r.target with
    | some m =>
      obtain ⟨a, he, ha⟩ := modeArbiterTake_starts harb hcmd hreset hquar htrig htr hf hm htab
      rw [he]
      refine ⟨rfl, rfl, rfl, fun m' hm' => ?_, nofun⟩
      cases hm'
      exact ⟨rfl, ha, by simp [FMap.find?_upd_self, hf]⟩
    | none =>
      have hans := modeArbiterTake_refuses harb hcmd hreset hquar htrig htr hf hm ho htab
      have hevq := State.answered_evq hans
      obtain ⟨b, f, o, he⟩ := State.answered_frame hans
      refine ⟨?_, ?_, ?_, nofun, fun _ => ⟨?_, ?_, ?_, hevq⟩⟩ <;> rw [he]
      · exact htr
      · exact FMap.find?_del_self ..
  · refine ⟨_, exec_modeTransitionDone s, ?_⟩
    obtain ⟨m, a, hmode, htr, ha, hans⟩ := modeTransitionDone_commanded hr hcmd htrig hgo hm hf ho
    have hevq := State.answered_evq hans
    obtain ⟨b, f, o, he⟩ := State.answered_frame hans
    rw [← hmode] at hevq
    rw [he] at hevq ⊢
    exact ⟨rfl, htr, hmode, rfl, ha, hevq, rfl, rfl, rfl, rfl⟩

end Sys2Proof.Machine
end

section
/-! PROOF. Fatal conditions, the entry into QUARANTINE, restarts and the drain deadline (R36, R39, R42, R48, R474). -/

namespace Sys2Proof.Machine

/-! ### Fatal conditions (R42, R474) -/

theorem exec_railOutOfWindow (rail lowNs : Nat) (s : State) : exec (.railOutOfWindow rail lowNs) s = .next (railOutOfWindow rail lowNs s) :=
  rfl

theorem exec_junctionFatal (s : State) : exec .junctionFatal s = .next (junctionFatal s) := rfl

theorem exec_watchdogExpiry (s : State) : exec .watchdogExpiry s = .next (watchdogExpiry s) := rfl

theorem exec_quarantineEntry (s : State) : exec .quarantineEntry s = .next (quarantineEntry s) := rfl

theorem exec_drainDeadlineExpiry (s : State) : exec .drainDeadlineExpiry s = .next (drainDeadlineExpiry s) := rfl

/-- The request for QUARANTINE of a fatal condition. -/
def fatalReq (cause : Nat) (d : Word) : ModeReq := { target := .quarantine, trigger := 10, cause := cause, detail := d }

section
variable {s : State} (hq : s.modes.mode ≠ .quarantine) (hr : s.modes.mode ≠ .reset)
include hq hr

/-- The first fatal condition asks the arbiter. -/
theorem State.fatal_adds (hno : s.modes.quarantines = []) (cause : Nat) (d : Word) :
    s.fatal cause d = s.setModes { s.modes with arb := s.modes.arb ++ [fatalReq cause d] } := by
  simp [State.fatal, hno, hq, hr, fatalReq]

/-- A further one writes its record. -/
theorem State.fatal_again (hyes : ∃ r ∈ s.modes.quarantines, r.trigger = 10) (hroom : s.faults.queue.length < 256) (cause : Nat)
    (d : Word) : s.fatal cause d = { s with
      faults := { s.faults with queue := s.faults.queue ++ [s.faultRec 0x60 0 0 (w32 cause) d] } } := by
  have hany : (s.modes.quarantines.any fun r => r.trigger == 10) = true := by simpa using hyes
  rw [State.fatal, if_neg (not_or.mpr ⟨hq, hr⟩), if_pos hany, State.fault_queue]
  exact hroom

end

theorem railOutOfWindow_eq {s : State} {rail lowNs : Nat} (hp : s.pins.pwrgoodMain = true) (hns : 2000 ≤ lowNs) (hrail : rail < 7) :
    railOutOfWindow rail lowNs s = s.begin.fatal 3 (w32 rail) := by
  simp [railOutOfWindow, hp, hns, hrail]

theorem junctionFatal_eq {s : State} {since : Nat} (hs : s.thermal.fatalSince = some since) (hnow : since + 1000000 ≤ s.now) :
    junctionFatal s = s.begin.fatal 2 (wInt s.hottest) := by
  have hs' : s.begin.thermal.fatalSince = some since := hs
  unfold junctionFatal
  simp only [hs']
  exact if_pos hnow

/-! ### Commands in progress that end (R48, R499) -/

theorem FMap.find?_eq_none_iff {α : Type} (m : FMap α) (k : Nat) : m.find? k = none ↔ ∀ p ∈ m, p.1 ≠ k := by
  induction m with
  | nil => simp [FMap.find?]
  | cons p m ih =>
    obtain ⟨j, v⟩ := p
    unfold FMap.find?
    split <;> simp_all

/-- A key stays absent where another is removed. -/
theorem FMap.find?_del_none {α : Type} {m : FMap α} {k i : Nat} (h : i = k ∨ m.find? i = none) : (m.del k).find? i = none := by
  by_cases hi : i = k
  · rw [hi, FMap.find?_del_self]
  · rw [FMap.find?_del_ne m k i hi]
    exact h.resolve_left hi

/-- What the end of commands in progress changes: mailboxes, interrupts, the audit log and the commands in progress, of which the
ones in `ids` and those that were not there are gone. -/
def State.endsCommands (s t : State) (ids : Nat → Prop) : Prop :=
  (∃ b f w a o, t = { s with mbx := b, funcs := f, welmus := w, audit := a, out := o }) ∧
    ∀ i, ids i ∨ s.welmus.taken.find? i = none → t.welmus.taken.find? i = none

theorem State.complete_endsCommands (s : State) (id result : Nat) (seq : Word) (payload : List (Word × Bool)) :
    s.endsCommands (s.complete id result seq payload) (· = id) := by
  cases hf : s.welmus.taken.find? id with
  | none =>
    have h : s.complete id result seq payload = s := by simp [State.complete, hf]
    rw [h]
    exact ⟨⟨s.mbx, s.funcs, s.welmus, s.audit, s.out, rfl⟩, fun i hi => hi.elim (fun h => h ▸ hf) (fun h => h)⟩
  | some c =>
    cases ho : c.orphan with
    | true =>
      have h : s.complete id result seq payload = { s with welmus := { s.welmus with taken := s.welmus.taken.del id } } := by
        simp [State.complete, hf, ho]
      rw [h]
      exact ⟨⟨s.mbx, s.funcs, _, s.audit, s.out, rfl⟩, fun i hi => FMap.find?_del_none hi⟩
    | false =>
      obtain ⟨b, f, o, h⟩ := State.answered_frame (s.complete_answered id result seq payload c hf ho)
      rw [h]
      exact ⟨⟨b, f, _, s.audit, o, rfl⟩, fun i hi => FMap.find?_del_none hi⟩

theorem State.finish_endsCommands (s : State) (id : Nat) (c : Taken) (result kind obj : Nat) (payload : List Word) :
    s.endsCommands (s.finish id c result kind obj payload) (· = id) := by
  obtain ⟨⟨b, f, w, a, o, h⟩, hn⟩ := (s.doneEntry c result kind obj (payload.headD 0)).complete_endsCommands id result s.audit.next
    (plain payload)
  exact ⟨⟨b, f, w, a, o, h⟩, hn⟩

theorem flushCommand_endsCommands (s : State) (p : Nat × Taken) : s.endsCommands (flushCommand s p) (· = p.1) := by
  unfold flushCommand
  split
  · exact s.finish_endsCommands ..
  · exact s.complete_endsCommands ..

theorem failCommand_endsCommands (s : State) (p : Nat × Taken) : s.endsCommands (failCommand s p) (· = p.1) := by
  unfold failCommand
  split
  · exact s.finish_endsCommands ..
  · exact s.complete_endsCommands ..

theorem State.endsCommands_foldl {f : State → Nat × Taken → State} (hf : ∀ (s : State) p, s.endsCommands (f s p) (· = p.1))
    (l : List (Nat × Taken)) (s : State) : s.endsCommands (l.foldl f s) (fun i => ∃ p ∈ l, p.1 = i) := by
  induction l generalizing s with
  | nil => exact ⟨⟨s.mbx, s.funcs, s.welmus, s.audit, s.out, rfl⟩, fun i hi => hi.elim (fun ⟨_, h, _⟩ => nomatch h) (fun h => h)⟩
  | cons p l ih =>
    obtain ⟨⟨b, g, w, a, o, h⟩, hp⟩ := hf s p
    obtain ⟨⟨b', g', w', a', o', h'⟩, hl⟩ := ih (f s p)
    refine ⟨⟨b', g', w', a', o', by rw [List.foldl_cons, h', h]⟩, fun i hi => hl i ?_⟩
    rcases hi with ⟨q, hq, rfl⟩ | hi
    · rcases List.mem_cons.mp hq with rfl | hq
      · exact .inr (hp _ (.inl rfl))
      · exact .inl ⟨q, hq, rfl⟩
    · exact .inr (hp i (.inr hi))

/-- All commands in progress end: none is left. -/
theorem State.endsCommands_all {f : State → Nat × Taken → State} (hf : ∀ (s : State) p, s.endsCommands (f s p) (· = p.1)) (s : State) :
    s.endsCommands (s.welmus.taken.foldl f s) (fun _ => True) := by
  obtain ⟨hframe, hn⟩ := State.endsCommands_foldl hf s.welmus.taken s
  refine ⟨hframe, fun i _ => hn i ?_⟩
  by_cases h : s.welmus.taken.find? i = none
  · exact .inr h
  · rw [FMap.find?_eq_none_iff] at h
    push Not at h
    exact .inl h

/-! ### The watchdog (R42, R48) -/

/-- The expiries within the last 60 s. -/
def State.recentExpiries (s : State) : List Nat := s.modes.watchdogs.filter fun t => decide (s.now < t + 60000000000)

/-- The watchdog's expiry noted, with its record. -/
def State.expired (s : State) : State :=
  (s.begin.setModes { s.modes with watchdogs := s.now :: s.recentExpiries }).fault 0x58 0 0 (w32 (s.recentExpiries.length + 1)) 0

theorem watchdogExpiry_eq {s : State} (hm : s.modes.mode.status = true) : watchdogExpiry s =
    if s.recentExpiries.isEmpty then s.expired.fwRestartNow else s.expired.fatal 4 (w32 (s.recentExpiries.length + 1)) :=
  if_pos hm

theorem State.expired_eq (s : State) : ∃ l, s.expired = { s with
    out := [], modes := { s.modes with watchdogs := s.now :: s.recentExpiries }, faults := l } ∧
    (s.faults.queue.length < 256 → l.queue = s.faults.queue ++ [s.faultRec 0x58 0 0 (w32 (s.recentExpiries.length + 1)) 0]) := by
  by_cases hroom : s.faults.queue.length < 256
  · refine ⟨_, State.fault_queue _ _ _ _ _ _ hroom, fun _ => rfl⟩
  · obtain ⟨l, hl, -⟩ := (s.begin.setModes { s.modes with watchdogs := s.now :: s.recentExpiries }).fault_touches 0x58 0 0
      (w32 (s.recentExpiries.length + 1)) 0
    exact ⟨l, hl, fun h => absurd h hroom⟩

/-- An expiry soon after another one is fatal. -/
theorem watchdogExpiry_fatal {s : State} (hq : s.modes.mode ≠ .quarantine) (hr : s.modes.mode ≠ .reset)
    (hno : s.modes.quarantines = []) {last : Nat} (hl : last ∈ s.modes.watchdogs) (hnow : s.now < last + 60000000000)
    (hm : s.modes.mode.status = true) : ∃ w l n, 1 < n ∧ watchdogExpiry s = { s with
      out := [], modes := { s.modes with watchdogs := w, arb := s.modes.arb ++ [fatalReq 4 (w32 n)] }, faults := l } ∧
      (s.faults.queue.length < 256 → l.queue = s.faults.queue ++ [s.faultRec 0x58 0 0 (w32 n) 0]) := by
  have hmem : last ∈ s.recentExpiries := List.mem_filter.mpr ⟨hl, decide_eq_true hnow⟩
  have hne : ¬ s.recentExpiries.isEmpty = true := fun h => by simp [List.isEmpty_iff.mp h] at hmem
  obtain ⟨l, he, hl⟩ := s.expired_eq
  refine ⟨s.now :: s.recentExpiries, l, s.recentExpiries.length + 1, ?_, ?_, hl⟩
  · have := List.length_pos_of_mem hmem
    omega
  · have hmodes : s.expired.modes = { s.modes with watchdogs := s.now :: s.recentExpiries } := by rw [he]
    rw [watchdogExpiry_eq hm, if_neg hne, State.fatal_adds (by rw [hmodes]; exact hq) (by rw [hmodes]; exact hr)
      (by rw [hmodes]; exact hno), he]
    rfl

/-- A restart of the application cores: every command in progress ends. -/
theorem State.fwRestartNow_eq (s : State) : ∃ b f w a o m v c t, s.fwRestartNow = { s with
    boot := { s.boot with resetCause := w32 (s.boot.resetCause.toNat ||| 32) }
    mbx := b, funcs := f, welmus := w, audit := a, out := o, modes := m, avail := v, loads := [], confs := c, towers := t } ∧
    m.fwRestart = true ∧ m.mode = s.modes.mode ∧ m.watchdogs = s.modes.watchdogs ∧ ∀ i, w.taken.find? i = none := by
  unfold State.fwRestartNow
  simp only
  obtain ⟨⟨b, f, w, a, o, h⟩, hn⟩ := State.endsCommands_all failCommand_endsCommands
    ((s.setCause 32).setModes { (s.setCause 32).modes with fwRestart := true })
  rw [h] at hn ⊢
  exact ⟨b, f, w, a, o, _, _, _, _, rfl, rfl, rfl, rfl, fun i => hn i (.inl trivial)⟩

/-- A word with the bits of a number set. -/
theorem bitAt_or (x : Word) (n : Nat) {i : Nat} (h : i < 32) : bitAt (w32 (x.toNat ||| n)) i = (bitAt x i || n.testBit i) := by
  rw [bitAt, w32, BitVec.toNat_ofNat, Nat.testBit_mod_two_pow, Nat.testBit_or, decide_eq_true h, Bool.true_and]
  rfl

theorem bitAt_or_of_testBit (x : Word) {n i : Nat} (h : i < 32) (hn : n.testBit i = true) :
    bitAt (w32 (x.toNat ||| n)) i = true := by
  rw [bitAt_or x n h, hn, Bool.or_true]

/-- An expiry long after the one before restarts the application cores. -/
theorem watchdogExpiry_restarts {s : State} (hm : s.modes.mode.status = true)
    (hold : ∀ u ∈ s.modes.watchdogs, u + 60000000000 ≤ s.now) : ∃ b f w a o m v c t l, watchdogExpiry s = { s with
      boot := { s.boot with resetCause := w32 (s.boot.resetCause.toNat ||| 32) }
      mbx := b, funcs := f, welmus := w, audit := a, out := o, modes := m, avail := v, loads := [], confs := c, towers := t
      faults := l } ∧
      m.fwRestart = true ∧ m.mode = s.modes.mode ∧ m.watchdogs = [s.now] ∧ (∀ i, w.taken.find? i = none) ∧
      (s.faults.queue.length < 256 → l.queue = s.faults.queue ++ [s.faultRec 0x58 0 0 1 0]) := by
  have hnil : s.recentExpiries = [] := List.filter_eq_nil_iff.mpr fun u hu h =>
    absurd (of_decide_eq_true h) (Nat.not_lt.mpr (hold u hu))
  obtain ⟨l, he, hl⟩ := s.expired_eq
  rw [hnil] at he hl
  rw [watchdogExpiry_eq hm, if_pos (by rw [hnil]; rfl), he]
  obtain ⟨b, f, w, a, o, m, v, c, t, h, hfw, hmode, hdogs, hn⟩ := State.fwRestartNow_eq
    { s with out := [], modes := { s.modes with watchdogs := [s.now] }, faults := l }
  exact ⟨b, f, w, a, o, m, v, c, t, l, h, hfw, hmode, hdogs, hn, hl⟩

/-! ### Entry into QUARANTINE (R39, R456, R474) -/

/-- A request for QUARANTINE in progress or waiting is acted on, a fatal condition's before a command's. -/
theorem Modes.quarantineReq_of_mem {m : Modes} {r : ModeReq} (h : r ∈ m.quarantines) : ∃ q, m.quarantineReq = some q := by
  unfold Modes.quarantineReq
  split
  · exact ⟨_, rfl⟩
  · cases hl : m.quarantines with
    | nil => rw [hl] at h; cases h
    | cons q l => exact ⟨q, rfl⟩

theorem Modes.quarantineReq_fatal {m : Modes} {r q : ModeReq} (h : r ∈ m.quarantines) (ht : r.trigger = 10)
    (hq : m.quarantineReq = some q) : q.trigger = 10 := by
  unfold Modes.quarantineReq at hq
  split at hq
  next x hx =>
    cases hq
    simpa using List.find?_some hx
  next hx => exact absurd (by simp [ht]) (List.find?_eq_none.mp hx r h)

theorem Modes.mem_quarantines_of_transition {m : Modes} {r : ModeReq} (h : m.transition = some r) (ht : r.target = .quarantine) :
    r ∈ m.quarantines := by
  simp [Modes.quarantines, h, ht]

theorem Modes.mem_quarantines_of_arb {m : Modes} {r : ModeReq} (h : r ∈ m.arb) (ht : r.target = .quarantine) :
    r ∈ m.quarantines := by
  simp [Modes.quarantines, h, ht]

/-- The class of a record stands in the low byte of its word 4 (R448). -/
theorem FaultRec.words_class (r : FaultRec) (seq : Word) (lost : Nat) (ht : r.time.length = 3) (hc : r.cls < 256) :
    fld (wordAt (r.words seq lost) 4) 7 0 = r.cls := by
  obtain ⟨a, b, c, hr⟩ := List.length_eq_three.mp ht
  unfold FaultRec.words
  rw [hr]
  simp only [wordAt, List.cons_append, List.nil_append, List.getD_cons_succ, List.getD_cons_zero, fld, w32, BitVec.toNat_ofNat]
  omega

/-- The last-gasp bank takes the record of a fatal condition where it is free (R456). -/
theorem State.fatalRecord_eq (s : State) (cause : Nat) (d : Word) : ∃ l, s.fatalRecord cause d = { s with faults := l } ∧
    (s.faults.lgValid = false → l.lgValid = true ∧ fld (wordAt l.lgRecord 4) 7 0 = 0x60) := by
  obtain ⟨l, hl, hv⟩ : ∃ l, s.fault 0x60 0 0 (w32 cause) d = { s with faults := l } ∧ l.lgValid = s.faults.lgValid := by
    unfold State.fault
    split <;> exact ⟨_, rfl, rfl⟩
  unfold State.fatalRecord
  simp only
  rw [hl]
  refine ⟨_, rfl, fun hfree => ?_⟩
  rw [← hv] at hfree
  have he : ∀ ws, l.lastGasp ws = { l with lgRecord := ws, lgValid := true } := fun ws => by simp [Faults.lastGasp, hfree]
  simp only [he, true_and]
  exact FaultRec.words_class _ _ _ rfl (show 0x60 < 256 by decide)

/-- Entry into QUARANTINE (R39, R474). -/
theorem quarantineEntry_enters {s : State} {r : ModeReq} (hr : s.modes.quarantineReq = some r)
    (hgo : ¬ (s.modes.mode = .quarantine ∨ s.modes.mode = .reset ∨ s.modes.resetAsked = true)) :
    ∃ b f w a o m l c, quarantineEntry s = { s.stopData with
      mbx := b, funcs := f, welmus := w, audit := a, out := o, modes := m, faults := l, loads := [], confs := c } ∧
      m.mode = .quarantine ∧ m.transition = none ∧ m.arb = [] ∧ (∀ i, w.taken.find? i = none) ∧
      (r.trigger = 10 → s.faults.lgValid = false → l.lgValid = true ∧ fld (wordAt l.lgRecord 4) 7 0 = 0x60) := by
  obtain ⟨l, hl, hgasp⟩ : ∃ l, s.begin.stoppedFor r = { s.begin.stopData with faults := l } ∧
      (r.trigger = 10 → s.faults.lgValid = false → l.lgValid = true ∧ fld (wordAt l.lgRecord 4) 7 0 = 0x60) := by
    unfold State.stoppedFor
    split
    · obtain ⟨l, hl, hg⟩ := s.begin.stopData.fatalRecord_eq r.cause r.detail
      exact ⟨l, hl, fun _ => hg⟩
    next h => exact ⟨s.faults, rfl, fun h10 => absurd h10 h⟩
  rw [quarantineEntry_eq hr hgo, hl]
  simp only
  generalize hu : State.quarantined _ r = u
  obtain ⟨a, f, o, he, -⟩ := State.setMode_eq (({ s.begin.stopData with faults := l } : State).setModes
    { s.modes with transition := none, arb := [], fwRestart := false, resuming := false }) .quarantine r.trigger
  have hu : u = _ := hu.symm.trans he
  obtain ⟨⟨b', f', w', a', o', h⟩, hn⟩ := State.endsCommands_all flushCommand_endsCommands u
  rw [h, hu]
  rw [h] at hn
  exact ⟨b', f', w', a', o', _, l, _, rfl, rfl, rfl, rfl, fun i => hn i (.inl trivial), hgasp⟩

theorem FMap.find?_mapVal {α β : Type} (m : FMap α) (f : α → β) (k : Nat) :
    FMap.find? (m.map fun p => (p.1, f p.2)) k = (m.find? k).map f := by
  induction m with
  | nil => rfl
  | cons p m ih =>
    simp only [List.map_cons, FMap.find?]
    split
    · rfl
    · exact ih

/-- No core has a job left. -/
theorem State.stopData_core (s : State) (k : Nat) : (s.stopData.core k).jobs = [] := by
  have h := FMap.find?_mapVal s.cores (fun q => { q with jobs := [], freeAt := 0 }) k
  rw [show s.stopData.core k = FMap.getD (s.cores.map fun p => (p.1, { p.2 with jobs := [], freeAt := 0 })) {} k from rfl,
    FMap.getD, h]
  cases s.cores.find? k <;> rfl

/-! ### The drain deadline (R36; log entry 106) -/

/-- Every leg is closed: DRAIN is left, or left as soon as the traffic is gone. -/
def Modes.drained (m : Modes) (gone : Bool) : Prop :=
  m.drainDeadline = none ∧
    if gone then m.mode = .ready ∧ m.transition = none else m.mode = .drain ∧ m.transition = some { target := .ready, trigger := 7 }

/-- DRAIN with an idle arbiter and no deadline. -/
def Modes.drains (m : Modes) : Prop := m.mode = .drain ∧ m.transition = none ∧ m.arb = [] ∧ m.drainDeadline = none

/-- The check of DRAIN once the last leg is closed. -/
theorem State.drainCheck_ends {s : State} (hm : s.modes.drains) (hl : s.legs = []) :
    ∃ m a f o, s.drainCheck = { s with modes := m, audit := a, funcs := f, out := o } ∧ m.drained s.trafficGone := by
  obtain ⟨hmode, htr, harb, hdead⟩ := hm
  have heff : s.effMode = .drain := by simp [State.effMode, hmode]
  unfold State.drainCheck State.autoMode
  rw [if_pos (by rw [hl]; rfl), if_neg (by simp [harb, htr])]
  unfold State.autoNow
  rw [if_neg (not_not.mpr heff)]
  cases hg : s.trafficGone with
  | false =>
    rw [if_pos (show (!(Mode.ready.carries || false)) = true from rfl)]
    simp only
    rw [if_pos (by rw [htr]; rfl)]
    exact ⟨_, s.audit, s.funcs, s.out, rfl, hdead, hmode, rfl⟩
  | true =>
    rw [if_neg (by decide), if_neg (by rw [hmode]; decide)]
    obtain ⟨a, f, o, h, -⟩ := s.setMode_eq .ready 7
    exact ⟨_, a, f, o, h, rfl, rfl, htr⟩

theorem State.drainCheck_of_legs {s : State} (hl : s.legs ≠ []) : s.drainCheck = s :=
  if_neg fun h => hl (List.isEmpty_iff.mp h)

/-- `s` is `s0` with some of its legs closed, and out of DRAIN with the last of them. -/
def State.closing (s0 s : State) : Prop :=
  (∃ b f a o c l g k x u m, s = { s0 with
    mbx := b, funcs := f, audit := a, out := o, confs := c, legs := l, gone := g, slots := k, lookups := x, buckets := u
    modes := m }) ∧
    if s.legs = [] then s.modes.drained s0.trafficGone else s.modes = s0.modes

theorem State.closing_trafficGone {s0 s : State} (h : s0.closing s) : s.trafficGone = s0.trafficGone := by
  obtain ⟨⟨b, f, a, o, c, l, g, k, x, u, m, rfl⟩, -⟩ := h
  rfl

theorem FMap.del_eq_self {α : Type} {m : FMap α} {k : Nat} (h : m.find? k = none) : m.del k = m := by
  induction m with
  | nil => rfl
  | cons p m ih =>
    obtain ⟨j, v⟩ := p
    simp only [FMap.find?] at h
    split at h
    · cases h
    next hj => rw [FMap.del, if_neg hj, ih h]

/-- A leg closed at the deadline, before the check of DRAIN. -/
theorem closeDrained_eq {s : State} {leg : Nat} (h : s.legs.has leg = true) : ∃ b f a o c g k x u, closeDrained s leg =
    State.drainCheck { s with
      mbx := b, funcs := f, audit := a, out := o, confs := c, legs := s.legs.del leg, gone := g, slots := k, lookups := x
      buckets := u } := by
  unfold closeDrained State.closeLeg
  have hl : (s.auditAuto 0x032 2 leg 0).legs.has leg = true := h
  obtain ⟨q, hq⟩ := Option.isSome_iff_exists.mp hl
  have hq : (s.auditAuto 0x032 2 leg 0).legs.find? leg = some q := hq
  simp only [hq]
  obtain ⟨c, k, g, hr⟩ := State.removeLeg_touches _ leg hl
  rw [hr]
  obtain ⟨b, f, o, he⟩ := State.raiseEvent_touches ({ s.auditAuto 0x032 2 leg 0 with
    confs := c, slots := k, gone := g, legs := s.legs.del leg, lookups := s.lookups.filter fun e => e.leg != leg
    buckets := s.buckets.del leg } : State) (s.legHolder leg) 0x101 [w32 leg, w32 (0 + 256 * 1)]
  exact ⟨b, f, _, o, c, g, k, _, _, congrArg State.drainCheck he⟩

/-- A leg that is not open is noted only. -/
theorem closeDrained_absent {s : State} {leg : Nat} (h : s.legs.find? leg = none) :
    closeDrained s leg = s.auditAuto 0x032 2 leg 0 := by
  have h' : (s.auditAuto 0x032 2 leg 0).legs.find? leg = none := h
  simp only [closeDrained, State.closeLeg, h']

/-- One more leg closed. -/
theorem closeDrained_closing {s0 s : State} (hm : s0.modes.drains) (h : s0.closing s) (leg : Nat) :
    s0.closing (closeDrained s leg) ∧ (closeDrained s leg).legs = s.legs.del leg := by
  have hg := State.closing_trafficGone h
  obtain ⟨⟨b, f, a, o, c, l, g, k, x, u, m, rfl⟩, hmodes⟩ := h
  simp only at hmodes hg ⊢
  cases hf : l.find? leg with
  | none =>
    rw [closeDrained_absent hf, FMap.del_eq_self hf]
    exact ⟨⟨⟨_, _, _, _, _, _, _, _, _, _, _, rfl⟩, hmodes⟩, rfl⟩
  | some q =>
    have hne : l ≠ [] := fun h => by rw [h] at hf; cases hf
    rw [if_neg hne] at hmodes
    obtain ⟨b', f', a', o', c', g', k', x', u', he⟩ := closeDrained_eq (s := { s0 with
      mbx := b, funcs := f, audit := a, out := o, confs := c, legs := l, gone := g, slots := k, lookups := x, buckets := u
      modes := m }) (leg := leg) (by simp [FMap.has, hf])
    rw [he]
    by_cases hd : l.del leg = []
    · obtain ⟨m', a'', f'', o'', hc, hend⟩ := State.drainCheck_ends (s := { s0 with
        mbx := b', funcs := f', audit := a', out := o', confs := c', legs := l.del leg, gone := g', slots := k', lookups := x'
        buckets := u', modes := m }) (by rw [hmodes]; exact hm) hd
      rw [hc]
      refine ⟨⟨⟨_, _, _, _, _, _, _, _, _, _, _, rfl⟩, ?_⟩, rfl⟩
      rw [if_pos hd]
      exact hend
    · rw [State.drainCheck_of_legs hd]
      refine ⟨⟨⟨_, _, _, _, _, _, _, _, _, _, _, rfl⟩, ?_⟩, rfl⟩
      rw [if_neg hd]
      exact hmodes

theorem closeDrained_foldl {s0 : State} (hm : s0.modes.drains) (l : List Nat) {s : State} (h : s0.closing s) :
    s0.closing (l.foldl closeDrained s) ∧ ∀ k, k ∈ l ∨ s.legs.find? k = none → (l.foldl closeDrained s).legs.find? k = none := by
  induction l generalizing s with
  | nil => exact ⟨h, fun k hk => hk.elim nofun fun h => h⟩
  | cons a l ih =>
    obtain ⟨hc, hl⟩ := closeDrained_closing hm h a
    obtain ⟨hc', hl'⟩ := ih hc
    refine ⟨hc', fun k hk => hl' k ?_⟩
    by_cases hmem : k ∈ l
    · exact .inl hmem
    · refine .inr ?_
      rw [hl]
      exact FMap.find?_del_none (hk.imp_left fun hka => (List.mem_cons.mp hka).resolve_right hmem)

/-- At the deadline every leg is closed. -/
theorem drainDeadlineExpiry_closes {s : State} {d : Nat} (hd : s.modes.drainDeadline = some d) (hnow : d ≤ s.now)
    (hm : s.modes.mode = .drain) (htr : s.modes.transition = none) (harb : s.modes.arb = []) (hl : s.legs ≠ []) :
    ∃ b f a o c l g k x u m, drainDeadlineExpiry s = { s with
      mbx := b, funcs := f, audit := a, out := o, confs := c, legs := l, gone := g, slots := k, lookups := x, buckets := u
      modes := m } ∧ m.drained s.trafficGone ∧ ∀ i, l.find? i = none := by
  have hd' : s.begin.modes.drainDeadline = some d := hd
  have heff : s.begin.effMode = .drain := by simp [State.effMode, hm]
  have hrun : drainDeadlineExpiry s = s.legs.keys.foldl closeDrained (s.begin.setModes { s.modes with drainDeadline := none }) := by
    unfold drainDeadlineExpiry
    simp only [hd']
    exact if_neg (not_or.mpr ⟨Nat.not_lt.mpr hnow, not_not.mpr heff⟩)
  generalize hu : s.begin.setModes { s.modes with drainDeadline := none } = u at hrun
  have hclose : u.closing u := by
    refine ⟨⟨_, _, _, _, _, _, _, _, _, _, _, rfl⟩, ?_⟩
    rw [if_neg (by rw [← hu]; exact hl)]
  obtain ⟨⟨⟨b, f, a, o, c, l, g, k, x, w, m, he⟩, hmodes⟩, hnone⟩ := closeDrained_foldl (by rw [← hu]; exact ⟨hm, htr, harb, rfl⟩)
    s.legs.keys hclose
  rw [← hrun] at he hmodes hnone
  have hall : ∀ i, (drainDeadlineExpiry s).legs.find? i = none := fun i => hnone i (by
    by_cases hi : i ∈ s.legs.keys
    · exact .inl hi
    · rw [← hu]
      exact .inr ((FMap.find?_eq_none_iff s.legs i).mpr fun p hp h => hi (h ▸ List.mem_map_of_mem hp)))
  have hnil : (drainDeadlineExpiry s).legs = [] := by
    cases hlegs : (drainDeadlineExpiry s).legs with
    | nil => rfl
    | cons p _ =>
      have h := hall p.1
      rw [hlegs] at h
      simp [FMap.find?] at h
  rw [if_pos hnil, ← hu] at hmodes
  rw [← hu] at he
  rw [he] at hmodes hall ⊢
  exact ⟨b, f, a, o, c, l, g, k, x, w, m, rfl, hmodes, hall⟩

/-- Settles O9: fatal conditions only ask, the entry and the restart end every command, and DRAIN is left with its last leg. -/
theorem fatalConditionsAndQuarantine : Obligations.FatalConditionsAndQuarantine := by
  unfold Obligations.FatalConditionsAndQuarantine
  refine ⟨⟨fun s hq hr hno => ⟨fun rail lowNs hp hns hrail => ?_, fun since hs hnow => ?_, fun last hl hnow hm => ?_⟩,
      fun s since hq hr hyes hs hnow hroom => ?_⟩, ⟨fun s hm hold => ?_, fun s => ⟨_, rfl, rfl⟩⟩,
    fun s r htr hreq hq hr => ⟨fun hasked => ?_, fun hasked => ?_⟩, fun s d hd hnow hm htr harb hl => ?_⟩
  · refine ⟨_, exec_railOutOfWindow rail lowNs s, ?_⟩
    rw [railOutOfWindow_eq hp hns hrail, State.fatal_adds (s := s.begin) hq hr hno]
    exact ⟨rfl, rfl⟩
  · refine ⟨_, exec_junctionFatal s, ?_⟩
    rw [junctionFatal_eq hs hnow, State.fatal_adds (s := s.begin) hq hr hno]
    exact ⟨rfl, rfl⟩
  · obtain ⟨w, l, n, hn, he, hqueue⟩ := watchdogExpiry_fatal hq hr hno hl hnow hm
    exact ⟨_, exec_watchdogExpiry s, he ▸ ⟨rfl, rfl, rfl, fun h => ⟨n, hn, hqueue h⟩, _, rfl, rfl, rfl, rfl⟩⟩
  · refine ⟨_, exec_junctionFatal s, ?_⟩
    rw [junctionFatal_eq hs hnow, State.fatal_again (s := s.begin) hq hr hyes hroom]
    rfl
  · obtain ⟨b, f, w, a, o, m, v, c, t, l, he, hfw, hmode, hdogs, hn, hqueue⟩ := watchdogExpiry_restarts hm hold
    exact ⟨_, exec_watchdogExpiry s, he ▸ ⟨rfl, hfw, hmode, hdogs, bitAt_or_of_testBit _ (by decide) (by decide), hqueue, hn, rfl, rfl, rfl⟩⟩
  · exact ⟨_, exec_quarantineEntry s, quarantineEntry_stands (.inr (.inr (.inr hasked)))⟩
  · have hmem := Modes.mem_quarantines_of_transition htr hreq
    obtain ⟨q, hquar⟩ := Modes.quarantineReq_of_mem hmem
    obtain ⟨b, f, w, a, o, m, l, c, he, hmode, hnone, harb, hn, hgasp⟩ := quarantineEntry_enters hquar
      (not_or.mpr ⟨hq, not_or.mpr ⟨hr, by simp [hasked]⟩⟩)
    have hten : (r.trigger = 10 ∨ ∃ q ∈ s.modes.arb, q.target = .quarantine ∧ q.trigger = 10) → q.trigger = 10 := by
      rintro (h | ⟨x, hx, hxt, h⟩)
      · exact Modes.quarantineReq_fatal hmem h hquar
      · exact Modes.quarantineReq_fatal (Modes.mem_quarantines_of_arb hx hxt) h hquar
    refine ⟨_, exec_quarantineEntry s, ?_⟩
    rw [he]
    exact ⟨rfl, hmode, hnone, harb, rfl, rfl, rfl, rfl, rfl, s.stopData_core, rfl, rfl, rfl, rfl, rfl, rfl, rfl, rfl, hn, rfl,
      fun h => hgasp (hten h)⟩
  · obtain ⟨b, f, a, o, c, l, g, k, x, u, m, he, ⟨hdead, hend⟩, hnone⟩ := drainDeadlineExpiry_closes hd hnow hm htr harb hl
    refine ⟨_, exec_drainDeadlineExpiry s, ?_⟩
    rw [he]
    exact ⟨rfl, hnone, hend, hdead, rfl, rfl⟩

end Sys2Proof.Machine
end

section
/-! PROOF. The resets and the test logic (R46, R47, R50, R485). -/

namespace Sys2Proof.Machine

/-! ### Resets of the device and of the main domain (R46, R449, R475, R491) -/

theorem exec_powerOn (a : Nat) (s : State) : exec (.powerOn a) s = .next (powerOn a s) := rfl

theorem exec_auxPowerLoss (s : State) : exec .auxPowerLoss s = .next (auxPowerLoss s) := rfl

theorem exec_mainPowerLoss (kept : Bool) (s : State) : exec (.mainPowerLoss kept) s = .next (mainPowerLoss kept s) := rfl

theorem exec_pinWarmReset (lowNs : Nat) (taken : Bool) (s : State) :
    exec (.pinWarmReset lowNs taken) s = .next (pinWarmReset lowNs taken s) := rfl

theorem mainPowerLoss_eq {s : State} (haux : s.pins.pwrgoodAux = true) (hmain : s.pins.pwrgoodMain = true) (kept : Bool) :
    mainPowerLoss kept s = { s.begin.mainReset 2 (!kept) false with pins := { s.pins with pwrgoodMain := false } } :=
  if_neg (by simp [haux, hmain])

theorem pinWarmReset_eq {s : State} (haux : s.pins.pwrgoodAux = true) {lowNs : Nat} (hlow : 10000 ≤ lowNs) (taken : Bool) :
    pinWarmReset lowNs taken s = s.begin.mainReset 4 false true := by
  have h1 : ¬ lowNs < 1000 := by omega
  have h2 : ¬ lowNs < 10000 := by omega
  simp [pinWarmReset, haux, h1, h2]

/-- The bits that a reset of the main domain leaves in RESET_CAUSE (R52). -/
theorem State.mainReset_cause (s : State) (bit : Nat) (lost warm : Bool) {i : Nat} (hi : i < 32) :
    bitAt (s.mainReset bit lost warm).boot.resetCause i =
      (bitAt s.boot.resetCause i || bit.testBit i || (if s.modes.mode = .quarantine then 64 else 0 : Nat).testBit i) := by
  show bitAt (w32 (_ ||| _ ||| _)) i = _
  rw [Nat.or_assoc, bitAt_or _ _ hi, Nat.testBit_or, Bool.or_assoc]

/-- What is held outside the main domain stays through its reset. -/
theorem State.mainReset_eq (s : State) (bit : Nat) (lost warm : Bool) : ∃ b f t v, s.mainReset bit lost warm = { State.reset with
    pending := s.pending, out := s.out, now := s.now, fresh := s.fresh, pins := s.pins, fuses := s.fuses, boot := b
    modes := { ({} : Modes) with bootCount := if warm then min (s.modes.bootCount + 1) 0xFFFF else s.modes.bootCount }
    audit := if lost then {} else { s.audit with next := 0 }
    faults := f, thermal := t, smbus := s.smbus, freq := s.freq, jtag := s.jtag, vdd := v } := ⟨_, _, _, _, rfl⟩

theorem mainPowerLoss_resets {s : State} (haux : s.pins.pwrgoodAux = true) (hmain : s.pins.pwrgoodMain = true) (kept : Bool) :
    bitAt (mainPowerLoss kept s).boot.resetCause 1 = true ∧ ∃ b f t v, mainPowerLoss kept s = { State.reset with
      pending := s.pending, now := s.now, fresh := s.fresh, pins := { s.pins with pwrgoodMain := false }, fuses := s.fuses, boot := b
      modes := { ({} : Modes) with bootCount := s.modes.bootCount }
      audit := if kept then { s.audit with next := 0 } else {}
      faults := f, thermal := t, smbus := s.smbus, freq := s.freq, jtag := s.jtag, vdd := v } := by
  rw [mainPowerLoss_eq haux hmain]
  refine ⟨?_, ?_⟩
  · refine (s.begin.mainReset_cause 2 (!kept) false (by decide)).trans ?_
    simp [show Nat.testBit 2 1 = true by decide]
  · obtain ⟨b, f, t, v, h⟩ := s.begin.mainReset_eq 2 (!kept) false
    rw [h]
    cases kept <;> exact ⟨b, f, t, v, rfl⟩

/-- Bit 6 of RESET_CAUSE notes a warm reset that leaves QUARANTINE. -/
theorem testBit_fromQuarantine (m : Mode) : (if m = .quarantine then 64 else 0 : Nat).testBit 6 = decide (m = .quarantine) := by
  by_cases h : m = .quarantine
  · rw [if_pos h, decide_eq_true h]
    decide
  · rw [if_neg h, decide_eq_false h]
    decide

theorem pinWarmReset_resets {s : State} (haux : s.pins.pwrgoodAux = true) {lowNs : Nat} (hlow : 10000 ≤ lowNs) (taken : Bool) :
    bitAt (pinWarmReset lowNs taken s).boot.resetCause 2 = true ∧
    bitAt (pinWarmReset lowNs taken s).boot.resetCause 6 = (decide (s.modes.mode = .quarantine) || bitAt s.boot.resetCause 6) ∧
    ∃ b f t v, pinWarmReset lowNs taken s = { State.reset with
      pending := s.pending, now := s.now, fresh := s.fresh, pins := s.pins, fuses := s.fuses, boot := b
      modes := { ({} : Modes) with bootCount := min (s.modes.bootCount + 1) 0xFFFF }
      audit := { s.audit with next := 0 }
      faults := f, thermal := t, smbus := s.smbus, freq := s.freq, jtag := s.jtag, vdd := v } := by
  rw [pinWarmReset_eq haux hlow]
  refine ⟨?_, ?_, ?_⟩
  · refine (s.begin.mainReset_cause 4 false true (by decide)).trans ?_
    simp [show Nat.testBit 4 2 = true by decide]
  · refine (s.begin.mainReset_cause 4 false true (by decide)).trans ?_
    rw [testBit_fromQuarantine, show Nat.testBit 4 6 = false by decide, Bool.or_false, Bool.or_comm]
    rfl
  · obtain ⟨b, f, t, v, h⟩ := s.begin.mainReset_eq 4 false true
    exact ⟨b, f, t, v, h⟩

/-! ### Resets of functions (R47) -/

theorem exec_perst (s : State) : exec .perst s = .next (perst s) := rfl

theorem exec_pf0Flr (s : State) : exec .pf0Flr s = .next (s.begin.resetFns (List.range 64)) := rfl

theorem exec_vfFlr (fn : Nat) (s : State) : exec (.vfFlr fn) s = .next (vfFlr fn s) := rfl

theorem State.trace_sched (s : State) (a b c d e f g h : Nat) : ∃ x, s.trace a b c d e f g h = { s with sched := x } := by
  unfold State.trace State.lanternPut
  simp only
  repeat' split
  all_goals exact ⟨_, rfl⟩

/-- A revocation of DMA leases changes the scheduler only. -/
theorem State.revokeDma_sched (s : State) (fn : Nat) : ∃ x, s.revokeDma fn = { s with sched := x } := by
  have fold : ∀ (l : List (Nat × Lease)) (s : State), ∃ x,
      l.foldl (fun (s : State) (_ : Nat × Lease) => (s.countSched 13 1).trace 12 0 7 0 0 0x3FFFF 0xFFFF 6) s = { s with sched := x } := by
    intro l
    induction l with
    | nil => exact fun s => ⟨s.sched, rfl⟩
    | cons p l ih =>
      intro s
      obtain ⟨x, hx⟩ := (s.countSched 13 1).trace_sched 12 0 7 0 0 0x3FFFF 0xFFFF 6
      obtain ⟨y, hy⟩ := ih ((s.countSched 13 1).trace 12 0 7 0 0 0x3FFFF 0xFFFF 6)
      exact ⟨y, by rw [List.foldl_cons, hy, hx]; rfl⟩
  exact fold _ _

/-- The commands of a function that have not committed: its reset abandons them. -/
def State.abandoned (s : State) (fn : Nat) : List Nat :=
  (s.welmus.taken.filter fun p => p.2.fn == fn && !p.2.committed).map Prod.fst

/-- The commands in progress after a reset of function `fn`. -/
def State.takenAfter (s : State) (fn : Nat) : FMap Taken :=
  (s.welmus.taken.filter fun p => !(s.abandoned fn).contains p.1).map fun p =>
    if p.2.fn == fn then (p.1, { p.2 with orphan := true }) else p

theorem State.resetFn_eq (s : State) (fn : Nat) : ∃ x a l w, s.resetFn fn = { s with
    sched := x, waitQ := w, loads := l, modes := { s.modes with arb := a }
    mbx := s.mbx.put fn { ({} : Mailbox) with counters := (s.mb fn).counters }, funcs := s.funcs.put fn {}
    welmus := { s.welmus with taken := s.takenAfter fn } } := by
  obtain ⟨x, hx⟩ := s.revokeDma_sched fn
  unfold State.resetFn
  simp only
  rw [hx]
  exact ⟨x, _, _, _, rfl⟩

theorem State.resetFn_self (s : State) (fn : Nat) :
    (s.resetFn fn).mb fn = { ({} : Mailbox) with counters := (s.mb fn).counters } ∧ (s.resetFn fn).func fn = {} := by
  obtain ⟨x, a, l, w, h⟩ := s.resetFn_eq fn
  rw [h]
  exact ⟨FMap.getD_put_self .., FMap.getD_put_self ..⟩

theorem State.resetFn_other (s : State) {fn i : Nat} (hi : i ≠ fn) :
    (s.resetFn fn).mb i = s.mb i ∧ (s.resetFn fn).func i = s.func i := by
  obtain ⟨x, a, l, w, h⟩ := s.resetFn_eq fn
  rw [h]
  exact ⟨FMap.getD_put_ne _ _ _ _ _ hi, FMap.getD_put_ne _ _ _ _ _ hi⟩

/-- Resets of functions change nothing but the host interface and what the functions hold of Welmus. -/
theorem State.resetFns_eq (fns : List Nat) (s : State) : ∃ x a l w b f v, s.resetFns fns = { s with
    sched := x, waitQ := w, loads := l, modes := { s.modes with arb := a }, mbx := b, funcs := f, welmus := v } := by
  induction fns generalizing s with
  | nil => exact ⟨s.sched, s.modes.arb, s.loads, s.waitQ, s.mbx, s.funcs, s.welmus, rfl⟩
  | cons fn fns ih =>
    obtain ⟨x, a, l, w, h⟩ := s.resetFn_eq fn
    obtain ⟨x', a', l', w', b', f', v', h'⟩ := ih (s.resetFn fn)
    exact ⟨x', a', l', w', b', f', v', by rw [show s.resetFns (fn :: fns) = (s.resetFn fn).resetFns fns from rfl, h', h]⟩

theorem State.resetFns_absent {fns : List Nat} {i : Nat} (hi : i ∉ fns) (s : State) :
    (s.resetFns fns).mb i = s.mb i ∧ (s.resetFns fns).func i = s.func i := by
  induction fns generalizing s with
  | nil => exact ⟨rfl, rfl⟩
  | cons fn fns ih =>
    obtain ⟨hne, hmem⟩ := List.ne_and_not_mem_of_not_mem_cons hi
    obtain ⟨hm, hf⟩ := ih hmem (s.resetFn fn)
    obtain ⟨hm', hf'⟩ := s.resetFn_other hne
    exact ⟨hm.trans hm', hf.trans hf'⟩

/-- Each of the functions is reset once. -/
theorem State.resetFns_mem {fns : List Nat} (hn : fns.Nodup) {i : Nat} (hi : i ∈ fns) (s : State) :
    (s.resetFns fns).mb i = { ({} : Mailbox) with counters := (s.mb i).counters } ∧ (s.resetFns fns).func i = {} := by
  induction fns generalizing s with
  | nil => cases hi
  | cons fn fns ih =>
    obtain ⟨hfn, hn⟩ := List.nodup_cons.mp hn
    by_cases he : i = fn
    · subst he
      obtain ⟨hm, hf⟩ := State.resetFns_absent hfn (s.resetFn i)
      obtain ⟨hm', hf'⟩ := s.resetFn_self i
      exact ⟨hm.trans hm', hf.trans hf'⟩
    · obtain ⟨hm, hf⟩ := ih hn ((List.mem_cons.mp hi).resolve_left he) (s.resetFn fn)
      rw [(s.resetFn_other he).1] at hm
      exact ⟨hm, hf⟩

theorem State.resetFns_all (s : State) (fn : Nat) (h : fn < 64) :
    (s.resetFns (List.range 64)).mb fn = { ({} : Mailbox) with counters := (s.mb fn).counters } ∧
      (s.resetFns (List.range 64)).func fn = {} :=
  State.resetFns_mem List.nodup_range (List.mem_range.mpr h) s

/-! ### The commands in progress (R47) -/

/-- In a sorted table every pair is found. -/
theorem FMap.find?_of_mem {α : Type} {m : FMap α} (hs : FMap.sorted m = true) {k : Nat} {v : α} (h : (k, v) ∈ m) :
    m.find? k = some v := by
  have below : ∀ (m : FMap α) (j : Nat), FMap.sorted m = true → FMap.below j m = true → ∀ p ∈ m, j < p.1 := by
    intro m
    induction m with
    | nil => exact fun _ _ _ _ h => nomatch h
    | cons q m ih =>
      obtain ⟨k, w⟩ := q
      intro j hs hb p hp
      rw [FMap.sorted_cons, Bool.and_eq_true] at hs
      have hjk : j < k := of_decide_eq_true hb
      rcases List.mem_cons.mp hp with rfl | hp
      · exact hjk
      · exact hjk.trans (ih k hs.2 hs.1 p hp)
  induction m with
  | nil => cases h
  | cons q m ih =>
    obtain ⟨j, w⟩ := q
    rw [FMap.sorted_cons, Bool.and_eq_true] at hs
    rw [FMap.find?]
    rcases List.mem_cons.mp h with he | h
    · cases he
      rw [if_pos rfl]
    · rw [if_neg (Nat.ne_of_lt (below m j hs.2 hs.1 _ h)), ih hs.2 h]

theorem FMap.mem_of_find? {α : Type} {m : FMap α} {k : Nat} {v : α} (h : m.find? k = some v) : (k, v) ∈ m := by
  induction m with
  | nil => cases h
  | cons q m ih =>
    obtain ⟨j, w⟩ := q
    rw [FMap.find?] at h
    split at h
    next he =>
      cases h
      exact he ▸ List.mem_cons_self
    · exact List.mem_cons_of_mem _ (ih h)

theorem FMap.find?_filterKey {α : Type} (m : FMap α) (p : Nat → Bool) (k : Nat) :
    FMap.find? (m.filter fun x => p x.1) k = if p k then m.find? k else none := by
  induction m with
  | nil => simp
  | cons q m ih =>
    obtain ⟨j, v⟩ := q
    cases hp : p j with
    | true =>
      rw [List.filter_cons_of_pos (by exact hp), FMap.find?, FMap.find?, ih]
      by_cases hj : j = k
      · rw [if_pos hj, if_pos hj, if_pos (hj ▸ hp)]
      · rw [if_neg hj, if_neg hj]
    | false =>
      rw [List.filter_cons_of_neg (by simp [hp]), ih, FMap.find?]
      by_cases hj : j = k
      · rw [if_neg (by rw [← hj, hp]; decide), if_neg (by rw [← hj, hp]; decide)]
      · rw [if_neg hj]

theorem State.takenAfter_find? (s : State) (fn i : Nat) : (s.takenAfter fn).find? i =
    if (s.abandoned fn).contains i then none
    else (s.welmus.taken.find? i).map fun c => if c.fn == fn then { c with orphan := true } else c := by
  have hmap : s.takenAfter fn = (s.welmus.taken.filter fun p => !(s.abandoned fn).contains p.1).map fun p =>
      (p.1, if p.2.fn == fn then { p.2 with orphan := true } else p.2) := by
    refine List.map_congr_left fun p _ => ?_
    split <;> rfl
  rw [hmap, FMap.find?_mapVal _ fun c : Taken => if c.fn == fn then { c with orphan := true } else c,
    FMap.find?_filterKey s.welmus.taken fun k => !(s.abandoned fn).contains k]
  cases (s.abandoned fn).contains i <;> rfl

/-- A command that has not committed is abandoned with its function. -/
theorem State.takenAfter_own {s : State} {fn i : Nat} {c : Taken} (hf : s.welmus.taken.find? i = some c) (hfn : c.fn = fn)
    (hc : c.committed = false) : (s.takenAfter fn).find? i = none := by
  have hmem : i ∈ s.abandoned fn :=
    List.mem_map.mpr ⟨(i, c), List.mem_filter.mpr ⟨FMap.mem_of_find? hf, by simp [hfn, hc]⟩, rfl⟩
  rw [s.takenAfter_find?, if_pos (List.contains_iff_mem.mpr hmem)]

/-- A command of another function goes on. -/
theorem State.takenAfter_other {s : State} (hs : FMap.sorted s.welmus.taken = true) {fn i : Nat} {c : Taken}
    (hf : s.welmus.taken.find? i = some c) (hfn : c.fn ≠ fn) : (s.takenAfter fn).find? i = some c := by
  have hmem : ¬ (s.abandoned fn).contains i = true := by
    rw [List.contains_iff_mem]
    intro h
    obtain ⟨p, hp, rfl⟩ := List.mem_map.mp h
    obtain ⟨hm, hown⟩ := List.mem_filter.mp hp
    have := (FMap.find?_of_mem hs hm).symm.trans hf
    cases this
    simp [hfn] at hown
  rw [s.takenAfter_find?, if_neg hmem, hf]
  simp [hfn]

/-! ### The host interface and the test logic (R46, R50, R485) -/

theorem exec_perstRelease (ref : Bool) (s : State) : exec (.perstRelease ref) s = .next (perstRelease ref s) := rfl

theorem exec_testReset (s : State) : exec .testReset s = .next { s.begin with jtag := 1 } := rfl

theorem exec_jtagInstruction (code : Nat) (s : State) : exec (.jtagInstruction code) s = .next (jtagInstruction code s) := rfl

/-- The pins with PERST_N low. -/
def State.perstPins (s : State) : State := { s.begin with pins := { s.pins with perstN := false, linkUp := false } }

theorem perst_eq {s : State} (haux : s.pins.pwrgoodAux = true) : perst s =
    if s.modes.mode = .identify then ((s.perstPins.resetFns (List.range 64)).setCause 16).pushAgain
    else (s.perstPins.resetFns (List.range 64)).setCause 16 :=
  if_neg (by simp [haux])

/-- PERST_N low resets every function and takes the link down. -/
theorem perst_resets {s : State} (haux : s.pins.pwrgoodAux = true) :
    (∃ x m l w b f v z, perst s = { s.perstPins with
      sched := x, waitQ := w, loads := l, modes := m, mbx := b, funcs := f, welmus := v, boot := z } ∧
      bitAt z.resetCause 4 = true) ∧
    ∀ fn, fn < 64 → (perst s).mb fn = { ({} : Mailbox) with counters := (s.mb fn).counters } ∧ (perst s).func fn = {} := by
  obtain ⟨x, a, l, w, b, f, v, h⟩ := State.resetFns_eq (List.range 64) s.perstPins
  have hfn := s.perstPins.resetFns_all
  have hbit := bitAt_or_of_testBit s.boot.resetCause (n := 16) (i := 4) (by decide) (by decide)
  rw [perst_eq haux]
  rw [h] at hfn ⊢
  split <;> exact ⟨⟨_, _, _, _, _, _, _, _, rfl, hbit⟩, hfn⟩

theorem vfFlr_eq {s : State} {fn : Nat} (h1 : 1 ≤ fn) (h2 : fn < 64) : vfFlr fn s = s.begin.resetFn fn :=
  if_neg (not_or.mpr ⟨by omega, by omega⟩)

theorem perstRelease_eq {s : State} (haux : s.pins.pwrgoodAux = true) (href : s.freq.pcie.missing = false) :
    perstRelease true s = { s.begin with pins := { s.pins with perstN := true, pcieRef := true } } := by
  have h : perstRelease true s = { s.begin with pins := { s.pins with perstN := true, pcieRef := true && !s.freq.pcie.missing } } :=
    if_neg (by simp [haux])
  rw [h, href]
  rfl

/-- Outside RESET every instruction but IDCODE shifts zero. -/
theorem jtagInstruction_eq {s : State} (haux : s.pins.pwrgoodAux = true) (hm : s.modes.mode ≠ .reset) (code : Nat) :
    ∃ k, jtagInstruction code s = { s with jtag := k, out := [.jtag (if code = 1 then s.idcode else 0)] } := by
  have hrun : jtagInstruction code s = State.emit { s.begin with jtag := if code ≤ 1 ∨ s.modes.mode = .reset then code else 0 }
      (.jtag (if (if code ≤ 1 ∨ s.modes.mode = .reset then code else 0) = 1 then s.idcode else 0)) := if_neg (by simp [haux])
  have hk : ((if code ≤ 1 ∨ s.modes.mode = .reset then code else 0) = 1) = (code = 1) := by
    by_cases h : code ≤ 1
    · rw [if_pos (.inl h)]
    · rw [if_neg (not_or.mpr ⟨h, hm⟩)]
      exact propext ⟨fun h0 => absurd h0 (by decide), fun h1 => absurd (Nat.le_of_eq h1) h⟩
  rw [hrun]
  simp only [hk]
  exact ⟨_, rfl⟩

/-- Settles O10: each reset is the update that its scope says, and functions are reset one by one. -/
theorem resetsReachTheirScope : Obligations.ResetsReachTheirScope := by
  unfold Obligations.ResetsReachTheirScope
  refine ⟨⟨fun s a => ⟨_, exec_powerOn a s, rfl, rfl, rfl⟩, fun s => ⟨_, exec_auxPowerLoss s, rfl, rfl⟩,
      fun s kept haux hmain => ?_, fun s lowNs taken haux hlow => ?_⟩,
    ⟨fun s haux => ?_, fun s => ?_, fun s fn h1 h2 hs => ?_, fun s haux href => ?_⟩,
    fun s => ⟨_, exec_testReset s, rfl⟩, fun s code haux hm => ?_⟩
  · obtain ⟨hbit, b, f, t, v, he⟩ := mainPowerLoss_resets haux hmain kept
    refine ⟨_, exec_mainPowerLoss kept s, ?_⟩
    rw [he] at hbit ⊢
    exact ⟨rfl, rfl, rfl, hbit, rfl, rfl, rfl, rfl, rfl, by cases kept <;> rfl⟩
  · obtain ⟨h2, h6, b, f, t, v, he⟩ := pinWarmReset_resets haux hlow taken
    refine ⟨_, exec_pinWarmReset lowNs taken s, ?_⟩
    rw [he] at h2 h6 ⊢
    exact ⟨rfl, rfl, rfl, h2, h6, rfl, rfl, rfl, rfl, rfl⟩
  · obtain ⟨⟨x, m, l, w, b, f, v, z, he, hbit⟩, hfn⟩ := perst_resets haux
    refine ⟨_, exec_perst s, ?_⟩
    rw [he] at hfn ⊢
    refine ⟨rfl, rfl, ?_, hbit, hfn⟩
    simp [State.hostUp, State.perstPins]
  · obtain ⟨x, a, l, w, b, f, v, he⟩ := State.resetFns_eq (List.range 64) s.begin
    have hfn := s.begin.resetFns_all
    refine ⟨_, exec_pf0Flr s, ?_⟩
    rw [he] at hfn ⊢
    exact ⟨rfl, rfl, rfl, hfn⟩
  · obtain ⟨x, a, l, w, he⟩ := s.begin.resetFn_eq fn
    have hself := s.begin.resetFn_self fn
    have hother := fun i (hi : i ≠ fn) => s.begin.resetFn_other hi
    refine ⟨_, exec_vfFlr fn s, ?_⟩
    rw [vfFlr_eq h1 h2]
    rw [he] at hself hother ⊢
    exact ⟨rfl, hself.1, hself.2, hother, fun i c hf hfn hc => State.takenAfter_own (s := s.begin) hf hfn hc,
      fun i c hf hfn => State.takenAfter_other (s := s.begin) hs hf hfn, rfl, rfl, rfl, rfl⟩
  · refine ⟨_, exec_perstRelease true s, ?_⟩
    rw [perstRelease_eq haux href]
    refine ⟨rfl, ?_, ?_, rfl, rfl⟩ <;> simp [State.hostUp, State.ifUp, haux]
  · obtain ⟨k, he⟩ := jtagInstruction_eq haux hm code
    refine ⟨_, exec_jtagInstruction code s, ?_⟩
    rw [he]
    exact ⟨rfl, rfl⟩

end Sys2Proof.Machine
end

section
/-! PROOF. The boot from RESET to READY (R49, R54 to R62). -/

namespace Sys2Proof.Machine

/-! ### From RESET to LOAD (R49, R54, R57) -/

theorem exec_mainResetRelease (src : Nat) (railsOk sysclkOk : Bool) (held : Nat) (s : State) :
    exec (.mainResetRelease src railsOk sysclkOk held) s = .next (mainResetRelease src railsOk sysclkOk held s) := rfl

theorem exec_bootImageCheck (read : BootRead) (s : State) : exec (.bootImageCheck read) s = .next (bootImageCheck read s) := rfl

theorem exec_imageAuthenticated (digestOk signatureOk bodyRead : Bool) (s : State) :
    exec (.imageAuthenticated digestOk signatureOk bodyRead) s = .next (imageAuthenticated digestOk signatureOk bodyRead s) := rfl

/-- The boot window opens, or nothing changes. -/
theorem State.openWindow_eq (s : State) : ∃ p, s.openWindow = s.setBoot { s.boot with pushReady := p } := by
  unfold State.openWindow
  split
  · exact ⟨true, rfl⟩
  · exact ⟨s.boot.pushReady, rfl⟩

/-- The result code of a source is set. -/
theorem State.setResult_eq (s : State) (src code : Nat) : ∃ a b p,
    s.setResult src code = s.setBoot { s.boot with resultA := a, resultB := b, resultPush := p } ∧
      (src = 1 → a = code) ∧ (src = 2 → b = code) := by
  unfold State.setResult
  by_cases h1 : src = 1
  · rw [if_pos h1]
    exact ⟨code, s.boot.resultB, s.boot.resultPush, rfl, fun _ => rfl, fun h2 => absurd (h1.symm.trans h2) (by decide)⟩
  · rw [if_neg h1]
    by_cases h2 : src = 2
    · rw [if_pos h2]
      exact ⟨s.boot.resultA, code, s.boot.resultPush, rfl, fun h => absurd h h1, fun _ => rfl⟩
    · rw [if_neg h2]
      exact ⟨s.boot.resultA, s.boot.resultB, code, rfl, fun h => absurd h h1, fun h => absurd h h2⟩

/-- A source whose check failed leaves its result, and the window opens or not. -/
theorem State.setResult_openWindow (s : State) (src code : Nat) : ∃ a b p w,
    (s.setResult src code).openWindow =
      s.setBoot { s.boot with resultA := a, resultB := b, resultPush := p, pushReady := w } ∧
      (src = 1 → a = code) ∧ (src = 2 → b = code) := by
  obtain ⟨a, b, p, hr, ha, hb⟩ := s.setResult_eq src code
  rw [hr]
  obtain ⟨w, hw⟩ := (s.setBoot { s.boot with resultA := a, resultB := b, resultPush := p }).openWindow_eq
  exact ⟨a, b, p, w, hw, ha, hb⟩

theorem State.openWindow_opens {s : State} (ht : s.boot.toTry = []) (hsrc : s.pins.bootSrc ≠ 0) (hc : s.boot.checking = none) :
    s.openWindow.boot.pushReady = true := by
  simp [State.openWindow, ht, hsrc, hc, State.setBoot]

theorem flashOrder_eq {src : Nat} (h : src < 4) :
    flashOrder src = if src = 1 then [] else if src = 3 then [2, 1] else [1, 2] := by
  match src with
  | 0 => rfl
  | 1 => rfl
  | 2 => rfl
  | 3 => rfl

/-- The pins at the release, and the slots to try. -/
def State.released (s : State) (src : Nat) : State :=
  ({ s.begin with pins := { s.pins with pwrgoodMain := true, sysResetN := true, bootSrc := src } } : State).setBoot
    { s.boot with toTry := flashOrder src }

theorem mainResetRelease_eq {s : State} {src held : Nat} (haux : s.pins.pwrgoodAux = true) (hm : s.modes.mode = .reset)
    (hclk : s.freq.sysclk.missing = false) (hheld : 2000000 ≤ held) (hsrc : src < 4) :
    mainResetRelease src true true held s = ((s.released src).setMode .identify 1).openWindow := by
  have hlt : ¬ held < 2000000 := Nat.not_lt.mpr hheld
  unfold mainResetRelease
  simp only
  rw [if_neg (by simp [haux, hm, hclk, hlt]), Nat.mod_eq_of_lt hsrc]
  rfl

theorem mainResetRelease_identify {s : State} {src held : Nat} (haux : s.pins.pwrgoodAux = true) (hm : s.modes.mode = .reset)
    (hclk : s.freq.sysclk.missing = false) (hheld : 2000000 ≤ held) (hsrc : src < 4) :
    ∃ m a f o p, mainResetRelease src true true held s = { s with
      out := o, modes := m, funcs := f, audit := a
      pins := { s.pins with pwrgoodMain := true, sysResetN := true, bootSrc := src }
      boot := { s.boot with toTry := flashOrder src, pushReady := p } } ∧ m.mode = .identify ∧
      (src = 1 → s.boot.checking = none → p = true) := by
  rw [mainResetRelease_eq haux hm hclk hheld hsrc]
  obtain ⟨a, f, o, h, -⟩ := (s.released src).setMode_eq .identify 1
  rw [h]
  generalize hu : State.mk .. = u
  obtain ⟨p, hp⟩ := u.openWindow_eq
  have hopen : src = 1 → s.boot.checking = none → p = true := fun h1 hc => by
    have h := State.openWindow_opens (s := u) (by rw [← hu, h1]; rfl) (by rw [← hu, h1]; exact nofun) (by rw [← hu]; exact hc)
    rw [hp] at h
    exact h
  rw [hp, ← hu]
  exact ⟨_, a, f, o, p, rfl, rfl, hopen⟩

/-- A header that passes every check of R57. -/
theorem State.headerResult_ok {s : State} {h : BootHeader} (hmagic : h.magic = 0x534D4C57) (hw : fld h.word1 15 0 = 1)
    (hz : h.reservedZero = true) (hmin : s.fuses.svnMin ≤ fld h.word2 7 0) (hmax : fld h.word2 7 0 ≤ 64) (hb : 1 ≤ h.bodyLength)
    (hb' : h.bodyLength ≤ 12582912) (h0 : s.fuses.revoked0 = false) (h1 : s.fuses.revoked1 = false) : s.headerResult h = 1 := by
  unfold State.headerResult headSvn
  rw [if_neg (by simp [hmagic, hw, hz]), if_neg (not_or.mpr ⟨Nat.not_lt.mpr hmin, Nat.not_lt.mpr hmax⟩),
    if_neg (not_or.mpr ⟨Nat.ne_of_gt hb, Nat.not_lt.mpr hb'⟩), h0, h1, ite_self]
  rfl

section
variable {s : State} {src : Nat} {rest : List Nat} (hm : s.modes.mode = .identify) (hc : s.boot.checking = none)
  (ht : s.boot.toTry = src :: rest)
include hm hc ht

theorem bootImageCheck_slot (read : BootRead) : bootImageCheck read s =
    let u := s.begin.setBoot { s.boot with toTry := rest }
    match read with
    | .header h => u.headerChecked src h (u.headerResult h)
    | .noImage => (u.setResult src 2).openWindow
    | .flashError => (u.setResult src 7).openWindow := by
  have ht' : s.begin.boot.toTry = src :: rest := ht
  unfold bootImageCheck
  simp only [ht']
  rw [if_neg (by simp [hm, hc])]
  cases read <;> rfl

theorem bootImageCheck_header {h : BootHeader} (hr : s.headerResult h = 1) : bootImageCheck (.header h) s =
    { s with out := [], boot := { s.boot with toTry := rest, checking := some (src, h) } } := by
  rw [bootImageCheck_slot hm hc ht]
  exact if_pos hr

/-- A slot that holds no image leaves BAD_MAGIC. -/
theorem bootImageCheck_noImage : ∃ a b p w, bootImageCheck .noImage s = { s with out := [], boot := { s.boot with
    resultA := a, resultB := b, resultPush := p, toTry := rest, pushReady := w } } ∧ (src = 1 → a = 2) ∧ (src = 2 → b = 2) := by
  rw [bootImageCheck_slot hm hc ht]
  exact (s.begin.setBoot { s.boot with toTry := rest }).setResult_openWindow src 2

end

section
variable {s : State} {src : Nat} {h : BootHeader} (hm : s.modes.mode = .identify) (hc : s.boot.checking = some (src, h))
  (he : s.modes.ending = false)
include hm hc he

/-- An image whose digest and signature are right is run. -/
theorem imageAuthenticated_right : ∃ m a f o ra rb rp, imageAuthenticated true true true s = { s with
    out := o, modes := m, funcs := f, audit := a, boot := { s.boot with
      checking := none, resultA := ra, resultB := rb, resultPush := rp, source := src, pushReady := false, image := some h
      readyUnderImage := false, fwVersion := h.fwVersion, toTry := [] } } ∧ m.mode = .load ∧ (src = 2 → rb = 1) := by
  have hc' : s.begin.boot.checking = some (src, h) := hc
  unfold imageAuthenticated
  simp only [hc']
  rw [if_neg (by simp [hm, he]), if_neg (by decide), if_neg (by decide)]
  obtain ⟨ra, rb, rp, hr, -, hb⟩ := (s.begin.setBoot { s.begin.boot with checking := none }).setResult_eq src 1
  rw [hr]
  obtain ⟨a, f, o, hs, -⟩ := State.setMode_eq (State.setBoot _ _) .load 2
  exact ⟨_, a, f, o, ra, rb, rp, hs, rfl, hb⟩

/-- One whose signature is wrong leaves SIGNATURE, and the next source is tried. -/
theorem imageAuthenticated_wrong : ∃ a b p w, imageAuthenticated true false true s = { s with out := [], boot := { s.boot with
    checking := none, resultA := a, resultB := b, resultPush := p, pushReady := w } } ∧
      (src = 1 → a = 4) ∧ (src = 2 → b = 4) := by
  have hc' : s.begin.boot.checking = some (src, h) := hc
  unfold imageAuthenticated
  simp only [hc']
  rw [if_neg (by simp [hm, he]), if_neg (by decide), if_pos (by decide)]
  exact (s.begin.setBoot { s.begin.boot with checking := none }).setResult_openWindow src 4

end

/-! ### The host's writes (R13, R52, R59) -/

theorem exec_bootWindowWrite (off : Nat) (v : Byte) (s : State) : exec (.bootWindowWrite off v) s = .next (bootWindowWrite off v s) :=
  rfl

theorem exec_bootDoorbell (n : Word) (s : State) : exec (.bootDoorbell n) s = .next (bootDoorbell n s) := rfl

theorem exec_resetCauseWrite (fn : Nat) (v : Word) (s : State) : exec (.resetCauseWrite fn v) s = .next (resetCauseWrite fn v s) :=
  rfl

section
variable {s : State} (hup : s.hostUp = true)
include hup

theorem bootWindowWrite_eq (hready : s.boot.pushReady = true) {off : Nat} (hoff : off < 12587008) (v : Byte) :
    bootWindowWrite off v s = { s with boot := { s.boot with window := s.boot.window.setD 0 off v }, out := [] } := by
  have hup' : s.begin.hostUp = true := hup
  unfold bootWindowWrite
  simp only
  rw [if_pos (by simp [hup', hready, hoff])]
  rfl

theorem bootDoorbell_eq (hready : s.boot.pushReady = true) (n : Word) :
    bootDoorbell n s = { s with boot := { s.boot with pushed := true, pushLength := n.toNat }, out := [] } := by
  have hup' : s.begin.hostUp = true := hup
  unfold bootDoorbell
  simp only
  rw [if_pos (by simp [hup', hready])]
  rfl

theorem resetCauseWrite_eq (fn : Nat) (v : Word) : resetCauseWrite fn v s =
    { s with boot := { s.boot with resetCause := s.boot.resetCause &&& ~~~v }, out := [] } := if_pos hup

end

/-- Bits written with 1 are cleared. -/
theorem bitAt_and_not (x v : Word) (i : Nat) : bitAt (x &&& ~~~v) i = (bitAt x i && !bitAt v i) := by
  show (x &&& ~~~v).getLsbD i = (x.getLsbD i && !v.getLsbD i)
  rw [BitVec.getLsbD_and, BitVec.getLsbD_not]
  by_cases h : i < 32
  · rw [decide_eq_true h, Bool.true_and]
  · rw [BitVec.getLsbD_of_ge x i (Nat.le_of_not_lt h), Bool.false_and, Bool.false_and]

/-! ### LOAD (R60, R209, R212, R488) -/

theorem exec_loadComplete (ack : Bool) (provision : Option (List Nat)) (s : State) :
    exec (.loadComplete ⟨ack, provision⟩) s = .next (loadComplete ack provision s) := rfl

/-- A key of `n` words uses up free words only. -/
theorem State.drawKey_eq (s : State) (n : Nat) : ∃ k x, s.drawKey n = (k, { s with fresh := x }) ∧ k.length = n := by
  induction n generalizing s with
  | zero => exact ⟨[], s.fresh, rfl, rfl⟩
  | succ n ih =>
    obtain ⟨k, x, h, hk⟩ := ih s.draw.2
    refine ⟨s.draw.1 :: k, x, ?_, congrArg (· + 1) hk⟩
    simp only [State.drawKey, h]
    rfl

/-- The fuses after a provisioning image, where one was pushed. -/
theorem State.burnSecret_eq (s : State) (provision : Option (List Nat)) : ∃ f, s.burnSecret provision = { s with fuses := f } ∧
    f.baseMv = s.fuses.baseMv ∧ (provision = none → f = s.fuses) ∧
    ∀ secret, provision = some secret → secret.length = 32 → s.boot.source = 3 → s.fuses.importSet = false →
      f = { s.fuses with importSecret := secret, importSet := true } := by
  unfold State.burnSecret
  split
  · exact ⟨s.fuses, rfl, rfl, fun _ => rfl, nofun⟩
  next secret =>
    split
    · exact ⟨_, rfl, rfl, nofun, fun x hx _ _ _ => by cases hx; rfl⟩
    next h => exact ⟨s.fuses, rfl, rfl, nofun, fun x hx hl h3 hset => by cases hx; exact absurd ⟨h3, hset, hl⟩ h⟩

/-- The first voltage target is sent, and is in force where it is acknowledged. -/
theorem State.avsCommand_eq (s : State) (mv : Nat) (ack : Bool) : ∃ v, s.avsCommand mv 1 ack = { s with
    vdd := v, out := s.out ++ [.avs mv] } ∧ v.guard = s.vdd.guard ∧ (ack = true → v.acked = mv) := by
  cases ack with
  | true => exact ⟨_, rfl, rfl, fun _ => rfl⟩
  | false => exact ⟨_, rfl, rfl, nofun⟩

/-- No mailbox holds a message or a reservation once its queues are initialised. -/
theorem State.initQueues_mb (s : State) (fn : Nat) : (s.initQueues.mb fn).evq = [] ∧ (s.initQueues.mb fn).resv = [] := by
  have h := FMap.find?_mapVal s.mbx Mailbox.init fn
  rw [show s.initQueues.mb fn = FMap.getD (s.mbx.map fun p => (p.1, p.2.init)) {} fn from rfl, FMap.getD, h]
  cases s.mbx.find? fn <;> exact ⟨rfl, rfl⟩

/-- A signal takes back nothing that was sent out. -/
theorem State.signal_out (s : State) (fn vec : Nat) {x : Out} (h : x ∈ s.out) : x ∈ (s.signal fn vec).out := by
  unfold State.signal
  simp only
  split
  · exact h
  · split
    · exact List.mem_append_left _ h
    · exact h

theorem State.setMode_out (s : State) (target : Mode) (trigger : Nat) {x : Out} (h : x ∈ s.out) :
    x ∈ (s.setMode target trigger).out := by
  unfold State.setMode
  simp only
  split
  · exact h
  · exact State.signal_out _ 0 0 h

/-- What LOAD leaves as it ends. -/
theorem loadComplete_eq {s : State} (ack : Bool) (provision : Option (List Nat)) (hm : s.modes.mode = .load)
    (he : s.modes.ending = false) : ∃ o x m b fu a f v k, loadComplete ack provision s = { s with
      out := o, fresh := x, modes := m, boot := { s.boot with calDone := [] }, fuses := fu, funcs := f, audit := a, mbx := b, vdd := v
      welmus := { s.welmus with taken := [] }, storageKey := k, kik := importKeyOf fu } ∧
      m.mode = .calibrate ∧ v.guard = 10 ∧ k.length = 16 ∧ (∀ fn, (FMap.getD b {} fn).evq = [] ∧ (FMap.getD b {} fn).resv = []) ∧
      (provision = none → fu = s.fuses) ∧
      (∀ secret, provision = some secret → secret.length = 32 → s.boot.source = 3 → s.fuses.importSet = false →
        fu = { s.fuses with importSecret := secret, importSet := true }) ∧
      Out.avs (min (s.fuses.baseMv + 10) 800) ∈ o ∧ (ack = true → v.acked = min (s.fuses.baseMv + 10) 800) := by
  unfold loadComplete
  simp only
  rw [if_neg (by simp [hm, he])]
  obtain ⟨fu, hfu, hbase, hnone, hsome⟩ := s.begin.burnSecret_eq provision
  rw [hfu]
  obtain ⟨k, x, hk, hlen⟩ := State.drawKey_eq { s.begin with fuses := fu } 16
  rw [hk]
  simp only
  rw [hbase]
  generalize hu : State.mk .. = u
  obtain ⟨v, hv, hguard, hacked⟩ := u.avsCommand_eq (min (s.begin.fuses.baseMv + 10) 800) ack
  rw [hv, ← hu]
  generalize hw : (State.initQueues _).setBoot _ = w
  have hmb : ∀ fn, (w.mb fn).evq = [] ∧ (w.mb fn).resv = [] := fun fn => by
    rw [← hw]
    exact State.initQueues_mb _ fn
  have hout : Out.avs (min (s.fuses.baseMv + 10) 800) ∈ w.out := by
    rw [← hw]
    exact List.mem_cons_self
  have hmem := w.setMode_out .calibrate 3 hout
  obtain ⟨a, f, o, he, -⟩ := w.setMode_eq .calibrate 3
  rw [he] at hmem ⊢
  subst hw
  exact ⟨o, x, _, _, fu, a, f, v, k, rfl, rfl, hguard.trans (by rw [← hu]), hlen, hmb, hnone, hsome, hmem, hacked⟩

/-! ### CALIBRATE (R58, R61, R146) -/

theorem exec_calibrationStepDone (step : CalStep) (s : State) :
    exec (.calibrationStepDone step) s = .next (calibrationStepDone step s) := rfl

theorem Modes.ending_of_idle {m : Modes} (harb : m.arb = []) (ht : m.transition = none) : m.ending = false := by
  simp [Modes.ending, Modes.resetAsked, Modes.quarantines, harb, ht]

/-- What a calibration step does, with the step noted. -/
def State.calNoted (s : State) (step : CalStep) : State :=
  (s.begin.calEffect step).setBoot { s.boot with calDone := calNo step :: s.boot.calDone }

section
variable {s : State} (hm : s.modes.mode = .calibrate) (hr : s.modes.resuming = false) (harb : s.modes.arb = [])
  (ht : s.modes.transition = none)
include hm hr harb ht

/-- A step that may end does what it does, and is noted. -/
theorem calibrationStepDone_eq {step : CalStep} (hin : (calSteps false).contains (calNo step) = true)
    (hnew : s.boot.calDone.contains (calNo step) = false)
    (hbefore : ((calBefore false (calNo step)).all fun k => s.boot.calDone.contains k) = true) : calibrationStepDone step s =
      if (s.calNoted step).modes.ending then s.calNoted step
      else if (calSteps false).all fun k => (calNo step :: s.boot.calDone).contains k then (s.calNoted step).calDone
      else s.calNoted step := by
  have hend : s.begin.modes.ending = false := Modes.ending_of_idle harb ht
  have hr' : s.begin.modes.resuming = false := hr
  unfold calibrationStepDone
  simp only [hr']
  rw [if_neg (by
    rw [hin, show s.begin.boot.calDone.contains (calNo step) = false from hnew,
      show ((calBefore false (calNo step)).all fun k => s.begin.boot.calDone.contains k) = true from hbefore, hend]
    simp [hm])]
  rfl

/-- C2 done: noted, and no more. -/
theorem calibrationStepDone_c2 (hd : s.boot.calDone = [1]) :
    calibrationStepDone (.c2 true) s = { s with boot := { s.boot with calDone := [2, 1] }, out := [] } := by
  have hend : (s.calNoted (.c2 true)).modes.ending = false := Modes.ending_of_idle harb ht
  rw [calibrationStepDone_eq hm hr harb ht (by decide) (by rw [hd]; decide) (by rw [hd]; decide),
    if_neg (by rw [hend]; decide), if_neg (by rw [hd]; decide), ← hd]
  rfl

/-- A PLL that fails is fatal. -/
theorem calibrationStepDone_c1_fails (hd : s.boot.calDone = []) : ∃ m, calibrationStepDone (.c1 false) s = { s with
    modes := m, boot := { s.boot with calDone := [1] }, out := [] } ∧ m.mode = .calibrate ∧ m.arb = [fatalReq 5 0] := by
  have he : s.calNoted (.c1 false) = { s with
      modes := { s.modes with arb := [fatalReq 5 0] }, boot := { s.boot with calDone := 1 :: s.boot.calDone }, out := [] } := by
    have hf := State.fatal_adds (s := s.begin) (by simp [hm]) (by simp [hm]) (by simp [Modes.quarantines, harb, ht]) 5 0
    rw [show s.begin.modes.arb = [] from harb] at hf
    unfold State.calNoted
    rw [show s.begin.calEffect (.c1 false) = s.begin.fatal 5 0 from rfl, hf]
    rfl
  rw [calibrationStepDone_eq hm hr harb ht (by decide) (by rw [hd]; decide) (by rw [hd]; decide),
    if_pos (by rw [he]; simp [Modes.ending, Modes.quarantines, fatalReq]), he, hd]
  exact ⟨_, rfl, hm, rfl⟩

/-- C6 starts the time bases on the reference that the monitor shows. -/
theorem calibrationStepDone_c6 (hd : s.boot.calDone = [2, 1]) : ∃ x, calibrationStepDone (.c6 true) s = { s with
    boot := { s.boot with calDone := [6, 2, 1] }, out := [], sched := x
    time := { ({} : TimeUnit) with running := true, tclkRef10 := !s.freq.ref10m.missing } } := by
  have hend : (s.calNoted (.c6 true)).modes.ending = false := Modes.ending_of_idle harb ht
  rw [calibrationStepDone_eq hm hr harb ht (by decide) (by rw [hd]; decide) (by rw [hd]; decide),
    if_neg (by rw [hend]; decide), if_neg (by rw [hd]; decide), ← hd]
  exact ⟨_, rfl⟩

/-- The last step enters READY, with the fuse writes of the first READY under the image. -/
theorem calibrationStepDone_last (hc : s.modes.resumeCmd = none) (hd : s.boot.calDone = [6, 5, 3, 2, 1]) {h : BootHeader}
    (hready : s.boot.readyUnderImage = false) (hi : s.boot.image = some h) :
    ∃ m a f o v, calibrationStepDone (.c4 []) s = { s with
      modes := m, audit := a, funcs := f, out := o, avail := v
      boot := { s.boot with calDone := [4, 6, 5, 3, 2, 1], readyUnderImage := true }
      fuses := { s.fuses with
        svnMin := if headAdvance h then max s.fuses.svnMin (headSvn h) else s.fuses.svnMin
        revoked0 := s.fuses.revoked0 || (headRevoke0 h && headKey1 h) } } ∧ m.mode = .ready := by
  have hend : (s.calNoted (.c4 [])).modes.ending = false := Modes.ending_of_idle harb ht
  rw [calibrationStepDone_eq hm hr harb ht (by decide) (by rw [hd]; decide) (by rw [hd]; decide),
    if_neg (by rw [hend]; decide), if_pos (by rw [hd]; decide), ← hd]
  generalize hu : s.calNoted (.c4 []) = u
  have hcmd : u.modes.resumeCmd = none := by rw [← hu]; exact hc
  unfold State.calDone
  simp only
  rw [hcmd]
  obtain ⟨a, f, o, hs, -⟩ := State.setMode_eq (u.setModes { u.modes with resuming := false, resumeCmd := none }) .ready 4
  rw [hs]
  generalize hw : State.mk .. = w
  have hburn : w.advanceFuses = { w with
      boot := { w.boot with readyUnderImage := true }
      fuses := { w.fuses with
        svnMin := if headAdvance h then max w.fuses.svnMin (headSvn h) else w.fuses.svnMin
        revoked0 := w.fuses.revoked0 || (headRevoke0 h && headKey1 h) } } := by
    have hready' : w.boot.readyUnderImage = false := by rw [← hw, ← hu]; exact hready
    have hi' : w.boot.image = some h := by rw [← hw, ← hu]; exact hi
    simp only [State.advanceFuses, hready', State.setBoot, hi']
    rfl
  rw [show w.advanceFuses.finishModeSet none = w.advanceFuses from rfl, hburn, ← hw, ← hu]
  exact ⟨_, a, f, o, _, rfl, rfl⟩

end

/-- Settles O11: each step from the release to READY is the update that its row says. -/
theorem bootEndsInReady : Obligations.BootEndsInReady := by
  unfold Obligations.BootEndsInReady
  refine ⟨⟨fun s src held haux hm hclk hheld hsrc => ?_, fun s src rest hm hc ht => ⟨fun h h1 h2 h3 h4 h5 h6 h7 h8 h9 => ?_, ?_⟩,
      fun s src h hm hc he => ⟨?_, ?_⟩⟩,
    fun s hup => ⟨fun off v hready hoff => ?_, fun n hready => ⟨_, exec_bootDoorbell n s, bootDoorbell_eq hup hready n⟩,
      fun fn v => ?_⟩,
    fun s ack provision hm he => ?_,
    fun s hm hr harb hc ht => ⟨fun hd => ⟨_, exec_calibrationStepDone _ s, calibrationStepDone_c2 hm hr harb ht hd⟩,
      fun hd => ?_, fun hd => ?_, fun h hd hready hi => ?_⟩⟩
  · obtain ⟨m, a, f, o, p, hrun, hmode, hp⟩ := mainResetRelease_identify haux hm hclk hheld hsrc
    refine ⟨_, exec_mainResetRelease src true true held s, ?_⟩
    rw [hrun]
    exact ⟨rfl, hmode, rfl, flashOrder_eq hsrc, rfl, hp⟩
  · refine ⟨_, exec_bootImageCheck (.header h) s, ?_⟩
    rw [bootImageCheck_header hm hc ht (State.headerResult_ok h1 h2 h3 h4 h5 h6 h7 h8 h9)]
    exact ⟨rfl, rfl, rfl, rfl, rfl⟩
  · obtain ⟨a, b, p, w, hrun, ha, hb⟩ := bootImageCheck_noImage hm hc ht
    refine ⟨_, exec_bootImageCheck .noImage s, ?_⟩
    rw [hrun]
    exact ⟨rfl, hc, rfl, rfl, ha, hb⟩
  · obtain ⟨m, a, f, o, ra, rb, rp, hrun, hmode, hb⟩ := imageAuthenticated_right hm hc he
    refine ⟨_, exec_imageAuthenticated true true true s, ?_⟩
    rw [hrun]
    exact ⟨rfl, hmode, rfl, rfl, rfl, rfl, hb⟩
  · obtain ⟨a, b, p, w, hrun, ha, hb⟩ := imageAuthenticated_wrong hm hc he
    refine ⟨_, exec_imageAuthenticated true false true s, ?_⟩
    rw [hrun]
    exact ⟨rfl, hm, rfl, rfl, ha, hb⟩
  · refine ⟨_, exec_bootWindowWrite off v s, ?_⟩
    rw [bootWindowWrite_eq hup hready hoff]
    exact ⟨rfl, FMap.getD_setD_self .., fun i hi => FMap.getD_setD_ne _ _ _ _ _ hi⟩
  · refine ⟨_, exec_resetCauseWrite fn v s, ?_⟩
    rw [resetCauseWrite_eq hup]
    exact ⟨rfl, bitAt_and_not s.boot.resetCause v⟩
  · obtain ⟨o, x, m, b, fu, a, f, v, k, hrun, hmode, hguard, hlen, hmb, hnone, hsome, hout, hacked⟩ := loadComplete_eq ack provision hm he
    refine ⟨_, exec_loadComplete ack provision s, ?_⟩
    rw [hrun]
    exact ⟨rfl, hmode, rfl, hguard, hmb, rfl, hlen, hnone, hsome, rfl, hout, hacked⟩
  · obtain ⟨m, hrun, hmode, hasks⟩ := calibrationStepDone_c1_fails hm hr harb ht hd
    refine ⟨_, exec_calibrationStepDone _ s, ?_⟩
    rw [hrun]
    exact ⟨rfl, hmode, fatalReq 5 0, hasks, rfl, rfl⟩
  · obtain ⟨x, hrun⟩ := calibrationStepDone_c6 hm hr harb ht hd
    refine ⟨_, exec_calibrationStepDone _ s, ?_⟩
    rw [hrun]
    exact ⟨rfl, rfl, rfl, rfl, rfl⟩
  · obtain ⟨m, a, f, o, v, hrun, hmode⟩ := calibrationStepDone_last hm hr harb ht hc hd hready hi
    refine ⟨_, exec_calibrationStepDone _ s, ?_⟩
    rw [hrun]
    exact ⟨rfl, hmode, rfl, rfl, rfl, rfl, rfl, rfl⟩

end Sys2Proof.Machine
end

section
/-! PROOF. Commands that are refused, and events that a mask disables (R77, R82). -/

namespace Sys2Proof.Machine

/-! ### Events under a mask (R82) -/

/-- Settles O59: the mask bit of the event is the first thing that raising it looks at. -/
theorem maskedEventsAreNotRaised : Obligations.MaskedEventsAreNotRaised := by
  unfold Obligations.MaskedEventsAreNotRaised
  intro s fn bit payload h1 h7 hm
  have hbit : 0x100 + bit - 0x100 = bit := Nat.add_sub_cancel_left ..
  have hskip : 0x100 + bit - 0x100 ≠ 0 ∧ 0x100 + bit - 0x100 ≠ 8 ∧ (s.mb fn).mask.testBit (0x100 + bit - 0x100) = true := by
    rw [hbit]
    exact ⟨by omega, by omega, hm⟩
  unfold State.raiseEvent
  exact if_pos hskip

/-! ### Refused commands (R76, R77) -/

/-- A command that waits is refused with the code of the first check that fails. -/
theorem State.checked_refused {s : State} {id op code : Nat} {c : Taken} {checks : List (Bool × Nat)} {ok : State → State}
    (hw : s.waits id op c) (hf : firstFail checks = some code) :
    s.answered (s.begin.checked id checks ok) id c (reply c code 0xFFFFFFFF []) := by
  rw [State.checked_fail _ _ code _ _ hf]
  obtain ⟨htaken, -, -, -, -, ho, -⟩ := hw
  exact State.begin_reject_answered code htaken ho

theorem exec_shaperSet (id : Nat) (s : State) : exec (.shaperSet id) s = .next (s.command id 0x060 (shaperSetBody id)) := rfl

theorem exec_routeSetAudio (id : Nat) (s : State) : exec (.routeSetAudio id) s = .next (s.command id 0x061 (routeSetAudioBody id)) :=
  rfl

theorem exec_routeSetLayout (id : Nat) (s : State) :
    exec (.routeSetLayout id) s = .next (s.command id 0x061 (routeSetLayoutBody id)) := rfl

theorem exec_gainSet (id : Nat) (s : State) : exec (.gainSet id) s = .next (s.command id 0x062 (gainSetBody id)) := rfl

theorem exec_legOpen (id : Nat) (stun : Bool) (s : State) :
    exec (.legOpen id stun) s = .next (s.command id 0x030 (legOpenBody stun id)) := rfl

/-! What the checks of a command read does not depend on what was sent out. -/

@[simp] theorem State.begin_serves (s : State) (op : Nat) : s.begin.serves op = s.serves op := rfl

@[simp] theorem State.begin_hasConf (s : State) (fn i : Nat) : s.begin.hasConf fn i = s.hasConf fn i := rfl

@[simp] theorem State.begin_hasSlot (s : State) (fn k : Nat) : s.begin.hasSlot fn k = s.hasSlot fn k := rfl

@[simp] theorem State.begin_hasBucket (s : State) (fn level idx : Nat) : s.begin.hasBucket fn level idx = s.hasBucket fn level idx :=
  rfl

@[simp] theorem State.begin_conf (s : State) (i : Nat) : s.begin.conf i = s.conf i := rfl

theorem pairOk_eq_false {v w : Word} (h : w ≠ ~~~v) : pairOk v w = false := decide_eq_false h

/-- Bit 16 of a word of up to 17 bits is its quotient by 65,536. -/
theorem fld_16_16 {v : Word} (h : v.toNat < 131072) : fld v 16 16 = v.toNat / 65536 :=
  Nat.mod_eq_of_lt (by omega)

theorem zeroFrom_of_lt {v : Word} {n : Nat} (h : v.toNat < 2 ^ n) : zeroFrom v n = true := decide_eq_true h

/-- A trunk leg, of KIND 2, names slots of the GCM profiles only (R204). -/
theorem legOpen_kind {kind rx tx : Nat} (h : kind = 2 → rx < 3 ∧ tx < 3) :
    (kind == 2 && (decide (3 ≤ rx) || decide (3 ≤ tx))) = false := by
  rw [Bool.eq_false_iff]
  simp only [ne_eq, Bool.and_eq_true, beq_iff_eq, Bool.or_eq_true, decide_eq_true_eq]
  omega

/-- Settles O57: the checks before the pair pass, and the pair fails. -/
theorem complementsAreChecked : Obligations.ComplementsAreChecked := by
  unfold Obligations.ComplementsAreChecked
  intro s id c stun hm
  have hs : s.serves 0x061 = true ∧ s.serves 0x062 = true := ⟨hm, hm⟩
  refine ⟨fun hw hc hb hp => ⟨_, exec_shaperSet id s, ?_⟩,
    fun hw hlen h5 hp hconf => ⟨fun h3 h4 hfade => ⟨_, exec_routeSetAudio id s, ?_⟩, fun h3 h3' h4 => ⟨_, exec_routeSetLayout id s, ?_⟩⟩,
    fun hw hlen h3 h4 h5 hconf hp => ⟨_, exec_gainSet id s, ?_⟩,
    fun hw hc hconf hrx htx hk hd hp => ⟨_, exec_legOpen id stun s, ?_⟩⟩
  · have hs' : s.serves 0x060 = true := hm
    rw [State.command_waits s id _ c _ hw, shaperSetBody]
    exact State.checked_refused hw (by simp [firstFail, hc, hb, hs', pairOk_eq_false hp])
  · have ht : fld (c.w 3) 16 16 = 0 := by rw [fld_16_16 (by omega)]; omega
    have hfade' : fld (c.w 4) 20 16 = 0 ∨ ¬ (fld (c.w 4) 20 16 ≤ 1 ∨ 20 < fld (c.w 4) 20 16) := by omega
    rw [State.command_waits s id _ c _ hw, routeSetAudioBody, if_neg (not_not.mpr ht)]
    refine State.checked_refused hw ?_
    rcases hfade' with hfade' | hfade' <;>
      simp [firstFail, hlen, hconf, hs, pairOk_eq_false hp, hfade', zeroFrom_of_lt (n := 17) (v := c.w 3) (by omega),
        zeroFrom_of_lt h4, zeroFrom_of_lt (n := 16) h5]
  · have ht : fld (c.w 3) 16 16 = 1 := by rw [fld_16_16 (by omega)]; omega
    rw [State.command_waits s id _ c _ hw, routeSetLayoutBody, if_neg (not_not.mpr ht)]
    refine State.checked_refused hw ?_
    simp [firstFail, hlen, hconf, hs, pairOk_eq_false hp, zeroFrom_of_lt (n := 17) h3', zeroFrom_of_lt h4,
      zeroFrom_of_lt (n := 16) h5]
  · rw [State.command_waits s id _ c _ hw, gainSetBody]
    refine State.checked_refused hw ?_
    simp [firstFail, hlen, hconf, hs, pairOk_eq_false hp, zeroFrom_of_lt (n := 16) h3, zeroFrom_of_lt (n := 16) h4,
      zeroFrom_of_lt (n := 16) h5]
  · have hs' : s.serves 0x030 = true := by simp [State.serves, hm, hd]
    have hkind : (fld (c.w 3) 26 25 == 2 && (decide (3 ≤ (s.begin.slot (c.w 18).toNat).profile) ||
        decide (3 ≤ (s.begin.slot (c.w 20).toNat).profile))) = false := legOpen_kind hk
    have hpair : pairOk (c.w 18) (c.w 19) = false ∨ pairOk (c.w 20) (c.w 21) = false :=
      hp.imp pairOk_eq_false pairOk_eq_false
    rw [State.command_waits s id _ c _ hw, legOpenBody]
    refine State.checked_refused hw ?_
    simp only [firstFail, hkind]
    simp [hc, hconf, hrx, htx, hs', hpair]

end Sys2Proof.Machine
end

section
/-! PROOF. The command ring: reservations, ring writes, Welmus's take, and reservations that are abandoned (R65 to R69, R88). -/

namespace Sys2Proof.Machine

theorem exec_cmdReserveRead (fn n : Nat) (s : State) : exec (.cmdReserveRead fn n) s = .next (cmdReserveRead fn n s) := rfl

theorem exec_cmdRingWrite (fn off : Nat) (v : Word) (p : Bool) (s : State) :
    exec (.cmdRingWrite fn off v p) s = .next (cmdRingWrite fn off v p s) := rfl

theorem exec_commandTake (bad : List Nat) (s : State) : exec (.commandTake bad) s = .next (commandTake bad s) := rfl

theorem exec_cmdAbandoned (fn : Nat) (s : State) : exec (.cmdAbandoned fn) s = .next (cmdAbandoned fn s) := rfl

/-! ### Reservations (R65) -/

/-- The mailbox with `n` more words reserved at the next ring offset. -/
def Mailbox.reserve (m : Mailbox) (n now : Nat) : Mailbox :=
  { m with
    resv := m.resv ++ [{ off := m.nextOff, n := n }]
    nextOff := ringPos m.nextOff n
    headSince := if m.resv.isEmpty then some now else m.headSince }

theorem Mailbox.reserve_used (m : Mailbox) (n now : Nat) : (m.reserve n now).used = m.used + n := by
  simp [Mailbox.reserve, Mailbox.used]

/-- The mailbox after a ring write that lies in a reservation whose word 0 is unwritten. -/
def Mailbox.stored (m : Mailbox) (off : Nat) (v : Word) (p : Bool) : Mailbox :=
  let m' : Mailbox := { m with
    ring := m.ring.setD (0, false) off (v, p)
    resv := m.resv.map fun r => if r.off = off && !r.written then { r with written := true } else r }
  { m' with headSince := if m'.stalled then m.headSince else none }

section
variable {s : State} {n : Nat} (fn : Nat) (hup : s.hostUp = true)
include hup

theorem cmdReserveRead_short (h1 : 1 ≤ n) (h2 : n ≤ 2) :
    cmdReserveRead fn n s = s.begin.emit (.readData 0xC0000000 false) := by
  have h0 : ¬ n = 0 := by omega
  have hmax : ¬ 1024 < n := by omega
  simp [cmdReserveRead, hup, h0, hmax, h2]

theorem cmdReserveRead_full (h3 : 3 ≤ n) (hn : n ≤ 1024) (hf : (s.mb fn).free < n) :
    cmdReserveRead fn n s = s.begin.emit (.readData 0x80000000 false) := by
  have h0 : ¬ n = 0 := by omega
  have hmax : ¬ 1024 < n := by omega
  have h2 : ¬ n ≤ 2 := by omega
  simp [cmdReserveRead, hup, h0, hmax, h2, hf]

theorem cmdReserveRead_free (h3 : 3 ≤ n) (hn : n ≤ 1024) (hf : n ≤ (s.mb fn).free) :
    cmdReserveRead fn n s =
      (s.begin.setMb fn ((s.mb fn).reserve n s.now)).emit (.readData (w32 (s.mb fn).nextOff) false) := by
  have h0 : ¬ n = 0 := by omega
  have hmax : ¬ 1024 < n := by omega
  have h2 : ¬ n ≤ 2 := by omega
  have hfree : ¬ (s.mb fn).free < n := by omega
  simp [cmdReserveRead, hup, h0, hmax, h2, hfree, Mailbox.reserve]

/-! ### Ring writes (R66, R67, R69) -/

theorem cmdRingWrite_stored {off : Nat} (v : Word) (p : Bool) (hoff : off < 16384) {r : Resv} (hr : r ∈ (s.mb fn).resv)
    (hh : r.holds off = true) (hw : r.written = false) :
    cmdRingWrite fn off v p s = s.begin.setMb fn ((s.mb fn).stored off v p) := by
  have hany : ((s.mb fn).resv.any fun r => r.holds off && !r.written) = true :=
    List.any_eq_true.mpr ⟨r, hr, by simp [hh, hw]⟩
  simp [cmdRingWrite, hup, show ¬ 16383 < off by omega, hany, Mailbox.stored]

theorem cmdRingWrite_stray {off : Nat} (v : Word) (p : Bool) (hoff : off < 16384)
    (hno : ∀ r ∈ (s.mb fn).resv, r.holds off = true → r.written = true) :
    cmdRingWrite fn off v p s = s.begin.countFn fn 2 1 := by
  have hany : ((s.mb fn).resv.any fun r => r.holds off && !r.written) = false := by
    simpa using hno
  simp [cmdRingWrite, hup, show ¬ 16383 < off by omega, hany]

end

/-! ### Welmus's take (R88) -/

/-- The mailbox whose head message `c` has been taken, with room for a response of `c`'s opcode and `bad` poisoned words. -/
def Mailbox.tookHead (m : Mailbox) (c : Taken) (bad now : Nat) : Mailbox :=
  { ({ m with resv := m.resv.drop 1, evReserved := m.evReserved + largestResponse c.op } : Mailbox).headWait now with
    counters := bump (bump m.counters 0 1) 3 bad }

theorem State.take_eq (s : State) (fn : Nat) (bad : List Nat) : ∃ n, s.take fn bad =
    { s.setMb fn ((s.mb fn).tookHead ((s.mb fn).headMessage fn bad) n s.now) with
      welmus := { s.welmus with
        taken := s.welmus.taken.put s.welmus.nextId { (s.mb fn).headMessage fn bad with
          reserved := largestResponse ((s.mb fn).headMessage fn bad).op }
        nextId := s.welmus.nextId + 1
        lastFn := if fn = 0 then s.welmus.lastFn else fn
        pf0Turn := fn != 0 } } := by
  unfold State.take
  simp only [State.countFn_setMb]
  exact ⟨_, rfl⟩

theorem commandTake_eq {s : State} {bad : List Nat} {fn : Nat}
    (h : s.welmus.order.find? (fun fn => s.mayTake fn bad) = some fn) : commandTake bad s = s.begin.take fn bad := by
  have h' : s.begin.welmus.order.find? (fun fn => s.begin.mayTake fn bad) = some fn := h
  simp only [commandTake, h']

/-- Words counted as poisoned do not change the count of commands. -/
theorem bump_getD_ne (cs : List Nat) {i j : Nat} (k : Nat) (h : i ≠ j) : (bump cs i k).getD j 0 = cs.getD j 0 := by
  simp [bump, List.getD_eq_getElem?_getD, h]

/-! ### Abandoned reservations (R68) -/

theorem cmdAbandoned_due {s : State} {fn since : Nat} (hs : (s.mb fn).headSince = some since) (hst : (s.mb fn).stalled = true)
    (hdue : since + 100000000 ≤ s.now) (hq : s.faults.queue.length < 256) : ∃ m : Mailbox,
    cmdAbandoned fn s = { s.begin.setMb fn { m with counters := bump (s.mb fn).counters 1 1 } with
      faults := { s.faults with queue := s.faults.queue ++ [s.faultRec 0x18 6 fn (w32 (s.mb fn).head) 0] } } ∧
    m.resv = (s.mb fn).resv.drop 1 := by
  have hnow : ¬ s.now < since + 100000000 := Nat.not_lt.mpr hdue
  refine ⟨({ s.mb fn with resv := (s.mb fn).resv.drop 1 } : Mailbox).headWait s.now, ?_, rfl⟩
  simp only [cmdAbandoned, State.begin_mb, hs, hst, Bool.not_true, Bool.false_or, decide_eq_true_eq, State.begin_now, hnow,
    if_false]
  rw [State.countFn_setMb, State.fault_queue]
  · rfl
  · exact hq

/-- Settles O6: each row of the ring, by where its words lie. -/
theorem commandsReachWelmusThroughTheRing : Obligations.CommandsReachWelmusThroughTheRing := by
  unfold Obligations.CommandsReachWelmusThroughTheRing
  refine ⟨?_, ?_, ?_, ?_⟩
  · intro s fn n hup h1 hn
    refine ⟨_, exec_cmdReserveRead fn n s, ?_⟩
    by_cases h2 : n ≤ 2
    · rw [cmdReserveRead_short fn hup h1 h2]
      exact ⟨rfl, fun _ => ⟨rfl, rfl⟩, fun h3 => by omega, fun h3 => by omega⟩
    have h3 : 3 ≤ n := by omega
    by_cases hf : (s.mb fn).free < n
    · rw [cmdReserveRead_full fn hup h3 hn hf]
      exact ⟨rfl, fun h => absurd h h2, fun _ _ => ⟨rfl, rfl⟩, fun _ h => by omega⟩
    · rw [cmdReserveRead_free fn hup h3 hn (by omega)]
      refine ⟨rfl, fun h => absurd h h2, fun _ h => absurd h hf, fun _ _ => ⟨rfl, ?_, ?_, ?_, fun i hi => ?_⟩⟩
      · simp [Mailbox.reserve]
      · simp [Mailbox.reserve, ringPos]
      · rw [State.emit_mb, State.setMb_mb_self, Mailbox.reserve_used]
      · exact s.begin.setMb_mb_ne _ hi
  · intro s fn off v p hup hoff
    refine ⟨_, exec_cmdRingWrite fn off v p s, ?_⟩
    by_cases hin : ∃ r ∈ (s.mb fn).resv, r.holds off = true ∧ r.written = false
    · obtain ⟨r, hr, hh, hw⟩ := hin
      rw [cmdRingWrite_stored fn hup v p hoff hr hh hw]
      refine ⟨rfl, fun _ _ _ _ => ?_, fun hno => absurd (hno r hr hh) (by simp [hw]), fun i hi => s.begin.setMb_mb_ne _ hi⟩
      rw [State.setMb_mb_self]
      exact ⟨FMap.getD_setD_self .., fun i hi => FMap.getD_setD_ne _ _ _ _ _ hi, rfl, rfl⟩
    · have hno : ∀ r ∈ (s.mb fn).resv, r.holds off = true → r.written = true := by simpa using hin
      rw [cmdRingWrite_stray fn hup v p hoff hno]
      refine ⟨rfl, fun r hr hh hw => absurd (hno r hr hh) (by simp [hw]), fun _ => ?_, fun i hi => s.begin.updMb_mb_ne _ hi⟩
      rw [State.countFn, State.updMb_mb_self]
      exact ⟨rfl, rfl, rfl⟩
  · intro s bad fn h
    refine ⟨_, exec_commandTake bad s, ?_⟩
    obtain ⟨n, ht⟩ := s.begin.take_eq fn bad
    rw [commandTake_eq h, ht]
    have hmb := s.begin.setMb_mb_self fn ((s.mb fn).tookHead ((s.mb fn).headMessage fn bad) n s.now)
    refine ⟨rfl, rfl, rfl, ⟨_, FMap.find?_put_self .., rfl, rfl, rfl, rfl⟩, congrArg Mailbox.resv hmb,
      (congrArg Mailbox.evq hmb).trans rfl, congrArg Mailbox.evReserved hmb, ?_, fun i hi => s.begin.setMb_mb_ne _ hi⟩
    exact (congrArg (fun m => m.counters.getD 0 0) hmb).trans (bump_getD_ne _ n (by decide))
  · intro s fn since hs hst hdue hq
    obtain ⟨m, he, hm⟩ := cmdAbandoned_due hs hst hdue hq
    refine ⟨_, exec_cmdAbandoned fn s, ?_⟩
    rw [he]
    have hmb := s.begin.setMb_mb_self fn { m with counters := bump (s.mb fn).counters 1 1 }
    exact ⟨rfl, (congrArg Mailbox.resv hmb).trans hm, congrArg Mailbox.counters hmb, fun i hi => s.begin.setMb_mb_ne _ hi, _, rfl,
      rfl, rfl, rfl, rfl⟩

end Sys2Proof.Machine
end

section
/-! PROOF. Grants through every command: only TENANT_GRANT and the resets of the main domain change them (R46, R87). -/

namespace Sys2Proof.Machine

/-! ### Changes of the mode leave the grants -/

theorem State.grants_of_spine {s t : State} (h : t.spine = s.spine) : t.grants = s.grants := congrArg Spine.grants h

theorem State.grants_of_drifts {s t : State} (h : s.spine.drifts t.spine) : t.grants = s.grants := h.grants

@[simp] theorem State.setMode_grants (s : State) (target : Mode) (trigger : Nat) :
    (s.setMode target trigger).grants = s.grants := congrArg Spine.grants (s.setMode_spine target trigger)

@[simp] theorem State.autoReturn_grants (s : State) (target : Mode) (trigger : Nat) :
    (s.autoReturn target trigger).grants = s.grants := congrArg Spine.grants (s.autoReturn_spine target trigger)

@[simp] theorem State.autoNow_grants (s : State) (source target : Mode) (trigger : Nat) :
    (s.autoNow source target trigger).grants = s.grants := by
  obtain ⟨m, a, f, o, h, -⟩ := s.autoNow_touches source target trigger
  rw [h]

@[simp] theorem State.drainCheck_grants (s : State) : s.drainCheck.grants = s.grants := by
  obtain ⟨m, a, f, o, h, -⟩ := s.drainCheck_touches
  rw [h]

@[simp] theorem State.setReturn_grants (s : State) (id : Nat) (c : Taken) (m : Mode) (deadline : Nat) :
    (s.setReturn id c m deadline).grants = s.grants := congrArg Spine.grants (s.setReturn_spine id c m deadline)

@[simp] theorem State.enterThrottle_grants (s : State) : s.enterThrottle.grants = s.grants := by
  cases h : s.modes.mode.throttles with
  | true => exact congrArg Spine.grants (State.enterThrottle_spine h)
  | false => simp [State.enterThrottle, h]

@[simp] theorem State.leaveThrottle_grants (s : State) : s.leaveThrottle.grants = s.grants := by
  by_cases h : s.modes.mode = .throttle
  · refine (congrArg Spine.grants (State.leaveThrottle_spine h)).trans ?_
    show s.toReturn.grants = s.grants
    unfold State.toReturn
    simp only
    split
    · exact s.setMode_grants s.modes.returnMode 9
    · exact s.setMode_grants s.modes.returnMode 9
  · simp [State.leaveThrottle, h]

@[simp] theorem State.throttleReq_grants (s : State) (trigger : Nat) : (s.throttleReq trigger).grants = s.grants := by
  unfold State.throttleReq
  repeat' split
  all_goals simp

@[simp] theorem State.takeAuto_grants (s : State) (r : ModeReq) : (s.takeAuto r).grants = s.grants := by
  unfold State.takeAuto
  repeat' split
  all_goals simp

@[simp] theorem State.takeCommand_grants (s : State) (r : ModeReq) (id : Nat) (c : Taken) :
    (s.takeCommand r id c).grants = s.grants := by
  unfold State.takeCommand
  split
  · exact State.grants_of_spine (s.reject_spine id rWrongMode)
  · simp only
    split
    · rw [State.drainCheck_grants, State.setReturn_grants]
      rfl
    · rfl

@[simp] theorem State.enteredBy_grants (s : State) (r : ModeReq) (m : Mode) : (s.enteredBy r m).grants = s.grants := by
  unfold State.enteredBy
  simp only
  split
  · exact (State.grants_of_spine (State.portsDown_spine _)).trans (State.setMode_grants _ m r.trigger)
  · exact State.setMode_grants _ m r.trigger

@[simp] theorem State.completedBy_grants (s : State) (r : ModeReq) (m : Mode) : (s.completedBy r m).grants = s.grants := by
  unfold State.completedBy
  refine (State.grants_of_spine (State.finishModeSet_spine _ r.cmd)).trans ?_
  split <;> rfl

/-! ### The rows that govern the mode -/

theorem thermalSensorRead_grants (xs : List Int) (cs : Int) (s : State) : (thermalSensorRead xs cs s).grants = s.grants := by
  unfold thermalSensorRead
  simp only
  split
  · rfl
  · split
    · exact State.throttleReq_grants _ 8
    · rfl

theorem thermalExit_grants (s : State) : (thermalExit s).grants = s.grants := by
  unfold thermalExit
  simp only
  split
  · exact State.throttleReq_grants _ 9
  · rfl

theorem modeTransitionDone_grants (s : State) : (modeTransitionDone s).grants = s.grants := by
  by_cases h : ∀ r, s.modes.transition = some r → r.target = .quarantine ∨ (r.target.carries || s.trafficGone) = false
  · rw [modeTransitionDone_waits h]
    rfl
  · push Not at h
    obtain ⟨r, hr, hgo⟩ := h
    by_cases ht : s.modes.mode = .throttle
    · rw [modeTransitionDone_throttle hr (by simpa using hgo) ht]
      unfold State.returnDone
      repeat' split
      all_goals simp
    · rw [modeTransitionDone_done hr (by simpa using hgo) ht]
      simp only
      split
      · exact s.begin.enteredBy_grants r _
      · rw [State.drainCheck_grants, State.completedBy_grants, State.enteredBy_grants, State.begin_grants]

theorem quarantineEntry_grants (s : State) : (quarantineEntry s).grants = s.grants := by
  by_cases h : s.modes.quarantineReq = none ∨ s.modes.mode = .quarantine ∨ s.modes.mode = .reset ∨ s.modes.resetAsked = true
  · rw [quarantineEntry_stands h]
    rfl
  · obtain ⟨hr, hgo⟩ := not_or.mp h
    obtain ⟨r, hr⟩ := Option.ne_none_iff_exists'.mp hr
    rw [quarantineEntry_eq hr hgo]
    calc ((((s.begin.stoppedFor r).quarantined r).welmus.taken.foldl flushCommand ((s.begin.stoppedFor r).quarantined r)).dropLoads).grants
        = ((s.begin.stoppedFor r).quarantined r).grants :=
          State.grants_of_spine ((State.dropLoads_spine _).trans (State.spine_foldl flushCommand_spine _ _))
      _ = (s.begin.stoppedFor r).grants := State.setMode_grants _ .quarantine r.trigger
      _ = s.grants := State.grants_of_spine (s.begin.stoppedFor_spine r)

theorem mainResetRelease_grants (src : Nat) (railsOk sysclkOk : Bool) (held : Nat) (s : State) :
    (mainResetRelease src railsOk sysclkOk held s).grants = s.grants := by
  unfold mainResetRelease
  simp only
  split
  · rfl
  · exact (State.grants_of_drifts (State.drifts_openWindow (Spine.drifts_refl _))).trans (State.setMode_grants _ .identify 1)

theorem imageAuthenticated_grants (digestOk signatureOk bodyRead : Bool) (s : State) :
    (imageAuthenticated digestOk signatureOk bodyRead s).grants = s.grants := by
  have hwin (u : State) (src code : Nat) : (u.setResult src code).openWindow.grants = u.grants :=
    State.grants_of_drifts (State.drifts_openWindow (State.drifts_setResult (Spine.drifts_refl _) src code))
  have hset (u : State) (src : Nat) : (u.setResult src 1).grants = u.grants :=
    State.grants_of_drifts (State.drifts_setResult (Spine.drifts_refl _) src 1)
  unfold imageAuthenticated
  simp only
  split
  · rfl
  next src x _ =>
    repeat' split
    · rfl
    · exact hwin _ src 7
    · exact hwin _ src 4
    · exact (State.setMode_grants _ .load 2).trans (hset (s.begin.setBoot _) src)

theorem loadComplete_grants (ack : Bool) (provision : Option (List Nat)) (s : State) :
    (loadComplete ack provision s).grants = s.grants := by
  by_cases hgo : s.modes.mode ≠ .load ∨ s.modes.ending = true
  · have h : loadComplete ack provision s = s.begin := if_pos hgo
    rw [h]
    rfl
  · obtain ⟨hm, he⟩ := not_or.mp hgo
    exact congrArg Spine.grants (loadComplete_spine ack provision (not_not.mp hm) (by simpa using he))

theorem calibrationStepDone_grants (step : CalStep) (s : State) : (calibrationStepDone step s).grants = s.grants := by
  have hcal : (s.begin.calEffect step).grants = s.grants :=
    State.grants_of_drifts (s := s) (State.drifts_calEffect (by simp) step)
  unfold calibrationStepDone
  simp only
  repeat' split
  · rfl
  · exact hcal
  · exact (congrArg Spine.grants (State.calDone_spine _)).trans hcal
  · exact hcal

/-- Grants after a command other than TENANT_GRANT: as before, or cleared by a reset of the main domain. -/
def State.keepsGrants (s t : State) : Prop := t.grants = s.grants ∨ (t.grants = [] ∧ t.modes.mode = .reset)

theorem modeArbiterTake_keepsGrants (s : State) : s.keepsGrants (modeArbiterTake s) := by
  unfold modeArbiterTake State.keepsGrants
  simp only
  repeat' split
  · exact .inl rfl
  · exact .inl rfl
  · exact .inl rfl
  · exact .inr ⟨rfl, rfl⟩
  · exact .inl rfl
  · exact .inl rfl
  · exact .inl (State.enterThrottle_grants _)
  · exact .inl (State.leaveThrottle_grants _)
  · exact .inl (State.takeAuto_grants _ _)
  · exact .inl rfl
  · exact .inl (State.takeCommand_grants _ _ _ _)

theorem mainPowerLoss_keepsGrants (kept : Bool) (s : State) : s.keepsGrants (mainPowerLoss kept s) := by
  unfold mainPowerLoss State.keepsGrants
  simp only
  split
  · exact .inl rfl
  · exact .inr ⟨rfl, rfl⟩

theorem pinWarmReset_keepsGrants (lowNs : Nat) (taken : Bool) (s : State) : s.keepsGrants (pinWarmReset lowNs taken s) := by
  unfold pinWarmReset State.keepsGrants
  simp only
  split
  · exact .inl rfl
  · exact .inr ⟨rfl, rfl⟩

/-- Every command but TENANT_GRANT: what drifts keeps the grants, and of the rest only resets clear them. -/
theorem exec_keepsGrants (c : Instr) (s : State) (hc : ∀ id, c ≠ .tenantGrant id) : ∃ t, exec c s = .next t ∧ s.keepsGrants t := by
  cases hg : governs c with
  | false =>
    obtain ⟨t, ht, hd⟩ := exec_drifts c s hg
    exact ⟨t, ht, .inl (State.grants_of_drifts hd)⟩
  | true =>
    cases c with
    | tenantGrant id => exact absurd rfl (hc id)
    | modeArbiterTake => exact ⟨_, rfl, modeArbiterTake_keepsGrants s⟩
    | modeTransitionDone => exact ⟨_, rfl, .inl (modeTransitionDone_grants s)⟩
    | quarantineEntry => exact ⟨_, rfl, .inl (quarantineEntry_grants s)⟩
    | powerOn smbAddr => exact ⟨_, rfl, .inr ⟨rfl, rfl⟩⟩
    | auxPowerLoss => exact ⟨_, rfl, .inr ⟨rfl, rfl⟩⟩
    | mainPowerLoss sramKept => exact ⟨_, rfl, mainPowerLoss_keepsGrants sramKept s⟩
    | pinWarmReset lowNs taken => exact ⟨_, rfl, pinWarmReset_keepsGrants lowNs taken s⟩
    | mainResetRelease bootSrc railsOk sysclkOk heldNs =>
      exact ⟨_, rfl, .inl (mainResetRelease_grants bootSrc railsOk sysclkOk heldNs s)⟩
    | imageAuthenticated digestOk signatureOk bodyRead =>
      exact ⟨_, rfl, .inl (imageAuthenticated_grants digestOk signatureOk bodyRead s)⟩
    | loadComplete load => exact ⟨_, rfl, .inl (loadComplete_grants load.avsAck load.provision s)⟩
    | calibrationStepDone step => exact ⟨_, rfl, .inl (calibrationStepDone_grants step s)⟩
    | thermalSensorRead sensors caseSide => exact ⟨_, rfl, .inl (thermalSensorRead_grants sensors caseSide s)⟩
    | thermalExit => exact ⟨_, rfl, .inl (thermalExit_grants s)⟩
    | _ => cases hg

/-- Settles O58: the rows named in R87 drift or end a transition, which keep the grants, and the resets start from none. -/
theorem grantsSurviveAllButResets : Obligations.GrantsSurviveAllButResets := by
  unfold Obligations.GrantsSurviveAllButResets
  refine ⟨fun s t c h hc => ?_, fun s c fn hc => ?_, fun s lowNs taken haux hlow => ?_, fun s a => ⟨_, exec_powerOn a s, rfl⟩⟩
  · obtain ⟨u, hu, hk⟩ := exec_keepsGrants c s hc
    cases hu.symm.trans h
    exact hk
  · have drift (hg : governs c = false) : ∃ t, exec c s = .next t ∧ t.grants = s.grants := by
      obtain ⟨t, ht, hd⟩ := exec_drifts c s hg
      exact ⟨t, ht, hd.grants⟩
    obtain rfl | rfl | rfl | rfl | rfl | rfl := hc
    · exact drift rfl
    · exact drift rfl
    · exact drift rfl
    · exact drift rfl
    · exact drift rfl
    · exact ⟨_, exec_modeTransitionDone s, modeTransitionDone_grants s⟩
  · refine ⟨_, exec_pinWarmReset lowNs taken s, ?_⟩
    rw [pinWarmReset_eq haux hlow]
    rfl

end Sys2Proof.Machine
end

section
/-! PROOF. A command that commits with one entry, event queues that only grow, and key slots after their updates (R74, R91, R94). -/

namespace Sys2Proof.Machine

/-! ### Commits (R73, R94) -/

/-- A commit with one entry changes mailboxes, interrupts, the commands in progress and the audit log, and answers its function. -/
theorem State.commitOk_eq {s : State} {id : Nat} {c : Taken} (hf : s.welmus.taken.find? id = some c) (ho : c.orphan = false)
    (kind obj : Nat) (payload : List Word) : ∃ b f o a, s.commitOk id c kind obj payload = { s with
      mbx := b, funcs := f, out := o, audit := a, welmus := { s.welmus with taken := s.welmus.taken.del id } } ∧
      a.next = s.audit.next + 1 ∧ (b.getD {} c.fn).evq = (s.mb c.fn).evq ++ reply c rOk s.audit.next payload := by
  have h := State.complete_answered (s.commitEntry c 0 kind obj (payload.headD 0)) id rOk s.audit.next (plain payload) c hf ho
  rw [replyWith_plain] at h
  obtain ⟨b, f, o, he⟩ := State.answered_frame h
  have hq := State.answered_evq h
  rw [he] at hq
  exact ⟨b, f, o, _, he, rfl, hq⟩

/-- A command that waits is in progress, and its function has not been reset. -/
theorem State.waits_taken {s : State} {id op : Nat} {c : Taken} (hw : s.waits id op c) :
    s.welmus.taken.find? id = some c ∧ c.orphan = false := by
  obtain ⟨hf, -, -, -, -, ho, -⟩ := hw
  exact ⟨hf, ho⟩

/-! ### Event queues (R70, R74) -/

/-- Every event queue of `t` is that of `s` with further words behind it. -/
def State.evqGrows (s t : State) : Prop := ∀ i, ∃ more, (t.mb i).evq = (s.mb i).evq ++ more

theorem State.evqGrows_of_mbx {s t : State} (h : t.mbx = s.mbx) : s.evqGrows t :=
  fun i => ⟨[], by rw [List.append_nil, State.mb, h, State.mb]⟩

theorem State.evqGrows_trans {s t u : State} (h : s.evqGrows t) (k : t.evqGrows u) : s.evqGrows u := by
  intro i
  obtain ⟨a, ha⟩ := h i
  obtain ⟨b, hb⟩ := k i
  exact ⟨a ++ b, by rw [hb, ha, List.append_assoc]⟩

theorem State.updMb_evqGrows (s : State) (fn : Nat) {f : Mailbox → Mailbox} (hf : ∀ m, (f m).evq = m.evq) :
    s.evqGrows (s.updMb fn f) := by
  intro i
  refine ⟨[], ?_⟩
  rw [List.append_nil]
  by_cases hi : i = fn
  · rw [hi, State.updMb_mb_self, hf]
  · rw [State.updMb_mb_ne _ _ hi]

theorem State.pushMessage_evqGrows (s : State) (fn : Nat) (ws : List Word) : s.evqGrows (s.pushMessage fn ws) := by
  intro i
  obtain ⟨-, hself, hother⟩ := s.pushMessage_answers fn ws
  by_cases hi : i = fn
  · exact ⟨_, by rw [hi, hself]⟩
  · exact ⟨[], by rw [(hother i hi).1, List.append_nil]⟩

theorem State.raiseEvent_evqGrows (s : State) (fn code : Nat) (payload : List Word) : s.evqGrows (s.raiseEvent fn code payload) := by
  have count (u : State) (i : Nat) : u.evqGrows (u.countFn fn i 1) := u.updMb_evqGrows fn fun _ => rfl
  unfold State.raiseEvent
  simp only
  split
  · exact State.evqGrows_of_mbx rfl
  split
  · exact State.evqGrows_trans (count s 4) (count _ 5)
  have hseq : s.evqGrows ((s.countFn fn 4 1).updMb fn fun m => { m with evSeq := m.evSeq + 1 }) :=
    State.evqGrows_trans (count s 4) (State.updMb_evqGrows _ fn fun _ => rfl)
  split
  · exact State.evqGrows_trans hseq (State.pushMessage_evqGrows _ fn _)
  · exact State.evqGrows_trans hseq (State.evqGrows_trans
      (State.updMb_evqGrows _ fn (f := fun m => { m with discarded := true }) fun _ => rfl) (count _ 5))

/-- An event changes interrupts and the output, and puts words behind event queues. -/
theorem State.legState_eq (s : State) (leg st cause : Nat) : ∃ b f o, s.legState leg st cause = { s with
    mbx := b, funcs := f, out := o } ∧ ∀ i, ∃ more, (b.getD {} i).evq = (s.mb i).evq ++ more := by
  obtain ⟨b, f, o, h⟩ := s.legState_touches leg st cause
  have hq : s.evqGrows (s.legState leg st cause) :=
    s.raiseEvent_evqGrows (s.legHolder leg) 0x101 [w32 leg, w32 (st + 256 * cause)]
  rw [h] at hq
  exact ⟨b, f, o, h, hq⟩

/-! ### Key slots (R211) -/

@[simp] theorem State.updSlot_slot_self (s : State) (k : Nat) (f : Slot → Slot) : (s.updSlot k f).slot k = f (s.slot k) :=
  FMap.getD_put_self s.slots {} k _

theorem State.updSlot_slot_ne (s : State) {k i : Nat} (f : Slot → Slot) (h : i ≠ k) : (s.updSlot k f).slot i = s.slot i :=
  FMap.getD_put_ne s.slots {} k i _ h

end Sys2Proof.Machine
end

section
/-! PROOF. LEG_OPEN, LEG_BIND and LEG_CLOSE (R80, R91, R115, R116, R118, R177, R211). -/

namespace Sys2Proof.Machine

theorem exec_legBind (id : Nat) (s : State) : exec (.legBind id) s = .next (s.command id 0x031 (legBindBody id)) := rfl

theorem exec_legClose (id : Nat) (s : State) : exec (.legClose id) s = .next (s.command id 0x032 (legCloseBody id)) := rfl

/-! ### LEG_OPEN (R177, R211) -/

theorem State.begin_lowestLeg (s : State) (k n : Nat) : s.begin.lowestLeg k n = s.lowestLeg k n := by
  induction k generalizing n with
  | zero => rfl
  | succ k ih =>
    unfold State.lowestLeg
    rw [ih]
    rfl

/-- The leg number that is chosen is free. -/
theorem State.lowestLeg_free {s : State} {k n m : Nat} (h : s.lowestLeg k m = some n) : s.legs.find? n = none := by
  induction k generalizing m with
  | zero => cases h
  | succ k ih =>
    unfold State.lowestLeg at h
    split at h
    next ha =>
      cases h
      rw [State.legAssignable, Bool.and_eq_true, Bool.not_eq_true'] at ha
      simpa [FMap.has] using ha.1
    · exact ih h

/-- A LEG_OPEN whose checks pass commits, and its event follows the response. -/
theorem legOpen_ok {s : State} {id n : Nat} {c : Taken} {stun : Bool} (hw : s.waits id 0x030 c) (hc : openMalformed c = false)
    (hconf : s.hasConf c.fn (fld (c.w 3) 15 0) = true) (hrx : s.hasSlot c.fn (c.w 18).toNat = true)
    (htx : s.hasSlot c.fn (c.w 20).toNat = true)
    (hquota : c.fn = 0 ∨ s.legCount c.fn + 1 ≤ (s.grants.getD {} c.fn).legQuota)
    (hkind : fld (c.w 3) 26 25 = 2 → (s.slot (c.w 18).toNat).profile < 3 ∧ (s.slot (c.w 20).toNat).profile < 3)
    (hm : s.effMode.working = true) (hd : s.effMode ≠ .drain) (hp : c.w 19 = ~~~(c.w 18)) (hp' : c.w 21 = ~~~(c.w 20))
    (hex : (s.conf (fld (c.w 3) 15 0)).exists_ = true) (hport : (s.port? (fld (c.w 3) 22 16)).isSome = true)
    (hl : (s.slot (c.w 18).toNat).loaded = true) (hl' : (s.slot (c.w 20).toNat).loaded = true)
    (hh : (s.slot (c.w 18).toNat).held = false) (hh' : (s.slot (c.w 20).toNat).held = false)
    (hkeys : ∀ k ∈ openKeys c 0, ∀ e ∈ s.lookups, e.sameKey k = false) (hn : s.lowestLeg 1048576 0 = some n)
    (hplace : (placeKeys s.lookups (openKeys c 0)).isSome = true) :
    s.command id 0x030 (legOpenBody stun id) =
      ((s.begin.openLeg c n stun).commitOk id c 1 (fld (c.w 3) 15 0) [w32 n]).legState n 1 0 := by
  have hs : s.serves 0x030 = true := by simp [State.serves, hm, hd]
  have hn' := (s.begin_lowestLeg 1048576 0).trans hn
  rw [State.command_waits s id _ c _ hw, legOpenBody]
  simp only [hn']
  rw [State.checked_ok]
  · rfl
  have hkind' : (fld (c.w 3) 26 25 == 2 && (decide (3 ≤ (s.begin.slot (c.w 18).toNat).profile) ||
      decide (3 ≤ (s.begin.slot (c.w 20).toNat).profile))) = false := legOpen_kind hkind
  have hpair : pairOk (c.w 18) (c.w 19) = true ∧ pairOk (c.w 20) (c.w 21) = true := ⟨decide_eq_true hp, decide_eq_true hp'⟩
  have hslots : (s.begin.slot (c.w 18).toNat).loaded = true ∧ (s.begin.slot (c.w 20).toNat).loaded = true ∧
      (s.begin.slot (c.w 18).toNat).held = false ∧ (s.begin.slot (c.w 20).toNat).held = false := ⟨hl, hl', hh, hh'⟩
  have hfree : ((openKeys c 0).any fun k => s.lookups.any fun e => e.sameKey k) = false := by
    simpa using hkeys
  have hquota' : (c.fn != 0 && decide ((s.begin.grants.getD {} c.fn).legQuota < s.begin.legCount c.fn + 1)) = false := by
    show (c.fn != 0 && decide ((s.grants.getD {} c.fn).legQuota < s.legCount c.fn + 1)) = false
    rcases hquota with h | h
    · simp [h]
    · simp [Nat.not_lt.mpr h]
  have hport' : s.port? (fld (c.w 3) 22 16) ≠ none := Option.isSome_iff_ne_none.mp hport
  have hplace' : placeKeys s.lookups (openKeys c 0) ≠ none := Option.isSome_iff_ne_none.mp hplace
  simp only [firstFail, hkind', hquota']
  simp [hc, hconf, hrx, htx, hs, hpair, hex, hslots, hfree, hport', hplace']

section
variable (s : State) (c : Taken) (n : Nat) (stun : Bool)

/-- The receive slot of a leg opened with two different slots. -/
theorem State.openLeg_slot_rx (h : (c.w 18).toNat ≠ (c.w 20).toNat) : (s.openLeg c n stun).slot (c.w 18).toNat =
    { s.slot (c.w 18).toNat with holder := n, held := true, role := false } :=
  (State.updSlot_slot_ne _ _ h).trans (State.updSlot_slot_self ..)

theorem State.openLeg_slot_tx (h : (c.w 18).toNat ≠ (c.w 20).toNat) : (s.openLeg c n stun).slot (c.w 20).toNat =
    { s.slot (c.w 20).toNat with holder := n, held := true, role := true } := by
  refine (State.updSlot_slot_self ..).trans ?_
  rw [State.holdSlot, State.updSlot_slot_ne _ _ h.symm]
  rfl

theorem State.openLeg_slot_ne {k : Nat} (h : k ≠ (c.w 18).toNat) (h' : k ≠ (c.w 20).toNat) :
    (s.openLeg c n stun).slot k = s.slot k :=
  (State.updSlot_slot_ne _ _ h').trans (State.updSlot_slot_ne _ _ h)

end

/-- The two slots of a LEG_OPEN in its format differ (R211). -/
theorem openMalformed_slots {c : Taken} (h : openMalformed c = false) : (c.w 18).toNat ≠ (c.w 20).toNat := by
  intro he
  have : c.w 18 = c.w 20 := BitVec.eq_of_toNat_eq he
  simp [openMalformed, this] at h

/-! ### LEG_BIND (R115) -/

/-- A slot named by its number, rather than by 0xFFFF, is the one selected (R115). -/
theorem State.bindTarget_slot {s : State} {g : Leg} {p : Plan} {k : Nat} {r : RosterSlot} (hk : k ≠ 0xFFFF)
    (h : s.bindTarget g p k = some r) : r.slot = k := by
  rw [State.bindTarget, if_neg hk] at h
  obtain ⟨hr, -⟩ := Option.filter_eq_some_iff.mp h
  simpa using List.find?_some hr

/-- A LEG_BIND whose checks pass commits. -/
theorem legBind_ok {s : State} {id : Nat} {c : Taken} {g : Leg} {p : Plan} {r : RosterSlot} (hw : s.waits id 0x031 c)
    (hr : s.hasLeg c.fn (c.w 3).toNat = true) (hlen : c.lenIs 5 = true) (hl : (c.w 3).toNat < 1048576)
    (hk : (c.w 4).toNat < 65536) (hm : s.effMode.working = true) (hd : s.effMode ≠ .drain)
    (hg : s.legs.find? (c.w 3).toNat = some g) (hf : g.fenced = false) (hcf : (s.conf g.conf).fenced = none)
    (hp : (s.conf g.conf).active = some p) (ht : s.bindTarget g p (c.w 4).toNat = some r)
    (hfree : s.boundTo g.conf r.slot = none ∨ g.slot = some r.slot) :
    s.command id 0x031 (legBindBody id) =
      ((s.begin.bindLeg (c.w 3).toNat g p r).commitOk id c 2 (c.w 3).toNat [w32 r.slot]).legState (c.w 3).toNat 2 0 := by
  have hs : s.serves 0x031 = true := by simp [State.serves, hm, hd]
  have hgd : s.begin.legs.getD {} (c.w 3).toNat = g := by simp [FMap.getD, hg]
  have hp' : (s.begin.conf g.conf).active = some p := hp
  have ht' : s.begin.bindTarget g p (c.w 4).toNat = some r := ht
  have hhas : s.legs.has (c.w 3).toNat = true := by simp [FMap.has, hg]
  have hr' : s.begin.hasLeg c.fn (c.w 3).toNat = true := hr
  have hbusy : ((c.w 4).toNat != 0xFFFF && g.slot != some (c.w 4).toNat && (s.boundTo g.conf (c.w 4).toNat).isSome) = false := by
    by_cases h : (c.w 4).toNat = 0xFFFF
    · simp [h]
    · rw [State.bindTarget_slot h ht] at hfree
      rcases hfree with h | h <;> simp [h]
  have hbusy : ((c.w 4).toNat != 0xFFFF && g.slot != some (c.w 4).toNat && (s.begin.boundTo g.conf (c.w 4).toNat).isSome) = false :=
    hbusy
  rw [State.command_waits s id _ c _ hw, legBindBody]
  simp only [hgd, hp', Option.bind_some, ht']
  rw [State.checked_ok]
  simp only [firstFail, hbusy]
  simp [hlen, hr', hs, hf, hcf, hhas, zeroFrom_of_lt (n := 20) hl, zeroFrom_of_lt (n := 16) hk]

/-- A bind changes its leg, the leg's bucket and its conference's scores only. -/
theorem State.bindLeg_eq {s : State} {l : Nat} {g : Leg} (p : Plan) (r : RosterSlot) (hg : s.legs.find? l = some g) :
    ∃ cs ls u, s.bindLeg l g p r = { s with confs := cs, legs := ls, buckets := u } ∧
      (∃ g', ls.find? l = some g' ∧ g'.slot = some r.slot ∧ g'.conf = g.conf ∧ (g.slot ≠ some r.slot → g'.everBound = true) ∧
        g'.counters = g.counters ∧ g'.rxSlot = g.rxSlot ∧ g'.txSlot = g.txSlot) ∧
      ∀ k, k ≠ l → ls.find? k = s.legs.find? k := by
  unfold State.bindLeg
  split
  next h => exact ⟨_, _, _, rfl, ⟨g, hg, h, rfl, fun hn => absurd h hn, rfl, rfl, rfl⟩, fun _ _ => rfl⟩
  have hbucket (t : State) (first ov : Bool) (x : ShaperRec) : ∃ u, t.bindBucket l first ov x = { t with buckets := u } := by
    unfold State.bindBucket
    split
    · exact ⟨_, rfl⟩
    split
    · exact ⟨_, rfl⟩
    split <;> exact ⟨_, rfl⟩
  have hbound (t : State) (hcs : ∃ cs, t = { s with confs := cs }) : ∃ cs u,
      (t.updLeg l fun g => g.bindTo p r t.lookNo).bindBucket l (!g.everBound) g.shaperOv (p.shaperOf r.slot) =
        { s with confs := cs, legs := s.legs.upd l fun g => g.bindTo p r s.lookNo, buckets := u } := by
    obtain ⟨cs, rfl⟩ := hcs
    exact ⟨cs, hbucket _ _ _ _⟩
  obtain ⟨cs, u, hu⟩ := hbound (match g.slot with | some k => s.dropScores g.conf k | none => s) (by
    cases g.slot with
    | none => exact ⟨_, rfl⟩
    | some k => exact s.dropScores_touches g.conf k)
  refine ⟨cs, _, u, hu, ⟨g.bindTo p r s.lookNo, ?_, rfl, rfl, fun _ => rfl, rfl, rfl, rfl⟩,
    fun k hk => FMap.find?_upd_ne _ _ _ _ hk⟩
  rw [FMap.find?_upd_self, hg, Option.map_some]

/-! ### LEG_CLOSE (R36, R177, R211) -/

/-- Outside DRAIN the check of DRAIN does nothing. -/
theorem State.drainCheck_of_effMode_ne {s : State} (h : s.effMode ≠ .drain) : s.drainCheck = s := by
  have hm : s.modes.mode ≠ .drain := fun hm => h (by simp [State.effMode, hm])
  unfold State.drainCheck State.autoMode State.autoNow
  simp [h, hm]

/-- A released slot keeps everything but its hold. -/
theorem State.releaseSlot_slot (s : State) (k i : Nat) :
    ∃ held, (s.releaseSlot k).slot i = { s.slot i with held := held } ∧ (i = k ∨ (s.slot i).held = false → held = false) := by
  by_cases hi : i = k
  · exact ⟨false, by rw [hi]; exact State.updSlot_slot_self .., fun _ => rfl⟩
  · exact ⟨_, State.updSlot_slot_ne _ _ hi, fun h => h.resolve_left hi⟩

/-- A leg that is removed gives up the holds on its two key slots, and no key slot changes otherwise. -/
theorem State.removeLeg_slot {s : State} {leg : Nat} {g : Leg} (hg : s.legs.find? leg = some g) (i : Nat) :
    ∃ held, (s.removeLeg leg).slot i = { s.slot i with held := held } ∧
      (i = fld g.rxSlot 20 0 ∨ i = fld g.txSlot 20 0 → held = false) := by
  obtain ⟨a, ha, harx⟩ := s.releaseSlot_slot (fld g.rxSlot 20 0) i
  obtain ⟨b, hb, hbtx⟩ := (s.releaseSlot (fld g.rxSlot 20 0)).releaseSlot_slot (fld g.txSlot 20 0) i
  rw [ha] at hb hbtx
  have hslots : (s.removeLeg leg).slot i = ((s.releaseSlot (fld g.rxSlot 20 0)).releaseSlot (fld g.txSlot 20 0)).slot i := by
    unfold State.removeLeg
    simp only [hg]
    cases g.slot with
    | none => rfl
    | some k =>
      obtain ⟨cs, hcs⟩ := ((s.releaseSlot (fld g.rxSlot 20 0)).releaseSlot (fld g.txSlot 20 0)).dropScores_touches g.conf k
      simp only [hcs]
      rfl
  exact ⟨b, hslots.trans hb, fun h => hbtx (h.symm.imp_right fun h => harx (.inl h))⟩

/-- A leg's close removes it with its lookup entries, its bucket and its holds, and tells its function; outside DRAIN it writes no
entry. -/
theorem State.closeLeg_eq {s : State} {leg : Nat} {g : Leg} (hg : s.legs.find? leg = some g) (cause fn : Nat) :
    ∃ cs k n b f o m a, s.closeLeg leg cause fn = { s with
      confs := cs, slots := k, gone := n, legs := s.legs.del leg, lookups := s.lookups.filter fun e => e.leg != leg
      buckets := s.buckets.del leg, mbx := b, funcs := f, out := o, modes := m, audit := a } ∧
      (s.effMode ≠ .drain → a = s.audit) ∧
      (∀ i, ∃ held, k.getD {} i = { s.slot i with held := held } ∧
        (i = fld g.rxSlot 20 0 ∨ i = fld g.txSlot 20 0 → held = false)) ∧
      ∀ i, ∃ more, (b.getD {} i).evq = (s.mb i).evq ++ more := by
  have hslot := State.removeLeg_slot hg
  obtain ⟨cs, k, n, hr⟩ := s.removeLeg_touches leg (by rw [FMap.has, hg]; rfl)
  have hq := (s.removeLeg leg).raiseEvent_evqGrows fn 0x101 [w32 leg, w32 (0 + 256 * cause)]
  obtain ⟨b, f, o, he⟩ := (s.removeLeg leg).raiseEvent_touches fn 0x101 [w32 leg, w32 (0 + 256 * cause)]
  rw [he] at hq
  rw [hr] at hq hslot he
  have hclose : s.closeLeg leg cause fn = State.drainCheck { s with
      confs := cs, slots := k, gone := n, legs := s.legs.del leg, lookups := s.lookups.filter fun e => e.leg != leg
      buckets := s.buckets.del leg, mbx := b, funcs := f, out := o } := by
    unfold State.closeLeg State.legStateTo
    rw [hg, hr, he]
  by_cases hd : s.effMode = .drain
  · obtain ⟨m, a, f', o', hdc, -⟩ := State.drainCheck_touches { s with
      confs := cs, slots := k, gone := n, legs := s.legs.del leg, lookups := s.lookups.filter fun e => e.leg != leg
      buckets := s.buckets.del leg, mbx := b, funcs := f, out := o }
    exact ⟨cs, k, n, b, f', o', m, a, hclose.trans hdc, fun h => absurd hd h, hslot, hq⟩
  · exact ⟨cs, k, n, b, f, o, s.modes, s.audit, hclose.trans (State.drainCheck_of_effMode_ne hd), fun _ => rfl, hslot, hq⟩

/-- A LEG_CLOSE whose checks pass commits. -/
theorem legClose_ok {s : State} {id : Nat} {c : Taken} {g : Leg} (hw : s.waits id 0x032 c)
    (hr : s.hasLeg c.fn (c.w 3).toNat = true) (hlen : c.lenIs 4 = true) (hl : (c.w 3).toNat < 1048576)
    (hm : s.effMode.working = true) (hg : s.legs.find? (c.w 3).toNat = some g) :
    s.command id 0x032 (legCloseBody id) =
      (s.begin.commitOk id c 2 (c.w 3).toNat []).closeLeg (c.w 3).toNat 0 (s.begin.legHolder (c.w 3).toNat) := by
  have hs : s.serves 0x032 = true := by simp [State.serves, hm]
  have hhas : s.legs.has (c.w 3).toNat = true := by simp [FMap.has, hg]
  have hr' : s.begin.hasLeg c.fn (c.w 3).toNat = true := hr
  rw [State.command_waits s id _ c _ hw, legCloseBody, State.checked_ok]
  simp [firstFail, hlen, hr', hs, hhas, zeroFrom_of_lt (n := 20) hl]

/-! ### The three commands -/

/-- Settles O22: the commands' changes of the state, with the commit, its answer and the event that follows it. -/
theorem legsAreOpenedBoundAndClosed : Obligations.LegsAreOpenedBoundAndClosed := by
  unfold Obligations.LegsAreOpenedBoundAndClosed
  refine ⟨fun s id n conf c stun hw hc hcf hconf hrx htx hquota hkind hm hd hp hp' hex hport hl hl' hh hh' hkeys hn hplace => ?_,
    fun s id l c g p r hw hr hlen hl hlt hk hm hd hg hf hcf hp ht hfree => ?_, fun s id l c g hw hr hlen hl hlt hm hg => ?_⟩
  all_goals obtain ⟨hfind, ho⟩ := State.waits_taken hw
  · subst hcf
    refine ⟨_, exec_legOpen id stun s, ?_⟩
    rw [legOpen_ok hw hc hconf hrx htx hquota hkind hm hd hp hp' hex hport hl hl' hh hh' hkeys hn hplace]
    obtain ⟨b, f, o, a, he, ha, hq⟩ := State.commitOk_eq (s := s.begin.openLeg c n stun) hfind ho 1 (fld (c.w 3) 15 0) [w32 n]
    rw [he]
    obtain ⟨b', f', o', he', hq'⟩ := State.legState_eq { s.begin.openLeg c n stun with
      mbx := b, funcs := f, out := o, audit := a
      welmus := { (s.begin.openLeg c n stun).welmus with taken := (s.begin.openLeg c n stun).welmus.taken.del id } } n 1 0
    rw [he']
    obtain ⟨more, hmore⟩ := hq' c.fn
    have hne := openMalformed_slots hc
    have hrx := s.begin.openLeg_slot_rx c n stun hne
    have htx := s.begin.openLeg_slot_tx c n stun hne
    refine ⟨rfl, State.lowestLeg_free hn, FMap.find?_put_self .., fun l hl => FMap.find?_put_ne _ _ _ _ hl, rfl, ?_, ?_, ?_, ?_, ?_,
      ?_, fun k h1 h2 => s.begin.openLeg_slot_ne c n stun h1 h2, rfl, ha, more, hmore.trans (congrArg (· ++ more) hq)⟩
    · exact congrArg Slot.held hrx
    · exact congrArg Slot.holder hrx
    · exact congrArg Slot.role hrx
    · exact congrArg Slot.held htx
    · exact congrArg Slot.holder htx
    · exact congrArg Slot.role htx
  · subst hl
    refine ⟨_, exec_legBind id s, ?_⟩
    rw [legBind_ok hw hr hlen hlt hk hm hd hg hf hcf hp ht hfree]
    obtain ⟨cs, ls, u, hb, hleg, hother⟩ := State.bindLeg_eq (s := s.begin) p r hg
    rw [hb]
    obtain ⟨b, f, o, a, he, ha, hq⟩ := State.commitOk_eq (s := { s.begin with confs := cs, legs := ls, buckets := u }) hfind ho 2
      (c.w 3).toNat [w32 r.slot]
    rw [he]
    obtain ⟨b', f', o', he', hq'⟩ := State.legState_eq { s.begin with
      confs := cs, legs := ls, buckets := u, mbx := b, funcs := f, out := o, audit := a
      welmus := { s.begin.welmus with taken := s.begin.welmus.taken.del id } } (c.w 3).toNat 2 0
    rw [he']
    obtain ⟨more, hmore⟩ := hq' c.fn
    exact ⟨rfl, hleg, hother, rfl, ha, more, hmore.trans (congrArg (· ++ more) hq)⟩
  · subst hl
    refine ⟨_, exec_legClose id s, ?_⟩
    rw [legClose_ok hw hr hlen hlt hm hg]
    obtain ⟨b, f, o, a, he, ha, hq⟩ := State.commitOk_eq (s := s.begin) hfind ho 2 (c.w 3).toNat []
    rw [he]
    obtain ⟨cs, k, n, b', f', o', m, a', he', ha', hslot, hq'⟩ := State.closeLeg_eq (s := { s.begin with
      mbx := b, funcs := f, out := o, audit := a, welmus := { s.begin.welmus with taken := s.begin.welmus.taken.del id } }) hg 0
      (s.begin.legHolder (c.w 3).toNat)
    rw [he']
    obtain ⟨more, hmore⟩ := hq' c.fn
    have hheld (i : Nat) (hi : i = fld g.rxSlot 20 0 ∨ i = fld g.txSlot 20 0) : (k.getD {} i).held = false := by
      obtain ⟨held, hk, hfalse⟩ := hslot i
      rw [hk, hfalse hi]
    refine ⟨rfl, FMap.find?_del_self .., fun k hk => FMap.find?_del_ne _ _ _ hk, fun e he => ?_, fun e he hl => ?_,
      FMap.find?_del_self .., hheld _ (.inl rfl), hheld _ (.inr rfl), fun i => ?_, rfl, fun hd => ?_, more,
      hmore.trans (congrArg (· ++ more) hq)⟩
    · exact bne_iff_ne.mp (List.mem_filter.mp he).2
    · exact List.mem_filter.mpr ⟨he, bne_iff_ne.mpr hl⟩
    · obtain ⟨held, hk, -⟩ := hslot i
      exact (congrArg Slot.keys hk :)
    · exact (congrArg Log.next (ha' hd)).trans ha

end Sys2Proof.Machine
end

section
/-! PROOF. KEY_IMPORT and KEY_ERASE (R80, R211 to R216). -/

namespace Sys2Proof.Machine

theorem exec_keyImport (id : Nat) (dropped : Bool) (s : State) :
    exec (.keyImport id dropped) s = .next (s.command id 0x040 (keyImportBody dropped id)) := rfl

theorem exec_keyErase (id : Nat) (s : State) : exec (.keyErase id) s = .next (s.command id 0x041 (keyEraseBody id)) := rfl

/-! ### KEY_IMPORT (R211 to R215) -/

/-- A leg as the import into one of its slots leaves it (R215). -/
def Leg.rekeyed (g : Leg) (role : Bool) (generation : Nat) : Leg :=
  if role then { g with txGen := generation } else { g.resetReplay with rxGen := generation }

/-- The state with a slot's new record, the legs beside it and, where the write drops it, without the slot's copy in the key
cache. -/
def State.imported (s : State) (k : Nat) (r : Slot) (ls : FMap Leg) (dropped : Bool) : State :=
  { s with slots := s.slots.put k r, legs := ls, keyCache := if dropped then s.keyCache.filter fun x => x != k else s.keyCache }

/-- An import writes its slot and, where a leg holds it, that leg. -/
theorem State.importKey_imported (s : State) (k pr : Nat) (m : KeyMat) (kcv : Nat) (dropped : Bool) :
    ∃ ls, (let t := s.importKey k pr m kcv
      if dropped then { t with keyCache := t.keyCache.filter fun x => x != k } else t) =
        s.imported k ((s.slot k).load pr m kcv) ls dropped ∧
      ((s.slot k).held = false → ls = s.legs) ∧
      (∀ g, (s.slot k).held = true → s.legs.find? (s.slot k).holder = some g →
        ls.find? (s.slot k).holder = some (g.rekeyed (s.slot k).role (((s.slot k).generation + 1) % 256))) ∧
      ∀ l, l ≠ (s.slot k).holder → ls.find? l = s.legs.find? l := by
  by_cases hh : (s.slot k).held = true
  · have hi : s.importKey k pr m kcv = { s with
        slots := s.slots.put k ((s.slot k).load pr m kcv)
        legs := s.legs.upd (s.slot k).holder fun g => g.rekeyed (s.slot k).role (((s.slot k).generation + 1) % 256) } :=
      if_neg (by simpa [Slot.load] using hh)
    refine ⟨_, by rw [hi]; cases dropped <;> rfl, fun h => absurd hh (by simp [h]), fun g _ hg => ?_,
      fun l hl => FMap.find?_upd_ne _ _ _ _ hl⟩
    rw [FMap.find?_upd_self, hg, Option.map_some]
  · have hi : s.importKey k pr m kcv = { s with slots := s.slots.put k ((s.slot k).load pr m kcv) } :=
      if_pos (by simpa [Slot.load] using hh)
    exact ⟨s.legs, by rw [hi]; cases dropped <;> rfl, fun _ => rfl, fun _ h => absurd h hh, fun _ _ => rfl⟩

section
variable {s : State} {id : Nat} {c : Taken} (dropped : Bool)

/-- The slot takes the profile of the import: a slot that a trunk leg holds takes the GCM profiles only (R211). -/
theorem keyImport_profile {pr : Nat} (hkind : 3 ≤ pr → (s.slot (c.w 3).toNat).held = true →
    (s.legs.getD {} (s.slot (c.w 3).toNat).holder).kind ≠ 2) :
    (decide (3 ≤ pr) && (s.begin.slot (c.w 3).toNat).held &&
      (s.begin.legs.getD {} (s.begin.slot (c.w 3).toNat).holder).kind == 2) = false := by
  show (decide (3 ≤ pr) && (s.slot (c.w 3).toNat).held && (s.legs.getD {} (s.slot (c.w 3).toNat).holder).kind == 2) = false
  rw [Bool.eq_false_iff]
  simp only [ne_eq, Bool.and_eq_true, decide_eq_true_eq, beq_iff_eq]
  exact fun ⟨⟨h3, hh⟩, h2⟩ => hkind h3 hh h2

variable (hw : s.waits id 0x040 c) (hr : s.hasSlot c.fn (c.w 3).toNat = true) (hc : importMalformed c = false)
  (hm : s.effMode.working = true)
  (hkind : 3 ≤ fld (c.w 4) 2 0 → (s.slot (c.w 3).toNat).held = true → (s.legs.getD {} (s.slot (c.w 3).toNat).holder).kind ≠ 2)
include hw hr hc hm hkind

/-- A key that unwraps, and is not the one loaded before, is imported. -/
theorem keyImport_ok {m : KeyMat} (hf : s.fuses.importSet = true)
    (hu : unwrapKey s.kik (fld (c.w 4) 2 0) (bytesOfWords (c.words.drop 5)) = some m)
    (hp : (s.pch (slotPch (c.w 3).toNat)).st ≠ 1)
    (hk : (s.slot (c.w 3).toNat).kcvValid = false ∨ (s.slot (c.w 3).toNat).kcv ≠ m.kcv) :
    s.command id 0x040 (keyImportBody dropped id) =
      (let t := s.begin.importKey (c.w 3).toNat (fld (c.w 4) 2 0) m m.kcv
      let t := if dropped then { t with keyCache := t.keyCache.filter fun x => x != (c.w 3).toNat } else t
      t.commitOk id c 3 (c.w 3).toNat [w32 (t.slot (c.w 3).toNat).generation, w32 m.kcv]) := by
  have hs : s.serves 0x040 = true := hm
  have hu' : unwrapKey s.begin.kik (fld (c.w 4) 2 0) (bytesOfWords (c.words.drop 5)) = some m := hu
  have hkcv : ((s.begin.slot (c.w 3).toNat).kcvValid && (s.begin.slot (c.w 3).toNat).kcv == m.kcv) = false := by
    rw [Bool.and_eq_false_iff, beq_eq_false_iff_ne]
    exact hk
  have hpch : ((s.begin.pch (slotPch (c.w 3).toNat)).st == 1) = false := beq_eq_false_iff_ne.mpr hp
  rw [State.command_waits s id _ c _ hw, keyImportBody]
  simp only [hu', Option.getD_some]
  rw [State.checked_ok]
  simp only [firstFail, keyImport_profile hkind, hkcv, hpch]
  simp [hc, hr, hs, hf]

/-- A key that does not unwrap, or is the one loaded before, is refused. -/
theorem keyImport_refused (h : s.fuses.importSet = false ∨
    unwrapKey s.kik (fld (c.w 4) 2 0) (bytesOfWords (c.words.drop 5)) = none ∨
    ∃ m, unwrapKey s.kik (fld (c.w 4) 2 0) (bytesOfWords (c.words.drop 5)) = some m ∧ (s.slot (c.w 3).toNat).kcvValid = true ∧
      (s.slot (c.w 3).toNat).kcv = m.kcv) :
    s.answered (s.command id 0x040 (keyImportBody dropped id)) id c (reply c rIntegrity 0xFFFFFFFF []) := by
  have hs : s.serves 0x040 = true := hm
  rw [State.command_waits s id _ c _ hw, keyImportBody]
  refine State.checked_refused hw ?_
  simp only [firstFail, keyImport_profile hkind]
  have hint : (!s.begin.fuses.importSet || (unwrapKey s.begin.kik (fld (c.w 4) 2 0) (bytesOfWords (c.words.drop 5))).isNone) = true ∨
      ((s.begin.slot (c.w 3).toNat).kcvValid && (s.begin.slot (c.w 3).toNat).kcv ==
        ((unwrapKey s.begin.kik (fld (c.w 4) 2 0) (bytesOfWords (c.words.drop 5))).getD { key := [], salt := [] }).kcv) = true := by
    show (!s.fuses.importSet || (unwrapKey s.kik (fld (c.w 4) 2 0) (bytesOfWords (c.words.drop 5))).isNone) = true ∨
      ((s.slot (c.w 3).toNat).kcvValid && (s.slot (c.w 3).toNat).kcv ==
        ((unwrapKey s.kik (fld (c.w 4) 2 0) (bytesOfWords (c.words.drop 5))).getD { key := [], salt := [] }).kcv) = true
    rcases h with h | h | ⟨m, hu, hv, hk⟩
    · exact .inl (by simp [h])
    · exact .inl (by simp [h])
    · exact .inr (by simp [hu, hv, hk])
  rcases hint with h | h <;> simp only [h] <;> simp [hc, hr, hs]

end

/-! ### KEY_ERASE (R216) -/

/-- A KEY_ERASE of a loaded slot commits. -/
theorem keyErase_ok {s : State} {id : Nat} {c : Taken} (hw : s.waits id 0x041 c) (hr : s.hasSlot c.fn (c.w 3).toNat = true)
    (hlen : c.lenIs 4 = true) (hk : (c.w 3).toNat < 2097152) (hm : s.effMode.working = true)
    (hl : (s.slot (c.w 3).toNat).loaded = true) :
    s.command id 0x041 (keyEraseBody id) = (s.begin.updSlot (c.w 3).toNat Slot.erase).commitOk id c 3 (c.w 3).toNat [] := by
  have hs : s.serves 0x041 = true := hm
  have hl' : (s.begin.slot (c.w 3).toNat).loaded = true := hl
  rw [State.command_waits s id _ c _ hw, keyEraseBody, State.checked_ok]
  simp [firstFail, hlen, hr, hs, hl', zeroFrom_of_lt (n := 21) hk]

/-- Settles O23: the slot's new record with the holder's context, the two refusals, and the erasure. -/
theorem keysAreImportedAndErased : Obligations.KeysAreImportedAndErased := by
  unfold Obligations.KeysAreImportedAndErased
  refine ⟨fun s id k pr c dropped hw hr hc hk hpr hm hkind => ?_, fun s id k c hw hr hlen hk hlt hm hl => ?_⟩
  all_goals obtain ⟨hfind, ho⟩ := State.waits_taken hw
  all_goals subst hk
  · subst hpr
    refine ⟨fun m hf hu hp hkcv => ⟨_, exec_keyImport id dropped s, ?_⟩,
      fun h => ⟨_, exec_keyImport id dropped s, keyImport_refused dropped hw hr hc hm hkind h⟩⟩
    rw [keyImport_ok dropped hw hr hc hm hkind hf hu hp hkcv]
    obtain ⟨ls, hi, hfree, hheld, hother⟩ := s.begin.importKey_imported (c.w 3).toNat (fld (c.w 4) 2 0) m m.kcv dropped
    simp only at hi ⊢
    rw [hi]
    have hslot (r : Slot) : (s.begin.imported (c.w 3).toNat r ls dropped).slot (c.w 3).toNat = r := FMap.getD_put_self ..
    rw [hslot]
    generalize hr' : (s.begin.slot (c.w 3).toNat).load (fld (c.w 4) 2 0) m m.kcv = r
    have hgen : r.generation = ((s.slot (c.w 3).toNat).generation + 1) % 256 := by rw [← hr']; rfl
    obtain ⟨b, f, o, a, he, ha, hq⟩ := State.commitOk_eq (s := s.begin.imported (c.w 3).toNat r ls dropped) hfind ho 3 (c.w 3).toNat
      [w32 r.generation, w32 m.kcv]
    rw [he]
    have hslot' : (s.slots.put (c.w 3).toNat r).getD {} (c.w 3).toNat = r := FMap.getD_put_self ..
    refine ⟨rfl, hslot'.trans hr'.symm, (congrArg Slot.generation hslot').trans hgen, ?_, ?_,
      fun i hi => FMap.getD_put_ne _ _ _ _ _ hi, rfl, hfree, fun g hh hg => ?_, hother, rfl, ha, ?_⟩
    · exact (congrArg Slot.index hslot').trans (by rw [← hr']; rfl)
    · exact (congrArg Slot.loaded hslot').trans (by rw [← hr']; rfl)
    · exact (hheld g hh hg).trans (congrArg (fun n => some (g.rekeyed (s.slot (c.w 3).toNat).role n))
        ((congrArg Slot.generation hslot').trans hgen).symm)
    · exact hq.trans (congrArg (fun n => (s.mb c.fn).evq ++ reply c rOk s.audit.next [w32 n, w32 m.kcv])
        (congrArg Slot.generation hslot').symm)
  · refine ⟨_, exec_keyErase id s, ?_⟩
    rw [keyErase_ok hw hr hlen hlt hm hl]
    obtain ⟨b, f, o, a, he, ha, hq⟩ := State.commitOk_eq (s := s.begin.updSlot (c.w 3).toNat Slot.erase) hfind ho 3 (c.w 3).toNat []
    rw [he]
    have hslot : (s.begin.updSlot (c.w 3).toNat Slot.erase).slot (c.w 3).toNat = (s.slot (c.w 3).toNat).erase :=
      State.updSlot_slot_self ..
    exact ⟨rfl, congrArg Slot.loaded hslot, congrArg Slot.keys hslot, congrArg Slot.index hslot, congrArg Slot.generation hslot,
      fun i hi => State.updSlot_slot_ne _ _ hi, rfl, ha, hq⟩

end Sys2Proof.Machine
end

section
/-! PROOF. PORT_CONFIG (R80, R123, R124, R126). -/

namespace Sys2Proof.Machine

theorem exec_portConfig (id : Nat) (s : State) : exec (.portConfig id) s = .next (s.command id 0x050 (portConfigBody id)) := rfl

theorem portCfgOf_speed {c : Taken} {g : PortCfg} (h : portCfgOf c = some g) : g.speed = fld (c.w 3) 10 8 := by
  unfold portCfgOf at h
  simp only at h
  split at h
  · cases h
  split at h
  · cases h
  split at h
  · cases h
  · cases h
    rfl

/-- A PORT_CONFIG whose checks pass commits. -/
theorem portConfig_ok {s : State} {id : Nat} {c : Taken} {g : PortCfg} (hw : s.waits id 0x050 c) (hf : c.fn = 0)
    (hg : portCfgOf c = some g) (hm : s.effMode.working = true) (ht : s.lanesTaken (fld (c.w 3) 6 0) g.speed = false)
    (hl : s.lanesGone (fld (c.w 3) 6 0) g.speed = false) :
    s.command id 0x050 (portConfigBody id) =
      (s.begin.commitOk id c 4 (fld (c.w 3) 6 0) []).portConfig (fld (c.w 3) 6 0) g := by
  have hs : s.serves 0x050 = true := hm
  rw [portCfgOf_speed hg] at ht hl
  have ht' : s.begin.lanesTaken (fld (c.w 3) 6 0) (fld (c.w 3) 10 8) = false := ht
  have hl' : s.begin.lanesGone (fld (c.w 3) 6 0) (fld (c.w 3) 10 8) = false := hl
  rw [State.command_waits s id _ c _ hw, portConfigBody]
  simp only [hg]
  rw [State.checked_ok]
  simp [firstFail, hf, hs, ht', hl']

/-! ### A port's restart -/

/-- Without a hold nothing is accounted. -/
theorem Port.settleAll_of_no_hold {q : Port} (hp : q.pauseHold = none) (hf : q.pfcHold = []) (t : Nat) : q.settleAll t = q := by
  have hone (k : Nat) : q.settle k t = q := by
    have hk : q.hold k = none := by
      unfold Port.hold
      rw [hp, hf]
      split <;> rfl
    rw [Port.settle, hk]
  unfold Port.settleAll
  induction List.range 9 with
  | nil => rfl
  | cons k ks ih => rw [List.foldl_cons, hone, ih]

/-- The state with other ports and buckets. -/
def State.withPorts (s : State) (ps : FMap Port) (b : FMap Bucket) : State := { s with ports := ps, buckets := b }

theorem State.reSpeed_eq (s : State) (p : Nat) (f : Port → Port) : ∃ b, s.reSpeed p f = s.withPorts (s.ports.upd p f) b := by
  unfold State.reSpeed
  simp only
  split
  · exact ⟨s.buckets, rfl⟩
  · exact ⟨_, rfl⟩

/-- A port that is not UP, and that no frame waits for, restarts in the state asked for. -/
theorem State.portTo_down {s : State} {p st : Nat} {q : Port} (hq : s.port? p = some q) (hst : q.st ≠ 4)
    (hidle : ∀ w ∈ s.waitQ, w.port ≠ p) :
    ∃ b, s.portTo p st = s.withPorts (s.ports.upd p fun _ => q.restart st s.now) b := by
  obtain ⟨b, hb⟩ := s.reSpeed_eq p fun _ => q.restart st s.now
  refine ⟨b, ?_⟩
  unfold State.portTo
  simp only [hq]
  rw [if_neg fun h => hst h.1, hb]
  exact State.admitWaiting_idle hidle

/-- A port without its width reduction (R131). -/
def Port.whole (q : Port) : Port := { q with reduced := false, reducedUp := false, openLanes := 0 }

/-- A port that does not count as unavailable forgets its width reduction. -/
theorem State.portWhole_up {s : State} {p : Nat} {q : Port} (hq : s.port? p = some q) (hup : q.reducedUp = false) :
    s.portWhole p = s.withPorts (s.ports.upd p Port.whole) s.buckets := by
  unfold State.portWhole
  simp only [hq, hup, Bool.false_eq_true, if_false]
  rfl

/-! ### What a port's operations leave (R142, R232) -/

/-- From `s` to `t` no port changes but `p`, and beside it only what hangs on ports, their frames that wait, and the logs. -/
def State.onPort (p : Nat) (s t : State) : Prop :=
  t = { s with
    out := t.out, modes := t.modes, funcs := t.funcs, audit := t.audit, faults := t.faults, avail := t.avail, ports := t.ports
    shorted := t.shorted, buckets := t.buckets, waitQ := t.waitQ } ∧
  ∀ i, i ≠ p → t.port? i = s.port? i

theorem State.onPort_refl (p : Nat) (s : State) : State.onPort p s s := ⟨rfl, fun _ _ => rfl⟩

theorem State.onPort_trans {p : Nat} {s t u : State} (h : State.onPort p s t) (k : State.onPort p t u) : State.onPort p s u := by
  obtain ⟨ht, hpt⟩ := h
  obtain ⟨hu, hpu⟩ := k
  exact ⟨hu.trans (congrArg (fun x : State => { x with
    out := u.out, modes := u.modes, funcs := u.funcs, audit := u.audit, faults := u.faults, avail := u.avail, ports := u.ports
    shorted := u.shorted, buckets := u.buckets, waitQ := u.waitQ }) ht), fun i hi => (hpu i hi).trans (hpt i hi)⟩

theorem State.updPort_onPort (s : State) (p : Nat) (f : Port → Port) : State.onPort p s (s.updPort p f) :=
  ⟨rfl, fun _ hi => State.updPort_port?_ne _ _ hi⟩

theorem State.reSpeed_onPort (s : State) (p : Nat) (f : Port → Port) : State.onPort p s (s.reSpeed p f) := by
  obtain ⟨b, hb⟩ := s.reSpeed_eq p f
  rw [hb]
  exact ⟨rfl, fun _ hi => FMap.find?_upd_ne _ _ _ _ hi⟩

theorem State.endWait_onPort (s : State) (p : Nat) (w : WaitFrame) : State.onPort p s (s.endWait w) := by
  obtain ⟨f, q, h⟩ := s.endWait_touches w
  rw [h]
  exact ⟨rfl, fun _ _ => rfl⟩

theorem State.admitOne_onPort (s : State) (p : Nat) : State.onPort p s (s.admitOne p) := by
  unfold State.admitOne
  split
  next q w _ _ =>
    split
    · exact State.onPort_trans (s.endWait_onPort p w) (State.updPort_onPort _ p _)
    · exact State.onPort_refl p s
  · exact State.onPort_refl p s

theorem State.foldl_onPort {α : Type} {p : Nat} {f : State → α → State} (h : ∀ s a, State.onPort p s (f s a)) (l : List α) (s : State) :
    State.onPort p s (l.foldl f s) := by
  induction l generalizing s with
  | nil => exact State.onPort_refl p s
  | cons a l ih => exact State.onPort_trans (h s a) (ih (f s a))

theorem State.portTo_onPort (s : State) (p st : Nat) : State.onPort p s (s.portTo p st) := by
  unfold State.portTo
  split
  · exact State.onPort_refl p s
  next q _ =>
    refine State.onPort_trans (t := if q.st = 4 ∧ st ≠ 4 then _ else _) ?_
      (State.foldl_onPort (fun s _ => s.admitOne_onPort p) _ _)
    split
    · obtain ⟨f, hf, -⟩ := (s.reSpeed p fun _ => { q.restart st s.now with
        counters := bump (q.restart st s.now).counters 32 1 }).fault_touches 0x09 4 p
        ((s.reSpeed p fun _ => { q.restart st s.now with
          counters := bump (q.restart st s.now).counters 32 1 }).portStatusOf p) 0
      rw [hf]
      exact State.onPort_trans (s.reSpeed_onPort p _) ⟨rfl, fun _ _ => rfl⟩
    · exact s.reSpeed_onPort p _

theorem State.portWhole_onPort (s : State) (p : Nat) : State.onPort p s (s.portWhole p) := by
  unfold State.portWhole
  split
  · exact State.onPort_refl p s
  next q _ =>
    simp only
    split
    · obtain ⟨m, a, f, o, h, -⟩ := (s.updPort p fun q =>
        { q with reduced := false, reducedUp := false, openLanes := 0 }).instanceUp_touches 12 p
      rw [h]
      exact State.onPort_trans (s.updPort_onPort p _) ⟨rfl, fun _ _ => rfl⟩
    · exact s.updPort_onPort p _

/-! ### The three kinds of PORT_CONFIG (R123, R124) -/

/-- A port with its new configuration and what its receivers show, before its bring-up (R123, R126). -/
def Port.configured (q : Port) (g : PortCfg) (now : Nat) : Port :=
  ({ q with cfg := g, speedRun := 0, active := 0, order := 0, rxInverted := 0 } : Port).sees (q.signal &&& laneBits g.speed) now

/-- The end of a PORT_CONFIG that takes its port to WAIT_SIGNAL. -/
def State.startPort (s : State) (p : Nat) (g : PortCfg) : State :=
  ((s.portWhole p).portTo p 1).reSpeed p fun q => q.configured g ((s.portWhole p).portTo p 1).now

/-- A port with nothing but its configuration starts in WAIT_SIGNAL. -/
theorem State.startPort_new {s : State} {p : Nat} {g : PortCfg} (hp : s.port? p = some { cfg := g })
    (hidle : ∀ w ∈ s.waitQ, w.port ≠ p) :
    ∃ ps b q, s.startPort p g = s.withPorts ps b ∧ ps.find? p = some q ∧ q.cfg = g ∧ q.st = 1 ∧
      q.stSince = s.now ∧ q.speedRun = 0 ∧ q.reduced = false ∧ ∀ i, i ≠ p → ps.find? i = s.port? i := by
  have hq : (s.ports.upd p Port.whole).find? p = some { cfg := g } := by
    rw [FMap.find?_upd_self, show s.ports.find? p = _ from hp]
    rfl
  obtain ⟨b, hb⟩ := State.portTo_down (s := s.withPorts (s.ports.upd p Port.whole) s.buckets) (st := 1) hq
    (show (0 : Nat) ≠ 4 by decide) hidle
  obtain ⟨b', hb'⟩ := (s.withPorts ((s.ports.upd p Port.whole).upd p fun _ => Port.restart { cfg := g } 1 s.now) b).reSpeed_eq p
    fun q => q.configured g s.now
  have hrestart : (Port.restart { cfg := g } 1 s.now).stSince = s.now ∧ (Port.restart { cfg := g } 1 s.now).reduced = false := by
    rw [Port.restart, Port.settleAll_of_no_hold rfl rfl]
    exact ⟨rfl, rfl⟩
  obtain ⟨hsince, hred⟩ := hrestart
  refine ⟨((s.ports.upd p Port.whole).upd p fun _ => Port.restart { cfg := g } 1 s.now).upd p fun q => q.configured g s.now, b',
    (Port.restart { cfg := g } 1 s.now).configured g s.now, ?_, ?_, rfl, rfl, hsince, rfl, hred, fun i hi => ?_⟩
  · rw [State.startPort, State.portWhole_up hp rfl, hb]
    exact hb'
  · rw [FMap.find?_upd_self, FMap.find?_upd_self, hq]
    rfl
  · rw [FMap.find?_upd_ne _ _ _ _ hi, FMap.find?_upd_ne _ _ _ _ hi, FMap.find?_upd_ne _ _ _ _ hi, State.port?]

/-- A port that did not exist comes into being in WAIT_SIGNAL. -/
theorem State.portConfig_new {s : State} {p : Nat} {g : PortCfg} (hg : g.speed ≠ 0) (hp : s.port? p = none)
    (hidle : ∀ w ∈ s.waitQ, w.port ≠ p) :
    ∃ ps sh b q, s.portConfig p g = { s with ports := ps, shorted := sh, buckets := b } ∧ ps.find? p = some q ∧ q.cfg = g ∧
      q.st = 1 ∧ q.stSince = s.now ∧ q.speedRun = 0 ∧ q.reduced = false ∧ ∀ i, i ≠ p → ps.find? i = s.port? i := by
  have hnew : s.portConfig p g = State.startPort { s.clearPortBuckets p with
      shorted := s.shorted.filter fun l => !(portLanes p g.speed).contains l, ports := s.ports.put p { cfg := g } } p g := by
    have habsent (t : State) (ht : t.ports = s.ports) : ¬ (t.port? p).isSome = true := by
      rw [State.port?, ht, ← State.port?, hp]
      exact Bool.false_ne_true
    unfold State.portConfig
    simp only [hp, Option.getD_none]
    rw [if_neg hg, if_neg (by simp), if_pos (Ne.symm hg), if_neg (habsent _ ?_)]
    all_goals rfl
  rw [hnew]
  obtain ⟨ps, b, q, he, hq, hrest⟩ := State.startPort_new (s := { s.clearPortBuckets p with
    shorted := s.shorted.filter fun l => !(portLanes p g.speed).contains l, ports := s.ports.put p { cfg := g } })
    (FMap.find?_put_self ..) hidle
  obtain ⟨hcfg, hst, hsince, hrun, hred, hother⟩ := hrest
  exact ⟨ps, _, b, q, he, hq, hcfg, hst, hsince, hrun, hred, fun i hi => (hother i hi).trans (FMap.find?_put_ne _ _ _ _ hi)⟩

/-- A port that is UP keeps its link where SPEED and lanes stay. -/
theorem State.portConfig_running {s : State} {p : Nat} {g : PortCfg} {q : Port} (hg : g.speed ≠ 0) (hq : s.port? p = some q)
    (hst : q.st = 4) (hcfg : q.cfg.speed = g.speed) (hrun : q.speedRun = g.speed) (hact : q.active = laneBits g.speed) :
    s.portConfig p g = { s with
      ports := s.ports.upd p fun q => { q with
        cfg := g, reduced := q.reduced && q.cfg.speed == g.speed, openLanes := q.openLanes &&& laneBits g.speed } } := by
  unfold State.portConfig
  simp only [hq, Option.getD_some]
  rw [if_neg hg, if_pos ⟨hst, hrun, hact⟩, if_neg (not_not.mpr hcfg)]
  rfl

/-- SPEED 0 takes a port out of existence. -/
theorem State.portConfig_removed (s : State) (p : Nat) {g : PortCfg} (hg : g.speed = 0) :
    State.onPort p s (s.portConfig p g) ∧ (s.portConfig p g).port? p = none := by
  unfold State.portConfig
  simp only
  rw [if_pos hg]
  refine ⟨?_, FMap.find?_del_self _ _⟩
  have hgone := State.onPort_trans (s.portTo_onPort p 0) (State.portWhole_onPort _ p)
  have hbuckets (t : State) : State.onPort p t (t.clearPortBuckets p) := ⟨rfl, fun _ _ => rfl⟩
  have hdel (t : State) (sh : List Nat) : State.onPort p t { t with ports := t.ports.del p, shorted := sh } :=
    ⟨rfl, fun i hi => FMap.find?_del_ne _ _ _ hi⟩
  exact State.onPort_trans (State.onPort_trans (State.onPort_trans hgone (hbuckets _))
    (State.foldl_onPort (fun t w => t.endWait_onPort p w) _ _)) (hdel _ _)

/-- Settles O24: the three kinds of PORT_CONFIG behind its commit. -/
theorem portConfigMakesThePort : Obligations.PortConfigMakesThePort := by
  unfold Obligations.PortConfigMakesThePort
  intro s id p c g hw hf hg hp hm ht hl
  subst hp
  obtain ⟨hfind, ho⟩ := State.waits_taken hw
  have hexec := exec_portConfig id s
  obtain ⟨b, f, o, a, he, ha, hq⟩ := State.commitOk_eq (s := s.begin) hfind ho 4 (fld (c.w 3) 6 0) []
  rw [portConfig_ok hw hf hg hm ht hl, he] at hexec
  rw [hf] at hq
  generalize hu : ({ s.begin with
    mbx := b, funcs := f, out := o, audit := a, welmus := { s.begin.welmus with taken := s.begin.welmus.taken.del id } } : State) = u
    at hexec
  refine ⟨fun hsp hnone hidle => ?_, fun q hport hst hcfg hrun hact hsp => ⟨_, hexec, ?_⟩, fun hsp => ⟨_, hexec, ?_⟩⟩
  · obtain ⟨ps, sh, bk, q, ht, hfp, hcfg, hst, hsince, hrun, hred, hi⟩ := State.portConfig_new (s := u) hsp (by rw [← hu]; exact hnone)
      (by rw [← hu]; exact hidle)
    subst hu
    exact ⟨_, q, hexec, by rw [ht]; rfl, by rw [ht]; exact hfp, hcfg, hst, hsince, hrun, hred, by rw [ht]; exact hi, by rw [ht]; rfl,
      by rw [ht]; exact ha, by rw [ht]; exact hq⟩
  · rw [State.portConfig_running (s := u) hsp (by rw [← hu]; exact hport) hst hcfg hrun hact]
    subst hu
    refine ⟨rfl, ?_, fun i hi => FMap.find?_upd_ne _ _ _ _ hi, rfl, rfl, rfl, ha, hq⟩
    refine (FMap.find?_upd_self ..).trans ?_
    rw [show s.begin.ports.find? _ = _ from hport, Option.map_some]
    simp [hcfg]
  · obtain ⟨⟨hframe, hi⟩, hnone⟩ := u.portConfig_removed (fld (c.w 3) 6 0) hsp
    generalize u.portConfig (fld (c.w 3) 6 0) g = t at hframe hi hnone ⊢
    have hmbx : t.mbx = u.mbx := (congrArg State.mbx hframe :)
    have hwelmus : t.welmus = u.welmus := (congrArg State.welmus hframe :)
    refine ⟨?_, hnone, fun i hne => (hi i hne).trans (by rw [← hu]; rfl), ?_, [], ?_⟩
    · rw [hmbx, hwelmus]
      subst hu
      exact hframe
    · rw [hwelmus, ← hu]
      rfl
    · rw [List.append_nil, State.mb, hmbx, ← hu]
      exact hq

end Sys2Proof.Machine
end

section
/-! PROOF. TENANT_GRANT (R80, R85, R94). -/

namespace Sys2Proof.Machine

theorem exec_tenantGrant (id : Nat) (s : State) : exec (.tenantGrant id) s = .next (s.command id 0x012 (tenantGrantBody id)) := rfl

/-- A TENANT_GRANT whose checks pass commits. -/
theorem tenantGrant_ok {s : State} {id : Nat} {c : Taken} (hw : s.waits id 0x012 c) (hf : c.fn = 0) (hlen : c.lenIs 9 = true)
    (hm : s.effMode.working = true) (h1 : 1 ≤ (c.w 3).toNat) (h63 : (c.w 3).toNat ≤ 63) (hcb : (grantOf c).confBase ≤ 65535)
    (hsb : (grantOf c).slotBase ≤ 2097151) (hq : (grantOf c).legQuota ≤ 1048576)
    (hconf : (grantOf c).confBase + (grantOf c).confCount ≤ 65536) (hslot : (grantOf c).slotBase + (grantOf c).slotCount ≤ 2097152)
    (hclash : s.grantClash (c.w 3).toNat (grantOf c) = false) :
    s.command id 0x012 (tenantGrantBody id) =
      (s.begin.commitOk id c 6 (c.w 3).toNat []).replaceGrant (c.w 3).toNat (grantOf c) c.tag := by
  have hs : s.serves 0x012 = true := hm
  have hclash' : s.begin.grantClash (c.w 3).toNat (grantOf c) = false := hclash
  have hfn : decide ((c.w 3).toNat = 0) = false ∧ decide (63 < (c.w 3).toNat) = false :=
    ⟨decide_eq_false (by omega), decide_eq_false (by omega)⟩
  have hranges : decide (65535 < (grantOf c).confBase) = false ∧ decide (65536 < (grantOf c).confCount) = false ∧
      decide (2097151 < (grantOf c).slotBase) = false ∧ decide (2097152 < (grantOf c).slotCount) = false ∧
      decide (1048576 < (grantOf c).legQuota) = false ∧
      decide (65536 < (grantOf c).confBase + (grantOf c).confCount) = false ∧
      decide (2097152 < (grantOf c).slotBase + (grantOf c).slotCount) = false := by
    refine ⟨?_, ?_, ?_, ?_, ?_, ?_, ?_⟩ <;> exact decide_eq_false (by omega)
  rw [State.command_waits s id _ c _ hw, tenantGrantBody, State.checked_ok]
  simp only [firstFail, hfn, hranges, hclash']
  simp [hf, hlen, hs]

/-! ### What leaves a grant (R85) -/

/-- From `s` to `t` only what hangs on closed legs and erased slots changes, and event queues grow. -/
def State.ungranting (s t : State) : Prop :=
  t = { s with
    out := t.out, modes := t.modes, mbx := t.mbx, funcs := t.funcs, audit := t.audit, confs := t.confs, legs := t.legs
    gone := t.gone, lookups := t.lookups, slots := t.slots, buckets := t.buckets } ∧ s.evqGrows t

theorem State.ungranting_refl (s : State) : s.ungranting s := ⟨rfl, State.evqGrows_of_mbx rfl⟩

theorem State.ungranting_trans {s t u : State} (h : s.ungranting t) (k : t.ungranting u) : s.ungranting u := by
  obtain ⟨ht, hgt⟩ := h
  obtain ⟨hu, hgu⟩ := k
  exact ⟨hu.trans (congrArg (fun x : State => { x with
    out := u.out, modes := u.modes, mbx := u.mbx, funcs := u.funcs, audit := u.audit, confs := u.confs, legs := u.legs
    gone := u.gone, lookups := u.lookups, slots := u.slots, buckets := u.buckets }) ht), State.evqGrows_trans hgt hgu⟩

/-- A leg that leaves the grant is open no more; no other leg is closed, and no slot is erased. -/
theorem closeGranted_closes (fn : Nat) (tag : Word) (s : State) (l : Nat) :
    s.ungranting (closeGranted fn tag s l) ∧ (closeGranted fn tag s l).legs.find? l = none ∧
      (∀ i, i ≠ l → (closeGranted fn tag s l).legs.find? i = s.legs.find? i) ∧
      ∀ k, ((closeGranted fn tag s l).slot k).loaded = (s.slot k).loaded := by
  unfold closeGranted
  cases hg : s.legs.find? l with
  | none =>
    have hclosed : (s.auditAuto 0x032 2 l tag).closeLeg l 3 fn = s.auditAuto 0x032 2 l tag := by
      unfold State.closeLeg
      simp only [show (s.auditAuto 0x032 2 l tag).legs.find? l = none from hg]
    rw [hclosed]
    exact ⟨⟨rfl, State.evqGrows_of_mbx rfl⟩, hg, fun _ _ => rfl, fun _ => rfl⟩
  | some g =>
    obtain ⟨cs, k, n, b, f, o, m, a, he, -, hslot, hq⟩ := State.closeLeg_eq (s := s.auditAuto 0x032 2 l tag) hg 3 fn
    rw [he]
    refine ⟨⟨rfl, hq⟩, FMap.find?_del_self .., fun i hi => FMap.find?_del_ne _ _ _ hi, fun i => ?_⟩
    obtain ⟨held, hk, -⟩ := hslot i
    exact (congrArg Slot.loaded hk :)

/-- A slot that leaves the grant is erased; no other slot and no leg changes. -/
theorem eraseGranted_erases (tag : Word) (s : State) (k : Nat) :
    s.ungranting (eraseGranted tag s k) ∧ (eraseGranted tag s k).legs = s.legs ∧ ((eraseGranted tag s k).slot k).loaded = false ∧
      ∀ i, i ≠ k → (eraseGranted tag s k).slot i = s.slot i :=
  ⟨⟨rfl, State.evqGrows_of_mbx rfl⟩, rfl, congrArg Slot.loaded (s.updSlot_slot_self k Slot.erase),
    fun _ hi => State.updSlot_slot_ne _ _ hi⟩

/-- The legs listed are closed. -/
theorem foldl_closeGranted (fn : Nat) (tag : Word) (ls : List Nat) (s : State) :
    s.ungranting (ls.foldl (closeGranted fn tag) s) ∧ (∀ l ∈ ls, (ls.foldl (closeGranted fn tag) s).legs.find? l = none) ∧
      (∀ l, l ∉ ls → (ls.foldl (closeGranted fn tag) s).legs.find? l = s.legs.find? l) ∧
      ∀ k, ((ls.foldl (closeGranted fn tag) s).slot k).loaded = (s.slot k).loaded := by
  induction ls generalizing s with
  | nil => exact ⟨s.ungranting_refl, by simp, fun _ _ => rfl, fun _ => rfl⟩
  | cons l ls ih =>
    obtain ⟨hframe, hclosed, hother, hslot⟩ := closeGranted_closes fn tag s l
    obtain ⟨hframe', hclosed', hother', hslot'⟩ := ih (closeGranted fn tag s l)
    rw [List.foldl_cons]
    refine ⟨State.ungranting_trans hframe hframe', fun i hi => ?_, fun i hi => ?_, fun k => (hslot' k).trans (hslot k)⟩
    · by_cases h : i ∈ ls
      · exact hclosed' i h
      · rw [hother' i h, (List.mem_cons.mp hi).resolve_right h, hclosed]
    · obtain ⟨hne, h⟩ := not_or.mp (List.mem_cons.not.mp hi)
      rw [hother' i h, hother i hne]

/-- The slots listed are erased. -/
theorem foldl_eraseGranted (tag : Word) (ks : List Nat) (s : State) :
    s.ungranting (ks.foldl (eraseGranted tag) s) ∧ (ks.foldl (eraseGranted tag) s).legs = s.legs ∧
      (∀ k ∈ ks, ((ks.foldl (eraseGranted tag) s).slot k).loaded = false) ∧
      ∀ k, k ∉ ks → (ks.foldl (eraseGranted tag) s).slot k = s.slot k := by
  induction ks generalizing s with
  | nil => exact ⟨s.ungranting_refl, rfl, by simp, fun _ _ => rfl⟩
  | cons k ks ih =>
    obtain ⟨hframe, hlegs, herased, hother⟩ := eraseGranted_erases tag s k
    obtain ⟨hframe', hlegs', herased', hother'⟩ := ih (eraseGranted tag s k)
    rw [List.foldl_cons]
    refine ⟨State.ungranting_trans hframe hframe', hlegs'.trans hlegs, fun i hi => ?_, fun i hi => ?_⟩
    · by_cases h : i ∈ ks
      · exact herased' i h
      · rw [hother' i h, (List.mem_cons.mp hi).resolve_right h, herased]
    · obtain ⟨hne, h⟩ := not_or.mp (List.mem_cons.not.mp hi)
      rw [hother' i h, hother i hne]

/-- The legs of conferences that leave a grant. -/
def State.leavingLegs (s : State) (fn : Nat) (g : Grant) : List Nat :=
  (s.legs.filter fun p => (s.grants.getD {} fn).coversConf p.2.conf && !g.coversConf p.2.conf).map Prod.fst

/-- The loaded slots that leave a grant. -/
def State.leavingSlots (s : State) (fn : Nat) (g : Grant) : List Nat :=
  (s.slots.filter fun p => p.2.loaded && (s.grants.getD {} fn).coversSlot p.1 && !g.coversSlot p.1).map Prod.fst

theorem State.mem_leavingLegs {s : State} {fn : Nat} {g : Grant} {l : Nat} :
    l ∈ s.leavingLegs fn g ↔
      ∃ q, (l, q) ∈ s.legs ∧ (s.grants.getD {} fn).coversConf q.conf = true ∧ g.coversConf q.conf = false := by
  simp [State.leavingLegs]

theorem State.mem_leavingSlots {s : State} {fn : Nat} {g : Grant} {k : Nat} :
    k ∈ s.leavingSlots fn g ↔
      ∃ r, (k, r) ∈ s.slots ∧ r.loaded = true ∧ (s.grants.getD {} fn).coversSlot k = true ∧ g.coversSlot k = false := by
  simp [State.leavingSlots, and_assoc]

/-- The grant is replaced, and what leaves it is closed and erased. -/
theorem State.replaceGrant_eq (s : State) (fn : Nat) (g : Grant) (tag : Word) :
    State.ungranting { s with grants := if g.confCount = 0 ∧ g.slotCount = 0 then s.grants.del fn else s.grants.put fn g }
      (s.replaceGrant fn g tag) ∧
      (∀ l ∈ s.leavingLegs fn g, (s.replaceGrant fn g tag).legs.find? l = none) ∧
      (∀ l, l ∉ s.leavingLegs fn g → (s.replaceGrant fn g tag).legs.find? l = s.legs.find? l) ∧
      (∀ k ∈ s.leavingSlots fn g, ((s.replaceGrant fn g tag).slot k).loaded = false) ∧
      ∀ k, k ∉ s.leavingSlots fn g → ((s.replaceGrant fn g tag).slot k).loaded = (s.slot k).loaded := by
  obtain ⟨hframe, hclosed, hopen, hslot⟩ := foldl_closeGranted fn tag (s.leavingLegs fn g)
    { s with grants := if g.confCount = 0 ∧ g.slotCount = 0 then s.grants.del fn else s.grants.put fn g }
  obtain ⟨hframe', hlegs, herased, hkept⟩ := foldl_eraseGranted tag (s.leavingSlots fn g) ((s.leavingLegs fn g).foldl
    (closeGranted fn tag)
    { s with grants := if g.confCount = 0 ∧ g.slotCount = 0 then s.grants.del fn else s.grants.put fn g })
  exact ⟨State.ungranting_trans hframe hframe',
    fun l hl => (congrArg (FMap.find? · l) hlegs).trans (hclosed l hl),
    fun l hl => (congrArg (FMap.find? · l) hlegs).trans (hopen l hl), herased,
    fun k hk => (congrArg Slot.loaded (hkept k hk)).trans (hslot k)⟩

/-- Settles O5: the commit, and the replacement of the grant behind it. -/
theorem tenantGrantReplacesTheGrant : Obligations.TenantGrantReplacesTheGrant := by
  unfold Obligations.TenantGrantReplacesTheGrant
  intro s id c hw hf hlen hm h1 h63 hcb hsb hq hconf hslot hclash
  obtain ⟨hfind, ho⟩ := State.waits_taken hw
  obtain ⟨b, f, o, a, he, -, hevq⟩ := State.commitOk_eq (s := s.begin) hfind ho 6 (c.w 3).toNat []
  rw [hf] at hevq
  refine ⟨_, exec_tenantGrant id s, ?_⟩
  rw [tenantGrant_ok hw hf hlen hm h1 h63 hcb hsb hq hconf hslot hclash, he]
  generalize hu : ({ s.begin with
    mbx := b, funcs := f, out := o, audit := a, welmus := { s.begin.welmus with taken := s.begin.welmus.taken.del id } } : State) = u
  have hsame : u.grants = s.grants ∧ u.legs = s.legs ∧ u.slots = s.slots := by
    rw [← hu]
    exact ⟨rfl, rfl, rfl⟩
  obtain ⟨hgrants, hlegs, hslots⟩ := hsame
  obtain ⟨⟨hframe, hgrow⟩, hclosed, hopen, herased, hkept⟩ := u.replaceGrant_eq (c.w 3).toNat (grantOf c) c.tag
  generalize u.replaceGrant (c.w 3).toNat (grantOf c) c.tag = t at *
  have hwelmus : t.welmus = u.welmus := (congrArg State.welmus hframe :)
  have hgrants' : t.grants = _ := (congrArg State.grants hframe :)
  obtain ⟨more, hmore⟩ := hgrow 0
  simp only [State.mem_leavingLegs, State.mem_leavingSlots, hgrants, hlegs, hslots] at hclosed hopen herased hkept
  refine ⟨?_, ?_, ⟨more, hmore.trans (congrArg (· ++ more) ?_)⟩, ?_, ?_, ?_, ?_, ?_⟩
  · rw [hwelmus, hgrants', ← hu]
    rw [← hu] at hframe
    exact hframe
  · rw [hwelmus, ← hu]
    rfl
  · rw [← hu]
    exact hevq
  · rw [hgrants', hgrants]
  · exact fun l g hg hc hn => hclosed l ⟨g, hg, hc, hn⟩
  · exact fun l hl => hopen l fun ⟨g, hg, hc, hn⟩ => Bool.false_ne_true (hn.symm.trans (hl g hg hc))
  · exact fun k r hr hload hc hn => herased k ⟨r, hr, hload, hc, hn⟩
  · refine fun k hk => (hkept k fun ⟨r, hr, hload, hc, hn⟩ => Bool.false_ne_true (hn.symm.trans (hk r hr hload hc))).trans ?_
    rw [State.slot, hslots, State.slot]

end Sys2Proof.Machine
end

section
/-! PROOF. ROUTE_SET at a bus whose device number stands for no bus, against what the statement on the mix commands says (R320). -/

namespace Sys2Proof.Machine

/-- Bus 2 of a plan, which mixes one column. -/
def danglingBus : BusRec := { bus := 2, rate := 0, route := 0, columns := [{}], taps := [], words := [] }

/-- A plan of conference 3 with route 1 for its bus 2. -/
def danglingPlan : Plan :=
  { conf := 3, epoch := 0, tickPhase := 0, mix := { k := 0, buses := [danglingBus] }
    routes := [{ ref := 1, bus := 2, coeffs := [] }] }

/-- ROUTE_SET from PF0: conference 3, bus 2, route 1. -/
def danglingCmd : Taken := { fn := 0, words := [0x574C0007, 0x061, 7, 3, 2, 1, 0xFFFFFFFE] }

/-- A device in SERVICE whose conference 3 gives its bus 2 the device bus 0, while no device bus is set up. -/
def danglingState : State :=
  { modes := { mode := .service }, welmus := { taken := [(0, danglingCmd)], nextId := 1 }
    confs := [(3, { banks := [{ st := .active, plan := some danglingPlan, buses := [(2, 0)] }, {}] })] }

/-- The command waits, and meets the premises of the statement's clause on audio routes. -/
theorem danglingState_waits : danglingState.waits 0 0x061 danglingCmd ∧ danglingCmd.lenIs 7 = true ∧
    (danglingState.conf 3).active = some danglingPlan ∧ (danglingState.conf 3).activeNo = some 0 ∧
    danglingState.busNo 3 0 2 = some 0 ∧ ((danglingState.buses.getD {} 0).xfade = none) ∧
    ((danglingPlan.busRec 2).bind fun r => danglingState.routeInForce danglingPlan r).map Resolved.ref ≠ some 1 := by
  unfold State.waits
  decide

/-- The command changes no device bus. -/
theorem danglingState_buses : (danglingState.command 0 0x061 (routeSetAudioBody 0)).buses = [] := by
  decide

/-- Refutes O28: where the plan's bus stands for device bus 0 and there is no such bus, ROUTE_SET changes none (`State.updBus`
leaves a bus that does not exist), and the statement says that bus 0 then waits for its crossfade. -/
theorem not_mixAndShaperCommandsTakeEffect : ¬ Obligations.MixAndShaperCommandsTakeEffect := by
  unfold Obligations.MixAndShaperCommandsTakeEffect
  rintro ⟨⟨-, hroute, -⟩, -⟩
  obtain ⟨hw, hlen, hactive, hno, hbus, hx, hforce⟩ := danglingState_waits
  obtain ⟨haudio, -⟩ := hroute danglingState 0 3 2 1 danglingCmd danglingPlan hw rfl hlen (by decide) (by decide) (by decide)
    (by decide) rfl (by decide) (by decide) (by decide) rfl hactive
  obtain ⟨t, hexec, -, -, -, hasked, -⟩ := haudio (by decide) (.inl (by decide)) rfl ⟨_, List.mem_singleton_self _, rfl, rfl⟩
    fun b i hb hi => by
      obtain rfl : 0 = b := Option.some.inj (hno.symm.trans hb)
      obtain rfl : 0 = i := Option.some.inj (hbus.symm.trans hi)
      exact hx
  rw [exec_routeSetAudio] at hexec
  obtain rfl : danglingState.command 0 0x061 (routeSetAudioBody 0) = t := by injection hexec
  have hsaid := hasked 0 0 hno hbus ⟨fun n _ => by rw [danglingState_buses]; rfl, hforce⟩
  rw [danglingState_buses] at hsaid
  exact nomatch hsaid

end Sys2Proof.Machine
end

section
/-! PROOF. Ring registers, MSI-X masks, Bus Master Enable and the host link (R109, R431, R433, R434, R439, R440). -/

namespace Sys2Proof.Machine

theorem exec_ringTailWrite (fn ring : Nat) (v : Word) (s : State) :
    exec (.ringTailWrite fn ring v) s = .next (ringTailWrite fn ring v s) := rfl

theorem exec_ringStatusWrite (fn ring : Nat) (v : Word) (s : State) :
    exec (.ringStatusWrite fn ring v) s = .next (ringStatusWrite fn ring v s) := rfl

theorem exec_ringCtrlWrite (fn ring : Nat) (v : Word) (s : State) :
    exec (.ringCtrlWrite fn ring v) s = .next (ringCtrlWrite fn ring v s) := rfl

theorem exec_msixUnmask (fn k : Nat) (s : State) : exec (.msixUnmask fn k) s = .next (msixUnmask fn k s) := rfl

theorem exec_busMasterChange (fn : Nat) (bme d3 : Bool) (s : State) :
    exec (.busMasterChange fn bme d3) s = .next (busMasterChange fn bme d3 s) := rfl

/-! ### Rings (R433, R434) -/

theorem State.updRing_ring_ne (s : State) {fn r i : Nat} (f : Ring → Ring) (h : i ≠ r) :
    (s.updRing fn r f).ring fn i = s.ring fn i := by
  simp [State.updRing, State.ring, h.symm]

/-- What a write of one ring's register leaves: its answer, every other ring and every other function. -/
theorem State.updRing_begin_spec (s : State) {fn r : Nat} (f : Ring → Ring) (h : r < (s.func fn).rings.length) :
    let t := s.begin.updRing fn r f
    t = { s with funcs := t.funcs, out := [] } ∧ t.ring fn r = f (s.ring fn r) ∧
      (∀ i, i ≠ r → t.ring fn i = s.ring fn i) ∧ ∀ i, i ≠ fn → t.func i = s.func i :=
  ⟨rfl, s.begin.updRing_ring_self fn r f h, fun _ hi => s.begin.updRing_ring_ne f hi,
    fun _ hi => s.begin.updRing_func_ne r f hi⟩

/-- The ring that RING_CTRL leaves (R433, R434, R444). -/
def Ring.controlled (r : Ring) (value : Word) : Ring :=
  if bitAt value 0 then
    if r.enable then r
    else if sizeOk r.size then
      { r with enable := true, head := 0, tail := 0, badConfig := false
               work := r.work.map fun (d : DmaWork) => { d with past := true } }
    else { r with badConfig := true }
  else { r.discardAll with enable := false }

section
variable (s : State) (fn ring : Nat) (v : Word)

theorem ringTailWrite_up (hup : s.hostUp = true) (hfn : fn ≤ 63) (hring : ring ≤ 3) :
    ringTailWrite fn ring v s =
      s.begin.updRing fn ring fun r => if v.toNat < r.size then { r with tail := v.toNat } else r := by
  simp [ringTailWrite, hup, hfn.not_gt, hring.not_gt]

theorem ringStatusWrite_up (hup : s.hostUp = true) (hfn : fn ≤ 63) (hring : ring ≤ 3) :
    ringStatusWrite fn ring v s = s.begin.updRing fn ring fun r => { r with lost := r.lost && !bitAt v 31 } := by
  simp [ringStatusWrite, hup, hfn.not_gt, hring.not_gt]

theorem ringCtrlWrite_up (hup : s.hostUp = true) (hfn : fn ≤ 63) (hring : ring ≤ 3) :
    ringCtrlWrite fn ring v s = s.begin.updRing fn ring fun r => r.controlled v := by
  simp only [ringCtrlWrite, State.begin_hostUp, hup, hfn.not_gt, hring.not_gt, decide_false, Bool.not_true, Bool.or_self,
    Bool.false_eq_true, if_false]
  rfl

end

/-! ### Vectors (R431) -/

theorem msixUnmask_up (s : State) (fn k : Nat) (hup : s.hostUp = true) (hfn : fn ≤ 63) (hk : k ≤ 4) :
    msixUnmask fn k s =
      { s.setFunc fn { s.func fn with
          msixMask := (s.func fn).msixMask.set k false, msixPending := (s.func fn).msixPending.set k false } with
        out := if (s.func fn).msixPending.getD k false then [.msix fn k] else [] } := by
  simp only [msixUnmask, State.begin_hostUp, hup, hfn.not_gt, hk.not_gt, decide_false, Bool.not_true, Bool.or_self,
    Bool.false_eq_true, if_false, State.begin_func]
  by_cases hp : (s.func fn).msixPending.getD k false = true
  · exact (if_pos hp).trans (by rw [if_pos hp]; rfl)
  · exact (if_neg hp).trans (by rw [if_neg hp]; rfl)

/-! ### Bus Master Enable (R109, R440) -/

/-- A plan fetch of a function that may no longer master the bus is aborted (R109). -/
def Load.unmastered (fn : Nat) (l : Load) : Load := if l.fn = fn then { l with aborted := true } else l

theorem loads_unmastered (m : FMap Load) (fn : Nat) :
    (m.map fun p => if p.2.fn == fn then (p.1, { p.2 with aborted := true }) else p) =
      m.map fun p => (p.1, p.2.unmastered fn) := by
  refine List.map_congr_left fun p _ => ?_
  unfold Load.unmastered
  split <;> simp_all

theorem busMasterChange_up (s : State) (fn : Nat) (bme d3 : Bool) (hup : s.hostUp = true) (hfn : fn ≤ 63) :
    busMasterChange fn bme d3 s = { s.begin.setFunc fn { s.func fn with bme := bme, d3hot := d3 } with
      loads := if bme && !d3 then s.loads else s.loads.map fun p => (p.1, p.2.unmastered fn) } := by
  simp only [busMasterChange, State.begin_hostUp, hup, hfn.not_gt, decide_false, Bool.not_true, Bool.or_self,
    Bool.false_eq_true, if_false, State.begin_func, loads_unmastered]
  split <;> rfl

/-! ### Out of reach (R13, R439) -/

/-- The host's register writes do nothing while it does not reach the interface. -/
theorem hostWrites_unreached (s : State) (fn n : Nat) (v : Word) (bme d3 : Bool) (h : s.hostUp = false ∨ 63 < fn) :
    ringTailWrite fn n v s = s.begin ∧ ringStatusWrite fn n v s = s.begin ∧ ringCtrlWrite fn n v s = s.begin ∧
      msixUnmask fn n s = s.begin ∧ busMasterChange fn bme d3 s = s.begin := by
  have hg : (!s.begin.hostUp || decide (63 < fn)) = true := by simpa using h
  refine ⟨?_, ?_, ?_, ?_, ?_⟩
  · simp only [ringTailWrite, hg, Bool.true_or, if_true]
  · simp only [ringStatusWrite, hg, Bool.true_or, if_true]
  · simp only [ringCtrlWrite, hg, Bool.true_or, if_true]
  · simp only [msixUnmask, hg, Bool.true_or, if_true]
  · simp only [busMasterChange, hg, if_true]

/-- Settles O50: the registers of a ring, the vectors and Bus Master Enable while the host reaches them, then out of reach. -/
theorem ringsAndVectorsAreControlled : Obligations.RingsAndVectorsAreControlled := by
  unfold Obligations.RingsAndVectorsAreControlled
  refine ⟨fun s fn hup hfn => ⟨?_, ?_, ?_⟩, ?_, fun s => ⟨rfl, rfl⟩⟩
  · intro ring v hring hlen
    have hin : ring < (s.func fn).rings.length := by omega
    refine ⟨⟨_, exec_ringTailWrite fn ring v s, ?_⟩, ⟨_, exec_ringStatusWrite fn ring v s, ?_⟩,
      ⟨_, exec_ringCtrlWrite fn ring v s, ?_⟩⟩
    · rw [ringTailWrite_up s fn ring v hup hfn hring]
      exact s.updRing_begin_spec _ hin
    · rw [ringStatusWrite_up s fn ring v hup hfn hring]
      exact s.updRing_begin_spec _ hin
    · rw [ringCtrlWrite_up s fn ring v hup hfn hring]
      obtain ⟨hframe, hself, hring', hfunc⟩ := s.updRing_begin_spec (fun r => r.controlled v) hin
      refine ⟨hframe, hring', hfunc, ?_, ?_, ?_, ?_⟩ <;> rw [hself]
      · intro hv he hs
        simp [Ring.controlled, hv, he, hs]
      · intro hv he hs
        simp [Ring.controlled, hv, he, hs]
      · intro hv he
        simp [Ring.controlled, hv, he]
      · intro hv
        simp [Ring.controlled, Ring.discardAll, hv]
  · intro k hk hmask hpend
    have hk5 : k < 5 := by omega
    rw [exec_msixUnmask, msixUnmask_up s fn k hup hfn hk]
    refine ⟨_, rfl, rfl, ?_, ?_, ?_, ?_, rfl⟩
    · change ((s.setFunc fn _).func fn).msixMask.getD k true = false
      simp [hmask, hk5]
    · change ((s.setFunc fn _).func fn).msixPending.getD k true = false
      simp [hpend, hk5]
    · change ((s.setFunc fn _).func fn).rings = _
      simp
    · exact fun i hi => s.setFunc_func_ne _ hi
  · intro bme d3
    rw [exec_busMasterChange, busMasterChange_up s fn bme d3 hup hfn]
    refine ⟨_, rfl, rfl, s.begin.setFunc_func_self fn _, fun i hi => s.begin.setFunc_func_ne _ hi, ?_, ?_⟩
    · intro hb hd
      simp [hb, hd]
    · intro h id l hl
      have hoff : (bme && !d3) = false := by rcases h with h | h <;> simp [h]
      simp only [hoff, Bool.false_eq_true, if_false]
      rw [FMap.find?_mapVal s.loads (Load.unmastered fn), hl]
      rfl
  · intro s fn hout c n v bme d3 hc
    obtain ⟨htail, hstatus, hctrl, hmsix, hbus⟩ := hostWrites_unreached s fn n v bme d3 hout
    rcases hc with rfl | rfl | rfl | rfl | rfl
    · rw [exec_ringTailWrite, htail]; rfl
    · rw [exec_ringStatusWrite, hstatus]; rfl
    · rw [exec_ringCtrlWrite, hctrl]; rfl
    · rw [exec_msixUnmask, hmsix]; rfl
    · rw [exec_busMasterChange, hbus]; rfl

end Sys2Proof.Machine
end

section
/-! PROOF. A completed task that still waits on the flow of a ready one, against what the statement on ticks says of deadlines
(R256, R262). -/

namespace Sys2Proof.Machine

theorem exec_instanceDeadline (s : State) : exec .instanceDeadline s = .next (instanceDeadline s) := rfl

/-- Task `index` of a graph, of local flow 0. -/
def flowTask (index : Nat) : TaskRec :=
  { index := index, op := 0, prio := 0, dep := 0, flowValid := true, sessionFlow := false, flow := 0, session := 0xFFFF
    ref := 0, budget := 1, outBlocks := 0, fbWrite := 0, param := 0, succ := [] }

/-- A graph instance of two tasks. -/
def flowRun : GraphRun := { conf := 0, bank := 0, loadNo := 0, graph := 0, tasks := [0, 1] }

/-- Instance 0 at its deadline: its task 1 is ready, and its task 0, which has completed, stands among those that wait on the
flow of both. The trace is off. -/
def staleWaiter : State :=
  { sched := { dueQ := [(2, .deadline 0)], runs := [(0, flowRun)], waits := [(0, [0])], lantern := { ctrl := 0 }
               lives := [(0, { run := 0, task := flowTask 0, st := .completed }), (1, { run := 0, task := flowTask 1, st := .ready })] } }

/-- The instance and its tasks meet the premises of the statement's clause on deadlines. -/
theorem staleWaiter_deadline : staleWaiter.sched.dueQ = [(2, .deadline 0)] ∧ staleWaiter.run? 0 = some flowRun ∧
    ∀ u ∈ flowRun.tasks, ∃ l, staleWaiter.live? u = some l ∧ l.st ≠ .dispatched := by
  refine ⟨rfl, rfl, fun u hu => ?_⟩
  rcases List.mem_pair.mp hu with rfl | rfl
  · exact ⟨_, rfl, by decide⟩
  · exact ⟨_, rfl, by decide⟩

/-- The flow that task 1 leaves puts task 0 back on its ready list, and the instance stays. -/
theorem staleWaiter_stays : ((instanceDeadline staleWaiter).live? 0).map Live.st = some .ready ∧
    (instanceDeadline staleWaiter).run? 0 = some flowRun := by
  decide

/-- Refutes O38: a deadline passes over a task that has completed (`State.failUndispatched`), and where such a task still stands
among those that wait on a flow that the deadline frees, it becomes ready again (`State.passFlow`), so that its graph does not end.
The statement asks of the tasks only that none is dispatched, which leaves that state open, and says that the graph ends. -/
theorem not_ticksTakeWhatIsDue : ¬ Obligations.TicksTakeWhatIsDue := by
  unfold Obligations.TicksTakeWhatIsDue
  rintro ⟨-, -, hdeadline⟩
  obtain ⟨hdue, hrun, htasks⟩ := staleWaiter_deadline
  obtain ⟨t, hexec, -, hended, -⟩ := hdeadline staleWaiter 0 2 [] flowRun hdue hrun htasks
  rw [exec_instanceDeadline] at hexec
  obtain rfl : instanceDeadline staleWaiter = t := by injection hexec
  rw [staleWaiter_stays.2] at hended
  exact nomatch hended

end Sys2Proof.Machine
end

section
/-! PROOF. An encrypted copy of no egress class, against what the statement on copies says of free levels (R231, R235). -/

namespace Sys2Proof.Machine

theorem exec_egressCharge (p : Nat) (s : State) : exec (.egressCharge p) s = .next (egressCharge p s) := rfl

/-- A copy of class 8, one past the last class of R231, to a leg that has closed. -/
def classlessCopy : Copy := { leg := 0, conf := 0, bank := 0, body := .raw 64, cls := 8 }

/-- Its job at a cipher core, with its result. -/
def classlessJob : CoreJob := { job := .tx classlessCopy, takeNo := 0, keyReg := none, profile := 0, index := 0, readyAt := 0 }

/-- A device in SERVICE with port 0 UP, no level that limits and that one job. Its launch clock stands at 1, a unit of 2^-16 ns
past a whole nanosecond. -/
def classlessState : State :=
  { modes := { mode := .service }, ports := [(0, { st := 4 })], cores := [(0, { jobs := [classlessJob] })]
    time := { bases := [{ value := 2 ^ 24 }] } }

/-- The premises of the statement's clause on a copy that no level limits. -/
theorem classlessState_free : classlessState.moves = true ∧ classlessState.oldestTx 0 = some (0, classlessJob, classlessCopy) ∧
    (classlessState.portUp classlessCopy.port = true ∧ classlessCopy.tReq = none) ∧
    classlessState.isOpen classlessCopy.leg classlessCopy.ctx.serial = false ∧
    16384 + ceilDiv (classlessCopy.frame.length + tagLen classlessJob.profile classlessCopy.body + 32) 256 ≤
      classlessState.grottoFree ∧
    ∀ k ∈ chargeLevels classlessCopy false, (classlessState.bucket k.1 k.2).rate = 0 := by
  decide

/-- The class has no horizon, its launch would lie within the next nanosecond, and the copy is dropped. -/
theorem classlessState_dropped : (egressCharge 0 classlessState).store = [] := by
  decide

/-- Refutes O36: a copy that no level limits is launched at the next whole nanosecond, and `State.charge` drops a copy of a class
but 0 whose launch lies past the horizon of its class. `classHorizon` is 0 from class 8 on, which the statement's clause on free
levels does not exclude (its next clause does); it says that the copy is stored. -/
theorem not_copiesAreMadeAndCharged : ¬ Obligations.CopiesAreMadeAndCharged := by
  unfold Obligations.CopiesAreMadeAndCharged
  rintro ⟨-, -, hcharge⟩
  obtain ⟨hmoves, hjob, hport, hclosed, hroom, hrates⟩ := classlessState_free
  obtain ⟨t, hexec, -, -, -, hstored, -⟩ := hcharge classlessState 0 0 classlessJob classlessCopy hmoves hjob
  obtain ⟨-, x, ⟨-, hx, -⟩, -⟩ := hstored ⟨hport, .inl hclosed, hroom⟩ hrates
  rw [exec_egressCharge] at hexec
  obtain rfl : egressCharge 0 classlessState = t := by injection hexec
  rw [classlessState_dropped] at hx
  exact nomatch hx

end Sys2Proof.Machine
end

section
/-! PROOF. Plan banks and loads: what a change of one bank leaves, PLAN_LOAD, the end of its fetch and PLAN_COMMIT (R98, R108, R109,
R111, R446). -/

namespace Sys2Proof.Machine

theorem exec_planLoad (id : Nat) (s : State) : exec (.planLoad id) s = .next (s.command id 0x020 (planLoadBody id)) := rfl

theorem exec_planLoadFetchDone (id : Nat) (f : Fetch) (s : State) :
    exec (.planLoadFetchDone id f) s = .next (planLoadFetchDone id f s) := rfl

theorem exec_planCommit (id : Nat) (s : State) : exec (.planCommit id) s = .next (s.command id 0x021 (planCommitBody id)) := rfl

/-! ### Banks (R96) -/

theorem Conf.setBank_bank_self {g : Conf} {b : Nat} (f : Bank → Bank) (h : b < g.banks.length) :
    (g.setBank b f).bank b = f (g.bank b) := by
  simp [Conf.setBank, Conf.bank, h]

theorem Conf.setBank_bank_ne (g : Conf) {b i : Nat} (f : Bank → Bank) (h : i ≠ b) : (g.setBank b f).bank i = g.bank i := by
  simp [Conf.setBank, Conf.bank, h.symm]

theorem Conf.standbyNo_lt (g : Conf) : g.standbyNo < 2 := by
  unfold Conf.standbyNo
  split <;> omega

/-- What a change of bank `b` of conference `c` leaves: its other bank and every other conference. -/
theorem State.updConf_setBank (s : State) {c b : Nat} (f : Bank → Bank) (hb : b < (s.conf c).banks.length) :
    let t := s.updConf c fun g => g.setBank b f
    (t.conf c).bank b = f ((s.conf c).bank b) ∧ (∀ i, i ≠ b → (t.conf c).bank i = (s.conf c).bank i) ∧
      ∀ i, i ≠ c → t.conf i = s.conf i := by
  refine ⟨?_, fun i hi => ?_, fun i hi => s.updConf_conf_ne _ hi⟩
  · rw [State.updConf_conf_self, Conf.setBank_bank_self f hb]
  · rw [State.updConf_conf_self, Conf.setBank_bank_ne _ f hi]

/-! ### PLAN_LOAD (R107, R440) -/

/-- A PLAN_LOAD that passes every check commits and starts its fetch. -/
theorem planLoad_run {s : State} {id conf len : Nat} {c : Taken} (hw : s.waits id 0x020 c) (hconf : s.hasConf c.fn conf = true)
    (hlen : c.lenIs 7 = true) (hmode : s.effMode.working = true) (h3 : (c.w 3).toNat = conf) (hc : conf < 65536)
    (h6 : (c.w 6).toNat = len) (haddr : num64 (c.w 4) (c.w 5) % 64 = 0) (hmin : 4096 ≤ len) (hmax : len ≤ 268435456)
    (hal : len % 64 = 0) (hbusy : s.loadBusy conf = false) (hroom : s.staged + len ≤ 1073741824) :
    s.command id 0x020 (planLoadBody id) = ((s.begin.markCommitted id).commitEntry c rOk 1 conf 0).startLoad id c.fn conf
      (num64 (c.w 4) (c.w 5)) len := by
  have hfld : fld (c.w 3) 15 0 = conf := (fld_of_lt (by omega)).trans h3
  have hz : zeroFrom (c.w 3) 16 = true := zeroFrom_of_lt (by omega)
  have hserves : s.begin.serves 0x020 = true := hmode
  have hconf' : s.begin.hasConf c.fn conf = true := hconf
  have hbusy' : s.begin.loadBusy conf = false := hbusy
  have hroom' : ¬ 1073741824 < s.begin.staged + len := Nat.not_lt.mpr hroom
  have hin : outside 4096 268435456 len = false := by simp [outside, hmin, hmax]
  rw [State.command_waits s id 0x020 c _ hw, planLoadBody]
  simp only [hfld, h6]
  rw [State.checked_ok]
  simp [firstFail, hlen, hz, hserves, hconf', hbusy', hroom', haddr, hal, hin]

/-- The start of a load (R107, R440): what it waits with, and its bank LOADING. -/
theorem State.startLoad_eq (s : State) (id fn conf addr len : Nat) : ∃ x, s.startLoad id fn conf addr len =
    { s.updConf conf fun g => g.setBank (s.conf conf).standbyNo fun b => { b with st := .loading, prev := b.st } with
      loads := s.loads.put id { conf := conf, bank := (s.conf conf).standbyNo, fn := fn, addr := addr, length := len
                                aborted := (s.func fn).held }
      sched := x } := ⟨_, rfl⟩

/-! ### The end of a fetch (R108, R109, R446) -/

theorem State.endFetch_only (s : State) (fn : Nat) : ∃ x, s.endFetch fn = { s with sched := x } := by
  unfold State.endFetch
  split
  · exact ⟨s.sched, rfl⟩
  · exact ⟨_, rfl⟩

/-- The verdict on an image rests on nothing that the end of the fetch changes. -/
theorem State.validate_fetched (s : State) (id : Nat) (x : Sched) (l : Load) (ws : List Word) :
    ({ s.begin with loads := s.begin.loads.del id, sched := x } : State).validate l ws = s.validate l ws := rfl

/-- An installed image stands in its bank, which is in STANDBY, under the next load number. -/
theorem State.install_eq (s : State) (l : Load) (p : Plan) : ∃ gs, s.install l p =
    { s.updConf l.conf fun g => g.setBank l.bank fun b => { b with
        st := .standby, plan := some { p with loadNo := s.loadSeq + 1 }, sess := [], buses := [], outs := [] } with
      loadSeq := s.loadSeq + 1, legs := gs } := ⟨_, rfl⟩

/-- The end of a PLAN_LOAD (R94, R108): the fetch is over, its bank changes by `f`, and the command answers with a PHASE 1 entry. -/
structure State.loadEnds (s t : State) (id : Nat) (c : Taken) (l : Load) (f : Bank → Bank) (result : Nat) (payload : List Word) :
    Prop where
  frame : t = { s with
    out := t.out, mbx := t.mbx, funcs := t.funcs, welmus := t.welmus, audit := t.audit, loads := t.loads
    loadSeq := t.loadSeq, confs := t.confs, legs := t.legs, sched := t.sched }
  bank : (t.conf l.conf).bank l.bank = f ((s.conf l.conf).bank l.bank)
  loads : t.loads.find? id = none
  taken : t.welmus.taken = s.welmus.taken.del id
  entry : t.audit.next = s.audit.next + 1
  evq : (t.mb c.fn).evq = (s.mb c.fn).evq ++ reply c result s.audit.next payload

/-- A PLAN_LOAD ends from a state `u` in which its fetch is over and its bank has changed. -/
theorem State.loadEnds_of_endLoad {s u : State} {id : Nat} {c : Taken} {l : Load} (f : Bank → Bank) (result : Nat)
    (payload : List Word) {x : Sched} {n : Nat} {gs : FMap Leg} (hf : s.welmus.taken.find? id = some c) (ho : c.orphan = false)
    (hb : l.bank < (s.conf l.conf).banks.length)
    (hu : u = { s.updConf l.conf fun g => g.setBank l.bank f with
      out := [], loads := s.loads.del id, sched := x, loadSeq := n, legs := gs }) :
    s.loadEnds (u.endLoad id l.conf result payload) id c l f result payload ∧
      (u.endLoad id l.conf result payload).legs = gs := by
  have hf' : u.welmus.taken.find? id = some c := by rw [hu]; exact hf
  obtain ⟨a, ha, hans⟩ := State.finish_answered hf' ho result 1 l.conf payload
  obtain ⟨b, g, o, he⟩ := State.answered_frame hans
  have hq := State.answered_evq hans
  have hend : u.endLoad id l.conf result payload = u.finish id c result 1 l.conf payload := by
    unfold State.endLoad
    rw [hf']
  obtain ⟨hself, -, -⟩ := s.updConf_setBank f hb
  rw [hend]
  rw [he] at hq ⊢
  subst hu
  exact ⟨⟨rfl, hself, FMap.find?_del_self _ _, rfl, ha, hq⟩, rfl⟩

section
variable {s : State} {id : Nat} {c : Taken} {l : Load} (hr : s.runs id 0x020 c) (hl : s.loads.find? id = some l)
  (hb : l.bank < (s.conf l.conf).banks.length)
include hr hl hb

/-- An image that passes every check is installed. -/
theorem planLoadFetchDone_ok {ws : List Word} {p : Plan} (ha : l.aborted = false) (hv : s.validate l ws = .ok p) :
    s.loadEnds (planLoadFetchDone id (.image ws) s) id c l (fun b => { b with
      st := .standby, plan := some { p with loadNo := s.loadSeq + 1 }, sess := [], buses := [], outs := [] }) rOk
      [w32 p.epoch] := by
  obtain ⟨hf, -, -, ho⟩ := hr
  obtain ⟨x, hx⟩ := ({ s.begin with loads := s.begin.loads.del id } : State).endFetch_only l.fn
  have hl' : s.begin.loads.find? id = some l := hl
  simp only [planLoadFetchDone, hl', hx, ha]
  rw [State.validate_fetched, hv]
  obtain ⟨gs, hi⟩ := State.install_eq ({ s.begin with loads := s.begin.loads.del id, sched := x } : State) l p
  exact (State.loadEnds_of_endLoad _ _ _ hf ho hb hi).1

/-- A verdict but OK as its result and payload (R108). -/
def PlanEnd.refusal : PlanEnd → Option (Nat × List Word)
  | .ok _ => none
  | .badArg sec off => some (rBadArg, [w32 sec, w32 off])
  | .integrity => some (rIntegrity, [])
  | .noResource => some (rNoResource, [])

/-- An image that fails a check leaves its bank as it was. -/
theorem planLoadFetchDone_refused {ws : List Word} {result : Nat} {payload : List Word} (ha : l.aborted = false)
    (hv : (s.validate l ws).refusal = some (result, payload)) :
    s.loadEnds (planLoadFetchDone id (.image ws) s) id c l (fun b => { b with st := b.prev }) result payload ∧
      (planLoadFetchDone id (.image ws) s).legs = s.legs := by
  obtain ⟨hf, -, -, ho⟩ := hr
  obtain ⟨x, hx⟩ := ({ s.begin with loads := s.begin.loads.del id } : State).endFetch_only l.fn
  have hl' : s.begin.loads.find? id = some l := hl
  have hend := State.loadEnds_of_endLoad (fun b : Bank => { b with st := b.prev }) result payload (x := x) (n := s.loadSeq)
    (gs := s.legs) hf ho hb rfl
  simp only [planLoadFetchDone, hl', hx, ha]
  rw [State.validate_fetched]
  cases hverdict : s.validate l ws with
  | ok p => rw [hverdict] at hv; exact nomatch hv
  | badArg sec off => rw [hverdict] at hv; cases hv; exact hend
  | integrity => rw [hverdict] at hv; cases hv; exact hend
  | noResource => rw [hverdict] at hv; cases hv; exact hend

/-- A fetch that failed empties its bank. -/
theorem planLoadFetchDone_failed {f : Fetch} (h : l.aborted = true ∨ f = .failed) :
    s.loadEnds (planLoadFetchDone id f s) id c l (fun b => { b with st := .empty, plan := none }) rFailed [] ∧
      (planLoadFetchDone id f s).legs = s.legs := by
  obtain ⟨hf, -, -, ho⟩ := hr
  obtain ⟨x, hx⟩ := ({ s.begin with loads := s.begin.loads.del id } : State).endFetch_only l.fn
  have hl' : s.begin.loads.find? id = some l := hl
  have hend := State.loadEnds_of_endLoad (fun b : Bank => { b with st := .empty, plan := none }) rFailed [] (x := x)
    (n := s.loadSeq) (gs := s.legs) hf ho hb rfl
  simp only [planLoadFetchDone, hl', hx]
  cases f with
  | failed => exact hend
  | image ws =>
    have ha : l.aborted = true := h.resolve_right Fetch.noConfusion
    rw [ha]
    exact hend

end

/-! ### PLAN_COMMIT (R98, R111) -/

/-- A conference whose standby bank waits for the switch from `now` on. -/
def Conf.committed (g : Conf) (now tick : Nat) : Conf :=
  { g.setBank g.standbyNo fun b => { b with st := .pending, commitAt := now } with lastTick := some (g.lastTick.getD tick) }

theorem Conf.committed_bank {g : Conf} (h : g.standbyNo < g.banks.length) (now tick : Nat) :
    (g.committed now tick).bank g.standbyNo = { g.bank g.standbyNo with st := .pending, commitAt := now } ∧
      ∀ b, b ≠ g.standbyNo → (g.committed now tick).bank b = g.bank b :=
  ⟨Conf.setBank_bank_self (fun b => { b with st := .pending, commitAt := now }) h, fun _ hb => g.setBank_bank_ne _ hb⟩

/-- A PLAN_COMMIT of a STANDBY bank that passes every check commits. -/
theorem planCommit_run {s : State} {id conf : Nat} {c : Taken} {p : Plan} (hw : s.waits id 0x021 c)
    (hconf : s.hasConf c.fn conf = true) (hlen : c.lenIs 5 = true) (hmode : s.effMode.working = true)
    (h3 : (c.w 3).toNat = conf) (hc : conf < 65536) (h4 : zeroFrom (c.w 4) 17 = true)
    (hepoch : bitAt (c.w 4) 16 = true → (s.conf conf).active.map Plan.epoch = some (fld (c.w 4) 15 0))
    (hst : ((s.conf conf).bank (s.conf conf).standbyNo).st = .standby)
    (hp : ((s.conf conf).bank (s.conf conf).standbyNo).plan = some p) :
    s.command id 0x021 (planCommitBody id) =
      (s.begin.updConf conf fun g => g.committed s.now s.tb0Ns).commitOk id c 1 conf [w32 p.epoch] := by
  have hfld : fld (c.w 3) 15 0 = conf := (fld_of_lt (by omega)).trans h3
  have hz : zeroFrom (c.w 3) 16 = true := zeroFrom_of_lt (by omega)
  have hserves : s.begin.serves 0x021 = true := hmode
  have hconf' : s.begin.hasConf c.fn conf = true := hconf
  have hbusy : (bitAt (c.w 4) 16 && (s.conf conf).active.map Plan.epoch != some (fld (c.w 4) 15 0)) = false := by
    cases hbit : bitAt (c.w 4) 16
    · rfl
    · simp [hepoch hbit]
  rw [State.command_waits s id 0x021 c _ hw, planCommitBody]
  simp only [hfld, show s.begin.conf conf = s.conf conf from rfl, hst, hp]
  rw [State.checked_ok]
  · rfl
  · simp [firstFail, hlen, hz, h4, hserves, hconf', hbusy]

end Sys2Proof.Machine
end

section
/-! PROOF. What the end of graph instances changes, the retirement of a bank, and the statement on plans (R112, R256, R273). -/

namespace Sys2Proof.Machine

theorem exec_planBankRetired (conf : Nat) (s : State) : exec (.planBankRetired conf) s = .next (planBankRetired conf s) := rfl

theorem exec_planRetireTimeout (conf : Nat) (s : State) : exec (.planRetireTimeout conf) s = .next (planRetireTimeout conf s) := rfl

/-! ### The end of instances (R117, R256) -/

/-- `t` is `s` but for what tasks that end may change: the scheduler with the buses' counts, the sessions, and where a check
fails the fence of a conference with its entry and record. Every conference keeps its banks. -/
def State.tasksEnd (s t : State) : Prop :=
  (∃ a f cs x ss b, t = { s with audit := a, faults := f, confs := cs, sched := x, sess := ss, buses := b }) ∧
    ∀ c, (t.conf c).banks = (s.conf c).banks

theorem State.tasksEnd.refl (s : State) : s.tasksEnd s :=
  ⟨⟨s.audit, s.faults, s.confs, s.sched, s.sess, s.buses, rfl⟩, fun _ => rfl⟩

theorem State.tasksEnd.trans {s t u : State} (h : s.tasksEnd t) (k : t.tasksEnd u) : s.tasksEnd u := by
  obtain ⟨⟨_, _, _, _, _, _, rfl⟩, hb⟩ := h
  obtain ⟨⟨_, _, _, _, _, _, rfl⟩, kb⟩ := k
  exact ⟨⟨_, _, _, _, _, _, rfl⟩, fun c => (kb c).trans (hb c)⟩

theorem State.tasksEnd.foldl {α : Type} {f : State → α → State} (hf : ∀ (s : State) a, s.tasksEnd (f s a)) (l : List α) (s : State) :
    s.tasksEnd (l.foldl f s) := by
  induction l generalizing s with
  | nil => exact .refl s
  | cons a l ih => exact (hf s a).trans (ih _)

theorem State.tasksEnd.of_onlySched {s t : State} (h : s.onlySched t) : s.tasksEnd t := by
  obtain ⟨x, b, rfl⟩ := h
  exact ⟨⟨_, _, _, _, _, _, rfl⟩, fun _ => rfl⟩

theorem State.updSess_tasksEnd (s : State) (i : Nat) (f : Sess → Sess) : s.tasksEnd (s.updSess i f) :=
  ⟨⟨_, _, _, _, _, _, rfl⟩, fun _ => rfl⟩

theorem State.fenceConf_tasksEnd (s : State) (c row off : Nat) : s.tasksEnd (s.fenceConf c row off) := by
  obtain ⟨f, a, ⟨he, -⟩ | he⟩ := s.fenceConf_touches c row off
  · rw [he]
    exact ⟨⟨_, _, _, _, _, _, rfl⟩, fun _ => rfl⟩
  · refine ⟨⟨a, f, s.confs.put c { s.conf c with fenced := some s.loadSeq }, s.sched, s.sess, s.buses, he⟩, fun i => ?_⟩
    rw [he]
    change ((s.confs.put c { s.conf c with fenced := some s.loadSeq }).getD {} i).banks = _
    by_cases hi : i = c
    · rw [hi, FMap.getD_put_self]
    · rw [FMap.getD_put_ne _ _ _ _ _ hi]
      rfl

/-- The end of a band changes its session at most. -/
theorem State.encBandEnd_touches (s : State) (run : Nat) (t : TaskRec) (status : Nat) :
    ∃ ss, s.encBandEnd run t status = { s with sess := ss } := by
  unfold State.encBandEnd
  simp only
  repeat' split
  all_goals exact ⟨_, rfl⟩

theorem State.encBandEnd_tasksEnd (s : State) (run : Nat) (t : TaskRec) (status : Nat) :
    s.tasksEnd (s.encBandEnd run t status) := by
  obtain ⟨ss, h⟩ := s.encBandEnd_touches run t status
  rw [h]
  exact ⟨⟨_, _, _, _, _, _, rfl⟩, fun _ => rfl⟩

theorem State.tasksEnd.ite {p : Prop} [Decidable p] {s t u : State} (ht : s.tasksEnd t) (hu : s.tasksEnd u) :
    s.tasksEnd (if p then t else u) := by
  split
  · exact ht
  · exact hu

theorem State.walkDead_tasksEnd (s : State) (l : Live) : s.tasksEnd (s.walkDead l) :=
  .foldl (fun s _ => .ite (.refl s) (.trans (.of_onlySched (s.countSched_only 15 1)) (State.fenceConf_tasksEnd _ _ _ _))) _ s

theorem State.failUndispatched_tasksEnd (deadline : Bool) (s : State) (t : Nat) :
    s.tasksEnd (State.failUndispatched deadline s t) := by
  unfold State.failUndispatched
  split
  · exact .refl s
  next l hl =>
    refine .ite (.refl s) (.trans (.of_onlySched (s.updSched_only fun x => x.unready t)) ?_)
    generalize s.updSched (fun x => x.unready t) = s1
    simp only
    generalize hs2 : (ite (deadline = true) _ _ : State) = s2
    have h2 : s1.tasksEnd s2 := by
      rw [← hs2]
      exact .ite (.of_onlySched (State.onlySched_trans (s1.countSched_only 8 1) (State.traceTask_only _ _ _ _))) (.refl s1)
    have h3 : s2.tasksEnd ((s2.noteComplete t 2 0).walkDead l) :=
      .trans (.of_onlySched (s2.noteComplete_only t 2 0)) (State.walkDead_tasksEnd _ l)
    refine h2.trans (h3.trans ?_)
    generalize (s2.noteComplete t 2 0).walkDead l = s3
    generalize hs4 : (ite (l.task.op = 9) _ _ : State) = s4
    have h4 : s3.tasksEnd s4 := by
      rw [← hs4]
      exact .ite (s3.encBandEnd_tasksEnd _ _ _) (.refl s3)
    refine h4.trans (.ite ?_ (.refl s4))
    split
    · exact .of_onlySched (s4.passFlow_only _)
    · exact .refl s4

theorem State.endRun_tasksEnd (s : State) (r : Nat) (deadline : Bool) : s.tasksEnd (s.endRun r deadline) := by
  unfold State.endRun
  split
  · exact .refl s
  · exact .foldl (fun s t => s.failUndispatched_tasksEnd deadline t) _ s

theorem State.finishRun_tasksEnd (s : State) (r : Nat) : s.tasksEnd (s.finishRun r) := by
  have hau : ∀ g, s.tasksEnd (s.freeAu g) := by
    intro g
    unfold State.freeAu State.dropAu
    split
    · split
      · exact .refl s
      · exact s.updSess_tasksEnd _ _
    · exact .refl s
  unfold State.finishRun
  split
  · exact .refl s
  next g _ =>
    exact .ite ((hau g).trans (.of_onlySched (State.onlySched_trans (State.dropDue_only _ _) (State.updSched_only _ _)))) (.refl s)

theorem State.revokeRun_tasksEnd (s : State) (r : Nat) : s.tasksEnd (s.revokeRun r) := by
  refine (s.endRun_tasksEnd r false).trans ?_
  unfold State.revokeRun
  generalize s.endRun r false = s1
  simp only
  split
  · exact .refl s1
  · refine .trans (.foldl (fun u t => ?_) _ s1) (State.finishRun_tasksEnd _ r)
    split
    · exact .refl u
    · exact .ite (.refl u) (.ite (.of_onlySched (u.requestAbort_only t true)) (.of_onlySched (u.updLive_only t _)))

/-! ### The retirement of a bank (R112, R273) -/

section
variable {s : State} {conf b : Nat} (hb : (s.conf conf).retiringNo = some b)
include hb

theorem Conf.bank_retiring : ((s.conf conf).bank b).st = .retiring := by
  obtain ⟨hlt, hst, -⟩ := List.findIdx?_eq_some_iff_getElem.mp hb
  simpa [Conf.bank, hlt] using hst

theorem Conf.retiringNo_lt (hlen : (s.conf conf).banks.length = 2) : b < 2 := by
  obtain ⟨hlt, -, -⟩ := List.findIdx?_eq_some_iff_getElem.mp hb
  omega

end

/-- A bank that returns to STANDBY keeps its image; its device objects go (R112). -/
theorem State.retire_eq (s : State) (c b : Nat) : ∃ ss bs os, s.retire c b =
    { s.updConf c fun g => g.setBank b fun x => { x with st := .standby, sess := [], buses := [], outs := [] } with
      sess := ss, buses := bs, outs := os } := ⟨_, _, _, rfl⟩

theorem planBankRetired_retires {s : State} {conf b : Nat} (hb : (s.conf conf).retiringNo = some b)
    (hruns : s.bankRuns conf b = []) (hpackets : s.latchedPackets conf b = false) :
    planBankRetired conf s = s.begin.retire conf b := by
  have hb' : (s.begin.conf conf).retiringNo = some b := hb
  have hruns' : s.begin.bankRuns conf b = [] := hruns
  have hpackets' : s.begin.latchedPackets conf b = false := hpackets
  simp only [planBankRetired, hb', hruns', hpackets', List.isEmpty_nil, Bool.not_true, Bool.false_and, Bool.or_self,
    Bool.false_eq_true, if_false]

theorem planBankRetired_waits {s : State} {conf b : Nat} (hb : (s.conf conf).retiringNo = some b)
    (hpackets : s.latchedPackets conf b = true)
    (hearly : ∀ u, ((s.conf conf).bank b).leftActive = some u → s.now < u + 1000000000) :
    planBankRetired conf s = s.begin := by
  have hb' : (s.begin.conf conf).retiringNo = some b := hb
  have hpackets' : s.begin.latchedPackets conf b = true := hpackets
  have hlate : (((s.begin.conf conf).bank b).leftActive.any fun t => decide (t + 1000000000 ≤ s.begin.now)) = false := by
    rw [Option.any_eq_false]
    exact fun u hu => decide_eq_false (Nat.not_le.mpr (hearly u hu))
  simp only [planBankRetired, hb', hpackets', hlate, Bool.not_false, Bool.and_self, Bool.or_true, if_true]

/-- The bank after its second: every instance under it is revoked, and it returns where none is left. -/
theorem planRetireTimeout_late {s : State} {conf b u : Nat} (hb : (s.conf conf).retiringNo = some b)
    (hu : ((s.conf conf).bank b).leftActive = some u) (hlate : u + 1000000000 ≤ s.now) :
    ∃ v, s.begin.tasksEnd v ∧
      planRetireTimeout conf s = if (v.bankRuns conf b).isEmpty then v.retire conf b else v := by
  have hb' : (s.begin.conf conf).retiringNo = some b := hb
  have hu' : ((s.begin.conf conf).bank b).leftActive = some u := hu
  have hlate' : (((s.begin.conf conf).bank b).leftActive.any fun t => decide (t + 1000000000 ≤ s.begin.now)) = true := by
    rw [hu', Option.any_some, State.begin_now]
    exact decide_eq_true hlate
  refine ⟨(s.begin.bankRuns conf b).foldl State.revokeRun s.begin, .foldl State.revokeRun_tasksEnd _ _, ?_⟩
  simp only [planRetireTimeout, hb', hlate', if_true]

/-- A bank that the timeout leaves is in STANDBY, or still RETIRING with instances. -/
theorem planRetireTimeout_bank {s : State} {conf b u : Nat} (hb : (s.conf conf).retiringNo = some b)
    (hlen : (s.conf conf).banks.length = 2) (hu : ((s.conf conf).bank b).leftActive = some u) (hlate : u + 1000000000 ≤ s.now) :
    let t := planRetireTimeout conf s
    t = { s with
      out := t.out, audit := t.audit, faults := t.faults, confs := t.confs, sched := t.sched, sess := t.sess
      buses := t.buses, outs := t.outs } ∧
      ((t.conf conf).bank b).st = if t.bankRuns conf b = [] then .standby else .retiring := by
  obtain ⟨v, ⟨⟨a, f, cs, x, ss, bs, hv⟩, hbanks⟩, ht⟩ := planRetireTimeout_late hb hu hlate
  have hkept : (v.conf conf).banks = (s.conf conf).banks := hbanks conf
  have hlt : b < (v.conf conf).banks.length := by rw [hkept, hlen]; exact Conf.retiringNo_lt hb hlen
  have hst : ((v.conf conf).bank b).st = .retiring := by rw [Conf.bank, hkept]; exact Conf.bank_retiring hb
  by_cases hruns : v.bankRuns conf b = []
  · rw [hruns, List.isEmpty_nil, if_pos rfl] at ht
    obtain ⟨ss', bs', os, hr⟩ := v.retire_eq conf b
    obtain ⟨hself, -, -⟩ := v.updConf_setBank (fun x => { x with st := .standby, sess := [], buses := [], outs := [] }) hlt
    have hleft : (v.retire conf b).bankRuns conf b = [] := hruns
    rw [ht]
    refine ⟨?_, ?_⟩
    · rw [hr, hv]
      rfl
    · rw [if_pos hleft, hr]
      exact congrArg Bank.st hself
  · rw [if_neg (by simpa using hruns)] at ht
    rw [ht]
    exact ⟨by rw [hv]; rfl, by rw [if_neg hruns]; exact hst⟩

/-! ### The statement -/

/-- Settles O20: the load and its verdicts, the commit, and the bank that retires. -/
theorem plansAreLoadedAndRetired : Obligations.PlansAreLoadedAndRetired := by
  unfold Obligations.PlansAreLoadedAndRetired
  refine ⟨⟨?_, ?_, ?_⟩, ?_⟩
  · intro s id conf len c hw hconf hlen hmode h3 hc h6 haddr hmin hmax hal hbusy hroom hbanks
    rw [exec_planLoad, planLoad_run hw hconf hlen hmode h3 hc h6 haddr hmin hmax hal hbusy hroom]
    obtain ⟨hf, -⟩ := State.waits_taken hw
    obtain ⟨x, hx⟩ := State.startLoad_eq ((s.begin.markCommitted id).commitEntry c rOk 1 conf 0) id c.fn conf
      (num64 (c.w 4) (c.w 5)) len
    have hin : (s.conf conf).standbyNo < (s.conf conf).banks.length := hbanks ▸ (s.conf conf).standbyNo_lt
    obtain ⟨hself, hother, hconfs⟩ := s.updConf_setBank (fun b => { b with st := .loading, prev := b.st }) hin
    rw [hx]
    refine ⟨_, rfl, rfl, rfl, rfl, ?_, FMap.find?_put_self _ _ _, congrArg Bank.st hself, hother, hconfs⟩
    change (s.welmus.taken.upd id _).find? id = _
    rw [FMap.find?_upd_self, hf]
    rfl
  · intro s id c l hr hl hbanks hb
    have hin : l.bank < (s.conf l.conf).banks.length := hbanks ▸ hb
    refine ⟨fun ws p ha hv => ?_, fun ws result payload ha hv => ?_, fun f h => ?_⟩
    · obtain ⟨hframe, hbank, hloads, htaken, hentry, hevq⟩ := planLoadFetchDone_ok hr hl hin ha hv
      exact ⟨_, exec_planLoadFetchDone id _ s, hframe, congrArg Bank.st hbank, congrArg Bank.plan hbank, hloads, htaken, hentry,
        hevq⟩
    · have hrefusal : (s.validate l ws).refusal = some (result, payload) := by
        obtain ⟨sec, off, hv, rfl, rfl⟩ | ⟨hv, rfl, rfl⟩ | ⟨hv, rfl, rfl⟩ := hv <;> rw [hv] <;> rfl
      obtain ⟨⟨hframe, hbank, hloads, htaken, hentry, hevq⟩, hlegs⟩ := planLoadFetchDone_refused hr hl hin ha hrefusal
      exact ⟨_, exec_planLoadFetchDone id _ s, hframe, hlegs, hbank, hloads, htaken, hentry, hevq⟩
    · obtain ⟨⟨hframe, hbank, hloads, htaken, hentry, hevq⟩, hlegs⟩ := planLoadFetchDone_failed hr hl hin h
      exact ⟨_, exec_planLoadFetchDone id _ s, hframe, hlegs, congrArg Bank.st hbank, congrArg Bank.plan hbank, hloads, htaken,
        hentry, hevq⟩
  · intro s id conf c p hw hconf hlen hmode h3 hc h4 hepoch hbanks hst hp
    rw [exec_planCommit, planCommit_run hw hconf hlen hmode h3 hc h4 hepoch hst hp]
    obtain ⟨hf, ho⟩ := State.waits_taken hw
    obtain ⟨b, f, o, a, he, ha, hevq⟩ := State.commitOk_eq (s := s.begin.updConf conf fun g => g.committed s.now s.tb0Ns) hf ho 1
      conf [w32 p.epoch]
    have hin : (s.conf conf).standbyNo < (s.conf conf).banks.length := hbanks ▸ (s.conf conf).standbyNo_lt
    obtain ⟨hself, hother⟩ := Conf.committed_bank hin s.now s.tb0Ns
    have hnew : (s.begin.updConf conf fun g => g.committed s.now s.tb0Ns).conf conf = (s.conf conf).committed s.now s.tb0Ns :=
      State.updConf_conf_self s.begin conf _
    rw [← hnew] at hself hother
    rw [he]
    exact ⟨_, rfl, rfl, rfl, ha, hevq, congrArg Bank.st hself, (congrArg Bank.plan hself).trans hp, congrArg Bank.commitAt hself,
      hother, fun i hi => s.begin.updConf_conf_ne (fun g => g.committed s.now s.tb0Ns) hi⟩
  · intro s conf b hb hbanks
    have hlt := Conf.retiringNo_lt hb hbanks
    refine ⟨fun hruns hpackets => ?_, fun hpackets hearly => ?_, fun u hu hlate => ?_⟩
    · rw [exec_planBankRetired, planBankRetired_retires hb hruns hpackets]
      obtain ⟨ss, bs, os, hr⟩ := s.begin.retire_eq conf b
      obtain ⟨hself, hother, hconfs⟩ := s.begin.updConf_setBank (c := conf)
        (fun x => { x with st := .standby, sess := [], buses := [], outs := [] }) (hbanks ▸ hlt)
      rw [hr]
      exact ⟨_, rfl, rfl, congrArg Bank.st hself, (congrArg Bank.plan hself :), hother _ (by omega), hconfs⟩
    · rw [exec_planBankRetired, planBankRetired_waits hb hpackets hearly]
      rfl
    · exact ⟨_, exec_planRetireTimeout conf s, planRetireTimeout_bank hb hbanks hu hlate⟩

end Sys2Proof.Machine
end

section
/-! PROOF. The selection of talkers: the set of a tick, its publication, and what both leave (R314 to R318). -/

namespace Sys2Proof.Machine

/-! ### The set of a tick (R315) -/

theorem challenge_length (score : Nat → Nat) (hyst n : Nat) (members rest : List Nat) (repl : FMap Nat) :
    (challenge score hyst n members rest repl).1.length = members.length := by
  induction n generalizing members rest repl with
  | zero => rfl
  | succ n ih =>
    unfold challenge
    split
    · split
      · rw [ih, List.length_map]
      · rfl
    · rfl

/-- Every pin is a member. -/
theorem mem_selectSet_of_pin {m : Mix} {n : Nat} (h : n ∈ m.pins) (score : Nat → Nat) (cands previous : List Nat) :
    n ∈ (selectSet m score cands previous).1 :=
  List.mem_append_left _ h

/-- The places that the pins leave below K are all that the others can take. -/
theorem selectSet_length_le (m : Mix) (score : Nat → Nat) (cands previous : List Nat) :
    (selectSet m score cands previous).1.length ≤ max m.k m.pins.length := by
  simp only [selectSet, List.length_append, challenge_length, List.length_take]
  omega

/-! ### Publication (R316, R318) -/

/-- `t` is `s` but for counters of conference `c` and for sessions. -/
def State.handsOver (c : Nat) (s t : State) : Prop :=
  (∃ cs ss, t = { s with confs := cs, sess := ss }) ∧ (∀ i, i ≠ c → t.conf i = s.conf i) ∧
    ∃ n, t.conf c = { s.conf c with counters := n }

theorem State.handsOver.refl (c : Nat) (s : State) : State.handsOver c s s :=
  ⟨⟨s.confs, s.sess, rfl⟩, fun _ _ => rfl, _, rfl⟩

theorem State.handsOver.trans {c : Nat} {s t u : State} (h : State.handsOver c s t) (k : State.handsOver c t u) :
    State.handsOver c s u := by
  obtain ⟨⟨_, _, rfl⟩, hne, n, hc⟩ := h
  obtain ⟨⟨_, _, rfl⟩, kne, m, kc⟩ := k
  exact ⟨⟨_, _, rfl⟩, fun i hi => (kne i hi).trans (hne i hi), m, by rw [kc, hc]⟩

theorem State.handsOver.foldl {α : Type} {c : Nat} {f : State → α → State} (hf : ∀ (s : State) a, State.handsOver c s (f s a))
    (l : List α) (s : State) : State.handsOver c s (l.foldl f s) := by
  induction l generalizing s with
  | nil => exact .refl c s
  | cons a l ih => exact (hf s a).trans (ih _)

theorem State.countConf_handsOver (s : State) (c i k : Nat) : State.handsOver c s (s.countConf c i k) :=
  ⟨⟨_, _, rfl⟩, fun _ hi => s.updConf_conf_ne _ hi, _, s.updConf_conf_self c _⟩

theorem State.updSess_handsOver (s : State) (c i : Nat) (f : Sess → Sess) : State.handsOver c s (s.updSess i f) :=
  ⟨⟨_, _, rfl⟩, fun _ _ => rfl, _, rfl⟩

theorem State.handover_handsOver (s : State) (c b : Nat) (m : Mix) (r : Nat) : State.handsOver c s (s.handover c b m r) := by
  refine (s.countConf_handsOver c 9 1).trans ?_
  unfold State.handover
  simp only
  generalize (ite (m.rankSessions.getD r 0xFFFF = 0xFFFF) none _ : Option Nat) = i
  cases i with
  | none => exact .refl c _
  | some i => exact State.updSess_handsOver _ c i _

/-- A conference with the set and the ranks that it published (R316, R318). -/
def Conf.published (g : Conf) (set : List Nat) (ranks : FMap Nat) (look at_ : Nat) : Conf :=
  { g with nextSel := none, prevSel := (g.selected, g.ranks), pubLook := look, pubAt := at_, selected := set, ranks := ranks }

/-- The set and the ranks that wait are in force, and the ranks are handed over. -/
theorem State.publish_some {s : State} {c due : Nat} {set : List Nat} {ranks : FMap Nat}
    (h : (s.conf c).nextSel = some (due, set, ranks)) :
    State.handsOver c (s.updConf c fun g => g.published set ranks s.lookNo s.launchNs) (s.publish c) := by
  unfold State.publish
  rw [h]
  simp only
  split
  · exact .foldl (fun s k => s.handover_handsOver _ _ _ k) _ _
  · exact .refl c _

theorem State.publish_none {s : State} {c : Nat} (h : (s.conf c).nextSel = none) : s.publish c = s := by
  unfold State.publish
  rw [h]

/-! ### What a selection leaves -/

/-- `t` is `s` but for the logs, sessions and conference `c`, which keeps its banks and its last tick. -/
def State.selects (c : Nat) (s t : State) : Prop :=
  (∃ a f cs ss, t = { s with audit := a, faults := f, confs := cs, sess := ss }) ∧ (∀ i, i ≠ c → t.conf i = s.conf i) ∧
    (t.conf c).banks = (s.conf c).banks ∧ (t.conf c).lastTick = (s.conf c).lastTick

theorem State.selects.refl (c : Nat) (s : State) : State.selects c s s :=
  ⟨⟨s.audit, s.faults, s.confs, s.sess, rfl⟩, fun _ _ => rfl, rfl, rfl⟩

theorem State.selects.trans {c : Nat} {s t u : State} (h : State.selects c s t) (k : State.selects c t u) :
    State.selects c s u := by
  obtain ⟨⟨_, _, _, _, rfl⟩, hne, hb, ht⟩ := h
  obtain ⟨⟨_, _, _, _, rfl⟩, kne, kb, kt⟩ := k
  exact ⟨⟨_, _, _, _, rfl⟩, fun i hi => (kne i hi).trans (hne i hi), kb.trans hb, kt.trans ht⟩

theorem State.handsOver.selects {c : Nat} {s t : State} (h : State.handsOver c s t) : State.selects c s t := by
  obtain ⟨⟨cs, ss, rfl⟩, hne, n, hc⟩ := h
  exact ⟨⟨_, _, _, _, rfl⟩, hne, by rw [hc], by rw [hc]⟩

theorem State.updConf_selects (s : State) (c : Nat) (f : Conf → Conf) (hb : (f (s.conf c)).banks = (s.conf c).banks)
    (ht : (f (s.conf c)).lastTick = (s.conf c).lastTick) : State.selects c s (s.updConf c f) :=
  ⟨⟨_, _, _, _, rfl⟩, fun _ hi => s.updConf_conf_ne f hi, by rw [s.updConf_conf_self]; exact hb,
    by rw [s.updConf_conf_self]; exact ht⟩

theorem State.fenceConf_selects (s : State) (c row off : Nat) : State.selects c s (s.fenceConf c row off) := by
  obtain ⟨f, a, ⟨he, -⟩ | he⟩ := s.fenceConf_touches c row off
  · rw [he]
    exact ⟨⟨_, _, _, _, rfl⟩, fun _ _ => rfl, rfl, rfl⟩
  · obtain ⟨-, hne, hb, ht⟩ := s.updConf_selects c (fun g => { g with fenced := some s.loadSeq }) rfl rfl
    rw [he]
    exact ⟨⟨_, _, _, _, rfl⟩, hne, hb, ht⟩

theorem State.fenceRefs_selects (s : State) (c : Nat) (rs : List RosterSlot) : State.selects c s (s.fenceRefs c rs) := by
  unfold State.fenceRefs
  split
  · exact .refl c s
  · exact s.fenceConf_selects c 1 0

theorem State.publish_selects (s : State) (c : Nat) : State.selects c s (s.publish c) := by
  cases h : (s.conf c).nextSel with
  | none =>
    rw [State.publish_none h]
    exact .refl c s
  | some x =>
    obtain ⟨due, set, ranks⟩ := x
    exact (s.updConf_selects c _ rfl rfl).trans (State.publish_some h).selects

theorem Conf.active_congr {g h : Conf} (hb : g.banks = h.banks) : g.active = h.active := by
  unfold Conf.active Conf.activeNo Conf.bank
  rw [hb]

/-- The set that waits after a selection under plan `p`, and its instant (R315). -/
structure State.awaits (c : Nat) (t : State) (p : Plan) (due : Nat) (set : List Nat) (ranks : FMap Nat) : Prop where
  next : (t.conf c).nextSel = some (due, set, ranks)
  empty : p.mix.k = 0 → set = [] ∧ ranks = []
  pins : p.mix.k ≠ 0 → (∀ n ∈ p.mix.pins, n ∈ set) ∧ set.length ≤ max p.mix.k p.mix.pins.length

theorem State.select_inactive {s : State} {c : Nat} (hp : (s.conf c).active = none) : s.select c = s.publish c := by
  obtain ⟨-, -, hb, -⟩ := s.publish_selects c
  unfold State.select
  simp only [(Conf.active_congr hb).trans hp]

/-- The set that a tick selects with K at least 1 waits, and the newcomers are counted. -/
theorem State.setSelection_awaits (s : State) (c : Nat) (p : Plan) (hk : p.mix.k ≠ 0) (due k : Nat) (scores ranks : FMap Nat)
    (score : Nat → Nat) (cands previous : List Nat) :
    let set := (selectSet p.mix score cands previous).1
    let t := (s.updConf c fun g => { g with scores := scores, nextSel := some (due, set, ranks) }).countConf c 8 k
    State.selects c s t ∧ State.awaits c t p due set ranks := by
  intro set t
  have hcount := (s.updConf c fun g => { g with scores := scores, nextSel := some (due, set, ranks) }).countConf_handsOver c 8 k
  obtain ⟨-, -, n, hn⟩ := id hcount
  refine ⟨(s.updConf_selects c _ rfl rfl).trans hcount.selects, ?_, fun h => absurd h hk,
    fun _ => ⟨fun m hm => mem_selectSet_of_pin hm score cands previous, selectSet_length_le p.mix score cands previous⟩⟩
  rw [hn, State.updConf_conf_self]

/-- The selection under an ACTIVE plan: the set that waits for its publication. -/
theorem State.select_active {s : State} {c : Nat} {p : Plan} (hp : (s.conf c).active = some p) :
    State.selects c s (s.select c) ∧ ∃ set ranks, State.awaits c (s.select c) p (s.now + 20000) set ranks := by
  have hpub := s.publish_selects c
  obtain ⟨⟨_, _, _, _, hframe⟩, -, hb, -⟩ := id hpub
  have hnow : (s.publish c).now = s.now := by rw [hframe]
  unfold State.select
  simp only [(Conf.active_congr hb).trans hp, hnow]
  generalize s.publish c = u at hpub
  by_cases hk : p.mix.k = 0
  · rw [if_pos hk]
    exact ⟨hpub.trans (u.updConf_selects c _ rfl rfl), [], [],
      ⟨by rw [State.updConf_conf_self], fun _ => ⟨rfl, rfl⟩, fun h => absurd hk h⟩⟩
  · rw [if_neg hk]
    generalize hv : u.fenceRefs c (u.boundSlots c p) = v
    have hfence : State.selects c u v := hv ▸ u.fenceRefs_selects c _
    obtain ⟨hsel, haw⟩ := v.setSelection_awaits c p hk (s.now + 20000) _ _ _ _ _ _
    exact ⟨hpub.trans (hfence.trans hsel), _, _, haw⟩

theorem State.select_selects (s : State) (c : Nat) : State.selects c s (s.select c) := by
  cases hp : (s.conf c).active with
  | none => rw [State.select_inactive hp]; exact s.publish_selects c
  | some p => exact (State.select_active hp).1

end Sys2Proof.Machine
end

section
/-! PROOF. The epoch switch and the media tick (R110, R111, R113, R114, R119, R315). -/

namespace Sys2Proof.Machine

theorem exec_mediaTick (conf : Nat) (s : State) : exec (.mediaTick conf) s = .next (mediaTick conf s) := rfl

/-! ### What a switch leaves -/

/-- The state without what a switch may change. -/
def State.unswitched (s : State) : State :=
  { s with out := [], fresh := 0, mbx := [], funcs := [], audit := {}, faults := {}, confs := [], legs := [], egressQ := []
           buckets := [], sched := {}, sess := [], buses := [], outs := [], mediaSerial := 0 }

theorem State.eq_of_unswitched {s t : State} (h : t.unswitched = s.unswitched) : t = { s with
    out := t.out, fresh := t.fresh, mbx := t.mbx, funcs := t.funcs, audit := t.audit, faults := t.faults
    confs := t.confs, legs := t.legs, egressQ := t.egressQ, buckets := t.buckets, sched := t.sched, sess := t.sess
    buses := t.buses, outs := t.outs, mediaSerial := t.mediaSerial } :=
  congrArg (fun u : State => { u with
    out := t.out, fresh := t.fresh, mbx := t.mbx, funcs := t.funcs, audit := t.audit, faults := t.faults
    confs := t.confs, legs := t.legs, egressQ := t.egressQ, buckets := t.buckets, sched := t.sched, sess := t.sess
    buses := t.buses, outs := t.outs, mediaSerial := t.mediaSerial }) h

/-- Where a bank stands: its state, its image, and when it left ACTIVE. -/
def Bank.standing (b : Bank) : BankState × Option Plan × Option Nat := (b.st, b.plan, b.leftActive)

/-- Where a conference stands: its banks, and its last tick. -/
def Conf.standing (g : Conf) : List (BankState × Option Plan × Option Nat) × Option Nat :=
  (g.banks.map Bank.standing, g.lastTick)

theorem Conf.bank_standing_congr {g h : Conf} (hs : g.standing = h.standing) (b : Nat) :
    (g.bank b).standing = (h.bank b).standing := by
  have hb : g.banks.map Bank.standing = h.banks.map Bank.standing := congrArg Prod.fst hs
  rw [Conf.bank, Conf.bank, ← List.getD_map (f := Bank.standing), ← List.getD_map (f := Bank.standing), hb]

theorem Conf.banks_length_congr {g h : Conf} (hs : g.standing = h.standing) : g.banks.length = h.banks.length := by
  have hb : g.banks.map Bank.standing = h.banks.map Bank.standing := congrArg Prod.fst hs
  simpa using congrArg List.length hb

theorem Conf.setBank_standing (g : Conf) (b : Nat) {f : Bank → Bank} (hf : ∀ x, (f x).standing = x.standing) :
    (g.setBank b f).standing = g.standing := by
  unfold Conf.standing Conf.setBank
  refine congrArg (·, g.lastTick) (List.ext_getElem (by simp) fun i h1 h2 => ?_)
  simp only [List.getElem_map, List.getElem_modify]
  split
  · exact hf _
  · rfl

/-- `t` is `s` but for what a switch may change, and every conference stands where it stood. -/
structure State.switches (s t : State) : Prop where
  frame : t.unswitched = s.unswitched
  standing : ∀ c, (t.conf c).standing = (s.conf c).standing

theorem State.switches.refl (s : State) : s.switches s := ⟨rfl, fun _ => rfl⟩

theorem State.switches.trans {s t u : State} (h : s.switches t) (k : t.switches u) : s.switches u :=
  ⟨k.frame.trans h.frame, fun c => (k.standing c).trans (h.standing c)⟩

theorem State.switches.foldl {α : Type} {f : State → α → State} (hf : ∀ (s : State) a, s.switches (f s a)) (l : List α)
    (s : State) : s.switches (l.foldl f s) := by
  induction l generalizing s with
  | nil => exact .refl s
  | cons a l ih => exact (hf s a).trans (ih _)

/-- The same for a fold that carries something beside the state. -/
theorem State.switches.foldl_fst {α β : Type} {f : State × β → α → State × β} (hf : ∀ (x : State × β) a, x.1.switches (f x a).1) (l : List α)
    (x : State × β) : x.1.switches (l.foldl f x).1 := by
  induction l generalizing x with
  | nil => exact .refl x.1
  | cons a l ih => exact (hf x a).trans (ih _)

theorem State.switches.ite {p : Prop} [Decidable p] {s t u : State} (ht : s.switches t) (hu : s.switches u) :
    s.switches (if p then t else u) := by
  split
  · exact ht
  · exact hu

theorem State.updConf_switches (s : State) (c : Nat) {f : Conf → Conf} (hf : ∀ g, (f g).standing = g.standing) :
    s.switches (s.updConf c f) := by
  refine ⟨rfl, fun i => ?_⟩
  by_cases hi : i = c
  · rw [hi, State.updConf_conf_self, hf]
  · rw [State.updConf_conf_ne s f hi]

theorem State.switches.of_onlySched {s t : State} (h : s.onlySched t) : s.switches t := by
  obtain ⟨x, b, rfl⟩ := h
  exact ⟨rfl, fun _ => rfl⟩

theorem State.selects.switches {c : Nat} {s t : State} (h : State.selects c s t) : s.switches t := by
  obtain ⟨⟨a, f, cs, ss, rfl⟩, hne, hb, ht⟩ := h
  refine ⟨rfl, fun i => ?_⟩
  by_cases hi : i = c
  · rw [hi, Conf.standing, hb, ht, Conf.standing]
  · rw [hne i hi]

theorem State.raiseEvent_switches (s : State) (fn code : Nat) (payload : List Word) :
    s.switches (s.raiseEvent fn code payload) := by
  obtain ⟨m, f, o, h⟩ := s.raiseEvent_touches fn code payload
  rw [h]
  exact ⟨rfl, fun _ => rfl⟩

theorem State.legState_switches (s : State) (leg st cause : Nat) : s.switches (s.legState leg st cause) := by
  unfold State.legState State.legStateTo
  exact s.raiseEvent_switches _ _ _

/-! ### Legs and shapers (R113, R119, R239) -/

theorem Conf.carryOverrides_standing (g : Conf) (p : Plan) (t : Nat) : (g.carryOverrides p t).standing = g.standing := rfl

theorem State.carryScores_switches (s : State) (c : Nat) (was p : Plan) : s.switches (s.carryScores c was p) := by
  unfold State.carryScores
  exact s.updConf_switches c fun _ => rfl

theorem State.updLeg_switches (s : State) (l : Nat) (f : Leg → Leg) : s.switches (s.updLeg l f) := ⟨rfl, fun _ => rfl⟩

theorem State.shape_switches (s : State) (level idx : Nat) (rate rateC : Word) (ceil : Nat) :
    s.switches (s.shape level idx rate rateC ceil) := ⟨rfl, fun _ => rfl⟩

theorem State.shapeSwitch_switches (s : State) (c : Nat) (p : Plan) : s.switches (s.shapeSwitch c p) := by
  refine .trans (.ite (.refl s) (s.shape_switches _ _ _ _ _)) (.foldl (fun u x => ?_) _ _)
  split
  · exact .refl u
  · exact .ite (.refl u) (.ite (u.shape_switches _ _ _ _ _) (.refl u))

/-! ### Sessions, buses and outputs (R114, R326, R354) -/

theorem State.drawMany_switches (s : State) (n : Nat) : s.switches (s.drawMany n).2 := by
  induction n generalizing s with
  | zero => exact .refl s
  | succ n ih =>
    change s.switches (s.draw.2.drawMany n).2
    exact .trans (t := s.draw.2) ⟨rfl, fun _ => rfl⟩ (ih s.draw.2)

theorem State.bindSess_switches (old : Option (Plan × Bank)) (p : Plan) (bases : FMap Nat) (s : State) (r : SessionRec)
    (m : FMap Nat) : s.switches (s.bindSess old p bases r m).1 := by
  unfold State.bindSess
  split
  · exact .refl s
  · exact ⟨rfl, fun _ => rfl⟩

theorem State.bindBus_switches (old : Option (Plan × Bank)) (p : Plan) (s : State) (r : BusRec) (m : FMap Nat) :
    s.switches (s.bindBus old p r m).1 := by
  unfold State.bindBus
  split
  · exact .refl s
  · exact ⟨rfl, fun _ => rfl⟩

theorem State.bindOut_switches (old : Option (Plan × Bank)) (s : State) (r : OutputRec) (m : FMap Nat) :
    s.switches (s.bindOut old r m).1 := by
  unfold State.bindOut
  split
  · exact .refl s
  · exact ⟨rfl, fun _ => rfl⟩

theorem State.bindObjects_switches (s : State) (c b : Nat) (old : Option (Plan × Bank)) (p : Plan) :
    s.switches (s.bindObjects c b old p) := by
  unfold State.bindObjects
  simp only
  generalize (List.foldl _ _ ((freshSources old p).zip _) : FMap Nat) = bases
  have hdraw := s.drawMany_switches (freshSources old p).length
  generalize (s.drawMany (freshSources old p).length).2 = u at hdraw
  have hsess : u.switches (p.sessions.foldl (fun (x : State × FMap Nat) r => x.1.bindSess old p bases r x.2) (u, [])).1 :=
    .foldl_fst (fun x r => x.1.bindSess_switches old p bases r x.2) p.sessions (u, [])
  generalize (p.sessions.foldl (fun (x : State × FMap Nat) r => x.1.bindSess old p bases r x.2) (u, [])) = a at hsess
  have hbus : a.1.switches (p.mix.buses.foldl (fun (x : State × FMap Nat) r => x.1.bindBus old p r x.2) (a.1, [])).1 :=
    .foldl_fst (fun x r => x.1.bindBus_switches old p r x.2) p.mix.buses (a.1, [])
  generalize (p.mix.buses.foldl (fun (x : State × FMap Nat) r => x.1.bindBus old p r x.2) (a.1, [])) = e at hbus
  have hout : e.1.switches (p.outputs.foldl (fun (x : State × FMap Nat) r => x.1.bindOut old r x.2) (e.1, [])).1 :=
    .foldl_fst (fun x r => x.1.bindOut_switches old r x.2) p.outputs (e.1, [])
  exact (((hdraw.trans hsess).trans hbus).trans hout).trans (State.updConf_switches _ c fun g => g.setBank_standing b fun _ => rfl)

theorem State.keyRequest_switches (s : State) (leg : Nat) (fir : Bool) (media : Nat) (trunk : Option Nat) :
    s.switches (s.keyRequest leg fir media trunk) := by
  have hrtcp : ∀ (u : State) body, u.switches (u.sendRtcp leg body none) := by
    intro u body
    unfold State.sendRtcp State.rtcpTo
    split
    · exact .refl u
    · exact .ite (.refl u) ⟨rfl, fun _ => rfl⟩
  unfold State.keyRequest
  split
  · exact .refl s
  · simp only
    have hcount : s.switches (s.countLeg leg 27 1) := s.updLeg_switches leg _
    generalize s.countLeg leg 27 1 = u at hcount
    refine hcount.trans ?_
    split
    · exact u.updLeg_switches leg _
    · generalize hv : State.updLeg u leg _ = v
      have hleg : u.switches v := hv ▸ u.updLeg_switches leg _
      exact (hleg.trans (hrtcp v _)).trans (State.raiseEvent_switches _ _ _ _)

theorem State.decoderRequest_switches (s : State) (c b session : Nat) (fresh : Bool) :
    s.switches (s.decoderRequest c b session fresh) := by
  unfold State.decoderRequest
  simp only
  split
  · split
    · exact .refl s
    · exact (s.updConf_switches c (by exact fun _ => rfl)).trans (State.keyRequest_switches _ _ _ _ _)
  · exact .refl s

theorem State.freshStart_switches (s : State) (c b : Nat) (old : Option (Plan × Bank)) (p : Plan) :
    s.switches (s.freshStart c b old p) := by
  refine .foldl (fun u (r : SessionRec) => .ite (u.decoderRequest_switches c b r.session true) (.ite ?_ (.refl u))) _ s
  split
  · exact .refl u
  · exact ⟨rfl, fun _ => rfl⟩

theorem State.routeSwitch_switches (before : List (Nat × Option Resolved)) (c b : Nat) (p : Plan) (s : State) (r : BusRec) :
    s.switches (s.routeSwitch before c b p r) := by
  unfold State.routeSwitch
  split
  · exact .ite (.refl s) ⟨rfl, fun _ => rfl⟩
  · exact .refl s

theorem State.startGraphs_switches (s : State) (c b : Nat) (p : Plan) : s.switches (s.startGraphs c b p) :=
  .trans (.of_onlySched (s.dropDue_only _)) (.foldl (fun u _ => .of_onlySched (u.putDue_only _ _ _)) _ _)

/-! ### The switch (R111) -/

/-- The banks of a conference as bank `b` becomes ACTIVE at `now`. -/
def Conf.entering (g : Conf) (b now : Nat) : Conf :=
  { g with banks := g.banks.zipIdx.map fun (x : Bank × Nat) =>
    if x.2 = b then { x.1 with st := .active, leftActive := none }
    else if x.1.st = .active then { x.1 with st := .retiring, leftActive := some now }
    else x.1 }

/-- A switch: what comes before and after the banks change leaves every conference where it stands. -/
theorem State.switch_split (s : State) (c b : Nat) (p : Plan) :
    ∃ u, s.switches u ∧ (u.updConf c fun g => g.entering b u.now).switches (s.switch c b p) := by
  unfold State.switch
  extract_lets g old before lost s1 s2 s3 s4 s5 s6 s7 s8 s9 s10
  have k1 : s.switches s1 := by
    unfold s1
    clear_value old
    split
    · exact s.carryScores_switches c _ p
    · exact .refl s
  have k2 : s1.switches s2 := ⟨rfl, fun _ => rfl⟩
  have k3 : s2.switches s3 := s2.updConf_switches c fun g => g.carryOverrides_standing p _
  have k4 : s3.switches s4 := s3.shapeSwitch_switches c p
  have k6 : s5.switches s6 := s5.bindObjects_switches c b old p
  have k7 : s6.switches s7 := .foldl (State.routeSwitch_switches before c b p) _ s6
  have k8 : s7.switches s8 := s7.startGraphs_switches c b p
  have k9 : s8.switches s9 := s8.raiseEvent_switches _ _ _
  have k10 : s9.switches s10 := .foldl (fun u l => u.legState_switches l _ 0) lost s9
  exact ⟨s4, ((k1.trans k2).trans k3).trans k4,
    ((((k6.trans k7).trans k8).trans k9).trans k10).trans (s10.freshStart_switches c b old p)⟩

/-- Each bank of a conference that bank `b` enters, where every bank is in the list. -/
theorem Conf.entering_bank {g : Conf} {b i : Nat} (hi : i < g.banks.length) (now : Nat) : (g.entering b now).bank i =
    if i = b then { g.bank i with st := .active, leftActive := none }
    else if (g.bank i).st = .active then { g.bank i with st := .retiring, leftActive := some now }
    else g.bank i := by
  simp [Conf.entering, Conf.bank, hi]

theorem Conf.activeNo_eq_some {g : Conf} {b : Nat} (hb : b < 2) (hst : (g.bank b).st = .active)
    (hother : ∀ i, i < 2 → i ≠ b → (g.bank i).st ≠ .active) : g.activeNo = some b := by
  unfold Conf.bank at hst hother
  unfold Conf.activeNo
  obtain rfl | rfl : b = 0 ∨ b = 1 := by omega
  · rw [if_pos hst]
  · rw [if_neg (hother 0 (by omega) (by omega)), if_pos hst]

theorem Conf.bank_active {g : Conf} {a : Nat} (h : g.activeNo = some a) : a < 2 ∧ (g.bank a).st = .active := by
  unfold Conf.activeNo at h
  split at h
  next h0 =>
    obtain rfl : 0 = a := Option.some.inj h
    exact ⟨by omega, h0⟩
  next =>
    split at h
    next h1 =>
      obtain rfl : 1 = a := Option.some.inj h
      exact ⟨by omega, h1⟩
    next => exact nomatch h

theorem Conf.bank_pending {g : Conf} {b : Nat} (h : g.pendingNo = some b) :
    b < g.banks.length ∧ (g.bank b).st = .pending := by
  obtain ⟨hlt, hst, -⟩ := List.findIdx?_eq_some_iff_getElem.mp h
  exact ⟨hlt, by simpa [Conf.bank, hlt] using hst⟩

/-- Where the banks of `h` stand is where those of `g` stand, bank `b` having become ACTIVE at `now` (R111). -/
def Conf.entered (g h : Conf) (b now : Nat) : Prop :=
  ∀ i, i < 2 → (h.bank i).standing =
    if i = b then (.active, (g.bank i).plan, none)
    else if (g.bank i).st = .active then (.retiring, (g.bank i).plan, some now)
    else (g.bank i).standing

/-- The bank entered is the ACTIVE one with its image, and the bank that was ACTIVE retires. -/
theorem Conf.entered.banks {g h : Conf} {b now : Nat} (he : g.entered h b now) (hb : b < 2) :
    h.activeNo = some b ∧ (h.bank b).plan = (g.bank b).plan ∧ (h.bank b).leftActive = none ∧
      ∀ a, a ≠ b → g.activeNo = some a → (h.bank a).st = .retiring ∧ (h.bank a).leftActive = some now := by
  have hself := he b hb
  rw [if_pos rfl] at hself
  obtain ⟨hst, hrest⟩ := Prod.mk.inj hself
  obtain ⟨hplan, hleft⟩ := Prod.mk.inj hrest
  refine ⟨Conf.activeNo_eq_some hb hst fun i hi hne => ?_, hplan, hleft, fun a hne ha => ?_⟩
  · have hother := he i hi
    rw [if_neg hne] at hother
    split at hother
    next => rw [show (h.bank i).st = .retiring from congrArg Prod.fst hother]; exact BankState.noConfusion
    next hactive => rw [show (h.bank i).st = (g.bank i).st from congrArg Prod.fst hother]; exact hactive
  · obtain ⟨hlt, hactive⟩ := Conf.bank_active ha
    have hother := he a hlt
    rw [if_neg hne, if_pos hactive] at hother
    exact ⟨congrArg Prod.fst hother, congrArg (fun x => x.2.2) hother⟩

theorem State.switch_entered {s : State} {c : Nat} (b : Nat) (p : Plan) (hcount : (s.conf c).banks.length = 2) :
    (s.conf c).entered ((s.switch c b p).conf c) b s.now := by
  intro i hi
  obtain ⟨u, hu, ht⟩ := s.switch_split c b p
  have hnow : u.unswitched.now = s.unswitched.now := congrArg State.now hu.frame
  change u.now = s.now at hnow
  have hlen := Conf.banks_length_congr (hu.standing c)
  have hbank := Conf.bank_standing_congr (hu.standing c) i
  rw [← hbank, Conf.bank_standing_congr (ht.standing c) i, State.updConf_conf_self, Conf.entering_bank (by omega), hnow]
  obtain ⟨hst, hrest⟩ := Prod.mk.inj hbank
  obtain ⟨hplan, -⟩ := Prod.mk.inj hrest
  rw [← hst, ← hplan]
  split
  · rfl
  · split <;> rfl

/-- A switch changes nothing but what it may, and keeps the conference's last tick. -/
theorem State.switch_frame (s : State) (c b : Nat) (p : Plan) : (s.switch c b p).unswitched = s.unswitched ∧
    ((s.switch c b p).conf c).lastTick = (s.conf c).lastTick := by
  obtain ⟨u, hu, ht⟩ := s.switch_split c b p
  have hlast := congrArg Prod.snd (ht.standing c)
  rw [State.updConf_conf_self] at hlast
  exact ⟨ht.frame.trans hu.frame, hlast.trans (congrArg Prod.snd (hu.standing c))⟩

/-! ### The tick (R110) -/

/-- The state of a media tick before its switch and its selection. -/
def State.ticked (s : State) (c : Nat) : State := s.begin.updConf c fun g => { g with lastTick := some s.tb0Ns }

theorem State.ticked_conf (s : State) (c : Nat) : (s.ticked c).conf c = { s.conf c with lastTick := some s.tb0Ns } :=
  State.updConf_conf_self s.begin c _

section
variable {s : State} {c : Nat} (hdue : s.tickDue (s.conf c) = true)
include hdue

theorem mediaTick_idle (hb : (s.conf c).pendingNo = none) : mediaTick c s = (s.ticked c).select c := by
  have hdue' : s.begin.tickDue (s.begin.conf c) = true := hdue
  have hb' : (s.begin.conf c).pendingNo = none := hb
  simp only [mediaTick, hdue', hb', Bool.not_true, Bool.false_eq_true, if_false]
  rfl

theorem mediaTick_switches {b : Nat} {p : Plan} (hb : (s.conf c).pendingNo = some b) (hp : ((s.conf c).bank b).plan = some p)
    (hwait : ((s.conf c).bank b).commitAt + 20000 ≤ s.now) :
    mediaTick c s = ((s.ticked c).switch c b p).select c := by
  have hdue' : s.begin.tickDue (s.begin.conf c) = true := hdue
  have hb' : (s.begin.conf c).pendingNo = some b := hb
  have hp' : ((s.begin.conf c).bank b).plan = some p := hp
  simp only [mediaTick, hdue', hb', hp', Bool.not_true, Bool.false_eq_true, if_false]
  exact congrArg (State.select · c) (if_pos hwait)

end

/-- Settles O21: the switch, the tick without one, and the publication of a set. -/
theorem mediaTickSwitchesAndSelects : Obligations.MediaTickSwitchesAndSelects := by
  unfold Obligations.MediaTickSwitchesAndSelects
  refine ⟨fun s conf hdue hlen => ⟨fun b p hb hp hwait => ?_, fun hb => ?_⟩, fun s conf due set ranks hnext => ?_⟩
  · rw [exec_mediaTick, mediaTick_switches hdue hb hp hwait]
    have htick := s.ticked_conf conf
    obtain ⟨hframe, hlast⟩ := (s.ticked conf).switch_frame conf b p
    have henter := State.switch_entered b p (show ((s.ticked conf).conf conf).banks.length = 2 by rw [htick]; exact hlen)
    rw [htick] at hlast henter
    generalize (s.ticked conf).switch conf b p = u at hframe hlast henter ⊢
    have hsel := (u.select_selects conf).switches
    obtain ⟨hlt, hpending⟩ := Conf.bank_pending hb
    have henter' : (s.conf conf).entered ((u.select conf).conf conf) b s.now := fun i hi =>
      (Conf.bank_standing_congr (hsel.standing conf) i).trans (henter i hi)
    obtain ⟨hactive, hplan, hleft, hretired⟩ := henter'.banks (hlen ▸ hlt)
    refine ⟨_, rfl, State.eq_of_unswitched (hsel.frame.trans hframe), hactive, hplan.trans hp, hleft, fun a ha => ?_,
      (congrArg Prod.snd (hsel.standing conf)).trans hlast⟩
    refine hretired a (fun hab => ?_) ha
    rw [hab] at ha
    exact BankState.noConfusion (hpending.symm.trans (Conf.bank_active ha).2)
  · rw [exec_mediaTick, mediaTick_idle hdue hb]
    have htick := s.ticked_conf conf
    have hsel := (s.ticked conf).select_selects conf
    obtain ⟨⟨a, f, cs, ss, hframe⟩, hne, hbanks, hlast⟩ := id hsel
    refine ⟨_, rfl, State.eq_of_unswitched hsel.switches.frame, by rw [hframe]; rfl, by rw [hbanks, htick], by rw [hlast, htick],
      fun i hi => (hne i hi).trans (s.begin.updConf_conf_ne _ hi), fun p hp => ?_⟩
    have hp' : ((s.ticked conf).conf conf).active = some p := (Conf.active_congr (by rw [htick])).trans hp
    obtain ⟨-, set, ranks, hnext, hempty, hpins⟩ := State.select_active hp'
    exact ⟨set, ranks, hnext, hempty, hpins⟩
  · obtain ⟨-, hne, n, hc⟩ := State.publish_some hnext
    rw [hc, State.updConf_conf_self]
    exact ⟨rfl, rfl, rfl, fun i hi => (hne i hi).trans (s.updConf_conf_ne _ hi)⟩

end Sys2Proof.Machine
end

section
/-! PROOF. A port's holds and transmit queues, and what a restart leaves of the port (R124, R126, R136 to R140, R142, R232). -/

namespace Sys2Proof.Machine

theorem getElem?_bump_ne (cs : List Nat) {i j : Nat} (k : Nat) (h : i ≠ j) : (bump cs i k)[j]? = cs[j]? := by
  simp [bump, h]

/-- Of two changes at one key the second applies to what the first left. -/
theorem FMap.upd_upd_self {α : Type} (m : FMap α) (k : Nat) (f g : α → α) : (m.upd k f).upd k g = m.upd k fun v => g (f v) := by
  cases h : m.find? k with
  | none => simp [FMap.upd, h]
  | some v => simp [FMap.upd, h, FMap.put_put_self]

theorem State.updPort_updPort (s : State) (p : Nat) (f g : Port → Port) :
    (s.updPort p f).updPort p g = s.updPort p fun q => g (f q) := by simp only [State.updPort, FMap.upd_upd_self]

/-! ### Holds and watchdogs (R136 to R138) -/

/-- From `q` to `q'` only holds, their watchdogs and the accounts of held time change. -/
def Port.accounts (q q' : Port) : Prop :=
  q' = { q with
    pauseHold := q'.pauseHold, pfcHold := q'.pfcHold, watch := q'.watch, pausedPs := q'.pausedPs, counters := q'.counters } ∧
  ∀ i, i ≠ 22 → q'.counters[i]? = q.counters[i]?

/-- From `q` to `q'` only the hold of `k`, its watchdog and the accounts of held time change. -/
def Port.watches (k : Nat) (q q' : Port) : Prop :=
  q.accounts q' ∧ q'.watch.length = q.watch.length ∧
    ∀ j, j ≠ k → q'.hold j = q.hold j ∧ q'.watch.getD j {} = q.watch.getD j {}

theorem Port.accounts_refl (q : Port) : q.accounts q := ⟨rfl, fun _ _ => rfl⟩

theorem Port.accounts_trans {q r u : Port} (h : q.accounts r) (k : r.accounts u) : q.accounts u := by
  obtain ⟨hr, hc⟩ := h
  obtain ⟨hu, hd⟩ := k
  exact ⟨hu.trans (congrArg (fun x : Port => { x with
    pauseHold := u.pauseHold, pfcHold := u.pfcHold, watch := u.watch, pausedPs := u.pausedPs, counters := u.counters }) hr),
    fun i hi => (hd i hi).trans (hc i hi)⟩

theorem Port.watches_refl (k : Nat) (q : Port) : Port.watches k q q := ⟨q.accounts_refl, rfl, fun _ _ => ⟨rfl, rfl⟩⟩

theorem Port.watches_trans {k : Nat} {q r u : Port} (h : Port.watches k q r) (l : Port.watches k r u) : Port.watches k q u := by
  obtain ⟨ha, hlen, hj⟩ := h
  obtain ⟨hb, hlen', hj'⟩ := l
  exact ⟨Port.accounts_trans ha hb, hlen'.trans hlen,
    fun j hne => ⟨(hj' j hne).1.trans (hj j hne).1, (hj' j hne).2.trans (hj j hne).2⟩⟩

theorem Port.watches_accounts {k : Nat} {q q' : Port} (h : Port.watches k q q') : q.accounts q' := h.1

theorem Port.watches_length {k : Nat} {q q' : Port} (h : Port.watches k q q') : q'.watch.length = q.watch.length := by
  obtain ⟨-, hlen, -⟩ := h
  exact hlen

/-- What neither holds nor watchdogs touch. -/
theorem Port.accounts_keeps {q q' : Port} (h : q.accounts q') :
    q'.cfg = q.cfg ∧ q'.st = q.st ∧ q'.txq = q.txq ∧ q'.pipeQ = q.pipeQ ∧ q'.timeQ = q.timeQ ∧ q'.excQ = q.excQ ∧
      q'.ctlQ = q.ctlQ ∧ q'.busyUntil = q.busyUntil ∧ q'.speedRun = q.speedRun := by
  obtain ⟨h, -⟩ := h
  rw [h]
  exact ⟨rfl, rfl, rfl, rfl, rfl, rfl, rfl, rfl, rfl⟩

@[simp] theorem Port.hold_setHold_self (q : Port) (k : Nat) (h : Option Hold) : (q.setHold k h).hold k = h := by
  unfold Port.setHold Port.hold
  by_cases hk : k = 8
  · simp [hk]
  · cases h <;> simp [hk]

theorem Port.setHold_watches (q : Port) (k : Nat) (h : Option Hold) : Port.watches k q (q.setHold k h) := by
  unfold Port.setHold
  by_cases hk : k = 8
  · rw [if_pos hk]
    exact ⟨⟨rfl, fun _ _ => rfl⟩, rfl, fun j hj => ⟨by simp [Port.hold, ne_of_ne_of_eq hj hk], rfl⟩⟩
  · rw [if_neg hk]
    cases h with
    | none => exact ⟨⟨rfl, fun _ _ => rfl⟩, rfl, fun j hj => ⟨by simp [Port.hold, FMap.find?_del_ne _ _ _ hj], rfl⟩⟩
    | some h => exact ⟨⟨rfl, fun _ _ => rfl⟩, rfl, fun j hj => ⟨by simp [Port.hold, FMap.find?_put_ne _ _ _ _ hj], rfl⟩⟩

@[simp] theorem Port.setHold_watch (q : Port) (k : Nat) (h : Option Hold) : (q.setHold k h).watch = q.watch := by
  unfold Port.setHold
  cases h <;> split <;> rfl

/-- A port with another watchdog of `k`. -/
def Port.setWatch (q : Port) (k : Nat) (w : Watch) : Port := { q with watch := q.watch.set k w }

theorem Port.setWatch_watches (q : Port) (k : Nat) (w : Watch) : Port.watches k q (q.setWatch k w) :=
  ⟨⟨rfl, fun _ _ => rfl⟩, List.length_set, fun j hj => ⟨rfl, by simp [Port.setWatch, List.getD_eq_getElem?_getD, hj.symm]⟩⟩

@[simp] theorem Port.setWatch_hold (q : Port) (k : Nat) (w : Watch) (j : Nat) : (q.setWatch k w).hold j = q.hold j := rfl

theorem Port.setWatch_getD {q : Port} {k : Nat} (w : Watch) (h : k < q.watch.length) : (q.setWatch k w).watch.getD k {} = w := by
  simp [Port.setWatch, h]

/-- A port with the time that a hold has held it accounted up to `t` ps. -/
def Port.credited (q : Port) (k : Nat) (h : Hold) (t : Nat) : Port :=
  (q.setHold k (some { h with from_ := max h.from_ (min t h.until_) })).setWatch k
    { q.watch.getD k {} with held := (q.watch.getD k {}).held + h.heldTo t }

theorem Port.settle_none {q : Port} {k : Nat} (h : q.hold k = none) (t : Nat) : q.settle k t = q := by rw [Port.settle, h]

theorem Port.settle_some {q : Port} {k : Nat} {h : Hold} (hh : q.hold k = some h) (t : Nat) :
    q.settle k t = if k = 8 then { q.credited k h t with
        pausedPs := ((q.credited k h t).pausedPs + h.heldTo t) % 1000000
        counters := bump (q.credited k h t).counters 22 (((q.credited k h t).pausedPs + h.heldTo t) / 1000000) }
      else q.credited k h t := by
  unfold Port.settle
  rw [hh]
  simp only [Port.credited, Port.setWatch, Port.setHold_watch]

theorem Port.credited_watches (q : Port) (k : Nat) (h : Hold) (t : Nat) : Port.watches k q (q.credited k h t) :=
  Port.watches_trans (q.setHold_watches k _) (Port.setWatch_watches _ k _)

/-- Accounting a hold's time leaves everything but that hold and its watchdog's current interval. -/
theorem Port.settle_watches (q : Port) (k t : Nat) : Port.watches k q (q.settle k t) := by
  cases hh : q.hold k with
  | none => rw [Port.settle_none hh]; exact Port.watches_refl k q
  | some h =>
    rw [Port.settle_some hh]
    split
    · exact Port.watches_trans (q.credited_watches k h t)
        ⟨⟨rfl, fun i hi => getElem?_bump_ne _ _ hi.symm⟩, rfl, fun _ _ => ⟨rfl, rfl⟩⟩
    · exact q.credited_watches k h t

theorem Port.settle_watch {q : Port} {k : Nat} {h : Hold} (hh : q.hold k = some h) (t : Nat) : (q.settle k t).watch =
    q.watch.set k { q.watch.getD k {} with held := (q.watch.getD k {}).held + h.heldTo t } := by
  rw [Port.settle_some hh]
  split <;> simp [Port.credited, Port.setWatch]

theorem Port.settle_tripped (q : Port) (k t : Nat) :
    ((q.settle k t).watch.getD k {}).tripped = (q.watch.getD k {}).tripped := by
  cases hh : q.hold k with
  | none => rw [Port.settle_none hh]
  | some h =>
    rw [Port.settle_watch hh]
    by_cases hk : k < q.watch.length
    · simp [hk]
    · simp [List.getD_eq_getElem?_getD, hk]

/-- A port with other counters. -/
def Port.withCounts (q : Port) (c : List Nat) : Port := { q with counters := c }

/-- The accounts of a hold do not depend on the port's counters. -/
theorem Port.settle_withCounts_watch (q : Port) (c : List Nat) (k t : Nat) :
    ((q.withCounts c).settle k t).watch = (q.settle k t).watch := by
  cases hh : q.hold k with
  | none => rw [Port.settle_none hh, Port.settle_none (show (q.withCounts c).hold k = none from hh)]; rfl
  | some h => rw [Port.settle_watch hh, Port.settle_watch (show (q.withCounts c).hold k = some h from hh)]; rfl

theorem Port.settleAll_accounts (q : Port) (t : Nat) : q.accounts (q.settleAll t) := by
  unfold Port.settleAll
  induction List.range 9 generalizing q with
  | nil => exact q.accounts_refl
  | cons k ks ih => exact Port.accounts_trans (Port.watches_accounts (q.settle_watches k t)) (ih _)

/-! ### Transmit queues (R140, R161, R232) -/

/-- From `q` to `q'` only transmit queues and their counts change; each queue has its frames, with more behind them. -/
def Port.queued (q q' : Port) : Prop :=
  q' = { q with txq := q'.txq, counters := q'.counters } ∧
  ∀ c, ∃ more, (q'.txq.getD c []).map TxFrame.frame = (q.txq.getD c []).map TxFrame.frame ++ more

theorem Port.queued_refl (q : Port) : q.queued q := ⟨rfl, fun _ => ⟨[], (List.append_nil _).symm⟩⟩

theorem Port.queued_trans {q r u : Port} (h : q.queued r) (k : r.queued u) : q.queued u := by
  obtain ⟨hr, hc⟩ := h
  obtain ⟨hu, hd⟩ := k
  refine ⟨hu.trans (congrArg (fun x : Port => { x with txq := u.txq, counters := u.counters }) hr), fun c => ?_⟩
  obtain ⟨a, ha⟩ := hc c
  obtain ⟨b, hb⟩ := hd c
  exact ⟨a ++ b, by rw [hb, ha, List.append_assoc]⟩

/-- A frame put at the end of a queue, with the heads marked. -/
theorem Port.push_queued (q : Port) (cls : Nat) (f : TxFrame) (clock : Int) :
    q.queued (({ q with txq := q.txq.modify cls fun l => l ++ [f] } : Port).markHeads clock) := by
  refine ⟨rfl, fun c => ?_⟩
  rw [Port.markHeads_frames]
  simp only [List.getD_eq_getElem?_getD, List.getElem?_modify]
  by_cases hc : cls = c
  · cases h : q.txq[c]? with
    | none => exact ⟨[], by simp⟩
    | some l => exact ⟨[f.frame], by simp [hc]⟩
  · exact ⟨[], by simp [hc]⟩

/-- From `s` to `t` frames join transmit queues and others wait; port `p` keeps everything beside its queues. -/
def State.queuesAt (p : Nat) (s t : State) : Prop :=
  t = { s with funcs := t.funcs, ports := t.ports, buckets := t.buckets, waitQ := t.waitQ } ∧
  ∀ q, s.port? p = some q → ∃ q', t.port? p = some q' ∧ q.queued q'

theorem State.queuesAt_of_ports {p : Nat} {s t : State}
    (h : t = { s with funcs := t.funcs, buckets := t.buckets, waitQ := t.waitQ }) : State.queuesAt p s t := by
  rw [h]
  exact ⟨rfl, fun q hq => ⟨q, hq, q.queued_refl⟩⟩

theorem State.queuesAt_trans {p : Nat} {s t u : State} (h : State.queuesAt p s t) (k : State.queuesAt p t u) :
    State.queuesAt p s u := by
  obtain ⟨ht, hq⟩ := h
  obtain ⟨hu, hr⟩ := k
  refine ⟨hu.trans (congrArg (fun x : State => { x with
    funcs := u.funcs, ports := u.ports, buckets := u.buckets, waitQ := u.waitQ }) ht), fun q hs => ?_⟩
  obtain ⟨r, htr, hqr⟩ := hq q hs
  obtain ⟨v, huv, hrv⟩ := hr r htr
  exact ⟨v, huv, Port.queued_trans hqr hrv⟩

theorem State.queuesAt_out {p : Nat} {s t : State} (h : State.queuesAt p s t) : t.out = s.out := by rw [h.1]

theorem State.queuesAt_time {p : Nat} {s t : State} (h : State.queuesAt p s t) : t.time = s.time := by rw [h.1]

theorem State.pushTx_queuesAt (p : Nat) (s : State) (port cls : Nat) (f : TxFrame) : State.queuesAt p s (s.pushTx port cls f) := by
  refine ⟨rfl, fun q hq => ?_⟩
  by_cases hp : p = port
  · subst hp
    exact ⟨_, (s.updPort_port?_self p _).trans (by rw [hq]; rfl), q.push_queued cls f _⟩
  · exact ⟨q, (s.updPort_port?_ne _ hp).trans hq, q.queued_refl⟩

theorem State.endWait_queuesAt (p : Nat) (s : State) (w : WaitFrame) : State.queuesAt p s (s.endWait w) := by
  obtain ⟨f, q, h⟩ := s.endWait_touches w
  rw [h]
  exact State.queuesAt_of_ports rfl

theorem State.admitOne_queuesAt (p : Nat) (s : State) (port : Nat) : State.queuesAt p s (s.admitOne port) := by
  unfold State.admitOne
  split
  · split
    · exact State.queuesAt_trans (s.endWait_queuesAt p _) (State.pushTx_queuesAt p _ port 0 _)
    · exact State.queuesAt_of_ports rfl
  · exact State.queuesAt_of_ports rfl

theorem State.admitWaiting_queuesAt (p : Nat) (s : State) (port : Nat) : State.queuesAt p s (s.admitWaiting port) := by
  unfold State.admitWaiting
  generalize s.waitQ = ws
  induction ws generalizing s with
  | nil => exact State.queuesAt_of_ports rfl
  | cons w ws ih => exact State.queuesAt_trans (s.admitOne_queuesAt p port) (ih _)

theorem State.sendClass0_queuesAt (p : Nat) (s : State) (port : Nat) (f : TxFrame) (ring : Option (Nat × Nat)) :
    State.queuesAt p s (s.sendClass0 port f ring) := by
  have hcharge (t : State) (level idx w : Nat) : State.queuesAt p t (t.chargeOne level idx w) := by
    obtain ⟨b, hb⟩ := t.chargeOne_touches level idx w
    rw [hb]
    exact State.queuesAt_of_ports rfl
  have hadmit := State.queuesAt_trans
    (State.queuesAt_trans (hcharge s 2 (port * 8) (f.length + 20)) (hcharge _ 3 port (f.length + 20)))
    (State.admitWaiting_queuesAt p _ port)
  unfold State.sendClass0
  dsimp only
  split
  · exact hadmit
  · split
    · exact State.queuesAt_trans hadmit (State.pushTx_queuesAt p _ port 0 f)
    · exact State.queuesAt_trans hadmit (State.queuesAt_of_ports rfl)

/-! ### Restarts (R124, R126, R136) -/

/-- What a restart makes of a port; the windows of its watchdogs, the time held and the counters are said apart. -/
def Port.restartedTo (q : Port) (st now : Nat) (w : List Watch) (ps : Nat) (cs : List Nat) : Port :=
  { q with
    st := st, stSince := now, retryAt := none, txq := [[], [], [], [], [], [], [], []], pauseHold := none, pfcHold := []
    fecLock := false, signalSince := if st = 1 ∧ q.signal ≠ 0 then some now else none
    active := if q.reduced || st == 2 || st == 3 then q.active else 0
    speedRun := if q.reduced || st == 2 || st == 3 then q.speedRun else 0
    watch := w, pausedPs := ps, counters := cs }

/-- A restart counts in counters 21 and 22 only. -/
theorem Port.restart_eq (q : Port) (st now : Nat) : ∃ w ps cs, q.restart st now = q.restartedTo st now w ps cs ∧
    cs[32]? = q.counters[32]? := by
  obtain ⟨h, hc⟩ := q.settleAll_accounts (now * 1000)
  unfold Port.restart
  generalize q.settleAll (now * 1000) = r at h hc ⊢
  rw [h]
  exact ⟨r.watch, r.pausedPs, _, rfl, (getElem?_bump_ne _ _ (by decide)).trans (hc 32 (by decide))⟩

/-- Port `q'` stands as `q` after a restart in state `st`, but for frames in its transmit queues. -/
def Port.restarted (q q' : Port) (st now : Nat) : Prop :=
  q'.st = st ∧ q'.stSince = now ∧ q'.retryAt = none ∧ q'.cfg = q.cfg ∧ q'.rxInverted = q.rxInverted ∧
  (st = 2 ∨ st = 3 → q'.active = q.active ∧ q'.speedRun = q.speedRun)

theorem Port.restartedTo_queued {q q' : Port} {st now ps : Nat} {w : List Watch} {cs : List Nat}
    (h : (q.restartedTo st now w ps cs).queued q') : q.restarted q' st now := by
  obtain ⟨h, -⟩ := h
  rw [h]
  exact ⟨rfl, rfl, rfl, rfl, rfl, fun hst => by rcases hst with rfl | rfl <;> simp [Port.restartedTo]⟩

/-- A fault record changes the writer of the fault log, whose queue takes it where there is room. -/
theorem State.fault_records (s : State) (cls kind id : Nat) (d0 d1 : Word) : ∃ fs,
    s.fault cls kind id d0 d1 = { s with faults := fs } ∧ (s.faults.queue.length < 256 →
      ∃ r, fs.queue = s.faults.queue ++ [r] ∧ r.cls = cls ∧ r.objKind = kind ∧ r.objId = id) := by
  by_cases h : s.faults.queue.length < 256
  · exact ⟨_, s.fault_queue cls kind id d0 d1 h, fun _ => ⟨_, rfl, rfl, rfl, rfl⟩⟩
  · obtain ⟨fs, hfs, -⟩ := s.fault_touches cls kind id d0 d1
    exact ⟨fs, hfs, fun hlt => absurd hlt h⟩

/-- A port that is taken to another state restarts there, and then waiting frames are admitted. The fault log has a record and the
port a count of it where the port was UP, and nothing otherwise. -/
theorem State.portTo_split {s : State} {p : Nat} {q : Port} (hq : s.port? p = some q) (st : Nat) : ∃ b fs w ps cs,
    s.portTo p st = State.admitWaiting { s with
      ports := s.ports.upd p fun _ => q.restartedTo st s.now w ps cs, buckets := b, faults := fs } p ∧
    (q.st ≠ 4 → fs = s.faults) ∧
    (q.st = 4 → st ≠ 4 → cs.getD 32 0 = (bump q.counters 32 1).getD 32 0 ∧ (s.faults.queue.length < 256 →
      ∃ r, fs.queue = s.faults.queue ++ [r] ∧ r.cls = 0x09 ∧ r.objKind = 4 ∧ r.objId = p)) := by
  obtain ⟨w, ps, cs, hre, hcs⟩ := q.restart_eq st s.now
  unfold State.portTo
  simp only [hq, hre]
  split
  next hup =>
    obtain ⟨b, hb⟩ := s.reSpeed_eq p fun _ => { q.restartedTo st s.now w ps cs with counters := bump cs 32 1 }
    rw [show (q.restartedTo st s.now w ps cs).counters = cs from rfl, hb]
    obtain ⟨fs, hfs, hrec⟩ := State.fault_records (s.withPorts (s.ports.upd p fun _ =>
      { q.restartedTo st s.now w ps cs with counters := bump cs 32 1 }) b) 0x09 4 p (State.portStatusOf _ p) 0
    rw [hfs]
    refine ⟨b, fs, w, ps, bump cs 32 1, rfl, fun h => absurd hup.1 h, fun _ _ => ⟨?_, hrec⟩⟩
    simp [bump, List.getD_eq_getElem?_getD, hcs]
  next hdown =>
    obtain ⟨b, hb⟩ := s.reSpeed_eq p fun _ => q.restartedTo st s.now w ps cs
    rw [hb]
    exact ⟨b, s.faults, w, ps, cs, rfl, fun _ => rfl, fun h4 hst => absurd ⟨h4, hst⟩ hdown⟩

/-- A port that is taken to another state restarts there; the fault log has a record of it only where the port was UP. -/
theorem State.portTo_restarts {s : State} {p : Nat} {q : Port} (hq : s.port? p = some q) (st : Nat) :
    ∃ fn fs ps b w q', s.portTo p st = { s with funcs := fn, faults := fs, ports := ps, buckets := b, waitQ := w } ∧
      (q.st ≠ 4 → fs = s.faults) ∧ ps.find? p = some q' ∧ q.restarted q' st s.now ∧
      ∀ i, i ≠ p → ps.find? i = s.ports.find? i := by
  obtain ⟨-, hother⟩ := s.portTo_onPort p st
  obtain ⟨b, fs, w, ps, cs, ht, hfs, -⟩ := State.portTo_split hq st
  rw [ht] at hother ⊢
  obtain ⟨hframe, hqueue⟩ := State.admitWaiting_queuesAt p { s with
    ports := s.ports.upd p fun _ => q.restartedTo st s.now w ps cs, buckets := b, faults := fs } p
  obtain ⟨q', hq', hsame⟩ := hqueue _ ((s.updPort_port?_self p _).trans (by rw [hq]; rfl))
  exact ⟨_, fs, _, _, _, q', hframe, hfs, hq', Port.restartedTo_queued hsame, hother⟩

end Sys2Proof.Machine
end

section
/-! PROOF. Bring-up of ports: signal, training, alignment, their failures, link loss and shorted lanes (R126 to R131, R136, R494). -/

namespace Sys2Proof.Machine

theorem exec_portSignalDetect (p lane : Nat) (on : Bool) (s : State) :
    exec (.portSignalDetect p lane on) s = .next (portSignalDetect p lane on s) := rfl

theorem exec_waitSignalTimeout (p : Nat) (s : State) : exec (.waitSignalTimeout p) s = .next (waitSignalTimeout p s) := rfl

theorem exec_trainDone (p inverted : Nat) (s : State) : exec (.trainDone p inverted) s = .next (trainDone p inverted s) := rfl

theorem exec_trainTimeout (p : Nat) (s : State) : exec (.trainTimeout p) s = .next (trainTimeout p s) := rfl

theorem exec_alignDone (p order skew : Nat) (s : State) : exec (.alignDone p order skew) s = .next (alignDone p order skew s) := rfl

theorem exec_alignTimeout (p : Nat) (s : State) : exec (.alignTimeout p) s = .next (alignTimeout p s) := rfl

theorem exec_bringupRetryExpiry (p : Nat) (s : State) : exec (.bringupRetryExpiry p) s = .next (bringupRetryExpiry p s) := rfl

theorem exec_linkLoss (p : Nat) (lanes : List Nat) (s : State) : exec (.linkLoss p lanes) s = .next (linkLoss p lanes s) := rfl

theorem exec_laneShorted (lane : Nat) (s : State) : exec (.laneShorted lane) s = .next (laneShorted lane s) := rfl

@[simp] theorem State.begin_portsRun (s : State) : s.begin.portsRun = s.portsRun := rfl

/-! ### Signal (R126) -/

theorem portSignalDetect_noted {s : State} {p lane : Nat} {q : Port} (hq : s.port? p = some q) (hrun : s.portsRun = true)
    (hst : q.st = 1) (href : q.refHeld = false) (hlane : lane < lanesOf q.cfg.speed) (hshort : s.shorted.contains (p + lane) = false)
    (on : Bool) : portSignalDetect p lane on s = s.begin.updPort p fun q =>
      q.sees (if on then q.signal ||| 2 ^ lane else q.signal &&& (15 - 2 ^ lane)) s.now := by
  have hshort' : s.begin.shorted.contains (p + lane) = false := hshort
  have hlane' : decide (lanesOf q.cfg.speed ≤ lane) = false := decide_eq_false (Nat.not_le.mpr hlane)
  simp only [portSignalDetect, State.begin_port?, hq, State.begin_portsRun, hrun, hst, href, hlane', hshort', bne_self_eq_false,
    Bool.not_true, Bool.or_self, Bool.false_eq_true, if_false]
  rfl

/-! ### Width (R126, R129, R131) -/

theorem flagBits_of_all_false {bs : List Bool} (h : ∀ b ∈ bs, b = false) : flagBits bs = 0 := by
  induction bs with
  | nil => rfl
  | cons b bs ih =>
    rw [flagBits, ih fun x hx => h x (List.mem_cons_of_mem _ hx), h b List.mem_cons_self]
    rfl

/-- A port without a lane fault trains at its configured speed. -/
theorem State.chooseWidth_whole {s : State} {p : Nat} {q : Port} (hq : s.port? p = some q) (hopen : q.openLanes = 0)
    (hshort : ∀ i, i < lanesOf q.cfg.speed → s.shorted.contains (p + i) = false) : s.chooseWidth p =
      (s.reSpeed p fun q => { q with speedRun := q.cfg.speed, active := laneBits q.cfg.speed }).portTo p 2 := by
  have hbits : s.shortBits p q.cfg = 0 := flagBits_of_all_false (by simpa using hshort)
  simp only [State.chooseWidth, hq, hopen, hbits]
  rfl

/-- A port of one lane has no reduced width. -/
theorem reducedWidth_single {speed : Nat} (h : lanesOf speed = 1) (bad : Nat) : reducedWidth speed bad = none := by
  unfold reducedWidth
  rw [if_neg (by rintro rfl; cases h), if_neg (by rintro rfl; cases h)]

/-- A port of one lane whose lane is shorted is held. -/
theorem State.chooseWidth_held {s : State} {p : Nat} {q : Port} (hq : s.port? p = some q) (hone : lanesOf q.cfg.speed = 1)
    (hshort : s.shorted.contains p = true) : s.chooseWidth p = s.portTo p 5 := by
  have hbits : s.shortBits p q.cfg = 1 := by simpa [State.shortBits, hone, flagBits, b2n] using hshort
  have hbad : q.openLanes ||| 1 ≠ 0 := by simp
  simp only [State.chooseWidth, hq, hbits, if_neg hbad, reducedWidth_single hone, ite_self]

/-! ### WAIT_SIGNAL, TRAIN and ALIGN end well (R126 to R128) -/

/-- With signal on every lane and no lane fault the port trains. -/
theorem waitSignalTimeout_trains {s : State} {p u : Nat} {q : Port} (hq : s.port? p = some q) (hrun : s.portsRun = true)
    (hst : q.st = 1) (href : q.refHeld = false) (hsince : q.signalSince = some u) (hopen : q.openLanes = 0)
    (hall : ∀ i, i < lanesOf q.cfg.speed → q.signal.testBit i = true ∧ s.shorted.contains (p + i) = false) :
    waitSignalTimeout p s =
      (s.begin.reSpeed p fun q => { q with speedRun := q.cfg.speed, active := laneBits q.cfg.speed }).portTo p 2 := by
  have hsig : q.allSignal = true := by
    simp only [Port.allSignal, List.all_eq_true, List.mem_range]
    exact fun i hi => (hall i hi).1
  have hnone : ((List.range (lanesOf q.cfg.speed)).filter fun i =>
      !q.signal.testBit i && !q.openLanes.testBit i && !s.begin.shorted.contains (p + i)) = [] := by
    simp only [List.filter_eq_nil_iff, List.mem_range]
    intro i hi
    simp [(hall i hi).1]
  rw [← State.chooseWidth_whole (s := s.begin) hq hopen fun i hi => (hall i hi).2]
  simp only [waitSignalTimeout, State.begin_port?, hq, State.begin_portsRun, hrun, hst, href, hsince, hsig, hnone,
    Option.any_some, Bool.true_or, bne_self_eq_false, Bool.not_true, Bool.or_self, Bool.false_eq_true, if_false, List.foldl_nil]

theorem trainDone_aligns {s : State} {p : Nat} {q : Port} (hq : s.port? p = some q) (hrun : s.portsRun = true) (hst : q.st = 2)
    (hretry : q.retryAt = none) (inv : Nat) :
    trainDone p inv s = (s.begin.updPort p fun q => { q with rxInverted := inv &&& q.active }).portTo p 3 := by
  simp [trainDone, hq, hrun, hst, hretry]

/-- A port as it goes UP. -/
def Port.goesUp (q : Port) (now order : Nat) : Port :=
  { q with st := 4, stSince := now, fecLock := true, order := if popCount 4 q.active ≤ 1 then 0 else min order 2 }

/-- The state with port `p` UP, and its record in the fault log's writer. -/
def State.wentUp (s : State) (p order : Nat) (fs : Faults) : State :=
  { s.begin with ports := s.ports.upd p fun q => q.goesUp s.now order, faults := fs }

theorem State.wentUp_port? {s : State} {p : Nat} {q : Port} (hq : s.port? p = some q) (order : Nat) (fs : Faults) :
    (s.wentUp p order fs).port? p = some (q.goesUp s.now order) := (FMap.find?_upd_self ..).trans (congrArg _ hq)

theorem State.wentUp_port?_ne (s : State) {p i : Nat} (order : Nat) (fs : Faults) (h : i ≠ p) :
    (s.wentUp p order fs).port? i = s.port? i := FMap.find?_upd_ne _ _ _ _ h

/-- A port in ALIGN whose lanes arrive within 180 ns goes UP; a reduced one then counts as out of service. -/
theorem alignDone_up {s : State} {p skew : Nat} {q : Port} (hq : s.port? p = some q) (hrun : s.portsRun = true) (hst : q.st = 3)
    (hretry : q.retryAt = none) (hskew : skew ≤ 180000) (order : Nat) : ∃ fs,
    alignDone p order skew s = (if q.reduced && !q.reducedUp then
      ((s.wentUp p order fs).updPort p fun q => { q with reducedUp := true }).instanceDown 12 p false
      else s.wentUp p order fs) ∧
    (s.faults.queue.length < 256 → ∃ r, fs.queue = s.faults.queue ++ [r] ∧ r.cls = 0x08 ∧ r.objKind = 4 ∧ r.objId = p) := by
  obtain ⟨fs, hfs, hrec⟩ := State.fault_records (s.begin.updPort p fun q => q.goesUp s.now order) 0x08 4 p
    (State.portStatusOf (s.begin.updPort p fun q => q.goesUp s.now order) p) 0
  refine ⟨fs, ?_, hrec⟩
  have hskew' : ¬ 180000 < skew := Nat.not_lt.mpr hskew
  simp only [alignDone, State.begin_port?, hq, State.begin_portsRun, hrun, hst, hretry, bne_self_eq_false, Bool.not_true,
    Option.isSome_none, Bool.or_self, Bool.false_eq_true, if_false, if_neg hskew']
  exact congrArg (fun u : State => if q.reduced && !q.reducedUp then
    (u.updPort p fun q => { q with reducedUp := true }).instanceDown 12 p false else u) hfs

/-! ### Bring-up that fails (R126, R127) -/

/-- A port whose retry runs. -/
def Port.retries (q : Port) (now : Nat) : Port := { q with retryAt := some (now + 100000000) }

theorem alignDone_skewed {s : State} {p skew : Nat} {q : Port} (hq : s.port? p = some q) (hrun : s.portsRun = true) (hst : q.st = 3)
    (hretry : q.retryAt = none) (hskew : 180000 < skew) (order : Nat) :
    alignDone p order skew s = s.begin.updPort p fun q => q.retries s.now := by
  simp only [alignDone, State.begin_port?, hq, State.begin_portsRun, hrun, hst, hretry, bne_self_eq_false, Bool.not_true,
    Option.isSome_none, Bool.or_self, Bool.false_eq_true, if_false, if_pos hskew]
  rfl

theorem trainTimeout_fails {s : State} {p : Nat} {q : Port} (hq : s.port? p = some q) (hst : q.st = 2) (hretry : q.retryAt = none)
    (hlate : q.stSince + 500000000 ≤ s.now) : trainTimeout p s = s.begin.updPort p fun q => q.retries s.now := by
  have hlate' : decide (s.begin.now < q.stSince + 500000000) = false := decide_eq_false (Nat.not_lt.mpr hlate)
  simp only [trainTimeout, State.begin_port?, hq, hst, hretry, hlate', bne_self_eq_false, Option.isSome_none, Bool.or_self,
    Bool.false_eq_true, if_false]
  rfl

theorem alignTimeout_fails {s : State} {p : Nat} {q : Port} (hq : s.port? p = some q) (hst : q.st = 3) (hretry : q.retryAt = none)
    (hlate : q.stSince + 10000000 ≤ s.now) : alignTimeout p s = s.begin.updPort p fun q => q.retries s.now := by
  have hlate' : decide (s.begin.now < q.stSince + 10000000) = false := decide_eq_false (Nat.not_lt.mpr hlate)
  simp only [alignTimeout, State.begin_port?, hq, hst, hretry, hlate', bne_self_eq_false, Option.isSome_none, Bool.or_self,
    Bool.false_eq_true, if_false]
  rfl

/-- What a failed state leaves: the retry is armed, and nothing else changes. -/
theorem State.retries_only {s t : State} {p : Nat} {q : Port} (hq : s.port? p = some q)
    (ht : t = s.begin.updPort p fun q => q.retries s.now) : t = { s with ports := t.ports, out := [] } ∧
      t.port? p = some { q with retryAt := some (s.now + 100000000) } ∧ ∀ i, i ≠ p → t.port? i = s.port? i := by
  subst ht
  exact ⟨rfl, by rw [State.updPort_port?_self, State.begin_port?, hq]; rfl, fun i hi => s.begin.updPort_port?_ne _ hi⟩

theorem bringupRetryExpiry_restarts {s : State} {p u : Nat} {q : Port} (hq : s.port? p = some q) (hretry : q.retryAt = some u)
    (hdue : u ≤ s.now) : bringupRetryExpiry p s = s.begin.portTo p 1 := by
  have hdue' : (q.retryAt.any fun t => decide (t ≤ s.begin.now)) = true := by
    rw [hretry]
    exact decide_eq_true hdue
  simp only [bringupRetryExpiry, State.begin_port?, hq, hdue', if_true]

/-! ### Link loss and shorted lanes (R126, R129, R136, R494) -/

/-- A port UP that loses its link restarts in WAIT_SIGNAL with a count and a record. -/
theorem linkLoss_down {s : State} {p : Nat} {q : Port} (hq : s.port? p = some q) (hst : q.st = 4)
    (hidle : ∀ w ∈ s.waitQ, w.port ≠ p) : ∃ b fs w ps cs,
    linkLoss p [] s = { s.begin with
      ports := s.ports.upd p fun _ => q.restartedTo 1 s.now w ps cs, buckets := b, faults := fs } ∧
    cs.getD 32 0 = (bump q.counters 32 1).getD 32 0 ∧ (s.faults.queue.length < 256 →
      ∃ r, fs.queue = s.faults.queue ++ [r] ∧ r.cls = 0x09 ∧ r.objKind = 4 ∧ r.objId = p) := by
  have hloss : linkLoss p [] s = (s.begin.updPort p fun r => { r with signal := q.signal }).portTo p 1 := by
    simp [linkLoss, hq, hst]
  obtain ⟨b, fs, w, ps, cs, ht, -, hlost⟩ := State.portTo_split
    (s := s.begin.updPort p fun r => { r with signal := q.signal }) ((s.begin.updPort_port?_self p _).trans (congrArg _ hq)) 1
  obtain ⟨hcount, hrec⟩ := hlost hst (by decide)
  refine ⟨b, fs, w, ps, cs, ?_, hcount, hrec⟩
  rw [hloss, ht, State.admitWaiting_idle (port := p), State.updPort_ports, FMap.upd_upd_self]
  · rfl
  · exact hidle

/-- A port whose lane `i` is shorted: its receiver is off, and the fault counts (R129, R142). -/
def Port.laneDown (q : Port) (i now : Nat) : Port :=
  { q.sees (q.signal &&& (15 - 2 ^ i)) now with counters := bump q.counters 33 1 }

/-- The state with lane `p` listed as shorted at its port of one lane, and the fault declared. -/
def State.shortNoted (s : State) (p : Nat) (fs : Faults) : State :=
  { s.begin with shorted := s.shorted ++ [p], ports := s.ports.upd p fun r => r.laneDown 0 s.now, faults := fs }

/-- A shorted lane of a running port of one lane: the lane is listed, the fault declared, and the port is held. -/
theorem laneShorted_held {s : State} {p : Nat} {q : Port} (hlane : p < 128) (hone : lanesOf q.cfg.speed = 1)
    (hrun : s.portsRun = true) (hnew : s.shorted.contains p = false) (hq : s.port? p = some q)
    (hfind : List.find? (fun x : Nat × Port => (portLanes x.1 x.2.cfg.speed).contains p) s.ports = some (p, q)) :
    ∃ fs, laneShorted p s = (s.shortNoted p fs).portTo p 5 ∧ (s.shortNoted p fs).port? p = some (q.laneDown 0 s.now) := by
  have hknown : (s.begin.shorted.contains p || decide (127 < p)) = false := by
    rw [decide_eq_false (by omega), Bool.or_false]
    exact hnew
  obtain ⟨fs, hfs, -⟩ := State.fault_records (s.shortNoted p s.faults) 0x0A 4 p (w32 p) (w32 1)
  have hfault : State.laneFault (State.updPort { s.begin with shorted := s.shorted ++ [p] } p fun r =>
      r.sees (r.signal &&& (15 - 2 ^ 0)) s.now) p p 1 = s.shortNoted p fs := by
    rw [State.laneFault, State.countPort, State.updPort_updPort]
    exact hfs
  have hport : (s.shortNoted p fs).port? p = some (q.laneDown 0 s.now) :=
    (FMap.find?_upd_self ..).trans (congrArg (Option.map fun r => r.laneDown 0 s.now) hq)
  refine ⟨fs, ?_, hport⟩
  have hrun' := (congrArg State.portsRun hfault).trans (show (s.shortNoted p fs).portsRun = true from hrun)
  rw [← State.chooseWidth_held hport hone (by simp [State.shortNoted]), ← hfault]
  simp only [laneShorted, hknown, Bool.false_eq_true, if_false]
  rw [show List.find? (fun x : Nat × Port => (portLanes x.1 x.2.cfg.speed).contains p) s.begin.ports = some (p, q) from hfind]
  simp only [Nat.sub_self, hone, true_or, if_true]
  exact if_neg fun h => absurd ((congrArg not hrun').symm.trans h) (by decide)

/-- A restart after a change of a port that is not UP leaves everything but what hangs on the port. -/
theorem State.portTo_changed {s : State} {p : Nat} {q : Port} (hq : s.port? p = some q) (f : Port → Port) (b : FMap Bucket)
    (hup : (f q).st ≠ 4) (st : Nat) : ∃ t q', (s.begin.withPorts (s.ports.upd p f) b).portTo p st = t ∧ t = { s with
      out := t.out, funcs := t.funcs, faults := t.faults, ports := t.ports, buckets := t.buckets, waitQ := t.waitQ } ∧
      t.faults = s.faults ∧ t.port? p = some q' ∧ (f q).restarted q' st s.now ∧ ∀ i, i ≠ p → t.port? i = s.port? i := by
  have hport : (s.begin.withPorts (s.ports.upd p f) b).port? p = some (f q) := (FMap.find?_upd_self ..).trans (congrArg _ hq)
  obtain ⟨fn, fs, ps, b', w, q', ht, hfs, hq', hre, hother⟩ := State.portTo_restarts hport st
  rw [ht]
  exact ⟨_, q', rfl, rfl, hfs hup, hq', hre, fun i hi => (hother i hi).trans (FMap.find?_upd_ne _ _ _ _ hi)⟩

/-- Settles O25: each step of bring-up in its turn, then what takes a port back or holds it. -/
theorem portsComeUpAndFailBack : Obligations.PortsComeUpAndFailBack := by
  unfold Obligations.PortsComeUpAndFailBack
  refine ⟨fun s p q hq hrun => ⟨fun lane on hst href hlane hshort => ?_, fun u hst href hsince hopen _ _ hall => ?_,
    fun inv hst hretry => ?_, fun order skew hst hretry hred hskew hroom => ?_⟩,
    fun s p q hq => ⟨fun hst hretry hlate => ?_, fun hst hretry hlate => ?_, fun order skew hst hretry hrun hskew => ?_,
      fun u hretry hdue hst => ?_, fun hst hroom hidle => ?_, fun hlane hone hrun hnew hfind => ?_⟩⟩
  · rw [exec_portSignalDetect, portSignalDetect_noted hq hrun hst href hlane hshort]
    exact ⟨_, _, rfl, rfl, by rw [State.updPort_port?_self, State.begin_port?, hq]; rfl, rfl,
      fun i hi => s.begin.updPort_port?_ne _ hi⟩
  · obtain ⟨b, hb⟩ := s.begin.reSpeed_eq p fun q => { q with speedRun := q.cfg.speed, active := laneBits q.cfg.speed }
    rw [exec_waitSignalTimeout, waitSignalTimeout_trains hq hrun hst href hsince hopen hall, hb]
    obtain ⟨t, q', ht, hframe, hfaults, hq', ⟨hst', hsince', -, hcfg, -, hwidth⟩, hother⟩ := State.portTo_changed hq
      (fun q => { q with speedRun := q.cfg.speed, active := laneBits q.cfg.speed }) b (ne_of_eq_of_ne hst (by decide)) 2
    obtain ⟨hactive, hspeed⟩ := hwidth (.inl rfl)
    exact ⟨t, q', congrArg _ ht, hframe, hfaults, hq', hst', hsince', hspeed, hactive, hcfg, hother⟩
  · rw [exec_trainDone, trainDone_aligns hq hrun hst hretry]
    obtain ⟨t, q', ht, hframe, hfaults, hq', ⟨hst', hsince', -, hcfg, hinv, hwidth⟩, hother⟩ := State.portTo_changed hq
      (fun q => { q with rxInverted := inv &&& q.active }) s.buckets (ne_of_eq_of_ne hst (by decide)) 3
    obtain ⟨-, hspeed⟩ := hwidth (.inr rfl)
    exact ⟨t, q', congrArg _ ht, hframe, hfaults, hq', hst', hsince', hinv, hspeed, hcfg, hother⟩
  · obtain ⟨fs, ht, hrec⟩ := alignDone_up hq hrun hst hretry hskew order
    rw [exec_alignDone, ht, hred]
    exact ⟨_, q.goesUp s.now order, rfl, rfl, State.wentUp_port? hq order fs, rfl, rfl, rfl,
      fun i hi => s.wentUp_port?_ne order fs hi, hrec hroom⟩
  · exact ⟨_, exec_trainTimeout p s, State.retries_only hq (trainTimeout_fails hq hst hretry hlate)⟩
  · exact ⟨_, exec_alignTimeout p s, State.retries_only hq (alignTimeout_fails hq hst hretry hlate)⟩
  · exact ⟨_, exec_alignDone p order skew s, State.retries_only hq (alignDone_skewed hq hrun hst hretry hskew order)⟩
  · obtain ⟨fn, fs, ps, b, w, q', ht, hfs, hq', ⟨hst', hsince', hretry', hcfg, -⟩, hother⟩ :=
      State.portTo_restarts (s := s.begin) hq 1
    rw [exec_bringupRetryExpiry, bringupRetryExpiry_restarts hq hretry hdue, ht]
    exact ⟨_, q', rfl, rfl, hfs hst, hq', hst', hsince', hretry', hcfg, hother⟩
  · obtain ⟨b, fs, w, ps, cs, ht, hcount, hrec⟩ := linkLoss_down hq hst hidle
    rw [exec_linkLoss, ht]
    refine ⟨_, q.restartedTo 1 s.now w ps cs, rfl, rfl, (FMap.find?_upd_self ..).trans (congrArg _ hq), rfl, rfl, fun c => ?_,
      rfl, hcount, fun i hi => FMap.find?_upd_ne _ _ _ _ hi, hrec hroom⟩
    rw [List.getD_eq_getElem?_getD]
    exact List.getElem?_getD_replicate_default_eq [] 8 c
  · obtain ⟨fs, ht, hport⟩ := laneShorted_held hlane hone hrun hnew hq hfind
    obtain ⟨fn, fs', ps, b, w, q', ht', -, hq', ⟨hst', hsince', -, hcfg, -⟩, hother⟩ := State.portTo_restarts hport 5
    rw [exec_laneShorted, ht, ht']
    exact ⟨_, q', rfl, rfl, rfl, hq', hst', hsince', hcfg, fun i hi => (hother i hi).trans (FMap.find?_upd_ne _ _ _ _ hi)⟩

/-- Settles O60: skew within 180 ns takes the port UP, also where its width is reduced; greater skew arms the retry. -/
theorem alignToleratesSkew : Obligations.AlignToleratesSkew := by
  unfold Obligations.AlignToleratesSkew
  intro s p order skew q hq hrun hst hretry
  refine ⟨fun hskew => ?_, fun hskew => ⟨_, exec_alignDone p order skew s,
    State.retries_only hq (alignDone_skewed hq hrun hst hretry hskew order)⟩⟩
  obtain ⟨fs, ht, -⟩ := alignDone_up hq hrun hst hretry hskew order
  have hport := State.wentUp_port? hq order fs
  rw [exec_alignDone, ht]
  split
  · obtain ⟨m, a, f, o, hdown, -⟩ := State.instanceDown_touches 
      ((s.wentUp p order fs).updPort p fun q => { q with reducedUp := true }) 12 p false
    rw [hdown]
    exact ⟨_, { q.goesUp s.now order with reducedUp := true }, rfl, rfl, (FMap.find?_upd_self ..).trans (congrArg _ hport), rfl, rfl,
      fun i hi => (FMap.find?_upd_ne _ _ _ _ hi).trans (s.wentUp_port?_ne order fs hi)⟩
  · exact ⟨_, q.goesUp s.now order, rfl, rfl, hport, rfl, rfl, fun i hi => s.wentUp_port?_ne order fs hi⟩

end Sys2Proof.Machine
end

section
/-! PROOF. What the MAC may change of a port: counts, pause frames sent, and the tests of the pause watchdogs (R136 to R139, R142). -/

namespace Sys2Proof.Machine

/-! ### One port and the fault log -/

/-- `t` is `s` but for port `p`, which is now `q`, the output and the fault log's writer. -/
def State.macSet (s t : State) (p : Nat) (q : Port) : Prop :=
  t = { s with out := t.out, faults := t.faults, ports := t.ports } ∧ t.port? p = some q ∧ ∀ i, i ≠ p → t.port? i = s.port? i

theorem State.macSet_refl {s : State} {p : Nat} {q : Port} (h : s.port? p = some q) : s.macSet s p q := ⟨rfl, h, fun _ _ => rfl⟩

theorem State.macSet_trans {s t u : State} {p : Nat} {q r : Port} (h : s.macSet t p q) (k : t.macSet u p r) : s.macSet u p r := by
  obtain ⟨ht, -, hne⟩ := h
  obtain ⟨hu, hr, hne'⟩ := k
  exact ⟨hu.trans (congrArg (fun x : State => { x with out := u.out, faults := u.faults, ports := u.ports }) ht), hr,
    fun i hi => (hne' i hi).trans (hne i hi)⟩

theorem State.macSet_port? {s t : State} {p : Nat} {q : Port} (h : s.macSet t p q) : t.port? p = some q := by
  obtain ⟨-, hq, -⟩ := h
  exact hq

theorem State.macSet_now {s t : State} {p : Nat} {q : Port} (h : s.macSet t p q) : t.now = s.now := by rw [h.1]

theorem State.begin_macSet {s : State} {p : Nat} {q : Port} (h : s.port? p = some q) : s.macSet s.begin p q :=
  ⟨rfl, h, fun _ _ => rfl⟩

theorem State.updPort_macSet {s : State} {p : Nat} {q : Port} (h : s.port? p = some q) (f : Port → Port) :
    s.macSet (s.updPort p f) p (f q) :=
  ⟨rfl, (s.updPort_port?_self p f).trans (congrArg _ h), fun _ hi => s.updPort_port?_ne f hi⟩

theorem State.fault_macSet {s : State} {p : Nat} {q : Port} (h : s.port? p = some q) (cls kind id : Nat) (d0 d1 : Word) :
    s.macSet (s.fault cls kind id d0 d1) p q := by
  obtain ⟨fs, hfs, -⟩ := s.fault_touches cls kind id d0 d1
  rw [hfs]
  exact ⟨rfl, h, fun _ _ => rfl⟩

/-- A change of a port depends on that port only. -/
theorem State.updPort_of_port? {s : State} {p : Nat} {q : Port} (h : s.port? p = some q) (f : Port → Port) :
    s.updPort p f = s.updPort p fun _ => f q := by
  have hq : s.ports.find? p = some q := h
  simp only [State.updPort, FMap.upd, hq]

/-! ### What a frame received leaves of its port -/

/-- What neither pause nor receive counts and queues touch. -/
def Port.stays (q q' : Port) : Prop := q'.cfg = q.cfg ∧ q'.st = q.st ∧ q'.txq = q.txq

theorem Port.stays_trans {q r u : Port} (h : q.stays r) (k : r.stays u) : q.stays u := by
  obtain ⟨h1, h2, h3⟩ := h
  obtain ⟨k1, k2, k3⟩ := k
  exact ⟨k1.trans h1, k2.trans h2, k3.trans h3⟩

theorem Port.stays_of_accounts {q q' : Port} (h : q.accounts q') : q.stays q' := by
  obtain ⟨hcfg, hst, htxq, -⟩ := Port.accounts_keeps h
  exact ⟨hcfg, hst, htxq⟩

/-! ### Watchdogs (R138) -/

/-- A port whose watchdog `k` trips at `t` ps, which ends the hold. -/
def Port.trips (q : Port) (k t : Nat) : Port :=
  ((q.settle k t).setHold k none).setWatch k { (q.settle k t).watch.getD k {} with tripped := true }

theorem Port.trips_watches (q : Port) (k t : Nat) : Port.watches k q (q.trips k t) :=
  Port.watches_trans (q.settle_watches k t) (Port.watches_trans (Port.setHold_watches _ k none) (Port.setWatch_watches _ k _))

theorem Port.trips_hold (q : Port) (k t : Nat) : (q.trips k t).hold k = none := by simp [Port.trips]

/-- Below 10 ms, or where it is tripped already, a watchdog's test only accounts held time. -/
theorem State.watchTest_quiet {s : State} {p k : Nat} {q : Port} (hq : s.port? p = some q)
    (h : ((q.settle k (s.now * 1000)).watch.getD k {}).total < 10000 ∨ (q.watch.getD k {}).tripped = true) :
    s.watchTest p k = s.updPort p fun _ => q.settle k (s.now * 1000) := by
  have hcond : ¬ (decide (10000 ≤ ((q.settle k (s.now * 1000)).watch.getD k {}).total) &&
      !((q.settle k (s.now * 1000)).watch.getD k {}).tripped) = true := by
    rw [q.settle_tripped]
    rcases h with h | h
    · rw [decide_eq_false (Nat.not_le.mpr h), Bool.false_and]
      decide
    · rw [h, Bool.not_true, Bool.and_false]
      decide
  unfold State.watchTest
  simp only [hq]
  exact if_neg hcond

/-- With 10 ms or more in its window a watchdog trips. -/
theorem State.watchTest_trips {s : State} {p k : Nat} {q : Port} (hq : s.port? p = some q)
    (htotal : 10000 ≤ ((q.settle k (s.now * 1000)).watch.getD k {}).total) (htrip : (q.watch.getD k {}).tripped = false) :
    s.watchTest p k = (s.updPort p fun _ => q.trips k (s.now * 1000)).fault 0x0B 4 p (w32 k) 0 := by
  have hcond : (decide (10000 ≤ ((q.settle k (s.now * 1000)).watch.getD k {}).total) &&
      !((q.settle k (s.now * 1000)).watch.getD k {}).tripped) = true := by
    rw [q.settle_tripped, htrip, decide_eq_true htotal]
    rfl
  unfold State.watchTest
  simp only [hq]
  refine (if_pos hcond).trans ?_
  simp only [Port.trips, Port.setWatch, Port.setHold_watch]

/-- A watchdog's test changes its hold, its window, and the fault log. -/
theorem State.watchTest_macSet {s : State} {p : Nat} {q : Port} (hq : s.port? p = some q) (k : Nat) :
    ∃ q', s.macSet (s.watchTest p k) p q' ∧ Port.watches k q q' := by
  by_cases h : ((q.settle k (s.now * 1000)).watch.getD k {}).total < 10000 ∨ (q.watch.getD k {}).tripped = true
  · rw [State.watchTest_quiet hq h]
    exact ⟨_, State.updPort_macSet hq _, q.settle_watches k _⟩
  · obtain ⟨htotal, htrip⟩ := not_or.mp h
    rw [State.watchTest_trips hq (Nat.not_lt.mp htotal) (Bool.eq_false_iff.mpr htrip)]
    have hset := State.updPort_macSet hq fun _ => q.trips k (s.now * 1000)
    exact ⟨_, State.macSet_trans hset (State.fault_macSet (State.macSet_port? hset) ..), q.trips_watches k _⟩

theorem State.foldl_watchTest_macSet {s : State} {p : Nat} {q : Port} (hq : s.port? p = some q) (ks : List Nat) :
    ∃ q', s.macSet (ks.foldl (State.watchTest p) s) p q' ∧ q.accounts q' := by
  induction ks generalizing s q with
  | nil => exact ⟨q, State.macSet_refl hq, q.accounts_refl⟩
  | cons k ks ih =>
    obtain ⟨r, hr, hqr, -⟩ := State.watchTest_macSet hq k
    obtain ⟨u, hu, hru⟩ := ih (State.macSet_port? hr)
    exact ⟨u, State.macSet_trans hr hu, Port.accounts_trans hqr hru⟩

/-! ### Pause frames received (R136 to R138) -/

/-- A pause time accounts the hold and replaces it, where the watchdog is not tripped. -/
theorem Port.pause_untripped {q : Port} {k : Nat} (h : (q.watch.getD k {}).tripped = false) (quanta now : Nat) :
    q.pause k quanta now = (q.settle k (now * 1000)).setHold k (if quanta = 0 then none else some {
      from_ := max (now * 1000) q.busyUntil
      until_ := max (now * 1000) q.busyUntil + quanta * quantumPs q.speedRun }) := by
  obtain ⟨-, -, -, -, -, -, -, hbusy, hspeed⟩ :=
    Port.accounts_keeps (Port.watches_accounts (q.settle_watches k (now * 1000)))
  unfold Port.pause
  simp only [h, hbusy, hspeed, Bool.false_eq_true, if_false]
  split <;> rfl

theorem Port.pause_hold {q : Port} {k : Nat} (h : (q.watch.getD k {}).tripped = false) (quanta now : Nat) :
    (q.pause k quanta now).hold k = if quanta = 0 then none else some {
      from_ := max (now * 1000) q.busyUntil
      until_ := max (now * 1000) q.busyUntil + quanta * quantumPs q.speedRun } := by
  rw [Port.pause_untripped h, Port.hold_setHold_self]

theorem Port.pause_accounts (q : Port) (k quanta now : Nat) : q.accounts (q.pause k quanta now) := by
  cases h : (q.watch.getD k {}).tripped with
  | true =>
    rw [Port.pause]
    simp only [h, if_true]
    exact q.accounts_refl
  | false =>
    rw [Port.pause_untripped h]
    exact Port.accounts_trans (Port.watches_accounts (q.settle_watches k _)) (Port.watches_accounts (Port.setHold_watches _ k _))

theorem Port.pfcTimes_accounts (q : Port) (enable : Nat) (quanta : List Nat) (now : Nat) :
    q.accounts (q.pfcTimes enable quanta now) := by
  unfold Port.pfcTimes
  induction (List.range 8).filter fun p => q.cfg.pfc.testBit p && enable.testBit p generalizing q with
  | nil => exact q.accounts_refl
  | cons k ks ih => exact Port.accounts_trans (q.pause_accounts k _ now) (ih _)

theorem Port.countIgnored_stays (q : Port) (holds : List Nat) : q.stays (q.countIgnored holds) := by
  unfold Port.countIgnored
  split <;> exact ⟨rfl, rfl, rfl⟩

/-! ### Pause frames sent (R139) -/

/-- A port that has sent a pause or PFC frame. -/
def Port.pauseSent (q : Port) (quanta now : Nat) : Port :=
  { q with
    txPaused := quanta != 0, lastPauseTx := now, counters := bump q.counters (if q.cfg.pfc != 0 then 19 else 18) 1 }

theorem State.sendPause_eq {s : State} {p : Nat} {q : Port} (hq : s.port? p = some q) (quanta : Nat) :
    s.sendPause p quanta = (s.emit (.pause p (q.cfg.pfc != 0) q.cfg.pfc quanta)).updPort p fun _ => q.pauseSent quanta s.now := by
  have hq' : (s.emit (.pause p (q.cfg.pfc != 0) q.cfg.pfc quanta)).port? p = some q := hq
  unfold State.sendPause
  simp only [hq, State.countPort, State.updPort_updPort]
  rw [State.updPort_of_port? hq']
  rfl

theorem State.pauseCheck_macSet {s : State} {p : Nat} {q : Port} (hq : s.port? p = some q) (before : Nat) :
    ∃ a n cs, s.macSet (s.pauseCheck p before) p { q with txPaused := a, lastPauseTx := n, counters := cs } := by
  have hsend (quanta : Nat) : ∃ a n cs,
      s.macSet (s.sendPause p quanta) p { q with txPaused := a, lastPauseTx := n, counters := cs } := by
    rw [State.sendPause_eq hq]
    have hemit : s.macSet (s.emit (.pause p (q.cfg.pfc != 0) q.cfg.pfc quanta)) p q := ⟨rfl, hq, fun _ _ => rfl⟩
    exact ⟨_, _, _, State.macSet_trans hemit (State.updPort_macSet (State.macSet_port? hemit) fun _ => q.pauseSent quanta s.now)⟩
  have hsame : ∃ a n cs, s.macSet s p { q with txPaused := a, lastPauseTx := n, counters := cs } :=
    ⟨q.txPaused, q.lastPauseTx, q.counters, State.macSet_refl hq⟩
  unfold State.pauseCheck
  simp only [hq]
  split
  · exact hsame
  · split
    · exact hsend _
    · split
      · exact hsend _
      · exact hsame

end Sys2Proof.Machine
end

section
/-! PROOF. Frames that the MAC receives: the checks of R133, the receive queues, and pause frames (R122, R133 to R138). -/

namespace Sys2Proof.Machine

theorem exec_frameReceive (p : Nat) (f : Frame) (good bad : Nat) (sym : List Nat) (s : State) :
    exec (.frameReceive p f good bad sym) s = .next (frameReceive p f good bad sym s) := rfl

/-! ### The receive queues (R135) -/

/-- A port with a frame put into its packet pipeline queue and counted. -/
def Port.pipePut (q : Port) (r : RxFrame) : Port :=
  { q with pipeQ := q.pipeQ ++ [r], counters := bump (bump q.counters 0 1) 1 r.frame.length }

theorem State.enqueueRx_pipe {s : State} {p : Nat} {q : Port} (hq : s.port? p = some q) {f : Frame} (hc : s.carries = true)
    (hroom : q.fill + f.length ≤ q.pipeCap) : s.enqueueRx p q f 0 = (s.updPort p fun _ =>
      q.pipePut { frame := f, stamps := s.rxStamps q.speedRun, at_ := s.time.elapsed }).pauseCheck p q.fill := by
  have hroom' : ¬ q.pipeCap < q.fill + f.length := Nat.not_lt.mpr hroom
  simp only [State.enqueueRx, hc, Bool.not_true, Bool.false_eq_true, if_false, if_neg hroom', State.countPort, State.updPort_updPort]
  rw [State.updPort_of_port? hq]
  rfl

/-- A frame steered to a queue changes its port's receive queues and counts, and may send a pause frame. -/
theorem State.enqueueRx_macSet {s : State} {p : Nat} {q : Port} (hq : s.port? p = some q) (f : Frame) (queue : Nat) :
    ∃ q', s.macSet (s.enqueueRx p q f queue) p q' ∧ q.stays q' := by
  have hcount (i : Nat) : ∃ q', s.macSet (s.countPort p i 1) p q' ∧ q.stays q' := ⟨_, State.updPort_macSet hq _, rfl, rfl, rfl⟩
  have hput (g : Port → Port) (hg : ∀ q : Port, q.stays (g q)) :
      ∃ q', s.macSet (((s.updPort p g).countPort p 0 1).countPort p 1 f.length) p q' ∧ q.stays q' := by
    simp only [State.countPort, State.updPort_updPort]
    exact ⟨_, State.updPort_macSet hq _, hg q⟩
  unfold State.enqueueRx
  simp only
  split
  · split
    · exact hcount 12
    · split
      · exact hcount 8
      · obtain ⟨q', hset, hsame⟩ := hput
          (fun q' => { q' with pipeQ := q'.pipeQ ++ [{ frame := f, stamps := s.rxStamps q.speedRun, at_ := s.time.elapsed }] })
          fun _ => ⟨rfl, rfl, rfl⟩
        obtain ⟨a, n, cs, hcheck⟩ := State.pauseCheck_macSet (State.macSet_port? hset) q.fill
        exact ⟨_, State.macSet_trans hset hcheck, hsame⟩
  · split
    · exact hcount 9
    · exact hput _ fun _ => ⟨rfl, rfl, rfl⟩
  · split
    · exact hcount 10
    · exact hput _ fun _ => ⟨rfl, rfl, rfl⟩
  · split
    · exact hcount 11
    · exact hput _ fun _ => ⟨rfl, rfl, rfl⟩
  · exact hcount 7

/-! ### The checks (R133) -/

/-- Whatever comes of a frame, it leaves the port's configuration, state and transmit queues, and every other port. -/
theorem State.macReceive_macSet {s : State} {p : Nat} {q : Port} (hq : s.port? p = some q) (f : Frame) :
    ∃ q', s.macSet (s.macReceive p q f) p q' ∧ q.stays q' := by
  have hcount (i : Nat) : ∃ q', s.macSet (s.countPort p i 1) p q' ∧ q.stays q' := ⟨_, State.updPort_macSet hq _, rfl, rfl, rfl⟩
  have hwatch (i : Nat) (ks : List Nat) : ∃ q', s.macSet (ks.foldl (State.watchTest p) (s.countPort p i 1)) p q' ∧ q.stays q' := by
    obtain ⟨r, hset, hr⟩ := hcount i
    obtain ⟨q', hfold, hsame⟩ := State.foldl_watchTest_macSet (State.macSet_port? hset) ks
    exact ⟨q', State.macSet_trans hset hfold, Port.stays_trans hr (Port.stays_of_accounts hsame)⟩
  have hpause (i : Nat) (ks : List Nat) (g : Port → Port) (hg : ∀ q : Port, q.stays (g q)) :
      ∃ q', s.macSet ((ks.foldl (State.watchTest p) (s.countPort p i 1)).updPort p g) p q' ∧ q.stays q' := by
    obtain ⟨q', hset, hsame⟩ := hwatch i ks
    exact ⟨_, State.macSet_trans hset (State.updPort_macSet (State.macSet_port? hset) g), Port.stays_trans hsame (hg q')⟩
  unfold State.macReceive
  split
  · exact hcount 2
  split
  · exact hcount 3
  split
  · exact hcount 4
  simp only
  split
  · split
    · exact hpause 13 _ _ fun r => Port.stays_trans (r.countIgnored_stays _) (Port.stays_of_accounts (Port.pause_accounts ..))
    · exact hwatch 13 _
  · exact hpause 14 _ _ fun r => Port.stays_trans (r.countIgnored_stays _) (Port.stays_of_accounts (Port.pfcTimes_accounts ..))
  · split
    · exact hcount 5
    · split
      · exact hcount 6
      · exact State.enqueueRx_macSet hq f _

theorem Port.countIgnored_none {q : Port} {holds : List Nat} (h : ∀ k ∈ holds, (q.watch.getD k {}).tripped = false) :
    q.countIgnored holds = q := if_neg (by simpa using h)

theorem State.macReceive_badFcs (s : State) (p : Nat) (q : Port) {f : Frame} (h : f.fcsOk = false) :
    s.macReceive p q f = s.countPort p 2 1 := by
  simp only [State.macReceive, h, Bool.not_false, if_true]

section
variable {s : State} {p : Nat} {q : Port} {f : Frame} (hq : s.port? p = some q) (hfcs : f.fcsOk = true)
  (hmin : 64 ≤ f.length) (hmax : f.length ≤ q.cfg.maxFrame)
include hq hfcs hmin hmax

/-- A frame that passes the filters and is steered to the packet pipeline. -/
theorem State.macReceive_pipe (hctl : frameCtl f = .none) (haddr : q.cfg.addrOk f.da = true)
    (hvlan : q.cfg.vlanOk (frameVid (parsedTags f).1) = true)
    (hsteer : q.cfg.steer f (parsedTags f).2 (frameVid (parsedTags f).1) (framePcp (parsedTags f).1 q.cfg.defaultPcp) = 0)
    (hc : s.carries = true) (hroom : q.fill + f.length ≤ q.pipeCap) : s.macReceive p q f = (s.updPort p fun _ =>
      q.pipePut { frame := f, stamps := s.rxStamps q.speedRun, at_ := s.time.elapsed }).pauseCheck p q.fill := by
  rw [← State.enqueueRx_pipe hq hc hroom]
  simp only [State.macReceive, hfcs, hctl, haddr, hvlan, hsteer, if_neg (Nat.not_lt.mpr hmin), if_neg (Nat.not_lt.mpr hmax),
    Bool.not_true, Bool.false_eq_true, if_false]

/-- A pause frame at a port that obeys pause and whose watchdog has room: its time replaces the hold's. -/
theorem State.macReceive_pause {quanta : Nat} (hctl : frameCtl f = .pause quanta) (hobeys : q.cfg.pauseRx = true)
    (htrip : (q.watch.getD 8 {}).tripped = false) (htotal : ((q.settle 8 (s.now * 1000)).watch.getD 8 {}).total < 10000) :
    s.macReceive p q f = s.updPort p fun _ =>
      ((q.withCounts (bump q.counters 13 1)).settle 8 (s.now * 1000)).pause 8 quanta s.now := by
  have hcounted : s.countPort p 13 1 = s.updPort p fun _ => q.withCounts (bump q.counters 13 1) := State.updPort_of_port? hq _
  have hport := State.macSet_port? (State.updPort_macSet hq fun _ => q.withCounts (bump q.counters 13 1))
  have hquiet := State.watchTest_quiet (k := 8) hport (.inl (by
    rw [Port.settle_withCounts_watch]
    exact htotal))
  have hignored := Port.countIgnored_none (holds := [8]) (q := (q.withCounts (bump q.counters 13 1)).settle 8 (s.now * 1000))
    (by
      intro k hk
      obtain rfl := List.mem_singleton.mp hk
      rw [Port.settle_withCounts_watch, Port.settle_tripped]
      exact htrip)
  simp only [State.macReceive, hfcs, hctl, hobeys, PortCfg.holds, if_neg (Nat.not_lt.mpr hmin), if_neg (Nat.not_lt.mpr hmax),
    Bool.not_true, Bool.false_eq_true, if_false, if_true, List.foldl_cons, List.foldl_nil]
  rw [hcounted, hquiet, State.updPort_updPort, State.updPort_updPort]
  exact congrArg (fun r : Port => s.updPort p fun _ => r.pause 8 quanta s.now) hignored

end

/-! ### The codewords that come with a frame (R122, R142) -/

/-- Counts in the counters from `n` on leave those before. -/
theorem State.foldl_countPort (s : State) (p : Nat) (q : Port) (cond : Nat → Prop) [DecidablePred cond] (n : Nat) (k : Nat → Nat)
    (l : List Nat) (cs : List Nat) : ∃ ds, (∀ i, i < n → ds[i]? = cs[i]?) ∧
      l.foldl (fun t i => if cond i then State.countPort t p (n + i) (k i) else t) (s.updPort p fun _ => q.withCounts cs) =
        s.updPort p fun _ => q.withCounts ds := by
  induction l generalizing cs with
  | nil => exact ⟨cs, fun _ _ => rfl, rfl⟩
  | cons i l ih =>
    rw [List.foldl_cons]
    split
    · rw [State.countPort, State.updPort_updPort]
      obtain ⟨ds, hc, he⟩ := ih (bump cs (n + i) (k i))
      exact ⟨ds, fun j hj => (hc j hj).trans (getElem?_bump_ne _ _ (by omega)), he⟩
    · exact ih cs

/-- A port that is UP counts a frame's codewords, and then checks the frame. -/
theorem frameReceive_up {s : State} {p : Nat} {q : Port} (hq : s.port? p = some q) (hrun : s.portsRun = true) (hst : q.st = 4)
    (f : Frame) (good bad : Nat) (sym : List Nat) : ∃ cs, (∀ i, i < 26 → cs[i]? = q.counters[i]?) ∧
      frameReceive p f good bad sym s = (s.begin.updPort p fun _ => q.withCounts cs).macReceive p (q.withCounts cs)
        { f with fcsOk := f.fcsOk && bad == 0 } := by
  obtain ⟨cs, hc, he⟩ := State.foldl_countPort s.begin p q (· < lanesOf q.cfg.speed) 28 (sym.getD · 0) (List.range 4)
    (bump (bump q.counters 26 good) 27 bad)
  refine ⟨cs, fun i hi => (hc i (by omega)).trans
    ((getElem?_bump_ne _ _ (by omega)).trans (getElem?_bump_ne _ _ (by omega))), ?_⟩
  have hport : (s.begin.updPort p fun _ => q.withCounts cs).port? p = some (q.withCounts cs) :=
    (s.begin.updPort_port?_self p _).trans (congrArg _ hq)
  have hcounts : (s.begin.countPort p 26 good).countPort p 27 bad =
      s.begin.updPort p fun _ => q.withCounts (bump (bump q.counters 26 good) 27 bad) := by
    rw [State.countPort, State.countPort, State.updPort_updPort]
    exact State.updPort_of_port? (s := s.begin) hq _
  simp only [frameReceive, State.begin_port?, hq, State.begin_portsRun, hrun, hst, bne_self_eq_false, Bool.not_true, Bool.or_self,
    Bool.false_eq_true, if_false, hcounts]
  rw [he]
  simp only [hport]

/-- A frame whose FCS and codewords are right is checked as it stands. -/
theorem Frame.fcsOk_intact {f : Frame} (h : f.fcsOk = true) : { f with fcsOk := f.fcsOk && (0 : Nat) == 0 } = f := by
  rw [h, beq_self_eq_true, Bool.and_self, ← h]

/-- Settles O26: every frame leaves the port's configuration, state and transmit queues; then the three cases by themselves. -/
theorem macReceivesFrames : Obligations.MacReceivesFrames := by
  unfold Obligations.MacReceivesFrames
  intro s p q f good bad sym hq hrun hst
  obtain ⟨cs, hc, he⟩ := frameReceive_up hq hrun hst f good bad sym
  have hcounted := State.macSet_trans (State.begin_macSet hq) (State.updPort_macSet (s := s.begin) hq fun _ => q.withCounts cs)
  have hport := State.macSet_port? hcounted
  obtain ⟨q', hset, hcfg, hst', htxq⟩ := State.macReceive_macSet hport { f with fcsOk := f.fcsOk && bad == 0 }
  obtain ⟨hframe, hq', hother⟩ := State.macSet_trans hcounted hset
  rw [exec_frameReceive, he]
  refine ⟨_, q', rfl, hframe, hq', hcfg, hst'.trans hst, htxq, hother, fun hbad => ?_,
    fun hfcs hgood hmin hmax hctl haddr hvlan hsteer hcar hroom => ?_,
    fun quanta hfcs hgood hmin hmax hctl hobeys htrip htotal => ?_⟩
  · have hfcs : (f.fcsOk && bad == 0) = false := by rcases hbad with h | h <;> simp [h]
    rw [State.macReceive_badFcs _ _ _ (f := { f with fcsOk := f.fcsOk && bad == 0 }) hfcs] at hq' ⊢
    obtain rfl := Option.some.inj (hq'.symm.trans (State.macSet_port? (State.updPort_macSet hport _)))
    exact ⟨by simp [Port.withCounts, bump, List.getD_eq_getElem?_getD, hc 2], rfl, rfl, rfl, rfl, rfl, rfl⟩
  · subst hgood
    rw [Frame.fcsOk_intact hfcs, State.macReceive_pipe hport hfcs hmin hmax hctl haddr hvlan hsteer hcar hroom] at hq'
    obtain ⟨a, n, es, hcheck⟩ := State.pauseCheck_macSet (State.macSet_port? (State.updPort_macSet hport fun _ =>
      (q.withCounts cs).pipePut { frame := f, stamps := s.rxStamps q.speedRun, at_ := s.time.elapsed })) q.fill
    obtain rfl := Option.some.inj (hq'.symm.trans (State.macSet_port? hcheck))
    exact ⟨rfl, rfl, rfl, rfl⟩
  · subst hgood
    have htotal' : (((q.withCounts cs).settle 8 (s.now * 1000)).watch.getD 8 {}).total < 10000 := by
      rw [Port.settle_withCounts_watch]
      exact htotal
    rw [Frame.fcsOk_intact hfcs, State.macReceive_pause hport hfcs hmin hmax hctl hobeys htrip htotal'] at hq' ⊢
    obtain rfl := Option.some.inj (hq'.symm.trans (State.macSet_port? (State.updPort_macSet hport _)))
    have hwatch := ((q.withCounts cs).withCounts (bump cs 13 1)).settle_watches 8 (s.now * 1000)
    have htrip' : ((((q.withCounts cs).withCounts (bump cs 13 1)).settle 8 (s.now * 1000)).watch.getD 8 {}).tripped = false := by
      rw [Port.settle_tripped]
      exact htrip
    obtain ⟨-, -, -, hpipe, -, -, -, hbusy, hspeed⟩ := Port.accounts_keeps (Port.watches_accounts hwatch)
    have hhold := Port.pause_hold htrip' quanta s.now
    obtain ⟨-, -, -, hpipe', -⟩ := Port.accounts_keeps (Port.pause_accounts
      (((q.withCounts cs).withCounts (bump cs 13 1)).settle 8 (s.now * 1000)) 8 quanta s.now)
    rw [hbusy, hspeed] at hhold
    exact ⟨fun h => hhold.trans (if_neg (Nat.ne_of_gt h)), fun h => hhold.trans (if_pos h), hpipe'.trans hpipe, rfl, rfl⟩

end Sys2Proof.Machine
end

section
/-! PROOF. Pause holds that end, their watchdogs at the 1 ms boundaries, and pause frames sent again (R136 to R139). -/

namespace Sys2Proof.Machine

theorem exec_pauseHoldExpiry (p which : Nat) (s : State) : exec (.pauseHoldExpiry p which) s = .next (pauseHoldExpiry p which s) := rfl

theorem exec_pauseWatchdogInterval (p : Nat) (s : State) :
    exec (.pauseWatchdogInterval p) s = .next (pauseWatchdogInterval p s) := rfl

theorem exec_pauseTxRepeat (p : Nat) (s : State) : exec (.pauseTxRepeat p) s = .next (pauseTxRepeat p s) := rfl

/-! ### Holds that end (R136, R138) -/

/-- A hold whose time has come, or whose watchdog has 10 ms in its window, ends. -/
theorem pauseHoldExpiry_ends {s : State} {p which : Nat} {q : Port} {h : Hold} (hq : s.port? p = some q) (hh : q.hold which = some h)
    (hend : h.until_ ≤ s.now * 1000 ∨ (q.watch.getD which {}).tripped = false ∧
      10000 ≤ ((q.settle which (s.now * 1000)).watch.getD which {}).total) :
    ∃ q', s.macSet (pauseHoldExpiry p which s) p q' ∧ q'.hold which = none ∧ q.accounts q' := by
  have hq0 : s.begin.port? p = some q := hq
  have hbegin := State.begin_macSet hq
  obtain ⟨r, hr, hqr, -⟩ := State.watchTest_macSet hq0 which
  have hport := State.macSet_port? hr
  have hnow : (s.begin.watchTest p which).now = s.now := State.macSet_now hr
  have htest := State.macSet_trans hbegin hr
  unfold pauseHoldExpiry
  simp only [State.begin_port?, hq, Option.bind_some, hh, hnow]
  split
  · exact ⟨_, State.macSet_trans htest (State.updPort_macSet hport fun q => q.setHold which none), r.hold_setHold_self which none,
      Port.accounts_trans hqr (Port.watches_accounts (r.setHold_watches which none))⟩
  next hrest =>
    obtain ⟨htrip, htotal⟩ := hend.resolve_left hrest
    have hset := State.updPort_macSet hq0 fun _ => q.trips which (s.now * 1000)
    rw [State.watchTest_trips hq0 htotal htrip]
    exact ⟨_, State.macSet_trans hbegin (State.macSet_trans hset (State.fault_macSet (State.macSet_port? hset) ..)),
      q.trips_hold which _, Port.watches_accounts (q.trips_watches which _)⟩

/-! ### The 1 ms boundaries (R138) -/

/-- Watchdog `k` as a boundary leaves it: tripped exactly while its last 99 intervals add up to 10 ms, and then without a hold. -/
def Port.watched (q : Port) (k : Nat) : Prop :=
  (q.watch.getD k {}).tripped = decide (10000 ≤ (q.watch.getD k {}).past.sum) ∧ (q.watch.getD k {}).past.length ≤ 99 ∧
    ((q.watch.getD k {}).tripped = true → q.hold k = none)

theorem Port.watched_of_same {q r : Port} {k : Nat} (hh : r.hold k = q.hold k) (hw : r.watch.getD k {} = q.watch.getD k {})
    (h : q.watched k) : r.watched k := by
  unfold Port.watched
  rw [hh, hw]
  exact h

/-- The window of watchdog `k` of a port after the boundary at `now` ns, with idle intervals for boundaries unseen. -/
def Port.window (q : Port) (k now : Nat) : Watch :=
  let w := (q.settle k (now * 1000)).watch.getD k {}
  let past := (w.held / 1000000 :: List.replicate (min (now / 1000000 - (q.settle k (now * 1000)).watchAt - 1) 99) 0 ++ w.past).take 99
  { past := past, held := w.held % 1000000, tripped := decide (10000 ≤ past.sum) }

/-- A port after the boundary at `now` ns for its watchdog `k`. -/
def Port.boundary (q : Port) (k now : Nat) : Port :=
  let r := (q.settle k (now * 1000)).setWatch k (q.window k now)
  if (q.window k now).tripped then r.setHold k none else r

theorem Port.boundary_watches (q : Port) (k now : Nat) : Port.watches k q (q.boundary k now) := by
  have hset := Port.watches_trans (q.settle_watches k (now * 1000)) (Port.setWatch_watches _ k (q.window k now))
  unfold Port.boundary
  simp only
  split
  · exact Port.watches_trans hset (Port.setHold_watches _ k none)
  · exact hset

theorem Port.boundary_watched {q : Port} {k : Nat} (hk : k < q.watch.length) (now : Nat) : (q.boundary k now).watched k := by
  have hlen : k < (q.settle k (now * 1000)).watch.length := by rwa [Port.watches_length (q.settle_watches k (now * 1000))]
  have hwatch : (q.boundary k now).watch.getD k {} = q.window k now := by
    have hset := Port.setWatch_getD (q.window k now) hlen
    unfold Port.boundary
    simp only
    split
    · rw [Port.setHold_watch, hset]
    · exact hset
  unfold Port.watched
  rw [hwatch]
  refine ⟨rfl, List.length_take_le .., fun htrip => ?_⟩
  unfold Port.boundary
  simp only [htrip, if_true, Port.hold_setHold_self]

theorem watchBoundary_macSet {s : State} {p : Nat} {q : Port} (hq : s.port? p = some q) (k : Nat) :
    s.macSet (watchBoundary p s k) p (q.boundary k s.now) := by
  have hset := State.updPort_macSet hq fun _ => q.boundary k s.now
  unfold watchBoundary
  simp only [hq]
  split
  · exact State.macSet_trans hset (State.fault_macSet (State.macSet_port? hset) ..)
  · exact hset

/-- The boundaries of several watchdogs: each is taken once, and the others stay. -/
theorem foldl_watchBoundary {s : State} {p : Nat} {q : Port} (hq : s.port? p = some q) {ks : List Nat} (hnd : ks.Nodup)
    (hks : ∀ k ∈ ks, k < q.watch.length) : ∃ q', s.macSet (ks.foldl (watchBoundary p) s) p q' ∧ q.accounts q' ∧
      (∀ k ∈ ks, q'.watched k) ∧ ∀ j, j ∉ ks → q'.hold j = q.hold j ∧ q'.watch.getD j {} = q.watch.getD j {} := by
  induction ks generalizing s q with
  | nil => exact ⟨q, State.macSet_refl hq, q.accounts_refl, fun k hk => absurd hk List.not_mem_nil, fun _ _ => ⟨rfl, rfl⟩⟩
  | cons k ks ih =>
    obtain ⟨hk, hnd⟩ := List.nodup_cons.mp hnd
    obtain ⟨hklen, hks⟩ := List.forall_mem_cons.mp hks
    have hset := watchBoundary_macSet hq k
    obtain ⟨hacc, hlen, hsame⟩ := q.boundary_watches k s.now
    obtain ⟨u, hu, hacc', hwatched, hsame'⟩ := ih (State.macSet_port? hset) hnd (by rwa [hlen])
    refine ⟨u, State.macSet_trans hset hu, Port.accounts_trans hacc hacc', List.forall_mem_cons.mpr ⟨?_, hwatched⟩,
      fun j hj => ?_⟩
    · obtain ⟨hh, hw⟩ := hsame' k hk
      exact Port.watched_of_same hh hw (Port.boundary_watched hklen s.now)
    · obtain ⟨hjk, hjks⟩ := not_or.mp (mt List.mem_cons.mpr hj)
      obtain ⟨hh, hw⟩ := hsame j hjk
      obtain ⟨hh', hw'⟩ := hsame' j hjks
      exact ⟨hh'.trans hh, hw'.trans hw⟩

theorem pauseWatchdogInterval_due {s : State} {p : Nat} {q : Port} (hq : s.port? p = some q) (hlen : q.watch.length = 9)
    (hdue : q.watchAt < s.now / 1000000) : ∃ r, s.macSet (pauseWatchdogInterval p s) p { r with watchAt := s.now / 1000000 } ∧
      q.accounts r ∧ ∀ k, k < 9 → r.watched k := by
  obtain ⟨r, hset, hacc, hwatched, -⟩ := foldl_watchBoundary (s := s.begin) hq (List.nodup_range (n := 9))
    (fun k hk => by rw [hlen]; exact List.mem_range.mp hk)
  have hdue' : ¬ s.begin.now / 1000000 ≤ q.watchAt := Nat.not_le.mpr hdue
  refine ⟨r, ?_, hacc, fun k hk => hwatched k (List.mem_range.mpr hk)⟩
  simp only [pauseWatchdogInterval, State.begin_port?, hq, if_neg hdue']
  exact State.macSet_trans (State.begin_macSet hq) (State.macSet_trans hset
    (State.updPort_macSet (State.macSet_port? hset) fun q => { q with watchAt := s.now / 1000000 }))

/-! ### Pause frames sent again (R139) -/

theorem pauseTxRepeat_due {s : State} {p : Nat} {q : Port} (hq : s.port? p = some q) (hst : q.st = 4) (hsends : q.sendsPause = true)
    (hpaused : q.txPaused = true) (hfill : 3 * q.pipeCap ≤ 4 * q.fill)
    (hdue : q.lastPauseTx * 1000 + 0xFFFF * quantumPs q.speedRun / 2 ≤ s.now * 1000) :
    pauseTxRepeat p s = (s.begin.emit (.pause p (q.cfg.pfc != 0) q.cfg.pfc 0xFFFF)).updPort p fun _ => q.pauseSent 0xFFFF s.now := by
  have hdue' : decide (q.lastPauseTx * 1000 + 0xFFFF * quantumPs q.speedRun / 2 ≤ s.begin.now * 1000) = true := decide_eq_true hdue
  refine Eq.trans ?_ (State.sendPause_eq (s := s.begin) hq 0xFFFF)
  simp only [pauseTxRepeat, State.begin_port?, hq, hst, hsends, hpaused, decide_eq_true hfill, hdue', beq_self_eq_true,
    Bool.and_self, if_true]

end Sys2Proof.Machine
end

section
/-! PROOF. The start of a frame on the wire, and the statement on pause and starts (R140, R150, R160 to R165). -/

namespace Sys2Proof.Machine

theorem exec_macFrameStart (p : Nat) (s : State) : exec (.macFrameStart p) s = .next (macFrameStart p s) := rfl

/-! ### The frame that starts (R140, R160, R161) -/

/-- A frame that has come to the head of its queue (R161). -/
def TxFrame.marked (f : TxFrame) (clock : Int) : TxFrame := { f with late := f.late || f.isLate clock, tested := true }

theorem Port.markHeads_getD_nil {q : Port} {c : Nat} (h : q.txq.getD c [] = []) (clock : Int) :
    (q.markHeads clock).txq.getD c [] = [] := List.map_eq_nil_iff.mp ((q.markHeads_frames clock c).trans (by rw [h]; rfl))

theorem Port.markHeads_getD_cons {q : Port} {c : Nat} {f : TxFrame} {rest : List TxFrame} (h : q.txq.getD c [] = f :: rest)
    (clock : Int) : (q.markHeads clock).txq.getD c [] = f.marked clock :: rest := by
  rw [List.getD_eq_getElem?_getD] at h ⊢
  simp only [Port.markHeads, List.getElem?_map]
  cases hc : q.txq[c]? with
  | none => simp [hc] at h
  | some l =>
    obtain rfl : l = f :: rest := by simpa [hc] using h
    rfl

/-- A port whose class `c` has given up its first frame: `rest` stays. -/
def Port.popped (q : Port) (c : Nat) (rest : List TxFrame) (clock : Int) : Port :=
  ({ q with txq := q.txq.set c rest } : Port).markHeads clock

theorem Port.popped_frames {q : Port} {c : Nat} (h : c < q.txq.length) (rest : List TxFrame) (clock : Int) :
    ((q.popped c rest clock).txq.getD c []).map TxFrame.frame = rest.map TxFrame.frame := by
  rw [Port.popped, Port.markHeads_frames]
  simp [h]

/-- A first frame that is due and fits its gate starts. -/
theorem Port.pickClass_starts {q : Port} {c t : Nat} {clock : Int} {f : TxFrame} {rest : List TxFrame}
    (hq : q.txq.getD c [] = f :: rest) (hmax : f.length ≤ q.cfg.maxFrame) (hdue : f.due clock = true)
    (hgate : q.cfg.gateTest c (f.wirePs q.speedRun) t = .start) (n : Nat) :
    Port.pickClass (n + 1) q c clock t = (q.popped c rest clock, some f) := by
  simp only [Port.pickClass, hq, if_neg (Nat.not_lt.mpr hmax), hdue, hgate, Bool.not_true, Bool.false_eq_true, if_false]
  rfl

theorem Port.pickClass_empty {q : Port} {c : Nat} (hq : q.txq.getD c [] = []) (n : Nat) (clock : Int) (t : Nat) :
    Port.pickClass (n + 1) q c clock t = (q, none) := by
  simp only [Port.pickClass, hq]

/-- Classes that are empty or held are passed over. -/
theorem Port.pick_passes {q : Port} {now : Nat} {ks : List Nat}
    (h : ∀ k ∈ ks, q.txq.getD k [] = [] ∨ q.heldAt (7 - k) (now * 1000) = true) (clock : Int) (t : Nat) (cs : List Nat) :
    q.pick clock t now (ks ++ cs) = q.pick clock t now cs := by
  induction ks with
  | nil => rfl
  | cons k ks ih =>
    obtain ⟨hk, hks⟩ := List.forall_mem_cons.mp h
    rw [List.cons_append, Port.pick]
    split
    · exact ih hks
    next hfree =>
      rw [Port.pickClass_empty (hk.resolve_right hfree)]
      exact ih hks

/-- The highest class with a frame that may go starts it. -/
theorem Port.pick_starts {q : Port} {c now t : Nat} {clock : Int} {f : TxFrame} {rest : List TxFrame} (hc : c < 8)
    (hbefore : ∀ k, k < c → q.txq.getD k [] = [] ∨ q.heldAt (7 - k) (now * 1000) = true)
    (hfree : q.heldAt (7 - c) (now * 1000) = false) (hq : q.txq.getD c [] = f :: rest) (hmax : f.length ≤ q.cfg.maxFrame)
    (hdue : f.due clock = true) (hgate : q.cfg.gateTest c (f.wirePs q.speedRun) t = .start) :
    q.pick clock t now (List.range 8) = (q.popped c rest clock, some f) := by
  obtain ⟨m, hm⟩ := Nat.exists_eq_add_of_lt hc
  have hrange : List.range 8 = List.range c ++ c :: (List.range m).map (c + 1 + ·) := by
    rw [hm, show c + m + 1 = c + 1 + m by omega, List.range_add, List.range_succ, List.append_assoc, List.singleton_append]
  rw [hrange, Port.pick_passes (fun k hk => hbefore k (List.mem_range.mp hk)), Port.pick]
  simp only [hfree, Bool.false_eq_true, if_false, Port.pickClass_starts hq hmax hdue hgate]

/-! ### The wire (R140, R164) -/

/-- A port that starts frame `f` of class `c` at `now` ns. -/
def Port.starts (q : Port) (c : Nat) (f : TxFrame) (rest : List TxFrame) (clock : Int) (now : Nat) : Port :=
  let r := (q.markHeads clock).popped c rest clock
  { r with
    busyUntil := now * 1000 + f.wirePs q.speedRun
    gapUntil := now * 1000 + f.wirePs q.speedRun + 12 * bytePs q.speedRun
    counters := bump (bump r.counters 16 1) 17 f.length }

theorem Port.starts_frames {q : Port} {c : Nat} (h : c < q.txq.length) (f : TxFrame) (rest : List TxFrame) (clock : Int) (now : Nat) :
    ((q.starts c f rest clock now).txq.getD c []).map TxFrame.frame = rest.map TxFrame.frame :=
  Port.popped_frames (by simpa [Port.markHeads] using h) rest clock

/-- The state with a frame of port `p` on the wire, and the frames admitted that its queue now has room for. -/
def State.wired (s : State) (p : Nat) (q : Port) (f : TxFrame) : State :=
  ((s.begin.updPort p fun _ => q).emit (.wire p f.frame f.bad)).admitWaiting p

/-- The transmit stamps of a frame that asked for them go back (R150). -/
def State.stamped (s : State) (f : TxFrame) (speed : Nat) : State :=
  match f.stamp with
  | none => s
  | some k => s.stampBack k (s.txStamps speed)

theorem macFrameStart_starts {s : State} {p c : Nat} {q : Port} {f : TxFrame} {rest : List TxFrame} (hq : s.port? p = some q)
    (hrun : s.portsRun = true) (hst : q.st = 4) (hgap : q.gapUntil ≤ s.now * 1000) (hopen : q.heldAt 8 (s.now * 1000) = false)
    (hfree : q.heldAt (7 - c) (s.now * 1000) = false) (hc : c < 8) (hf : q.txq.getD c [] = f :: rest)
    (hbefore : ∀ k, k < c → q.txq.getD k [] = [] ∨ q.heldAt (7 - k) (s.now * 1000) = true) (hmax : f.length ≤ q.cfg.maxFrame)
    (hdue : f.due s.launchClock = true) (hgate : q.cfg.gateTest c (f.wirePs q.speedRun) (s.tb0 / 2 ^ 24) = .start) :
    macFrameStart p s = (s.wired p (q.starts c f rest s.launchClock s.now) f).stamped f q.speedRun := by
  have hgap' : decide (s.begin.now * 1000 < q.gapUntil) = false := decide_eq_false (Nat.not_lt.mpr hgap)
  have hopen' : q.heldAt 8 (s.begin.now * 1000) = false := hopen
  have hpick : (q.markHeads s.begin.launchClock).pick s.begin.launchClock (s.begin.tb0 / 2 ^ 24) s.begin.now (List.range 8) =
      ((q.markHeads s.launchClock).popped c rest s.launchClock, some (f.marked s.launchClock)) :=
    Port.pick_starts hc (fun k hk => (hbefore k hk).imp_left fun h => Port.markHeads_getD_nil h _) hfree
      (Port.markHeads_getD_cons hf _) hmax hdue hgate
  simp only [macFrameStart, State.begin_port?, hq, State.begin_portsRun, hrun, hst, hgap', hopen', hpick, bne_self_eq_false,
    Bool.not_true, Bool.or_self, Bool.false_eq_true, if_false]
  rfl

/-! ### What a start leaves -/

theorem State.updPtp_touches (s : State) (n : Nat) (f : PtpState → PtpState) : ∃ tm, s.updPtp n f = { s with time := tm } :=
  ⟨_, rfl⟩

/-- A frame of Welmus with its stamps returned changes the time unit, and may send a PTP message. -/
theorem State.stampBack_queuesAt (p : Nat) (s : State) (k : Nat) (stamps : List Nat) :
    ∃ tm, State.queuesAt p { s with time := tm } (s.stampBack k stamps) := by
  unfold State.stampBack
  simp only
  split
  · obtain ⟨tm, htm⟩ := s.updPtp_touches (k / 65536 % 8) fun x =>
      { x with req := x.req.map fun q => if q.1 = k % 65536 then (q.1, some (stamps.getD (k / 65536 % 8) 0)) else q }
    rw [htm]
    exact ⟨tm, State.queuesAt_of_ports rfl⟩
  · split
    · exact ⟨s.time, State.queuesAt_of_ports rfl⟩
    next a _ =>
      obtain ⟨tm, htm⟩ := s.updPtp_touches (k / 65536 % 8) fun x => { x with answers := x.answers.filter fun b => b.1 != a.1 }
      rw [htm]
      exact ⟨tm, State.sendClass0_queuesAt p _ _ _ _⟩

theorem State.stamped_queuesAt (p : Nat) (s : State) (f : TxFrame) (speed : Nat) :
    ∃ tm, State.queuesAt p { s with time := tm } (s.stamped f speed) := by
  unfold State.stamped
  split
  · exact ⟨s.time, State.queuesAt_of_ports rfl⟩
  · exact s.stampBack_queuesAt p _ _

theorem State.wired_queuesAt (s : State) (p : Nat) (q : Port) (f : TxFrame) :
    State.queuesAt p ((s.begin.updPort p fun _ => q).emit (.wire p f.frame f.bad)) (s.wired p q f) :=
  State.admitWaiting_queuesAt p _ p

/-- Where no frame waits for the port, none is admitted as one starts. -/
theorem State.wired_idle {s : State} {p : Nat} (hidle : ∀ w ∈ s.waitQ, w.port ≠ p) (q : Port) (f : TxFrame) :
    s.wired p q f = (s.begin.updPort p fun _ => q).emit (.wire p f.frame f.bad) := State.admitWaiting_idle hidle

/-- Admission at port `p` leaves every other port. -/
theorem State.wired_port?_ne (s : State) {p i : Nat} (q : Port) (f : TxFrame) (h : i ≠ p) : (s.wired p q f).port? i = s.port? i := by
  obtain ⟨-, hother⟩ := State.foldl_onPort (fun t _ => t.admitOne_onPort p) s.waitQ
    ((s.begin.updPort p fun _ => q).emit (.wire p f.frame f.bad))
  exact (hother i h).trans (s.begin.updPort_port?_ne _ h)

/-- What a start leaves: the port with its frame on the wire, where other frames may queue behind; a stamp that goes back changes the
time unit beside it, and may send a message from another port. -/
theorem State.wired_stamped {s : State} {p : Nat} {r : Port} (hr : s.port? p = some r) (q : Port) (f : TxFrame) (speed : Nat) :
    ∃ t q', (s.wired p q f).stamped f speed = t ∧ t = { s with
      out := t.out, funcs := t.funcs, ports := t.ports, time := t.time, buckets := t.buckets, waitQ := t.waitQ } ∧
      t.out = [.wire p f.frame f.bad] ∧ t.port? p = some q' ∧ q.queued q' ∧
      (f.stamp = none → t.time = s.time ∧ (∀ i, i ≠ p → t.port? i = s.port? i) ∧
        ((∀ w ∈ s.waitQ, w.port ≠ p) → q' = q)) := by
  have hport : ((s.begin.updPort p fun _ => q).emit (.wire p f.frame f.bad)).port? p = some q :=
    (s.begin.updPort_port?_self p _).trans (congrArg _ hr)
  have hwired := s.wired_queuesAt p q f
  obtain ⟨tm, hstamped⟩ := (s.wired p q f).stamped_queuesAt p f speed
  obtain ⟨q₁, hq₁, hsame₁⟩ := hwired.2 q hport
  obtain ⟨q', hq', hsame'⟩ := hstamped.2 q₁ hq₁
  have hout : ((s.wired p q f).stamped f speed).out = [.wire p f.frame f.bad] :=
    (State.queuesAt_out hstamped).trans (State.queuesAt_out hwired)
  have htime : ((s.wired p q f).stamped f speed).time = tm := State.queuesAt_time hstamped
  refine ⟨_, q', rfl, ?_, hout, hq', Port.queued_trans hsame₁ hsame', fun hnone => ?_⟩
  · have hwired' := congrArg (fun x : State => { x with
      funcs := ((s.wired p q f).stamped f speed).funcs, ports := ((s.wired p q f).stamped f speed).ports, time := tm
      buckets := ((s.wired p q f).stamped f speed).buckets, waitQ := ((s.wired p q f).stamped f speed).waitQ }) hwired.1
    rw [hout, htime]
    exact hstamped.1.trans hwired'
  · have hplain : (s.wired p q f).stamped f speed = s.wired p q f := by rw [State.stamped, hnone]
    rw [hplain] at hq' ⊢
    refine ⟨(State.queuesAt_time hwired :), fun i hi => s.wired_port?_ne q f hi, fun hidle => ?_⟩
    rw [State.wired_idle hidle] at hq'
    exact Option.some.inj (hq'.symm.trans hport)

/-- Settles O27: holds and watchdogs, the repeated pause frame, and the start of a frame with what is admitted behind it. -/
theorem macStartsAndPauses : Obligations.MacStartsAndPauses := by
  unfold Obligations.MacStartsAndPauses
  refine ⟨fun s p q hq => ⟨fun which h _ hh _ hend => ?_, fun hlen hdue => ?_, fun hst hsends hpaused hfill hdue => ?_⟩,
    fun s p c q f rest hq hrun hst hgap hopen hfree hc hlen hf hbefore hmax hdue hgate => ?_⟩
  · obtain ⟨q', ⟨hframe, hq', hother⟩, hended, hacc⟩ := pauseHoldExpiry_ends hq hh hend
    obtain ⟨hcfg, hst, htxq, -⟩ := Port.accounts_keeps hacc
    exact ⟨_, q', exec_pauseHoldExpiry p which s, hframe, hq', hended, hcfg, hst, htxq, hother⟩
  · obtain ⟨r, ⟨hframe, hq', hother⟩, hacc, hwatched⟩ := pauseWatchdogInterval_due hq hlen hdue
    obtain ⟨hcfg, hst, htxq, -⟩ := Port.accounts_keeps hacc
    exact ⟨_, _, exec_pauseWatchdogInterval p s, hframe, hq', rfl, hwatched, hcfg, hst, htxq, hother⟩
  · have hemit : (s.begin.emit (.pause p (q.cfg.pfc != 0) q.cfg.pfc 0xFFFF)).port? p = some q := hq
    obtain ⟨-, hq', hother⟩ := State.updPort_macSet hemit fun _ => q.pauseSent 0xFFFF s.now
    rw [exec_pauseTxRepeat, pauseTxRepeat_due hq hst hsends hpaused hfill hdue]
    exact ⟨_, _, rfl, rfl, rfl, hq', rfl, rfl, rfl, hother⟩
  · have hframes := Port.starts_frames (q := q) (hlen ▸ hc) f rest s.launchClock s.now
    obtain ⟨t, q', ht, hframe, hout, hq', ⟨hsame, hmore⟩, hnone⟩ :=
      State.wired_stamped hq (q.starts c f rest s.launchClock s.now) f q.speedRun
    obtain ⟨more, hmore⟩ := hmore c
    rw [hframes] at hmore
    rw [exec_macFrameStart, macFrameStart_starts hq hrun hst hgap hopen hfree hc hf hbefore hmax hdue hgate, ht]
    refine ⟨t, q', [], more, rfl, hframe, hout, fun hstamp => ?_, hq', hmore, fun hstamp hidle => ?_,
      by rw [hsame]; rfl, by rw [hsame]; rfl, by rw [hsame]; rfl, by rw [hsame]; rfl⟩
    · obtain ⟨htime, hother, -⟩ := hnone hstamp
      exact ⟨rfl, htime, hother⟩
    · obtain ⟨-, -, hq₁⟩ := hnone hstamp
      rw [hq₁ hidle, hframes] at hmore
      exact List.self_eq_append_right.mp hmore

end Sys2Proof.Machine
end

section
/-! PROOF. A time base and its servo: steps, offsets that arrive, and what both leave (R147, R153 to R156). -/

namespace Sys2Proof.Machine

/-! ### What the servo of a time base may change -/

/-- From `s` to `t` only time bases change, with what hangs on their steps and their holdover: the next second of the PPS output, the
step sum, last ticks and the trace, and records and events. -/
def State.timed (s t : State) : Prop :=
  t = { s with
    out := t.out, mbx := t.mbx, funcs := t.funcs, faults := t.faults, confs := t.confs, sched := t.sched
    time := { s.time with bases := t.time.bases, ppsNext := t.time.ppsNext, stepSum := t.time.stepSum } } ∧
  t.time.bases.length = s.time.bases.length

theorem State.timed_refl (s : State) : s.timed s := ⟨rfl, rfl⟩

theorem State.timed_trans {s t u : State} (h : s.timed t) (k : t.timed u) : s.timed u := by
  obtain ⟨ht, hlen⟩ := h
  obtain ⟨hu, hlen'⟩ := k
  refine ⟨?_, hlen'.trans hlen⟩
  rw [ht] at hu
  exact hu

theorem State.timed_time {s t : State} (h : s.timed t) :
    t.time = { s.time with bases := t.time.bases, ppsNext := t.time.ppsNext, stepSum := t.time.stepSum } :=
  (congrArg State.time h.1 :)

theorem State.timed_elapsed {s t : State} (h : s.timed t) : t.time.elapsed = s.time.elapsed :=
  (congrArg TimeUnit.elapsed (State.timed_time h) :)

theorem State.rebased_timed {s t : State} {g : Nat → TimeBase → TimeBase} (h : s.rebased t g) : s.timed t := by
  obtain ⟨_, _, _, _, _, rfl, hlen, -⟩ := h
  exact ⟨rfl, hlen⟩

theorem State.timed_frame {s t : State} (h : s.timed t) : t = { s with
    out := t.out, mbx := t.mbx, funcs := t.funcs, faults := t.faults, confs := t.confs, sched := t.sched, time := t.time } := by
  obtain ⟨ht, -⟩ := h
  rw [ht]

/-- From `s` to `t` no time base but `n` changes. -/
def State.onTb (n : Nat) (s t : State) : Prop := s.timed t ∧ ∀ i, i ≠ n → t.tb i = s.tb i

theorem State.onTb_trans {n : Nat} {s t u : State} (h : State.onTb n s t) (k : State.onTb n t u) : State.onTb n s u := by
  obtain ⟨ht, hother⟩ := h
  obtain ⟨hu, hother'⟩ := k
  exact ⟨State.timed_trans ht hu, fun i hi => (hother' i hi).trans (hother i hi)⟩

theorem State.onTb_length {n : Nat} {s t : State} (h : State.onTb n s t) : t.time.bases.length = s.time.bases.length := by
  obtain ⟨⟨-, hlen⟩, -⟩ := h
  exact hlen

theorem State.rebased_onTb {n : Nat} {s t : State} {f : TimeBase → TimeBase} (h : s.rebased t (onBase n f)) : State.onTb n s t :=
  ⟨State.rebased_timed h, fun i hi => (State.rebased_tb h i).trans (onBase_ne hi _ _)⟩

/-- A change by the servo keeps the PTP stack of a time base and the instant of its last offset. -/
def TimeBase.served (b b' : TimeBase) : Prop := b'.ptp = b.ptp ∧ b'.lastOffset = b.lastOffset

/-- From `s` to `t` only time base `n` changes, by its servo. -/
def State.servoes (n : Nat) (s t : State) : Prop := State.onTb n s t ∧ (s.tb n).served (t.tb n)

theorem State.servoes_refl (n : Nat) (s : State) : State.servoes n s s := ⟨⟨s.timed_refl, fun _ _ => rfl⟩, rfl, rfl⟩

theorem State.servoes_trans {n : Nat} {s t u : State} (h : State.servoes n s t) (k : State.servoes n t u) : State.servoes n s u := by
  obtain ⟨ht, hptp, hlast⟩ := h
  obtain ⟨hu, hptp', hlast'⟩ := k
  exact ⟨State.onTb_trans ht hu, hptp'.trans hptp, hlast'.trans hlast⟩

theorem State.servoes_length {n : Nat} {s t : State} (h : State.servoes n s t) : t.time.bases.length = s.time.bases.length :=
  State.onTb_length h.1

theorem State.rebased_servoes {n : Nat} {s t : State} {f : TimeBase → TimeBase} (h : s.rebased t (onBase n f))
    (hf : ∀ b : TimeBase, b.served (f b)) : State.servoes n s t := by
  refine ⟨State.rebased_onTb h, ?_⟩
  rw [State.rebased_tb h n, onBase_self]
  exact hf _

theorem State.updTb_tb_self (s : State) {n : Nat} (f : TimeBase → TimeBase) (hn : n < s.time.bases.length) :
    (s.updTb n f).tb n = f (s.tb n) :=
  (State.rebased_tb (s.updTb_rebased f hn) n).trans (onBase_self ..)

theorem State.updTb_servoes (s : State) {n : Nat} {f : TimeBase → TimeBase} (hn : n < s.time.bases.length)
    (hf : ∀ b : TimeBase, b.served (f b)) : State.servoes n s (s.updTb n f) := State.rebased_servoes (s.updTb_rebased f hn) hf

/-! ### Steps (R147, R162) -/

theorem State.traceSync_sched (s : State) : ∃ x, s.traceSync = { s with sched := x } := by
  unfold State.traceSync State.lanternPut
  simp only
  repeat' split
  all_goals exact ⟨_, rfl⟩

/-- A time base that a step takes to `v` at the instant `elapsed`. -/
def TimeBase.stepTo (v elapsed : Nat) (b : TimeBase) : TimeBase := { b with value := v, lastStep := elapsed }

/-- The PPS output after a step of time base `n` to `v`: it waits for the next whole second (R158). -/
def State.ppsWaits (s : State) (n v : Nat) : State :=
  if s.time.ppsOutEn ∧ s.time.ppsOutTb = n then s.setTime { s.time with ppsNext := tbSeconds v + 1 } else s

theorem State.ppsWaits_eq (s : State) (n v : Nat) : ∃ next, s.ppsWaits n v = { s with time := { s.time with ppsNext := next } } := by
  unfold State.ppsWaits
  split <;> exact ⟨_, rfl⟩

/-- What a step changes: the value of its time base, the next second of the PPS output, and for TB0 the step sum, the last ticks and
the trace. -/
theorem State.stepTb_eq (s : State) (n : Nat) (d : Int) : ∃ cs x next, s.stepTb n d = { s with
    confs := cs, sched := x
    time := { (s.updTb n (TimeBase.stepTo ((s.tb n).value + d).toNat s.time.elapsed)).time with
      ppsNext := next, stepSum := s.time.stepSum + if n = 0 then d else 0 } } := by
  have hstep : ∃ p cs, p = (s.updTb n (TimeBase.stepTo ((s.tb n).value + d).toNat s.time.elapsed)).ppsWaits n
      ((s.tb n).value + d).toNat ∧ s.stepTb n d = if n = 0
        then ({ p with confs := cs, time := { p.time with stepSum := p.time.stepSum + d } } : State).traceSync else p :=
    ⟨_, _, rfl, rfl⟩
  obtain ⟨p, cs, hp, hstep⟩ := hstep
  obtain ⟨next, hnext⟩ := State.ppsWaits_eq _ n ((s.tb n).value + d).toNat
  rw [hnext] at hp
  subst hp
  by_cases hn : n = 0
  · rw [if_pos hn] at hstep ⊢
    obtain ⟨x, hx⟩ := State.traceSync_sched _
    exact ⟨cs, x, next, hstep.trans hx⟩
  · rw [if_neg hn] at hstep ⊢
    rw [Int.add_zero]
    exact ⟨s.confs, s.sched, next, hstep⟩

theorem State.stepTb_tb (s : State) (n : Nat) (d : Int) (i : Nat) : (s.stepTb n d).tb i =
    (s.updTb n (TimeBase.stepTo ((s.tb n).value + d).toNat s.time.elapsed)).tb i := by
  obtain ⟨cs, x, next, h⟩ := s.stepTb_eq n d
  rw [h]
  rfl

/-- A step that leaves the time base at zero or above moves it by exactly `d`, and one of TB0 enters the step sum (R147, R162). -/
theorem State.stepTb_steps (s : State) {n : Nat} {d : Int} (hn : n < s.time.bases.length) (hd : 0 ≤ ((s.tb n).value : Int) + d) :
    (∃ cs x tm, s.stepTb n d = { s with confs := cs, sched := x, time := tm }) ∧
    (((s.stepTb n d).tb n).value : Int) = (s.tb n).value + d ∧ (∀ i, i ≠ n → (s.stepTb n d).tb i = s.tb i) ∧
    (s.stepTb n d).time.stepSum = s.time.stepSum + if n = 0 then d else 0 := by
  have hread := s.stepTb_tb n d
  obtain ⟨cs, x, next, h⟩ := s.stepTb_eq n d
  refine ⟨⟨_, _, _, h⟩, ?_, fun i hi => ?_, ?_⟩
  · rw [hread, s.updTb_tb_self _ hn]
    exact Int.toNat_of_nonneg hd
  · rw [hread]
    exact (State.rebased_tb (s.updTb_rebased _ hn) i).trans (onBase_ne hi _ _)
  · rw [h]

theorem State.stepTb_servoes (s : State) {n : Nat} (d : Int) (hn : n < s.time.bases.length) : State.servoes n s (s.stepTb n d) := by
  obtain ⟨⟨⟨-, hlen⟩, hother⟩, hserved⟩ := s.updTb_servoes (n := n)
    (f := TimeBase.stepTo ((s.tb n).value + d).toNat s.time.elapsed) hn fun _ => ⟨rfl, rfl⟩
  refine ⟨⟨⟨?_, ?_⟩, fun i hi => (s.stepTb_tb n d i).trans (hother i hi)⟩, s.stepTb_tb n d n ▸ hserved⟩
  all_goals
    obtain ⟨cs, x, next, h⟩ := s.stepTb_eq n d
    rw [h]
  · rfl
  · exact hlen

/-! ### Offsets (R154 to R156) -/

theorem TimeBase.countRun_served (b : TimeBase) (theta : Rat) : b.served (b.countRun theta) := by
  unfold TimeBase.countRun
  simp only
  repeat' split
  all_goals exact ⟨rfl, rfl⟩

theorem TimeBase.servoFreq_served (b : TimeBase) (theta : Rat) (t : Int) : b.served (b.servoFreq theta t) := by
  unfold TimeBase.servoFreq
  simp only
  split <;> exact ⟨rfl, rfl⟩

/-- The servo keeps an accepted offset as its last one (R154). -/
theorem State.servoApply_keeps (s : State) {n : Nat} (theta : Rat) (t : Int) (hn : n < s.time.bases.length) :
    State.servoes n s (s.servoApply n theta t) ∧ ((s.servoApply n theta t).tb n).thetaPrev = theta ∧
      ((s.servoApply n theta t).tb n).tPrev = t := by
  have last {u : State} (h : State.servoes n s u) (f : TimeBase → TimeBase) (hf : ∀ b : TimeBase, b.served (f b))
      (hlast : ∀ b, (f b).thetaPrev = theta ∧ (f b).tPrev = t) :
      State.servoes n s (u.updTb n f) ∧ ((u.updTb n f).tb n).thetaPrev = theta ∧ ((u.updTb n f).tb n).tPrev = t := by
    have hu : n < u.time.bases.length := hn.trans_eq (State.servoes_length h).symm
    rw [u.updTb_tb_self f hu]
    exact ⟨State.servoes_trans h (u.updTb_servoes hu hf), hlast _⟩
  unfold State.servoApply
  simp only
  split
  · exact last (s.servoes_refl n) _ (fun _ => ⟨rfl, rfl⟩) fun _ => ⟨rfl, rfl⟩
  · refine last ?_ _ (fun _ => ⟨rfl, rfl⟩) fun _ => ⟨rfl, rfl⟩
    have hfreq := s.updTb_servoes hn fun b => b.servoFreq_served theta t
    have hn' := hn.trans_eq (State.servoes_length hfreq).symm
    split
    · have hstep := State.servoes_trans hfreq (State.stepTb_servoes _ (-(roundAway (theta * 2 ^ 40))) hn')
      refine State.servoes_trans hstep (State.updTb_servoes _ (hn.trans_eq (State.servoes_length hstep).symm) ?_)
      exact fun _ => ⟨rfl, rfl⟩
    · split
      · exact hfreq
      · exact State.servoes_trans hfreq (State.updTb_servoes _ hn' fun _ => ⟨rfl, rfl⟩)

/-- A time base to which an accepted offset comes at the instant `elapsed`: of the causes of holdover only the TCLK change stays. -/
def TimeBase.noted (elapsed : Nat) (b : TimeBase) : TimeBase := { b with lastOffset := elapsed, causes := b.causes &&& 4 }

/-- The state in which the servo takes an accepted offset: its instant is noted, holdover is over once its causes have ended, and the
runs are counted. -/
def State.servoReady (s : State) (n : Nat) (theta : Rat) : State :=
  let u := s.updTb n (TimeBase.noted s.time.elapsed)
  let v := if (s.tb n).state = .holdover ∧ (u.tb n).causes = 0 then u.leaveHoldover n .acquire else u
  v.updTb n fun b => b.countRun theta

theorem State.servoOffset_accepted {s : State} {n : Nat} {t : Int} (hstep : (s.tb n).lastStep ≤ t)
    (hprev : (s.tb n).samples = 0 ∨ (s.tb n).tPrev < t) (theta : Rat) :
    s.servoOffset n theta t = (s.servoReady n theta).servoApply n theta t :=
  if_neg (by omega)

theorem State.servoOffset_discarded {s : State} {n : Nat} {t : Int}
    (h : t < (s.tb n).lastStep ∨ (0 < (s.tb n).samples ∧ t ≤ (s.tb n).tPrev)) (theta : Rat) :
    s.servoOffset n theta t = s := if_pos h

theorem State.servoReady_keeps (s : State) {n : Nat} (theta : Rat) (hn : n < s.time.bases.length) :
    State.onTb n s (s.servoReady n theta) ∧ ((s.servoReady n theta).tb n).ptp = (s.tb n).ptp ∧
      ((s.servoReady n theta).tb n).lastOffset = s.time.elapsed := by
  have hnote := s.updTb_rebased (TimeBase.noted s.time.elapsed) hn
  have hread := s.updTb_tb_self (TimeBase.noted s.time.elapsed) hn
  unfold State.servoReady
  generalize s.updTb n (TimeBase.noted s.time.elapsed) = u at hnote hread
  have hu : n < u.time.bases.length := hn.trans_eq (State.rebased_length hnote).symm
  have hleave : State.servoes n u (if (s.tb n).state = .holdover ∧ (u.tb n).causes = 0 then u.leaveHoldover n .acquire else u) := by
    split
    · exact State.rebased_servoes (u.leaveHoldover_rebased .acquire hu) fun _ => ⟨rfl, rfl⟩
    · exact u.servoes_refl n
  have hv := hu.trans_eq (State.servoes_length hleave).symm
  obtain ⟨hon, hptp, hlast⟩ := State.servoes_trans hleave (State.updTb_servoes _ hv fun b => b.countRun_served theta)
  exact ⟨State.onTb_trans (State.rebased_onTb hnote) hon, hptp.trans (congrArg TimeBase.ptp hread :),
    hlast.trans (congrArg TimeBase.lastOffset hread :)⟩

/-- What an accepted offset leaves of its time base: the servo keeps it as its last one. -/
theorem State.servoOffset_keeps {s : State} {n : Nat} {t : Int} (hn : n < s.time.bases.length) (hstep : (s.tb n).lastStep ≤ t)
    (hprev : (s.tb n).samples = 0 ∨ (s.tb n).tPrev < t) (theta : Rat) :
    State.onTb n s (s.servoOffset n theta t) ∧ ((s.servoOffset n theta t).tb n).thetaPrev = theta ∧
      ((s.servoOffset n theta t).tb n).tPrev = t ∧ ((s.servoOffset n theta t).tb n).lastOffset = s.time.elapsed ∧
      ((s.servoOffset n theta t).tb n).ptp = (s.tb n).ptp := by
  obtain ⟨hready, hptp, hlast⟩ := s.servoReady_keeps theta hn
  have hlen := State.onTb_length hready
  obtain ⟨⟨hon, hptp', hlast'⟩, htheta, ht⟩ := (s.servoReady n theta).servoApply_keeps theta t (hn.trans_eq hlen.symm)
  rw [State.servoOffset_accepted hstep hprev]
  exact ⟨State.onTb_trans hready hon, htheta, ht, hlast'.trans hlast, hptp'.trans hptp⟩

/-- An offset, accepted or not, changes no other time base. -/
theorem State.servoOffset_onTb (s : State) {n : Nat} (theta : Rat) (t : Int) (hn : n < s.time.bases.length) :
    State.onTb n s (s.servoOffset n theta t) := by
  by_cases h : t < (s.tb n).lastStep ∨ (0 < (s.tb n).samples ∧ t ≤ (s.tb n).tPrev)
  · rw [State.servoOffset_discarded h]
    exact ⟨s.timed_refl, fun _ _ => rfl⟩
  · obtain ⟨hon, -⟩ := State.servoOffset_keeps (t := t) hn (by omega) (by omega) theta
    exact hon

end Sys2Proof.Machine
end

section
/-! PROOF. TIME_CONFIG and TIME_OFFSET (R80, R147, R151, R153, R155, R158). -/

namespace Sys2Proof.Machine

/-- What the commit of a command of PF0 on a time base leaves (R73, R94). -/
theorem State.commitOk_tb {s : State} {id op : Nat} {c : Taken} (hw : s.waits id op c) (hf : c.fn = 0) (n : Nat) :
    ∃ o b f w a, s.begin.commitOk id c 5 n [] = { s with out := o, mbx := b, funcs := f, welmus := w, audit := a } ∧
      w.taken = s.welmus.taken.del id ∧ a.next = s.audit.next + 1 ∧
      (b.getD {} 0).evq = (s.mb 0).evq ++ reply c rOk s.audit.next [] := by
  obtain ⟨hfind, ho⟩ := State.waits_taken hw
  obtain ⟨b, f, o, a, he, ha, hq⟩ := State.commitOk_eq (s := s.begin) hfind ho 5 n []
  rw [hf] at hq
  exact ⟨o, b, f, _, a, he, rfl, ha, hq⟩

/-- The field of a command that names a time base names one of the eight. -/
theorem fld_2_0_lt (w : Word) : fld w 2 0 < 8 := Nat.mod_lt _ (by decide)

/-! ### TIME_CONFIG (R151, R155, R158) -/

theorem exec_timeConfig (id : Nat) (s : State) : exec (.timeConfig id) s = .next (s.command id 0x051 (timeConfigBody id)) := rfl

theorem timeConfig_ok {s : State} {id : Nat} {c : Taken} (hw : s.waits id 0x051 c) (hf : c.fn = 0) (hm : s.effMode.working = true)
    (hbad : timeConfigBad c = false) (hptp : (servoCfgOf c).ptpEn = true → (s.port? (servoCfgOf c).ptpPort).isSome = true ∧
      s.ptpClash (fld (c.w 3) 2 0) (servoCfgOf c) = false) :
    s.command id 0x051 (timeConfigBody id) = (s.begin.commitOk id c 5 (fld (c.w 3) 2 0) []).timeConfig (fld (c.w 3) 2 0)
      (fld (c.w 3) 5 4) (bitAt (c.w 3) 8) (servoCfgOf c) (if freqValid c then some (int32 (c.w 10)) else none) := by
  have hs : s.serves 0x051 = true := hm
  have hport : ((servoCfgOf c).ptpEn && (s.begin.port? (servoCfgOf c).ptpPort).isNone) = false ∧
      ((servoCfgOf c).ptpEn && s.begin.ptpClash (fld (c.w 3) 2 0) (servoCfgOf c)) = false := by
    cases hen : (servoCfgOf c).ptpEn with
    | false => exact ⟨rfl, rfl⟩
    | true =>
      obtain ⟨hp, hc⟩ := hptp hen
      exact ⟨Option.isNone_eq_false_iff.mpr hp, hc⟩
  rw [State.command_waits s id _ c _ hw, timeConfigBody]
  rw [State.checked_ok]
  simp only [firstFail, hport]
  simp [hbad, hf, hs]

/-- What TIME_CONFIG makes of the PPS output. -/
theorem State.ppsConfig_eq (s : State) (n : Nat) (on : Bool) : ∃ o tm, s.ppsConfig n on = { s with out := o, time := tm } ∧
    tm.bases = s.time.bases ∧ (on = true → tm.ppsOutEn = true ∧ tm.ppsOutTb = n) := by
  unfold State.ppsConfig
  cases on with
  | true => exact ⟨_, _, rfl, rfl, fun _ => ⟨rfl, rfl⟩⟩
  | false =>
    simp only [Bool.false_eq_true, if_false, false_implies, and_true]
    split
    · split <;> exact ⟨_, _, rfl, rfl⟩
    · exact ⟨_, _, rfl, rfl⟩

/-- Two changes of one time base after each other. -/
theorem State.rebased_onBase_trans {n : Nat} {s t u : State} {f g : TimeBase → TimeBase} (h : s.rebased t (onBase n f))
    (k : t.rebased u (onBase n g)) : s.rebased u (onBase n fun b => g (f b)) := by
  refine State.rebased_congr (State.rebased_trans h k) fun i => ?_
  by_cases hi : i = n
  · subst hi
    simp only [onBase_self]
  · simp only [onBase_ne hi]

/-- What TIME_CONFIG makes of its time base, behind the change of the PPS output. -/
theorem State.timeConfig_rebased (s : State) {n : Nat} (src : Nat) (pps : Bool) (g : ServoCfg) (freq : Option Int)
    (hn : n < s.time.bases.length) : ∃ f, (s.ppsConfig n pps).rebased (s.timeConfig n src pps g freq) (onBase n f) ∧
      ∀ b, (f b).source = src ∧ (f b).cfg = g ∧ (f b).state = (if src = 0 then .free else .acquire) ∧ (f b).value = b.value := by
  obtain ⟨o, tm, hpps, hbases, -⟩ := s.ppsConfig_eq n pps
  have hu : n < (s.ppsConfig n pps).time.bases.length := by rwa [hpps, hbases]
  have hset (f : TimeBase → TimeBase) : n < ((s.ppsConfig n pps).updTb n f).time.bases.length := by
    rwa [State.rebased_length (State.updTb_rebased _ f hu)]
  unfold State.timeConfig
  simp only
  split
  · have hleft (st : ServoState) (f : TimeBase → TimeBase) :
        n < (((s.ppsConfig n pps).updTb n f).leaveHoldover n st).time.bases.length := by
      rw [State.rebased_length (State.leaveHoldover_rebased _ st (hset f))]
      exact hset f
    exact ⟨_, State.rebased_onBase_trans (State.rebased_onBase_trans (State.updTb_rebased _ _ hu)
      (State.leaveHoldover_rebased _ _ (hset _))) (State.updTb_rebased _ _ (hleft _ _)), fun b => ⟨rfl, rfl, rfl, rfl⟩⟩
  · exact ⟨_, State.rebased_onBase_trans (State.updTb_rebased _ _ hu) (State.updTb_rebased _ _ (hset _)),
      fun b => ⟨rfl, rfl, rfl, rfl⟩⟩

theorem State.leaveHoldover_evqGrows (s : State) (n : Nat) (st : ServoState) : s.evqGrows (s.leaveHoldover n st) := by
  obtain ⟨x, hx, -⟩ := State.fault_touches
    (s.updTb n fun b => { b with state := st, causes := 0, runIn := 0, runOut := 0 }) 0x10 5 n 0 (w32 (s.tb n).cause)
  exact State.evqGrows_trans (State.evqGrows_of_mbx (congrArg State.mbx hx :)) (State.raiseEvent_evqGrows _ 0 0x106 [w32 n])

theorem State.timeConfig_evqGrows (s : State) (n src : Nat) (pps : Bool) (g : ServoCfg) (freq : Option Int) :
    s.evqGrows (s.timeConfig n src pps g freq) := by
  obtain ⟨o, tm, hpps, -⟩ := s.ppsConfig_eq n pps
  have hset (f : TimeBase → TimeBase) : s.evqGrows ((s.ppsConfig n pps).updTb n f) :=
    State.evqGrows_of_mbx (congrArg State.mbx hpps :)
  have hlast (u : State) (f : TimeBase → TimeBase) : u.evqGrows (u.updTb n f) := State.evqGrows_of_mbx rfl
  unfold State.timeConfig
  simp only
  split
  · exact State.evqGrows_trans (State.evqGrows_trans (hset _) (State.leaveHoldover_evqGrows _ n _)) (hlast _ _)
  · exact State.evqGrows_trans (hset _) (hlast _ _)

/-- What TIME_CONFIG sets, and what it leaves. -/
theorem State.timeConfig_sets (s : State) {n : Nat} (src : Nat) (pps : Bool) (g : ServoCfg) (freq : Option Int)
    (hn : n < s.time.bases.length) :
    let t := s.timeConfig n src pps g freq
    t = { s with out := t.out, mbx := t.mbx, funcs := t.funcs, faults := t.faults, time := t.time } ∧
      (t.tb n).source = src ∧ (t.tb n).cfg = g ∧ (t.tb n).state = (if src = 0 then .free else .acquire) ∧
      (t.tb n).value = (s.tb n).value ∧ (∀ i, i ≠ n → t.tb i = s.tb i) ∧
      (pps = true → t.time.ppsOutEn = true ∧ t.time.ppsOutTb = n) := by
  obtain ⟨o, tm, hpps, hbases, hout⟩ := s.ppsConfig_eq n pps
  obtain ⟨f, hset, hf⟩ := s.timeConfig_rebased src pps g freq hn
  obtain ⟨hsrc, hcfg, hst, hval⟩ := hf (s.tb n)
  generalize s.timeConfig n src pps g freq = t at hset ⊢
  have htb (i : Nat) : (s.ppsConfig n pps).tb i = s.tb i := by rw [hpps, State.tb, hbases, State.tb]
  have hself : t.tb n = f (s.tb n) := by rw [State.rebased_tb hset, onBase_self, htb]
  have htime := State.rebased_time hset
  have hframe := State.rebased_frame hset
  rw [hpps] at hframe htime
  refine ⟨hframe, ?_, ?_, ?_, ?_, fun i hi => ?_, fun hon => ?_⟩
  · rw [hself, hsrc]
  · rw [hself, hcfg]
  · rw [hself, hst]
  · rw [hself, hval]
  · rw [State.rebased_tb hset, onBase_ne hi, htb]
  · rw [htime]
    exact hout hon

/-- A TIME_CONFIG whose checks pass answers and configures its time base. -/
theorem timeConfig_configures {s : State} {id n : Nat} {c : Taken} (hn : fld (c.w 3) 2 0 = n) (hw : s.waits id 0x051 c) (hf : c.fn = 0)
    (hm : s.effMode.working = true) (hlen : s.time.bases.length = 8) (hbad : timeConfigBad c = false)
    (hptp : (servoCfgOf c).ptpEn = true → (s.port? (servoCfgOf c).ptpPort).isSome = true ∧
      s.ptpClash (fld (c.w 3) 2 0) (servoCfgOf c) = false) :
    let t := s.command id 0x051 (timeConfigBody id)
    t = { s with
      out := t.out, mbx := t.mbx, funcs := t.funcs, welmus := t.welmus, audit := t.audit, faults := t.faults, time := t.time } ∧
      t.welmus.taken = s.welmus.taken.del id ∧ t.audit.next = s.audit.next + 1 ∧
      (∃ more, (t.mb 0).evq = (s.mb 0).evq ++ reply c rOk s.audit.next [] ++ more) ∧
      (t.tb n).source = fld (c.w 3) 5 4 ∧ (t.tb n).cfg = servoCfgOf c ∧
      (t.tb n).state = (if fld (c.w 3) 5 4 = 0 then .free else .acquire) ∧ (t.tb n).value = (s.tb n).value ∧
      (∀ i, i ≠ n → t.tb i = s.tb i) ∧ (bitAt (c.w 3) 8 = true → t.time.ppsOutEn = true ∧ t.time.ppsOutTb = n) := by
  subst hn
  have hlt : fld (c.w 3) 2 0 < s.time.bases.length := (fld_2_0_lt _).trans_eq hlen.symm
  rw [timeConfig_ok hw hf hm hbad hptp]
  obtain ⟨o, b, f, w, a, he, htaken, hnext, hevq⟩ := State.commitOk_tb hw hf (fld (c.w 3) 2 0)
  rw [he]
  generalize (if freqValid c then some (int32 (c.w 10)) else none) = freq
  have hgrow := State.timeConfig_evqGrows { s with out := o, mbx := b, funcs := f, welmus := w, audit := a } (fld (c.w 3) 2 0)
    (fld (c.w 3) 5 4) (bitAt (c.w 3) 8) (servoCfgOf c) freq 0
  have hsets := State.timeConfig_sets { s with out := o, mbx := b, funcs := f, welmus := w, audit := a } (fld (c.w 3) 5 4)
    (bitAt (c.w 3) 8) (servoCfgOf c) freq hlt
  generalize State.timeConfig _ _ _ _ _ freq = t at hgrow hsets ⊢
  obtain ⟨more, hmore⟩ := hgrow
  obtain ⟨hframe, hsets⟩ := hsets
  refine ⟨by rw [hframe], by rw [hframe]; exact htaken, by rw [hframe]; exact hnext, ⟨more, ?_⟩, hsets⟩
  rw [hmore, State.mb, hevq]

/-! ### TIME_OFFSET (R147, R153) -/

theorem exec_timeOffsetStep (id : Nat) (s : State) :
    exec (.timeOffsetStep id) s = .next (s.command id 0x052 (timeOffsetStepBody id)) := rfl

theorem exec_timeOffsetServo (id : Nat) (s : State) :
    exec (.timeOffsetServo id) s = .next (s.command id 0x052 (timeOffsetServoBody id)) := rfl

theorem firstFail_passes {bad : Bool} {code : Nat} {rest : List (Bool × Nat)} (h : bad = false) :
    firstFail ((bad, code) :: rest) = firstFail rest := by
  rw [firstFail, h]
  rfl

theorem timeOffsetStep_ok {s : State} {id : Nat} {c : Taken} (hw : s.waits id 0x052 c) (hf : c.fn = 0)
    (hm : s.effMode.working = true) (hbad : timeOffsetBad c = false) (hstep : bitAt (c.w 3) 8 = true)
    (hlo : 0 ≤ ((s.tb (fld (c.w 3) 2 0)).value : Int) + offsetOf c * 2 ^ 24)
    (hhi : ((s.tb (fld (c.w 3) 2 0)).value : Int) + offsetOf c * 2 ^ 24 < 2 ^ 48 * 1000000000 * 2 ^ 40) :
    s.command id 0x052 (timeOffsetStepBody id) =
      (s.begin.commitOk id c 5 (fld (c.w 3) 2 0) []).stepTb (fld (c.w 3) 2 0) (offsetOf c * 2 ^ 24) := by
  have hs : s.serves 0x052 = true := hm
  rw [State.command_waits s id _ c _ hw, timeOffsetStepBody]
  simp only [hstep, Bool.not_true, Bool.false_eq_true, if_false]
  rw [State.checked_ok]
  refine (firstFail_passes ?_).trans (by simp [firstFail, hf, hs])
  exact Bool.or_eq_false_iff.mpr ⟨Bool.or_eq_false_iff.mpr ⟨hbad, decide_eq_false (Int.not_lt.mpr hlo)⟩,
    decide_eq_false (Int.not_le.mpr hhi)⟩

/-- A TIME_OFFSET with STEP 1 whose checks pass answers and steps its time base. -/
theorem timeOffsetStep_steps {s : State} {id n : Nat} {c : Taken} (hn : fld (c.w 3) 2 0 = n) (hw : s.waits id 0x052 c) (hf : c.fn = 0)
    (hm : s.effMode.working = true) (hlen : s.time.bases.length = 8) (hbad : timeOffsetBad c = false)
    (hstep : bitAt (c.w 3) 8 = true) (hlo : 0 ≤ ((s.tb n).value : Int) + offsetOf c * 2 ^ 24)
    (hhi : ((s.tb n).value : Int) + offsetOf c * 2 ^ 24 < 2 ^ 48 * 1000000000 * 2 ^ 40) :
    let t := s.command id 0x052 (timeOffsetStepBody id)
    t = { s with
      out := t.out, mbx := t.mbx, funcs := t.funcs, welmus := t.welmus, audit := t.audit, confs := t.confs, time := t.time
      sched := t.sched } ∧ t.welmus.taken = s.welmus.taken.del id ∧ t.audit.next = s.audit.next + 1 ∧
      (t.mb 0).evq = (s.mb 0).evq ++ reply c rOk s.audit.next [] ∧
      ((t.tb n).value : Int) = (s.tb n).value + offsetOf c * 2 ^ 24 ∧ (∀ i, i ≠ n → t.tb i = s.tb i) ∧
      t.time.stepSum = s.time.stepSum + (if n = 0 then offsetOf c * 2 ^ 24 else 0) := by
  subst hn
  have hlt : fld (c.w 3) 2 0 < s.time.bases.length := (fld_2_0_lt _).trans_eq hlen.symm
  rw [timeOffsetStep_ok hw hf hm hbad hstep hlo hhi]
  obtain ⟨o, b, f, w, a, he, htaken, hnext, hevq⟩ := State.commitOk_tb hw hf (fld (c.w 3) 2 0)
  obtain ⟨⟨cs, x, tm, hframe⟩, hval, hother, hsum⟩ := State.stepTb_steps
    { s with out := o, mbx := b, funcs := f, welmus := w, audit := a } hlt hlo
  rw [he]
  rw [hframe] at hval hother hsum ⊢
  exact ⟨rfl, htaken, hnext, hevq, hval, hother, hsum⟩

theorem timeOffsetServo_ok {s : State} {id : Nat} {c : Taken} (hw : s.waits id 0x052 c) (hf : c.fn = 0)
    (hm : s.effMode.working = true) (hbad : timeOffsetBad c = false) (hstep : bitAt (c.w 3) 8 = false)
    (hsrc : (s.tb (fld (c.w 3) 2 0)).source = 1) (hptp : (s.tb (fld (c.w 3) 2 0)).cfg.ptpEn = false) :
    s.command id 0x052 (timeOffsetServoBody id) =
      (s.begin.commitOk id c 5 (fld (c.w 3) 2 0) []).servoOffset (fld (c.w 3) 2 0) ((offsetOf c : Rat) / 65536)
        s.time.elapsed := by
  have hs : s.serves 0x052 = true := hm
  rw [State.command_waits s id _ c _ hw, timeOffsetServoBody]
  simp only [hstep, Bool.false_eq_true, if_false]
  rw [State.checked_ok]
  · rfl
  · simp [firstFail, hbad, hf, hs, hsrc, hptp]

/-- A TIME_OFFSET with STEP 0 whose checks pass answers, and its offset reaches the servo. -/
theorem timeOffsetServo_serves {s : State} {id n : Nat} {c : Taken} (hn : fld (c.w 3) 2 0 = n) (hw : s.waits id 0x052 c)
    (hbad : timeOffsetBad c = false) (hstep : bitAt (c.w 3) 8 = false) (hf : c.fn = 0) (hm : s.effMode.working = true)
    (hsrc : (s.tb n).source = 1) (hptp : (s.tb n).cfg.ptpEn = false) (hlen : s.time.bases.length = 8)
    (hlast : (s.tb n).lastStep ≤ s.time.elapsed) (hprev : (s.tb n).samples = 0 ∨ (s.tb n).tPrev < s.time.elapsed) :
    let t := s.command id 0x052 (timeOffsetServoBody id)
    t = { s with
      out := t.out, mbx := t.mbx, funcs := t.funcs, welmus := t.welmus, audit := t.audit, faults := t.faults, confs := t.confs
      time := t.time, sched := t.sched } ∧ t.welmus.taken = s.welmus.taken.del id ∧ t.audit.next = s.audit.next + 1 ∧
      (t.tb n).thetaPrev = (offsetOf c : Rat) / 65536 ∧ (t.tb n).tPrev = s.time.elapsed ∧
      (t.tb n).lastOffset = s.time.elapsed := by
  subst hn
  have hlt : fld (c.w 3) 2 0 < s.time.bases.length := (fld_2_0_lt _).trans_eq hlen.symm
  rw [timeOffsetServo_ok hw hf hm hbad hstep hsrc hptp]
  obtain ⟨o, b, f, w, a, he, htaken, hnext, -⟩ := State.commitOk_tb hw hf (fld (c.w 3) 2 0)
  obtain ⟨⟨htimed, -⟩, htheta, ht, hnow, -⟩ := State.servoOffset_keeps
    (s := { s with out := o, mbx := b, funcs := f, welmus := w, audit := a }) hlt hlast hprev ((offsetOf c : Rat) / 65536)
  rw [he]
  generalize State.servoOffset _ _ _ _ = t at htimed htheta ht hnow ⊢
  have hframe := State.timed_frame htimed
  exact ⟨by rw [hframe], by rw [hframe]; exact htaken, by rw [hframe]; exact hnext, htheta, ht, hnow⟩

end Sys2Proof.Machine
end

section
/-! PROOF. The latch, the PPS output and the edges of the PPS input (R148, R157, R158). -/

namespace Sys2Proof.Machine

theorem exec_timeLatch (fn : Nat) (s : State) : exec (.timeLatch fn) s = .next (timeLatch fn s) := rfl

theorem timeLatch_pf0 {s : State} (hup : s.hostUp = true) : timeLatch 0 s = { s with
    out := []
    time := { s.time with
      latchTimes := s.time.bases.map TimeBase.value, latchRates := s.time.bases.map TimeBase.rate
      latchSteps := Int.tdiv s.time.stepSum (2 ^ 40) } } := by
  simp only [timeLatch, State.begin_hostUp, hup, beq_self_eq_true, Bool.and_self, if_true]
  rfl

/-! ### The PPS output (R158) -/

theorem exec_ppsOutputRise (s : State) : exec .ppsOutputRise s = .next (ppsOutputRise s) := rfl

theorem exec_ppsOutputFall (s : State) : exec .ppsOutputFall s = .next (ppsOutputFall s) := rfl

section
variable {s : State} (hrun : s.time.running = true) (hen : s.time.ppsOutEn = true)
  (hsec : s.time.ppsNext ≤ tbSeconds (s.tb s.time.ppsOutTb).value)
include hrun hen hsec

/-- At a whole second the output waits for the next one, and rises where the rise before is not too near. -/
theorem ppsOutputRise_due : ppsOutputRise s =
    let u := s.begin.setTime { s.time with ppsNext := tbSeconds (s.tb s.time.ppsOutTb).value + 1 }
    if s.time.ppsLastRise.any fun e => decide (s.time.elapsed < e + 500000000) then u
    else (u.setTime { u.time with ppsLevel := true, ppsLastRise := some s.time.elapsed }).emit (.pps true) := by
  have hnot : (!s.begin.time.running || !s.begin.time.ppsOutEn ||
      decide (tbSeconds (s.begin.tb s.begin.time.ppsOutTb).value < s.begin.time.ppsNext)) = false := by
    simp only [State.begin_time, State.begin_tb, hrun, hen, Bool.not_true, Bool.false_or]
    exact decide_eq_false (Nat.not_lt.mpr hsec)
  simp only [ppsOutputRise, hnot, Bool.false_eq_true, if_false]
  rfl

theorem ppsOutputRise_rises (hlast : ∀ e, s.time.ppsLastRise = some e → e + 500000000 ≤ s.time.elapsed) :
    ppsOutputRise s = { s with
      out := [.pps true]
      time := { s.time with
        ppsNext := tbSeconds (s.tb s.time.ppsOutTb).value + 1, ppsLevel := true, ppsLastRise := some s.time.elapsed } } := by
  rw [ppsOutputRise_due hrun hen hsec]
  refine if_neg ?_
  rw [Option.any_eq_true]
  rintro ⟨e, he, hnear⟩
  exact absurd (hlast e he) (Nat.not_le.mpr (of_decide_eq_true hnear))

theorem ppsOutputRise_suppressed {e : Nat} (he : s.time.ppsLastRise = some e) (hnear : s.time.elapsed < e + 500000000) :
    ppsOutputRise s = { s with
      out := [], time := { s.time with ppsNext := tbSeconds (s.tb s.time.ppsOutTb).value + 1 } } := by
  rw [ppsOutputRise_due hrun hen hsec]
  refine if_pos ?_
  rw [he, Option.any_some]
  exact decide_eq_true hnear

end

theorem ppsOutputFall_due {s : State} {e : Nat} (he : s.time.ppsLastRise = some e) (hlevel : s.time.ppsLevel = true)
    (hdue : e + 100000000 ≤ s.time.elapsed) :
    ppsOutputFall s = { s with out := [.pps false], time := { s.time with ppsLevel := false } } := by
  have hfall : (s.begin.time.ppsLevel && decide (e + 100000000 ≤ s.begin.time.elapsed)) = true :=
    Bool.and_eq_true_iff.mpr ⟨hlevel, decide_eq_true hdue⟩
  unfold ppsOutputFall
  simp only
  split
  next h => cases h.symm.trans he
  next e' h =>
    obtain rfl : e' = e := Option.some.inj (h.symm.trans he)
    exact if_pos hfall

/-! ### The PPS input (R157) -/

theorem exec_ppsInputEdge (s : State) : exec .ppsInputEdge s = .next (ppsInputEdge s) := rfl

theorem State.ppsAccepts_of_gap {s : State} (h : s.time.ppsInLast = none ∨
    ∃ e, s.time.ppsInLast = some e ∧ e + 900000000 ≤ s.time.elapsed ∧ s.time.elapsed ≤ e + 1100000000) :
    s.ppsAccepts = true := by
  unfold State.ppsAccepts
  rcases h with h | ⟨e, h, hlo, hhi⟩
  · rw [h]
  · rw [h]
    simp only [Bool.or_eq_true, Bool.and_eq_true, decide_eq_true_eq]
    omega

theorem State.ppsAccepts_early {s : State} {e : Nat} (h : s.time.ppsInLast = some e) (hearly : s.time.elapsed < e + 900000000) :
    s.ppsAccepts = false := by
  unfold State.ppsAccepts
  rw [h]
  simp only [Bool.or_eq_false_iff, Bool.and_eq_false_iff, decide_eq_false_iff_not]
  omega

/-- An accepted edge, for one time base. -/
def ppsEdgeAt (s : State) (n : Nat) : State :=
  if (s.tb n).source = 2 then s.servoOffset n ((s.tb n).ppsTheta : Rat) s.time.elapsed else s

/-- What an accepted edge at `elapsed` makes of a time base that follows it, where the servo takes the edge's offset. -/
def TimeBase.tookEdge (elapsed : Nat) (b b' : TimeBase) : Prop :=
  b.source = 2 → b.lastStep ≤ elapsed → (b.samples = 0 ∨ b.tPrev < elapsed) →
    b'.thetaPrev = (b.ppsTheta : Rat) ∧ b'.tPrev = elapsed ∧ b'.lastOffset = elapsed

theorem ppsEdgeAt_onTb (s : State) {n : Nat} (hn : n < s.time.bases.length) : State.onTb n s (ppsEdgeAt s n) := by
  unfold ppsEdgeAt
  split
  · exact s.servoOffset_onTb _ _ hn
  · exact ⟨s.timed_refl, fun _ _ => rfl⟩

theorem ppsEdgeAt_took (s : State) {n : Nat} (hn : n < s.time.bases.length) :
    (s.tb n).tookEdge s.time.elapsed ((ppsEdgeAt s n).tb n) := by
  intro hsrc hstep hprev
  obtain ⟨-, htheta, ht, hlast, -⟩ := State.servoOffset_keeps hn hstep hprev ((s.tb n).ppsTheta : Rat)
  rw [ppsEdgeAt, if_pos hsrc]
  exact ⟨htheta, ht, hlast⟩

/-- The first `k` time bases in turn. -/
theorem foldl_ppsEdgeAt (s : State) : ∀ k, k ≤ s.time.bases.length →
    s.timed ((List.range k).foldl ppsEdgeAt s) ∧ (∀ i, k ≤ i → ((List.range k).foldl ppsEdgeAt s).tb i = s.tb i) ∧
      ∀ i, i < k → (s.tb i).tookEdge s.time.elapsed (((List.range k).foldl ppsEdgeAt s).tb i) := by
  intro k
  induction k with
  | zero => exact fun _ => ⟨s.timed_refl, fun _ _ => rfl, fun i hi => absurd hi (Nat.not_lt_zero i)⟩
  | succ k ih =>
    intro hk
    obtain ⟨htimed, hrest, htook⟩ := ih (Nat.le_of_succ_le hk)
    rw [List.range_succ, List.foldl_append, List.foldl_cons, List.foldl_nil]
    generalize (List.range k).foldl ppsEdgeAt s = u at htimed hrest htook
    have hu : k < u.time.bases.length := by
      obtain ⟨-, hlen⟩ := htimed
      omega
    obtain ⟨htimed', hother⟩ := ppsEdgeAt_onTb u hu
    refine ⟨State.timed_trans htimed htimed', fun i hi => (hother i (by omega)).trans (hrest i (by omega)), fun i hi => ?_⟩
    by_cases hik : i = k
    · subst hik
      have hself := ppsEdgeAt_took u hu
      rwa [hrest i le_rfl, State.timed_elapsed htimed] at hself
    · rw [hother i hik]
      exact htook i (by omega)

/-- An accepted edge is noted and goes to every time base that follows the PPS input. -/
theorem ppsInputEdge_accepted {s : State} (hrun : s.time.running = true) (h : s.ppsAccepts = true) :
    ppsInputEdge s = (List.range 8).foldl ppsEdgeAt (s.begin.setTime { s.time with ppsInLast := some s.time.elapsed }) := by
  have hnot : ¬ (!s.begin.time.running) = true := by simp [hrun]
  have h' : s.begin.ppsAccepts = true := h
  exact (if_neg hnot).trans (if_pos h')

/-- An accepted edge is the last one, and its offset reaches the servo of every time base that follows the input. -/
theorem ppsInputEdge_serves {s : State} (hrun : s.time.running = true) (h : s.ppsAccepts = true) (hlen : s.time.bases.length = 8) :
    let t := ppsInputEdge s
    t = { s with
      out := t.out, mbx := t.mbx, funcs := t.funcs, faults := t.faults, confs := t.confs, time := t.time, sched := t.sched } ∧
      t.time.ppsInLast = some s.time.elapsed ∧ ∀ n, n < 8 → (s.tb n).tookEdge s.time.elapsed (t.tb n) := by
  obtain ⟨htimed, -, htook⟩ := foldl_ppsEdgeAt (s.begin.setTime { s.time with ppsInLast := some s.time.elapsed }) 8 hlen.ge
  rw [ppsInputEdge_accepted hrun h]
  generalize List.foldl ppsEdgeAt _ _ = t at htimed htook ⊢
  exact ⟨(State.timed_frame htimed :), (congrArg TimeUnit.ppsInLast (State.timed_time htimed) :), htook⟩

/-- An edge too soon after the last accepted one is discarded with a record. -/
theorem ppsInputEdge_discarded {s : State} {e : Nat} (hrun : s.time.running = true) (he : s.time.ppsInLast = some e)
    (hearly : s.time.elapsed < e + 900000000) : ppsInputEdge s = s.begin.fault 0x11 0 0 (w32 (s.time.elapsed - e)) 0 := by
  have hrun' : s.begin.time.running = true := hrun
  have h' : s.begin.ppsAccepts = false := State.ppsAccepts_early (s := s.begin) he hearly
  have hgap : min (s.begin.time.elapsed - s.begin.time.ppsInLast.getD 0) 0xFFFFFFFF = s.time.elapsed - e := by
    rw [State.begin_time, he, Option.getD_some, Nat.min_eq_left (by omega)]
  simp only [ppsInputEdge, hrun', h', hgap, Bool.not_true, Bool.false_eq_true, if_false]

end Sys2Proof.Machine
end

section
/-! PROOF. A Delay_Resp that completes an exchange of a PTP stack (R152). -/

namespace Sys2Proof.Machine

theorem exec_ptpMessage (n : Nat) (ask : Bool) (origin : Nat) (s : State) :
    exec (.ptpMessage n ask origin) s = .next (ptpMessage n ask origin s) := rfl

/-- The PTP stack of a time base takes the message at the head of its port's time queue. -/
theorem ptpMessage_taken {s : State} {n : Nat} {q : Port} {f : RxFrame} {rest : List RxFrame} {m : PtpMsg}
    (hrun : s.welmusRuns = true) (htime : s.time.running = true) (hn : n < 8) (hen : (s.tb n).cfg.ptpEn = true)
    (hsrc : (s.tb n).source = 1) (hq : s.port? (s.tb n).cfg.ptpPort = some q) (htq : q.timeQ = f :: rest)
    (happ : f.frame.app = .ptp m) (hbase : s.ptpBase (s.tb n).cfg.ptpPort f.frame m = some n) (ask : Bool) (origin : Nat) :
    ptpMessage n ask origin s = (s.begin.updPort (s.tb n).cfg.ptpPort fun q => { q with timeQ := rest }).ptpTake n m
      (f.stamps.getD n 0) f.at_ ask origin := by
  have hrun' : s.begin.welmusRuns = true := hrun
  have htime' : s.begin.time.running = true := htime
  have hbase' : s.begin.ptpBase (s.tb n).cfg.ptpPort f.frame m = some n := hbase
  have hn' : decide (7 < n) = false := decide_eq_false (by omega)
  simp only [ptpMessage, hrun', htime', hn', State.begin_tb, hen, hsrc, State.begin_port?, hq, Option.map_some, htq, happ, hbase',
    Bool.not_true, bne_self_eq_false, Bool.or_self, Bool.false_eq_true, if_false, if_true]

/-- A Delay_Resp from the best master goes to the exchange in hand. -/
theorem State.ptpTake_delayResp {s : State} {n at_ : Nat} {m : PtpMsg} (hkind : m.kind = .delayResp)
    (hbest : ((s.tb n).ptp.best at_).any (fun x => x.id == m.source) = true) (hpeer : (s.tb n).cfg.peerDelay = false)
    (stamp : Nat) (ask : Bool) (origin : Nat) : s.ptpTake n m stamp at_ ask origin = s.ptpDelayResp n m := by
  unfold State.ptpTake
  simp only [hkind]
  exact if_pos ⟨hbest, hpeer⟩

/-- A Delay_Resp that answers the request in hand delivers the offset of the exchange, with half of the two one-way times as its
delay. -/
theorem State.ptpDelayResp_completes {s : State} {n t1 t3 : Nat} {m : PtpMsg} {y : PtpSync} (hsync : (s.tb n).ptp.sync = some y)
    (hsent : y.sent = some t1) (hreq : (s.tb n).ptp.req = some (m.seq, some t3)) (hwho : m.requester = ptpIdentity n) :
    s.ptpDelayResp n m = (s.updPtp n fun x => { x with req := none }).ptpOffset n y t1
      ((stampNs y.stamp - stampNs t3 + ((m.time : Rat) - (t1 : Rat)) - corrNs y.correction - corrNs m.correction) / 2) := by
  unfold State.ptpDelayResp
  simp only [hsync, hreq, hsent]
  exact if_neg (not_or.mpr ⟨not_not.mpr rfl, not_not.mpr hwho⟩)

theorem State.updPtp_rebased (s : State) {n : Nat} (f : PtpState → PtpState) (hn : n < s.time.bases.length) :
    s.rebased (s.updPtp n f) (onBase n fun b => { b with ptp := f b.ptp }) := s.updTb_rebased _ hn

/-- The offset of a completed exchange reaches the servo, and the exchange is over. -/
theorem State.ptpOffset_serves {s : State} {n : Nat} {y : PtpSync} (hn : n < s.time.bases.length) (hstep : (s.tb n).lastStep ≤ y.at_)
    (hprev : (s.tb n).samples = 0 ∨ (s.tb n).tPrev < y.at_) (t1 : Nat) (delay : Rat) :
    let t := (s.updPtp n fun x => { x with req := none }).ptpOffset n y t1 delay
    State.onTb n s t ∧ (t.tb n).thetaPrev = stampNs y.stamp - (t1 : Rat) - corrNs y.correction - delay - corrNs (s.tb n).cfg.delayCorr ∧
      (t.tb n).tPrev = y.at_ ∧ (t.tb n).lastOffset = s.time.elapsed ∧ (t.tb n).ptp.req = none := by
  have hover := s.updPtp_rebased (fun x => { x with req := none }) hn
  have hread := State.rebased_tb hover n
  rw [onBase_self] at hread
  have helapsed := congrArg TimeUnit.elapsed (State.rebased_time hover)
  unfold State.ptpOffset
  generalize s.updPtp n _ = u at hover hread helapsed ⊢
  obtain ⟨hon, htheta, ht, hlast, hptp⟩ := State.servoOffset_keeps (s := u) (n := n) (t := y.at_)
    (hn.trans_eq (State.rebased_length hover).symm) (by rw [hread]; exact hstep) (by rw [hread]; exact hprev)
    (stampNs y.stamp - (t1 : Rat) - corrNs y.correction - delay - corrNs (u.tb n).cfg.delayCorr)
  refine ⟨State.onTb_trans (State.rebased_onTb hover) hon, ?_, ht, hlast.trans helapsed, ?_⟩
  · rw [htheta, hread]
  · rw [hptp, hread]

end Sys2Proof.Machine
end

section
/-! PROOF. The statement on time bases, their commands, PPS and PTP (R80, R147, R148, R151 to R158). -/

namespace Sys2Proof.Machine

/-- Settles O13, clause by clause: the two commands on a time base, the latch and the PPS output, and the three ways of an offset to a
servo. -/
theorem timeBasesFollowCommands : Obligations.TimeBasesFollowCommands := by
  unfold Obligations.TimeBasesFollowCommands
  refine ⟨fun s id c hf hm hlen => ⟨fun hw hbad hptp => ?_, fun hw hbad hstep hlo hhi => ?_⟩,
    ⟨fun s hup => ?_, fun s hrun hen hsec => ?_, fun s e he hlevel hdue => ?_⟩,
    fun s n q f rest m y t1 t3 ask origin hwel hrun hn hlen hen hsrc hpeer hq htq happ hkind hbase hbest hsync hsent hreq hwho
      hstep hprev => ?_,
    fun s id c hw hbad hstep hf hm hsrc hptp hlen hlast hprev => ?_,
    fun s hrun hlen => ⟨fun hgap => ?_, fun e he _ hearly hroom => ?_⟩⟩
  · exact ⟨_, exec_timeConfig id s, timeConfig_configures rfl hw hf hm hlen hbad hptp⟩
  · exact ⟨_, exec_timeOffsetStep id s, timeOffsetStep_steps rfl hw hf hm hlen hbad hstep hlo hhi⟩
  · rw [exec_timeLatch, timeLatch_pf0 hup]
    exact ⟨_, rfl, rfl, rfl, rfl, rfl⟩
  · refine ⟨_, exec_ppsOutputRise s, ?_⟩
    by_cases hfar : ∀ e, s.time.ppsLastRise = some e → e + 500000000 ≤ s.time.elapsed
    · rw [ppsOutputRise_rises hrun hen hsec hfar]
      exact ⟨rfl, rfl, fun _ => ⟨rfl, rfl, rfl⟩, fun e he hnear => absurd (hfar e he) (Nat.not_le.mpr hnear)⟩
    · obtain ⟨e, he, hnear⟩ : ∃ e, s.time.ppsLastRise = some e ∧ s.time.elapsed < e + 500000000 := by
        simpa only [not_forall, Nat.not_le, exists_prop] using hfar
      rw [ppsOutputRise_suppressed hrun hen hsec he hnear]
      exact ⟨rfl, rfl, fun h => absurd h hfar, fun _ _ _ => ⟨rfl, rfl⟩⟩
  · rw [exec_ppsOutputFall, ppsOutputFall_due he hlevel hdue]
    exact ⟨_, rfl, rfl⟩
  · have hexec := exec_ptpMessage n ask origin s
    rw [ptpMessage_taken hwel hrun hn hen hsrc hq htq happ hbase,
      State.ptpTake_delayResp (s := s.begin.updPort (s.tb n).cfg.ptpPort fun q => { q with timeQ := rest }) hkind hbest hpeer,
      State.ptpDelayResp_completes (s := s.begin.updPort (s.tb n).cfg.ptpPort fun q => { q with timeQ := rest }) hsync hsent hreq
        hwho] at hexec
    obtain ⟨⟨htimed, hother⟩, hserved⟩ := State.ptpOffset_serves
      (s := s.begin.updPort (s.tb n).cfg.ptpPort fun q => { q with timeQ := rest }) (hn.trans_eq hlen.symm) hstep hprev t1
      ((stampNs y.stamp - stampNs t3 + ((m.time : Rat) - (t1 : Rat)) - corrNs y.correction - corrNs m.correction) / 2)
    generalize State.ptpOffset _ _ _ _ _ = t at hexec htimed hother hserved
    obtain ⟨htheta, ht, hlast, hreq'⟩ := hserved
    have hframe := State.timed_frame htimed
    have hports : t.ports = s.ports.upd (s.tb n).cfg.ptpPort fun q => { q with timeQ := rest } := (congrArg State.ports hframe :)
    refine ⟨t, hexec, by rw [hframe]; rfl, htheta, ht, hlast, hreq', hother, { q with timeQ := rest }, ?_, rfl⟩
    rw [State.port?, hports, FMap.find?_upd_self, show s.ports.find? _ = some q from hq, Option.map_some]
  · exact ⟨_, exec_timeOffsetServo id s, timeOffsetServo_serves rfl hw hbad hstep hf hm hsrc hptp hlen hlast hprev⟩
  · exact ⟨_, exec_ppsInputEdge s, ppsInputEdge_serves hrun (State.ppsAccepts_of_gap hgap) hlen⟩
  · rw [exec_ppsInputEdge, ppsInputEdge_discarded hrun he hearly,
      State.fault_queue s.begin 0x11 0 0 (w32 (s.time.elapsed - e)) 0 hroom]
    exact ⟨_, rfl, rfl, _, rfl, rfl, rfl⟩

end Sys2Proof.Machine
end

section
/-! PROOF. RTCP that the device sends to a leg: one copy at the egress pipeline of the leg's port, none to a fenced leg (R18, R118,
R201). -/

namespace Sys2Proof.Machine

/-- The copy of RTCP `body` that the device sends to leg `leg`, whose state is `g`: no bank is latched for it (R201). -/
def State.rtcpCopy (s : State) (leg : Nat) (g : Leg) (body : App) : Copy :=
  { leg := leg, conf := g.conf, bank := 2, body := body, rtcp := true, rslot := g.slot.getD 0xFFFF, port := g.port
    ctx := g.txCtx, look := s.lookNo }

theorem State.sendRtcp_fenced {s : State} {leg : Nat} {g : Leg} (hg : s.legs.find? leg = some g) (hf : g.fenced = true)
    (body : App) (src : Option Nat) : s.sendRtcp leg body src = s := by
  simp [State.sendRtcp, State.rtcpTo, hg, hf]

/-- To a leg that is not fenced, where leg traffic runs, goes one copy. -/
theorem State.sendRtcp_open {s : State} {leg : Nat} {g : Leg} (hg : s.legs.find? leg = some g) (hf : g.fenced = false)
    (hc : s.carries = true) (body : App) :
    s.sendRtcp leg body none = { s with
      egressQ := s.egressQ.put (g.port / 16) (s.egressQ.getD [] (g.port / 16) ++ [s.rtcpCopy leg g body]) } := by
  simp [State.sendRtcp, State.rtcpTo, State.pushCopy, State.rtcpCopy, FMap.getD, hg, hf, hc]

/-- From `s` to `t` leg `leg`, once `g`, becomes `g'`, and RTCP `body` goes to it. -/
def State.sendsRtcp (s t : State) (leg : Nat) (g g' : Leg) (body : App) : Prop :=
  t = { s with out := t.out, legs := t.legs, egressQ := t.egressQ } ∧ t.legs.find? leg = some g' ∧
    (∀ k, k ≠ leg → t.legs.find? k = s.legs.find? k) ∧
    t.egressQ.getD [] (g.port / 16) = s.egressQ.getD [] (g.port / 16) ++ [s.rtcpCopy leg g body]

section
variable {s : State} {leg : Nat} {g : Leg} (hg : s.legs.find? leg = some g) {f : Leg → Leg} (body : App)
include hg

/-- RTCP to a leg whose state changes beside it in what no copy reads. -/
theorem State.updLeg_sendRtcp_sends (hf : (f g).fenced = false) (hc : s.carries = true) (hport : (f g).port = g.port)
    (hcopy : s.rtcpCopy leg (f g) body = s.rtcpCopy leg g body) :
    s.sendsRtcp ((s.begin.updLeg leg f).sendRtcp leg body none) leg g (f g) body := by
  have hleg : (s.begin.updLeg leg f).legs.find? leg = some (f g) := State.updLeg_find?_self (s := s.begin) hg f
  rw [State.sendRtcp_open hleg hf hc, hport]
  refine ⟨rfl, hleg, fun k hk => s.begin.updLeg_find?_ne hk f, ?_⟩
  exact (FMap.getD_put_self _ _ _ _).trans (congrArg (fun c => s.egressQ.getD [] (g.port / 16) ++ [c]) hcopy)

theorem State.updLeg_sendRtcp_fenced (hf : (f g).fenced = true) :
    (s.begin.updLeg leg f).sendRtcp leg body none = s.begin.updLeg leg f :=
  State.sendRtcp_fenced (State.updLeg_find?_self (s := s.begin) hg f) hf body none

end

end Sys2Proof.Machine
end

section
/-! PROOF. Receiver reports at their interval (R201). -/

namespace Sys2Proof.Machine

theorem exec_rrSend (leg : Nat) (s : State) : exec (.rrSend leg) s = .next (rrSend leg s) := rfl

/-- The receiver report of a leg (R201). -/
def Leg.report (g : Leg) (leg : Nat) : App :=
  .rtcp (compound (Config.ownSsrc leg) 0 [.rr (Config.ownSsrc leg) (g.reportBlocks leg)])

/-- Whether a receiver report to a leg is due: KIND 0 or 1, none within the last second, RTP within 5 s (R201). -/
def Leg.reportDue (g : Leg) (now : Nat) : Prop :=
  g.kind ≠ 2 ∧ (∀ w, g.lastRr = some w → w + 1000000000 ≤ now) ∧ ∃ u, g.lastRtpIn = some u ∧ now ≤ u + 5000000000

section
variable {s : State} {leg : Nat} {g : Leg} (hg : s.legs.find? leg = some g)
include hg

/-- A report that is due is sent, and its instant kept. -/
theorem rrSend_due (h : g.reportDue s.now) :
    rrSend leg s = (s.begin.updLeg leg fun g => { g with lastRr := some s.now }).sendRtcp leg (g.report leg) none := by
  obtain ⟨hkind, hrr, u, hu, hlive⟩ := h
  cases hw : g.lastRr with
  | none => simp [rrSend, hg, hkind, hw, hu, hlive, Leg.report]
  | some w => simp [rrSend, hg, hkind, hw, hrr w hw, hu, hlive, Leg.report]

theorem rrSend_not_due (h : ¬ g.reportDue s.now) : rrSend leg s = s.begin := by
  unfold rrSend
  simp only [State.begin_legs, hg]
  refine if_pos ?_
  contrapose h
  simp only [State.begin_now, Bool.or_eq_true, decide_eq_true_eq, Bool.not_eq_true', not_or, Bool.not_eq_false,
    Option.any_eq_true] at h
  obtain ⟨⟨hkind, hdue⟩, u, hu, hlive⟩ := h
  refine ⟨hkind, fun w hw => ?_, u, hu, of_decide_eq_true hlive⟩
  rw [hw] at hdue
  exact of_decide_eq_true hdue

/-- A fenced leg gets no report, due or not (R118). -/
theorem rrSend_fenced (hf : g.fenced = true) : (rrSend leg s).egressQ = s.egressQ := by
  by_cases h : g.reportDue s.now
  · rw [rrSend_due hg h, State.updLeg_sendRtcp_fenced hg (g.report leg) hf]
    rfl
  · rw [rrSend_not_due hg h]
    rfl

end

end Sys2Proof.Machine
end

section
/-! PROOF. Generic NACKs: the packing of missing sequence numbers names each of them, and the leg is asked once (R201). -/

namespace Sys2Proof.Machine

theorem exec_upstreamNackSend (leg : Nat) (s : State) : exec (.upstreamNackSend leg) s = .next (upstreamNackSend leg s) := rfl

/-! ### The packing -/

/-- Whether entries of a generic NACK name packet `n`, as a PID or as one of the 16 numbers after it. -/
def namesPacket (fci : List (Nat × Nat)) (n : Nat) : Prop :=
  ∃ e ∈ fci, e.1 = n ∨ e.2.testBit ((n + 65536 - e.1) % 65536 - 1) = true

/-- The bits of a mask that collects one bit for each element of a list. -/
theorem testBit_foldl_or_two_pow {α : Type} (f : α → Nat) (l : List α) (b i : Nat) :
    (l.foldl (fun b m => b ||| 2 ^ f m) b).testBit i = true ↔ b.testBit i = true ∨ ∃ m ∈ l, f m = i := by
  induction l generalizing b with
  | nil => simp
  | cons m l ih => simp [ih, Nat.testBit_or, Nat.testBit_two_pow, or_assoc]

/-- Packing loses no number: one that the mask of the first entry does not take stays for the entries after it. -/
theorem namesPacket_packNacks {n : Nat} (fuel : Nat) {l : List Nat} (hlen : l.length ≤ fuel) (hn : n ∈ l) :
    namesPacket (packNacks fuel l) n := by
  induction fuel generalizing l with
  | zero => simp [List.eq_nil_of_length_eq_zero (Nat.le_zero.mp hlen)] at hn
  | succ fuel ih =>
    obtain _ | ⟨p, r⟩ := l
    · simp at hn
    unfold packNacks
    simp only
    generalize hnear : r.takeWhile _ = near
    obtain rfl | hr := List.mem_cons.mp hn
    · exact ⟨_, List.mem_cons_self, .inl rfl⟩
    rw [← List.prefix_iff_eq_append.mp (hnear ▸ List.takeWhile_prefix _ : near <+: r), List.mem_append] at hr
    obtain hmask | hrest := hr
    · exact ⟨_, List.mem_cons_self, .inr ((testBit_foldl_or_two_pow _ _ _ _).mpr (.inr ⟨n, hmask, rfl⟩))⟩
    · have hle : (r.drop near.length).length ≤ fuel := by
        rw [List.length_drop]
        exact (Nat.sub_le _ _).trans (Nat.le_of_succ_le_succ hlen)
      obtain ⟨e, he, hnames⟩ := ih hle hrest
      exact ⟨e, List.mem_cons_of_mem _ he, hnames⟩

/-! ### The message -/

/-- The sequence numbers that stream `k` misses and that were not yet asked for. -/
def Leg.missing (g : Leg) (k : Nat) : List Nat := (g.nacks.filter fun x => x.1 == k).map Prod.snd

/-- The generic NACKs of a leg: one for each stream that misses packets. -/
def Leg.nackParts (g : Leg) : List RtcpPart :=
  [1, 2, 3].filterMap fun k =>
    match g.missing k with
    | [] => none
    | l => some (.nack (g.rx.getD k {}).ssrc (packNacks l.length l))

/-- The NACKs of a leg as one message (R201). -/
def Leg.nackMessage (g : Leg) (leg : Nat) : Rtcp := compound (Config.ownSsrc leg) 0 g.nackParts

/-- The NACK of a stream names every packet that the stream misses. -/
theorem Leg.nackParts_names {g : Leg} {k n : Nat} (hmem : (k, n) ∈ g.nacks) (h1 : 1 ≤ k) (h3 : k ≤ 3) :
    ∃ fci, RtcpPart.nack (g.rx.getD k {}).ssrc fci ∈ g.nackParts ∧ namesPacket fci n := by
  have hn : n ∈ g.missing k := List.mem_map.mpr ⟨(k, n), List.mem_filter.mpr ⟨hmem, beq_self_eq_true k⟩, rfl⟩
  refine ⟨packNacks (g.missing k).length (g.missing k), ?_, namesPacket_packNacks _ le_rfl hn⟩
  refine List.mem_filterMap.mpr ⟨k, ?_, ?_⟩
  · simp only [List.mem_cons, List.not_mem_nil, or_false]
    omega
  · split
    · next hnil => simp [hnil] at hn
    · rfl

section
variable {s : State} {leg : Nat} {g : Leg} (hg : s.legs.find? leg = some g)
include hg

theorem upstreamNackSend_missing (hn : g.nacks ≠ []) :
    upstreamNackSend leg s =
      (s.begin.updLeg leg fun g => { g with nacks := [] }).sendRtcp leg (.rtcp (g.nackMessage leg)) none := by
  unfold upstreamNackSend
  simp only [State.begin_legs, hg, List.isEmpty_iff, hn, if_false]
  rfl

theorem upstreamNackSend_complete (hn : g.nacks = []) : upstreamNackSend leg s = s.begin := by
  simp [upstreamNackSend, hg, hn]

/-- A fenced leg gets no NACK (R118). -/
theorem upstreamNackSend_fenced (hf : g.fenced = true) : (upstreamNackSend leg s).egressQ = s.egressQ := by
  by_cases hn : g.nacks = []
  · rw [upstreamNackSend_complete hg hn]
    rfl
  · rw [upstreamNackSend_missing hg hn, State.updLeg_sendRtcp_fenced hg (.rtcp (g.nackMessage leg)) hf]
    rfl

end

end Sys2Proof.Machine
end

section
/-! PROOF. The end of a key request interval (R195). -/

namespace Sys2Proof.Machine

theorem exec_keyReqIntervalEnd (leg : Nat) (s : State) :
    exec (.keyReqIntervalEnd leg) s = .next (keyReqIntervalEnd leg s) := rfl

section
variable {s : State} {leg : Nat} {g : Leg} {r : KeyReq} (hg : s.legs.find? leg = some g) (hr : g.keyReq = some r)
include hg hr

theorem keyReqIntervalEnd_early (h : s.now < r.since + r.interval * 1000000) : keyReqIntervalEnd leg s = s.begin := by
  simp [keyReqIntervalEnd, hg, hr, h]

/-- At its time the interval ends, and one event tells of the requests that it absorbed. -/
theorem keyReqIntervalEnd_due (h : r.since + r.interval * 1000000 ≤ s.now) :
    keyReqIntervalEnd leg s =
      let t := s.begin.updLeg leg fun g => { g with keyReq := none }
      if r.absorbed then t.raiseEvent (s.legHolder leg) 0x105 [w32 leg, 0] else t := by
  unfold keyReqIntervalEnd
  simp only [State.begin_legs, State.begin_now, hg, hr]
  exact if_neg (Nat.not_lt.mpr h)

/-- The end of an interval changes its leg and, where requests were absorbed, mailboxes and interrupts. -/
theorem keyReqIntervalEnd_touches (h : r.since + r.interval * 1000000 ≤ s.now) :
    ∃ o m f, keyReqIntervalEnd leg s = { s with
      out := o, mbx := m, funcs := f, legs := s.legs.upd leg fun g => { g with keyReq := none } } ∧
      (r.absorbed = false → m = s.mbx) := by
  rw [keyReqIntervalEnd_due hg hr h]
  cases r.absorbed with
  | false => exact ⟨[], s.mbx, s.funcs, rfl, fun _ => rfl⟩
  | true =>
    obtain ⟨m, f, o, he⟩ := (s.begin.updLeg leg fun g => { g with keyReq := none }).raiseEvent_touches (s.legHolder leg)
      0x105 [w32 leg, 0]
    exact ⟨o, m, f, he, nofun⟩

end

end Sys2Proof.Machine
end

section
/-! PROOF. The release of access units whose time has come (R337). -/

namespace Sys2Proof.Machine

theorem exec_reassemblyTimeout (c session : Nat) (s : State) :
    exec (.reassemblyTimeout c session) s = .next (reassemblyTimeout c session s) := rfl

/-! ### What a release may change -/

/-- `t` is `s` but for conferences, the scheduler, sessions and buses. -/
def State.onlyMedia (s t : State) : Prop := ∃ cs x ss bs, t = { s with confs := cs, sched := x, sess := ss, buses := bs }

theorem State.onlyMedia_refl (s : State) : s.onlyMedia s := ⟨_, _, _, _, rfl⟩

theorem State.onlyMedia_trans {s t u : State} (h : s.onlyMedia t) (k : t.onlyMedia u) : s.onlyMedia u := by
  obtain ⟨_, _, _, _, rfl⟩ := h
  obtain ⟨_, _, _, _, rfl⟩ := k
  exact ⟨_, _, _, _, rfl⟩

theorem State.onlyMedia_of_onlySched {s t : State} (h : s.onlySched t) : s.onlyMedia t := by
  obtain ⟨_, _, rfl⟩ := h
  exact ⟨_, _, _, _, rfl⟩

theorem State.updSess_onlyMedia (s : State) (i : Nat) (f : Sess → Sess) : s.onlyMedia (s.updSess i f) := ⟨_, _, _, _, rfl⟩

theorem State.countConf_onlyMedia (s : State) (c i k : Nat) : s.onlyMedia (s.countConf c i k) := ⟨_, _, _, _, rfl⟩

theorem State.dropAu_onlyMedia (s : State) (c b session : Nat) (a : Au) : s.onlyMedia (s.dropAu c b session a) := by
  unfold State.dropAu
  split
  · exact s.onlyMedia_refl
  · exact s.updSess_onlyMedia _ _

/-- An access unit that is released stays with the graph that it releases, or its bytes are free. -/
theorem State.releaseAu_cases (s : State) (c b session : Nat) (a : Au) :
    ∃ t, s.onlySched t ∧ (s.releaseAu c b session a = t ∨ s.releaseAu c b session a = t.dropAu c b session a) := by
  unfold State.releaseAu
  split
  · exact ⟨s, s.onlySched_refl, .inl rfl⟩
  next d _ =>
    have hsched : s.onlySched (if s.releases then s.release c b d 0 s.launchNs (some a) else s) := by
      split
      · exact s.release_only c b d 0 _ _
      · exact s.onlySched_refl
    exact ⟨_, hsched, (ite_eq_or_eq _ _ _).symm⟩

theorem State.releaseAu_onlyMedia (s : State) (c b session : Nat) (a : Au) : s.onlyMedia (s.releaseAu c b session a) := by
  obtain ⟨t, ht, h | h⟩ := s.releaseAu_cases c b session a
  · exact h ▸ State.onlyMedia_of_onlySched ht
  · exact h ▸ State.onlyMedia_trans (State.onlyMedia_of_onlySched ht) (t.dropAu_onlyMedia c b session a)

theorem State.releaseHead_onlyMedia (s : State) (c b i session : Nat) (damaged : Bool) :
    s.onlyMedia (s.releaseHead c b i session damaged) := by
  unfold State.releaseHead
  split
  · exact s.onlyMedia_refl
  next a rest _ =>
    simp only
    refine State.onlyMedia_trans (s.updSess_onlyMedia i fun x =>
      { x with aus := rest, nextFirst := some (max (x.nextFirst.getD 0) (a.top + 1)) }) ?_
    split
    · exact State.dropAu_onlyMedia _ c b session a
    · refine State.onlyMedia_trans (State.countConf_onlyMedia _ c 12 1) ?_
      refine State.onlyMedia_trans ?_ (State.onlyMedia_trans (State.updSess_onlyMedia _ i _) (State.releaseAu_onlyMedia _ c b _ _))
      split
      · exact State.countConf_onlyMedia _ c 13 1
      · exact State.onlyMedia_refl _

theorem State.releaseDue_onlyMedia (c b i session : Nat) (r : SessionRec) (n : Nat) (s : State) :
    s.onlyMedia (State.releaseDue c b i session r n s) := by
  induction n generalizing s with
  | zero => exact s.onlyMedia_refl
  | succ n ih =>
    unfold State.releaseDue
    split
    · exact s.onlyMedia_refl
    · exact State.onlyMedia_trans (s.releaseHead_onlyMedia c b i session _) (ih _)

/-! ### The access units of a session -/

theorem State.updSess_sessAt_self {s : State} {i : Nat} {x : Sess} (h : s.sess.find? i = some x) (f : Sess → Sess) :
    (s.updSess i f).sessAt i = f x := by
  simp [State.sessAt, State.updSess, FMap.getD, FMap.find?_upd_self, h]

/-- A change of a session beside its access units. -/
theorem State.updSess_aus (s : State) (i j : Nat) {f : Sess → Sess} (hf : ∀ x, (f x).aus = x.aus) :
    ((s.updSess j f).sessAt i).aus = (s.sessAt i).aus := by
  by_cases hi : i = j
  · subst hi
    cases h : s.sess.find? i <;> simp [State.sessAt, State.updSess, FMap.getD, FMap.find?_upd_self, h, hf]
  · simp [State.sessAt, State.updSess, FMap.getD, FMap.find?_upd_ne _ _ _ _ hi]

@[simp] theorem State.dropAu_aus (s : State) (c b session i : Nat) (a : Au) :
    ((s.dropAu c b session a).sessAt i).aus = (s.sessAt i).aus := by
  unfold State.dropAu
  split
  · rfl
  · exact s.updSess_aus i _ fun _ => rfl

@[simp] theorem State.releaseAu_aus (s : State) (c b session i : Nat) (a : Au) :
    ((s.releaseAu c b session a).sessAt i).aus = (s.sessAt i).aus := by
  obtain ⟨t, ⟨_, _, rfl⟩, h | h⟩ := s.releaseAu_cases c b session a
  · rw [h]
    rfl
  · rw [h, State.dropAu_aus]
    rfl

/-- The first access unit leaves its session, whether it releases a graph or is dropped. -/
theorem State.releaseHead_aus (s : State) (c b i session : Nat) (damaged : Bool) :
    ((s.releaseHead c b i session damaged).sessAt i).aus = (s.sessAt i).aus.tail := by
  unfold State.releaseHead
  split
  next hnil => rw [hnil, List.tail_nil]
  next a rest haus =>
    obtain ⟨x, hx⟩ : ∃ x, s.sess.find? i = some x := by
      cases h : s.sess.find? i with
      | none => simp [State.sessAt, FMap.getD, h] at haus
      | some x => exact ⟨x, rfl⟩
    have hgone := congrArg Sess.aus (State.updSess_sessAt_self hx fun x =>
      { x with aus := rest, nextFirst := some (max (x.nextFirst.getD 0) (a.top + 1)) })
    rw [haus, List.tail_cons]
    simp only
    split
    · exact (State.dropAu_aus ..).trans hgone
    · rw [State.releaseAu_aus, State.updSess_aus]
      case hf => exact fun _ => rfl
      split <;> exact hgone

/-! ### The timeout -/

theorem reassemblyTimeout_onlyMedia (c session : Nat) (s : State) : s.begin.onlyMedia (reassemblyTimeout c session s) := by
  unfold reassemblyTimeout
  simp only
  split
  · exact State.onlyMedia_refl _
  · split
    · exact State.releaseDue_onlyMedia ..
    · exact State.onlyMedia_refl _

section
variable {s : State} {c session b i : Nat} {r : SessionRec} {a : Au} (hb : (s.conf c).activeNo = some b)
  (hr : (s.planD c b).sessionRec session = some r) (hi : s.sessNo c b session = some i) (ha : (s.sessAt i).aus = [a])
include hb hr hi ha

/-- Of a session with one access unit the timeout looks at that one. -/
theorem reassemblyTimeout_single :
    reassemblyTimeout c session s = State.releaseDue c b i session r 1 s.begin := by
  have hr' : (s.begin.planD c b).sessionRec session = some r := hr
  have hi' : s.begin.sessNo c b session = some i := hi
  have ha' : (s.begin.sessAt i).aus = [a] := ha
  simp only [reassemblyTimeout, State.begin_conf, hb, hr', hi', ha', List.length_singleton]

theorem reassemblyTimeout_single_early (h : headDue (s.sessAt i) r s.tb0Us = none) :
    reassemblyTimeout c session s = s.begin := by
  have h' : headDue (s.begin.sessAt i) r s.begin.tb0Us = none := h
  rw [reassemblyTimeout_single hb hr hi ha]
  simp only [State.releaseDue, h']

theorem reassemblyTimeout_single_due (h : (headDue (s.sessAt i) r s.tb0Us).isSome = true) :
    ((reassemblyTimeout c session s).sessAt i).aus = [] := by
  obtain ⟨d, hd⟩ := Option.isSome_iff_exists.mp h
  have hd' : headDue (s.begin.sessAt i) r s.begin.tb0Us = some d := hd
  rw [reassemblyTimeout_single hb hr hi ha]
  simp only [State.releaseDue, hd']
  rw [State.releaseHead_aus, show (s.begin.sessAt i).aus = [a] from ha, List.tail_cons]

end

end Sys2Proof.Machine
end

section
/-! PROOF. The statement on what the device sends a leg on its own, and on access units whose time has come (R118, R195, R201,
R337). -/

namespace Sys2Proof.Machine

/-- Settles O35, clause by clause: the receiver report that is due, those that are not, the fenced leg, the NACK, the key request
interval, and the access units. -/
theorem legsAreReportedTo : Obligations.LegsAreReportedTo := by
  unfold Obligations.LegsAreReportedTo
  refine fun s leg g hg => ⟨fun u hkind hf hc hrr hu hlive => ?_, fun hkind => ?_, fun hf => ⟨?_, ?_⟩, fun w hw hsoon => ?_,
    fun hn hf hc => ?_, fun r hr => ⟨fun hdue => ?_, fun hearly => ?_⟩, fun session => ?_⟩
  · exact ⟨_, (exec_rrSend leg s).trans (congrArg _ (rrSend_due hg ⟨hkind, hrr, u, hu, hlive⟩)),
      State.updLeg_sendRtcp_sends hg (g.report leg) hf hc rfl rfl⟩
  · have hnot : ¬ g.reportDue s.now := fun ⟨hne, _⟩ => hne hkind
    rw [exec_rrSend, rrSend_not_due hg hnot]
    rfl
  · exact ⟨_, exec_rrSend leg s, rrSend_fenced hg hf⟩
  · exact ⟨_, exec_upstreamNackSend leg s, upstreamNackSend_fenced hg hf⟩
  · have hnot : ¬ g.reportDue s.now := fun ⟨_, hrr, _⟩ => absurd (hrr w hw) (Nat.not_le.mpr hsoon)
    rw [exec_rrSend, rrSend_not_due hg hnot]
    rfl
  · obtain ⟨hframe, hthis, hother, hq⟩ : s.sendsRtcp _ leg g { g with nacks := [] } (.rtcp (g.nackMessage leg)) :=
      State.updLeg_sendRtcp_sends (f := fun g => { g with nacks := [] }) hg (.rtcp (g.nackMessage leg)) hf hc rfl rfl
    refine ⟨_, g.nackMessage leg, (exec_upstreamNackSend leg s).trans (congrArg _ (upstreamNackSend_missing hg hn)), hframe,
      hthis, hother, hq, rfl, fun k n hmem h1 h3 _ => Leg.nackParts_names hmem h1 h3⟩
  · obtain ⟨o, m, f, heq, hquiet⟩ := keyReqIntervalEnd_touches hg hr hdue
    rw [exec_keyReqIntervalEnd, heq]
    exact ⟨_, rfl, rfl, State.updLeg_find?_self hg _, fun k hk => s.updLeg_find?_ne hk _, hquiet⟩
  · rw [exec_keyReqIntervalEnd, keyReqIntervalEnd_early hg hr hearly]
    rfl
  · obtain ⟨cs, x, ss, bs, hmedia⟩ := reassemblyTimeout_onlyMedia g.conf session s
    refine ⟨_, exec_reassemblyTimeout g.conf session s, by rw [hmedia]; rfl,
      fun b i r hb hr hi a ha => ⟨reassemblyTimeout_single_early hb hr hi ha, reassemblyTimeout_single_due hb hr hi ha⟩⟩

end Sys2Proof.Machine
end

section
/-! PROOF. What a copy counts for its leg, and its entry in the leg's send log (R92, R187, R202, R207, R247). -/

namespace Sys2Proof.Machine

/-- `t` is `s` but for leg `leg`. -/
def State.onLeg (leg : Nat) (s t : State) : Prop :=
  ∃ ls, t = { s with legs := ls } ∧ ∀ i, i ≠ leg → ls.find? i = s.legs.find? i

theorem State.onLeg_refl (leg : Nat) (s : State) : State.onLeg leg s s := ⟨s.legs, rfl, fun _ _ => rfl⟩

theorem State.onLeg_trans {leg : Nat} {s t u : State} (h : State.onLeg leg s t) (k : State.onLeg leg t u) :
    State.onLeg leg s u := by
  obtain ⟨_, rfl, hs⟩ := h
  obtain ⟨us, rfl, ht⟩ := k
  exact ⟨us, rfl, fun i hi => (ht i hi).trans (hs i hi)⟩

theorem State.updLeg_onLeg (s : State) (leg : Nat) (f : Leg → Leg) : State.onLeg leg s (s.updLeg leg f) :=
  ⟨_, rfl, fun _ hi => s.updLeg_find?_ne hi f⟩

theorem State.countTo_onLeg (s : State) (leg serial i k : Nat) : State.onLeg leg s (s.countTo leg serial i k) := by
  unfold State.countTo
  split
  · exact s.updLeg_onLeg leg _
  · exact s.onLeg_refl leg

/-- A copy counts for its leg while that is still the opening that the copy was made for. -/
theorem State.countTo_find? {s : State} {leg serial : Nat} {g : Leg} (hg : s.legs.find? leg = some g) (hserial : g.serial = serial)
    (i k : Nat) : (s.countTo leg serial i k).legs.find? leg = some { g with counters := bump g.counters i k } := by
  have hopen : s.isOpen leg serial = true := by simp [State.isOpen, hg, hserial]
  rw [State.countTo, if_pos hopen]
  exact State.updLeg_find?_self hg _

theorem State.logSend_onLeg (s : State) (x : Stored) : State.onLeg x.leg s (s.logSend x) := by
  unfold State.logSend
  split
  · exact s.onLeg_refl x.leg
  · exact s.updLeg_onLeg x.leg _

/-! ### Another store -/

/-- A state with another store. -/
def State.withStore (s : State) (m : FMap Stored) : State := { s with store := m }

/-- A copy that changes in the store, or leaves it, and counts for its leg. -/
theorem State.withStore_countTo (s : State) (m : FMap Stored) (leg serial i k : Nat) : ∃ ls,
    (s.withStore m).countTo leg serial i k = { s with legs := ls, store := m } ∧
    (∀ j, j ≠ leg → ls.find? j = s.legs.find? j) ∧ ∀ g, s.legs.find? leg = some g → g.serial = serial →
      ls.find? leg = some { g with counters := bump g.counters i k } := by
  obtain ⟨ls, hls, hother⟩ := (s.withStore m).countTo_onLeg leg serial i k
  refine ⟨ls, hls, hother, fun g hg hserial => ?_⟩
  have hcount := State.countTo_find? (s := s.withStore m) hg hserial i k
  rwa [hls] at hcount

end Sys2Proof.Machine
end

section
/-! PROOF. A stored copy between the Grotto and the Sump: its spill and its fetch (R244, R410). -/

namespace Sys2Proof.Machine

theorem exec_sumpSpill (n : Nat) (s : State) : exec (.sumpSpill n) s = .next (sumpSpill n s) := rfl

theorem exec_sumpFetch (n : Nat) (poisoned : Bool) (s : State) :
    exec (.sumpFetch n poisoned) s = .next (sumpFetch n poisoned s) := rfl

@[simp] theorem State.begin_lead (s : State) (x : Stored) : s.begin.lead x = s.lead x := rfl

@[simp] theorem State.begin_sumpFree (s : State) : s.begin.sumpFree = s.sumpFree := rfl

@[simp] theorem State.begin_grottoFree (s : State) : s.begin.grottoFree = s.grottoFree := rfl

@[simp] theorem State.begin_nextFetch (s : State) (n : Nat) (x : Stored) : s.begin.nextFetch n x = s.nextFetch n x := rfl

section
variable {s : State} {n : Nat} {x : Stored} (hx : s.store.find? n = some x)
include hx

/-! ### The spill (R244) -/

theorem sumpSpill_near (hnear : s.lead x ≤ 40000 * 65536) : sumpSpill n s = s.begin := by
  simp only [sumpSpill, State.begin_store, hx, State.begin_lead, hnear, decide_true, Bool.or_true, if_true]

section
variable (hmoves : s.moves = true) (hsump : x.sump = false) (hstays : x.stays = false) (hfar : 40000 * 65536 < s.lead x)
include hmoves hsump hstays hfar

theorem sumpSpill_far : sumpSpill n s =
    if s.sumpFree < x.cells then s.begin.withStore (s.store.put n { x with stays := true })
    else (s.begin.withStore (s.store.put n { x with sump := true })).countTo x.leg x.copy.ctx.serial 33 1 := by
  simp only [sumpSpill, State.begin_store, hx, State.begin_moves, State.begin_lead, State.begin_sumpFree, hmoves, hsump, hstays,
    Int.not_le.mpr hfar, decide_false, Bool.not_true, Bool.or_self, Bool.false_eq_true, if_false]
  rfl

/-- A copy of a long lead moves to the Sump, or is marked to stay; nothing else of the store changes. -/
theorem sumpSpill_moves : ∃ ls y, sumpSpill n s = { s with out := [], legs := ls, store := s.store.put n y } ∧
    (x.cells ≤ s.sumpFree → y = { x with sump := true } ∧ ∀ g, s.legs.find? x.leg = some g → g.serial = x.copy.ctx.serial →
      ls.find? x.leg = some { g with counters := bump g.counters 33 1 }) ∧
    (s.sumpFree < x.cells → y = { x with stays := true } ∧ ls = s.legs) := by
  rw [sumpSpill_far hx hmoves hsump hstays hfar]
  split
  next hfull => exact ⟨s.legs, _, rfl, fun hroom => absurd hfull (Nat.not_lt.mpr hroom), fun _ => ⟨rfl, rfl⟩⟩
  next hroom =>
    obtain ⟨ls, hls, -, hcount⟩ := s.begin.withStore_countTo (s.store.put n { x with sump := true }) x.leg x.copy.ctx.serial 33 1
    exact ⟨ls, _, hls, fun _ => ⟨rfl, hcount⟩, fun hfull => absurd hfull hroom⟩

end

/-! ### The fetch (R244, R410) -/

section
variable (hmoves : s.moves = true) (hsump : x.sump = true) (hdue : s.lead x ≤ 20000 * 65536) (hroom : x.cells ≤ s.grottoFree)
  (hnext : s.nextFetch n x = true)
include hmoves hsump hdue hroom hnext

theorem sumpFetch_due (poisoned : Bool) : sumpFetch n poisoned s =
    if poisoned then ((s.begin.withStore (s.store.del n)).countTo x.leg x.copy.ctx.serial 34 1).sumpPanic
    else (s.begin.withStore (s.store.put n { x with sump := false })).sumpPanic := by
  simp only [sumpFetch, State.begin_store, hx, State.begin_moves, State.begin_lead, State.begin_grottoFree,
    State.begin_nextFetch, hmoves, hsump, Int.not_lt.mpr hdue, Nat.not_lt.mpr hroom, hnext, decide_false, Bool.not_true,
    Bool.or_self, Bool.false_eq_true, if_false]
  rfl

/-- A copy that reads clean is back in the Grotto. -/
theorem sumpFetch_returns : ∃ p, sumpFetch n false s =
    { s with out := [], store := s.store.put n { x with sump := false }, panic := p } :=
  ⟨_, sumpFetch_due hx hmoves hsump hdue hroom hnext false⟩

/-- A poisoned copy is gone, and counts in its leg's QUEUE_DROPS. -/
theorem sumpFetch_poisoned : ∃ ls p,
    sumpFetch n true s = { s with out := [], legs := ls, store := s.store.del n, panic := p } ∧
    ∀ g, s.legs.find? x.leg = some g → g.serial = x.copy.ctx.serial →
      ls.find? x.leg = some { g with counters := bump g.counters 34 1 } := by
  obtain ⟨ls, hls, -, hcount⟩ := s.begin.withStore_countTo (s.store.del n) x.leg x.copy.ctx.serial 34 1
  rw [sumpFetch_due hx hmoves hsump hdue hroom hnext true, if_pos rfl, hls]
  exact ⟨ls, _, rfl, hcount⟩

end

end

end Sys2Proof.Machine
end

section
/-! PROOF. The hand-off of a launch queue's head to its transmit queue (R140, R245, R246). -/

namespace Sys2Proof.Machine

theorem exec_launchHandoff (port cls : Nat) (s : State) : exec (.launchHandoff port cls) s = .next (launchHandoff port cls s) := rfl

@[simp] theorem State.begin_launchHead (s : State) (port cls : Nat) : s.begin.launchHead port cls = s.launchHead port cls := rfl

@[simp] theorem State.begin_portUp (s : State) (port : Nat) : s.begin.portUp port = s.portUp port := rfl

theorem State.portUp_of_st {s : State} {port : Nat} {q : Port} (hq : s.port? port = some q) (hst : q.st = 4) :
    s.portUp port = true := by simp [State.portUp, hq, hst]

/-- A frame put into a transmit queue leaves the frames of the port's other queues. -/
theorem State.pushTx_frames_ne {s : State} {port k cls : Nat} {q q' : Port} {f : TxFrame} (hq : s.port? port = some q)
    (hq' : (s.pushTx port cls f).port? port = some q') (h : k ≠ cls) :
    (q'.txq.getD k []).map TxFrame.frame = (q.txq.getD k []).map TxFrame.frame := by
  have hpush := (s.updPort_port?_self port _).symm.trans hq'
  rw [hq] at hpush
  obtain rfl := Option.some.inj hpush
  rw [Port.markHeads_frames]
  simp [List.getD_eq_getElem?_getD, h.symm]

section
variable {s : State} {port cls n : Nat} {x : Stored} {q : Port} (hmoves : s.moves = true)
  (hx : s.launchHead port cls = some (n, x)) (hsump : x.sump = false) (hdue : s.lead x ≤ 2000 * 65536)
  (hq : s.port? port = some q) (hst : q.st = 4)
include hmoves hx hsump hdue hq hst

/-- The rows of R246 for the head of a launch queue whose port is UP. -/
theorem launchHandoff_due : launchHandoff port cls s =
    let gone := s.begin.withStore (s.store.del n)
    if classStale cls * 65536 < -s.lead x then gone.countTo x.leg x.copy.ctx.serial 35 1
    else if q.txRoom cls (txFrameOf x).length = false then s.begin
    else
      (((gone.countTo x.leg x.copy.ctx.serial 37 1).countTo x.leg x.copy.ctx.serial 39 (s.now - x.chargedAt)).pushTx port cls
        (txFrameOf x)).logSend x := by
  simp only [launchHandoff, State.begin_launchHead, hx, State.begin_moves, State.begin_lead, State.begin_portUp,
    State.portUp_of_st hq hst, State.begin_port?, hq, hmoves, hsump, Int.not_lt.mpr hdue, decide_false, Bool.not_true, Bool.or_self,
    Bool.false_eq_true, if_false, Option.getD_some, Bool.not_eq_true']
  rfl

/-- A copy past its stale limit is dropped (R246). -/
theorem launchHandoff_stale (hstale : classStale cls * 65536 < -s.lead x) : ∃ ls,
    launchHandoff port cls s = { s with out := [], legs := ls, store := s.store.del n } ∧
    ∀ i, i ≠ x.leg → ls.find? i = s.legs.find? i := by
  obtain ⟨ls, hls, hother, -⟩ := s.begin.withStore_countTo (s.store.del n) x.leg x.copy.ctx.serial 35 1
  rw [launchHandoff_due hmoves hx hsump hdue hq hst]
  exact ⟨ls, (if_pos hstale).trans hls, hother⟩


/-- A copy that is not stale joins its transmit queue where that has room, counts for its leg, and is noted in the send log
(R202, R245, R246). -/
theorem launchHandoff_hands (hfresh : -s.lead x ≤ classStale cls * 65536)
    (hroom : q.txRoom cls (txFrameOf x).length = true) : ∃ u,
    State.onLeg x.leg (s.begin.withStore (s.store.del n)) u ∧
    launchHandoff port cls s = (u.pushTx port cls (txFrameOf x)).logSend x := by
  rw [launchHandoff_due hmoves hx hsump hdue hq hst]
  exact ⟨_, State.onLeg_trans (State.countTo_onLeg _ x.leg _ 37 1) (State.countTo_onLeg _ x.leg _ 39 _),
    (if_neg (Int.not_lt.mpr hfresh)).trans (if_neg (ne_false_of_eq_true hroom))⟩

/-- What the hand-off changes: the store, the copy's leg, and the end of one transmit queue. -/
theorem launchHandoff_queues (hfresh : -s.lead x ≤ classStale cls * 65536)
    (hroom : q.txRoom cls (txFrameOf x).length = true) (hcls : cls < q.txq.length) : ∃ ps ls q',
    launchHandoff port cls s = { s with out := [], ports := ps, legs := ls, store := s.store.del n } ∧
    ps.find? port = some q' ∧ (∀ i, i ≠ port → ps.find? i = s.ports.find? i) ∧
    (q'.txq.getD cls []).map TxFrame.frame = (q.txq.getD cls []).map TxFrame.frame ++ [(txFrameOf x).frame] ∧
    (∀ k, k ≠ cls → (q'.txq.getD k []).map TxFrame.frame = (q.txq.getD k []).map TxFrame.frame) ∧
    ∀ i, i ≠ x.leg → ls.find? i = s.legs.find? i := by
  obtain ⟨u, ⟨ls, hu, hcounted⟩, hhands⟩ := launchHandoff_hands hmoves hx hsump hdue hq hst hfresh hroom
  have hport : u.port? port = some q := by rw [hu]; exact hq
  obtain ⟨⟨q', hq', hlast⟩, hports⟩ := State.pushTx_frames hport hcls (txFrameOf x)
  obtain ⟨ms, hms, hlogged⟩ := (u.pushTx port cls (txFrameOf x)).logSend_onLeg x
  subst hu
  exact ⟨_, ms, q', hhands.trans hms, hq', hports, hlast, fun k hk => State.pushTx_frames_ne hport hq' hk,
    fun i hi => (hlogged i hi).trans (hcounted i hi)⟩

end

end Sys2Proof.Machine
end

section
/-! PROOF. The statement on stored copies (R244 to R246, R410). -/

namespace Sys2Proof.Machine

/-- Settles O37, clause by clause: the spill of a long lead, none at a short one, the fetch of a clean and of a poisoned copy, and
the hand-off of a launch queue's head and of a stale one. -/
theorem storedCopiesGoToTheWire : Obligations.StoredCopiesGoToTheWire := by
  unfold Obligations.StoredCopiesGoToTheWire
  refine ⟨fun s n x hmoves hx => ⟨fun hsump hstays hfar => ?_, fun hnear => ?_, fun hsump hdue hroom hnext => ⟨?_, ?_⟩⟩,
    fun s port cls n x q hmoves hx hsump hdue hq hst => ⟨fun hfresh hroom hcls => ?_, fun hstale => ?_⟩⟩
  · obtain ⟨ls, y, ht, hspills, hstay⟩ := sumpSpill_moves hx hmoves hsump hstays hfar
    refine ⟨_, (exec_sumpSpill n s).trans (congrArg _ ht), rfl, fun i hi => FMap.find?_put_ne s.store n i y hi, fun hroom => ?_,
      fun hfull => ?_⟩
    · obtain ⟨rfl, hcount⟩ := hspills hroom
      exact ⟨FMap.find?_put_self .., hcount⟩
    · obtain ⟨rfl, rfl⟩ := hstay hfull
      exact ⟨FMap.find?_put_self .., rfl⟩
  · rw [exec_sumpSpill, sumpSpill_near hx hnear]
    rfl
  · obtain ⟨p, ht⟩ := sumpFetch_returns hx hmoves hsump hdue hroom hnext
    exact ⟨_, (exec_sumpFetch n false s).trans (congrArg _ ht), rfl, FMap.find?_put_self ..,
      fun i hi => FMap.find?_put_ne s.store n i _ hi, rfl⟩
  · obtain ⟨ls, p, ht, hcount⟩ := sumpFetch_poisoned hx hmoves hsump hdue hroom hnext
    exact ⟨_, (exec_sumpFetch n true s).trans (congrArg _ ht), rfl, FMap.find?_del_self ..,
      fun i hi => FMap.find?_del_ne s.store n i hi, hcount⟩
  · obtain ⟨ps, ls, q', ht, hq', hports, hlast, hothers, hlegs⟩ :=
      launchHandoff_queues hmoves hx hsump hdue hq hst hfresh hroom hcls
    exact ⟨_, q', (exec_launchHandoff port cls s).trans (congrArg _ ht), rfl, rfl, hq', hports, hlast, hothers, hlegs⟩
  · obtain ⟨ls, ht, hlegs⟩ := launchHandoff_stale hmoves hx hsump hdue hq hst hstale
    exact ⟨_, (exec_launchHandoff port cls s).trans (congrArg _ ht), rfl, rfl, rfl, hlegs⟩

end Sys2Proof.Machine
end

section
/-! PROOF. The registers of the scheduler and the records that enter Lantern's ring (R274 to R278). -/

namespace Sys2Proof.Machine

theorem exec_schedTickWrite (fn : Nat) (v : Word) (s : State) : exec (.schedTickWrite fn v) s = .next (schedTickWrite fn v s) := rfl

theorem exec_lanternCtrlWrite (fn : Nat) (v : Word) (s : State) :
    exec (.lanternCtrlWrite fn v) s = .next (lanternCtrlWrite fn v s) := rfl

theorem exec_lanternSync (s : State) : exec .lanternSync s = .next (lanternSync s) := rfl

/-! ### The ring -/

@[simp] theorem Lantern.put_ctrl (l : Lantern) (ws : List Word) : (l.put ws).ctrl = l.ctrl := rfl
@[simp] theorem Lantern.put_matchReg (l : Lantern) (ws : List Word) : (l.put ws).matchReg = l.matchReg := rfl
@[simp] theorem Lantern.put_syncSec (l : Lantern) (ws : List Word) : (l.put ws).syncSec = l.syncSec := rfl
@[simp] theorem Lantern.put_lost (l : Lantern) (ws : List Word) : (l.put ws).lost = l.lost := rfl
@[simp] theorem Lantern.put_head (l : Lantern) (ws : List Word) : (l.put ws).head = (l.head + 1) % 65536 := rfl
@[simp] theorem Lantern.put_ring (l : Lantern) (ws : List Word) : (l.put ws).ring = l.ring.put l.head ws := rfl
@[simp] theorem Lantern.put_run (l : Lantern) (ws : List Word) : (l.put ws).run = l.run + 1 := rfl
@[simp] theorem Lantern.put_frozen (l : Lantern) (ws : List Word) :
    (l.put ws).frozen = (bitAt l.ctrl 30 && decide (65536 ≤ l.run + 1)) := rfl

/-- The record of what was lost (R277). -/
def State.lostWords (s : State) : List Word := lanternWords s.tb0Ns 14 0 7 0 0 0x3FFFF 0xFFFF s.sched.lantern.lost

/-- `t` is `s` with another trace. -/
def State.withLantern (s : State) (l : Lantern) : State := s.updSched fun x => { x with lantern := l }

/-- The ring FROZEN: the record is lost and counted (R277). -/
theorem State.lanternPut_frozen {s : State} (ws : List Word) (hf : s.sched.lantern.frozen = true) :
    s.lanternPut ws = (s.withLantern { s.sched.lantern with lost := s.sched.lantern.lost + 1 }).countSched 16 1 := by
  simp [State.lanternPut, State.withLantern, hf]

/-- Nothing lost before: the record enters at HEAD. -/
theorem State.lanternPut_next {s : State} (ws : List Word) (hf : s.sched.lantern.frozen = false) (hl : s.sched.lantern.lost = 0) :
    s.lanternPut ws = s.withLantern (s.sched.lantern.put ws) := by
  simp [State.lanternPut, State.withLantern, hf, hl]

/-- Records lost before, and a LOST record that does not end the writing: it goes first. -/
theorem State.lanternPut_afterLost {s : State} (ws : List Word) (hf : s.sched.lantern.frozen = false) (hl : s.sched.lantern.lost ≠ 0)
    (hrun : (s.sched.lantern.put s.lostWords).frozen = false) :
    s.lanternPut ws = s.withLantern (({ s.sched.lantern.put s.lostWords with lost := 0 } : Lantern).put ws) := by
  have hrun' : (s.sched.lantern.put (lanternWords s.tb0Ns 14 0 7 0 0 0x3FFFF 0xFFFF s.sched.lantern.lost)).frozen = false := hrun
  simp only [State.lanternPut, hf, hl, if_false, hrun', Bool.false_eq_true]
  rfl

/-- A record changes the trace and the count of what was lost; the trace keeps its registers and its second. -/
theorem State.lanternPut_touches (s : State) (ws : List Word) : ∃ l c,
    s.lanternPut ws = { s with sched := { s.sched with lantern := l, counters := c } } ∧ l.ctrl = s.sched.lantern.ctrl ∧
      l.matchReg = s.sched.lantern.matchReg ∧ l.syncSec = s.sched.lantern.syncSec ∧
      ∀ j, j ≠ 16 → c.getD j 0 = s.sched.counters.getD j 0 := by
  unfold State.lanternPut
  by_cases hl : s.sched.lantern.lost = 0
  all_goals
    simp only [hl, if_true, if_false]
    repeat' split
    all_goals first
      | exact ⟨_, _, rfl, rfl, rfl, rfl, fun _ _ => rfl⟩
      | exact ⟨_, _, rfl, rfl, rfl, rfl, fun _ hj => bump_getD_ne _ 1 hj.symm⟩

/-! ### The registers (R274) -/

theorem schedTickWrite_pf0 (v : Word) (s : State) : schedTickWrite 0 v s =
    if (s.modes.mode = .ready ∨ s.modes.mode = .maintenance) ∧ 1 ≤ fld v 9 0 ∧ fld v 9 0 ≤ 1000 then
      { s with sched := { s.sched with tickUs := fld v 9 0 }, out := [] }
    else { s with out := [] } := by
  by_cases hmode : s.modes.mode = .ready ∨ s.modes.mode = .maintenance
  · by_cases hrange : 1 ≤ fld v 9 0 ∧ fld v 9 0 ≤ 1000
    · have hlow : fld v 9 0 ≠ 0 := by omega
      have hhigh : ¬ 1000 < fld v 9 0 := by omega
      rw [if_pos ⟨hmode, hrange⟩]
      rcases hmode with hm | hm <;> simp [schedTickWrite, hm, hlow, hhigh, State.updSched, State.begin]
    · have hout : fld v 9 0 = 0 ∨ 1000 < fld v 9 0 := by omega
      rw [if_neg fun h => hrange h.2]
      simp [schedTickWrite, hout, State.begin]
  · rw [if_neg fun h => hmode h.1]
    simp [schedTickWrite, not_or.mp hmode, State.begin]

theorem schedTickWrite_vf {fn : Nat} (v : Word) (s : State) (h : fn ≠ 0) : schedTickWrite fn v s = s.begin := by
  simp [schedTickWrite, h]

theorem lanternCtrlWrite_vf {fn : Nat} (v : Word) (s : State) (h : fn ≠ 0) : lanternCtrlWrite fn v s = s.begin := by
  simp [lanternCtrlWrite, h]

/-- The trace after a write of LANTERN_CTRL, before the SYNC record of one with ENABLE. -/
def Lantern.controlled (l : Lantern) (v : Word) : Lantern :=
  { l with
    ctrl := v &&& 0xC000FFFF
    frozen := l.frozen && !bitAt v 31
    wrapped := l.wrapped && !bitAt v 31
    run := if bitAt v 31 then 0 else l.run }

theorem lanternCtrlWrite_pf0 (v : Word) (s : State) : lanternCtrlWrite 0 v s =
    if bitAt v 31 then (s.begin.withLantern (s.sched.lantern.controlled v)).traceSync
    else s.begin.withLantern (s.sched.lantern.controlled v) := rfl

/-- ENABLE is one of the bits of LANTERN_CTRL. -/
theorem bitAt_ctrl_enable (v : Word) : bitAt (v &&& 0xC000FFFF) 31 = bitAt v 31 := by
  have h : Nat.testBit 3221291007 31 = true := by decide
  simp [bitAt, h]

/-! ### SYNC (R276) -/

/-- The words of a SYNC record. -/
def State.syncWords (s : State) : List Word :=
  [w32 (s.tb0Ns % 1000000000), w32 0x700, w32 (s.tb0Ns / 1000000000), w32 (s.tb0Ns / 1000000000 / 2 ^ 32 % 65536)]

theorem State.traceSync_on {s : State} (h : bitAt s.sched.lantern.ctrl 31 = true) : s.traceSync = s.lanternPut s.syncWords := by
  rw [State.traceSync, if_pos h]
  rfl

/-- The trace at a whole second, before its SYNC record. -/
def State.inSecond (s : State) : State :=
  s.begin.withLantern { s.sched.lantern with syncSec := some (s.tb0Ns / 1000000000) }

theorem lanternSync_early {s : State} (h : s.syncDue = false) : lanternSync s = s.begin := by
  have h' : s.begin.syncDue = false := h
  simp [lanternSync, h']

theorem lanternSync_due {s : State} (h : s.syncDue = true) (hon : bitAt s.sched.lantern.ctrl 31 = true) :
    lanternSync s = s.inSecond.lanternPut s.syncWords := by
  have h' : s.begin.syncDue = true := h
  rw [lanternSync, h']
  exact State.traceSync_on (s := s.inSecond) hon

/-- Once the second has its SYNC record, none is due in it. -/
theorem State.syncDue_written {s : State} (h : s.sched.lantern.syncSec = some (s.tb0Ns / 1000000000)) : s.syncDue = false := by
  simp [State.syncDue, h]

theorem State.lanternPut_syncDue {s : State} (ws : List Word) (h : s.sched.lantern.syncSec = some (s.tb0Ns / 1000000000)) :
    (s.lanternPut ws).syncDue = false := by
  obtain ⟨l, c, hput, -, -, hsec, -⟩ := s.lanternPut_touches ws
  rw [hput]
  exact State.syncDue_written (hsec.trans h)

/-- A record that is taken with room for two leaves nothing lost and the ring open. -/
theorem State.lanternPut_open {s : State} (ws : List Word) (hf : s.sched.lantern.frozen = false) (hrun : s.sched.lantern.run < 65534) :
    (s.lanternPut ws).sched.lantern.frozen = false ∧ (s.lanternPut ws).sched.lantern.lost = 0 := by
  have hend : ¬ 65536 ≤ s.sched.lantern.run + 1 := by omega
  have hend' : ¬ 65536 ≤ s.sched.lantern.run + 1 + 1 := by omega
  by_cases hl : s.sched.lantern.lost = 0
  · rw [State.lanternPut_next ws hf hl]
    simp [State.withLantern, hl, hend]
  · rw [State.lanternPut_afterLost ws hf hl (by simp [hend])]
    simp [State.withLantern, hend']

/-- A write of LANTERN_CTRL by PF0 changes the trace's registers; one with ENABLE writes SYNC into an open ring. -/
theorem lanternCtrlWrite_controls (v : Word) (s : State) : ∃ l c, lanternCtrlWrite 0 v s =
    { s with out := [], sched := { s.sched with lantern := l, counters := c } } ∧ l.ctrl = v &&& 0xC000FFFF ∧
      l.matchReg = s.sched.lantern.matchReg ∧ (bitAt v 31 = true → l.frozen = false ∧ l.lost = 0) ∧
      (bitAt v 31 = false → l.ring = s.sched.lantern.ring ∧ l.head = s.sched.lantern.head) := by
  rw [lanternCtrlWrite_pf0]
  cases hv : bitAt v 31
  · exact ⟨_, _, rfl, rfl, rfl, nofun, fun _ => ⟨rfl, rfl⟩⟩
  · generalize hu : s.begin.withLantern (s.sched.lantern.controlled v) = u
    have hon : bitAt u.sched.lantern.ctrl 31 = true := by
      rw [← hu]
      exact (bitAt_ctrl_enable v).trans hv
    obtain ⟨l, c, hput, hctrl, hmatch, -, -⟩ := u.lanternPut_touches u.syncWords
    have hopen := u.lanternPut_open u.syncWords (by simp [← hu, State.withLantern, Lantern.controlled, hv])
      (by simp [← hu, State.withLantern, Lantern.controlled, hv])
    rw [hput] at hopen
    rw [if_pos rfl, State.traceSync_on hon, hput]
    exact ⟨l, c, by rw [← hu]; rfl, by rw [hctrl, ← hu]; rfl, by rw [hmatch, ← hu]; rfl, fun _ => hopen, nofun⟩

/-! A SYNC record that is due finds the ring FROZEN, or open after records were lost, or open with none lost. -/

theorem State.inSecond_put_frozen {s : State} (ws : List Word) (hf : s.sched.lantern.frozen = true) : ∃ l,
    s.inSecond.lanternPut ws =
      { s with out := [], sched := { s.sched with lantern := l, counters := bump s.sched.counters 16 1 } } ∧
    l.ring = s.sched.lantern.ring ∧ l.lost = s.sched.lantern.lost + 1 :=
  ⟨_, State.lanternPut_frozen (s := s.inSecond) ws hf, rfl, rfl⟩

theorem State.inSecond_put_lost {s : State} (ws : List Word) (hf : s.sched.lantern.frozen = false)
    (hl : s.sched.lantern.lost ≠ 0) (hstop : bitAt s.sched.lantern.ctrl 30 = false) : ∃ l,
    s.inSecond.lanternPut ws = { s with out := [], sched := { s.sched with lantern := l } } ∧ l.lost = 0 ∧
    l.head = (s.sched.lantern.head + 2) % 65536 ∧ l.ring =
      (s.sched.lantern.ring.put s.sched.lantern.head s.lostWords).put ((s.sched.lantern.head + 1) % 65536) ws := by
  refine ⟨_, State.lanternPut_afterLost (s := s.inSecond) ws hf hl ?_, rfl, ?_, rfl⟩
  · simp [State.inSecond, State.withLantern, hstop]
  · simp [State.inSecond, State.withLantern]

theorem State.inSecond_put_next {s : State} (ws : List Word) (hf : s.sched.lantern.frozen = false) (hl : s.sched.lantern.lost = 0) :
    ∃ l, s.inSecond.lanternPut ws = { s with out := [], sched := { s.sched with lantern := l } } ∧
      l.head = (s.sched.lantern.head + 1) % 65536 ∧
      l.frozen = (bitAt s.sched.lantern.ctrl 30 && decide (65536 ≤ s.sched.lantern.run + 1)) ∧
      l.ring = s.sched.lantern.ring.put s.sched.lantern.head ws :=
  ⟨_, State.lanternPut_next (s := s.inSecond) ws hf hl, rfl, rfl, rfl⟩

/-- Settles O42: the two registers, then the SYNC record by what the ring does with a record. -/
theorem lanternWritesItsRing : Obligations.LanternWritesItsRing := by
  unfold Obligations.LanternWritesItsRing
  refine ⟨fun s v => ?_, fun s fn v hfn => ?_, fun s v => ?_, fun s => ⟨fun h => ?_, fun h hon => ?_⟩⟩
  · rw [exec_schedTickWrite, schedTickWrite_pf0]
  · rw [exec_schedTickWrite, schedTickWrite_vf v s hfn, exec_lanternCtrlWrite, lanternCtrlWrite_vf v s hfn]
    exact ⟨rfl, rfl⟩
  · obtain ⟨l, c, hw, hctrl, hmatch, hon, hoff⟩ := lanternCtrlWrite_controls v s
    exact ⟨_, (exec_lanternCtrlWrite 0 v s).trans (congrArg _ hw), rfl, hctrl, hmatch, rfl, hon, hoff⟩
  · rw [exec_lanternSync, lanternSync_early h]
    rfl
  · obtain ⟨l, c, hput, -⟩ := s.inSecond.lanternPut_touches s.syncWords
    have honce : (s.inSecond.lanternPut s.syncWords).syncDue = false := State.lanternPut_syncDue _ rfl
    refine ⟨_, (exec_lanternSync s).trans (congrArg _ (lanternSync_due h hon)), by rw [hput]; rfl, by rw [hput]; rfl,
      by rw [hput]; rfl, honce, fun hf => ?_, fun hf hl hstop hhead => ?_, fun hf hl => ?_⟩
    · obtain ⟨l, hl, hring, hlost⟩ := State.inSecond_put_frozen s.syncWords hf
      rw [hl]
      exact ⟨hring, hlost, rfl⟩
    · obtain ⟨l, hl, hlost, hnext, hring⟩ := State.inSecond_put_lost s.syncWords hf (by omega) hstop
      rw [hl]
      refine ⟨hlost, hnext, ?_⟩
      simp only [hring]
      rw [FMap.find?_put_ne _ _ _ _ (by omega), FMap.find?_put_self]
      rfl
    · obtain ⟨l, hl, hnext, hfrozen, hring⟩ := State.inSecond_put_next s.syncWords hf hl
      rw [hl]
      refine ⟨hnext, rfl, hfrozen, ?_, fun i hi => ?_⟩
      · simp only [hring, FMap.find?_put_self]
        rfl
      · simp only [hring, FMap.find?_put_ne _ _ _ _ hi]

end Sys2Proof.Machine
end

section
/-! PROOF. A test of the whole device beside the lent core of another SELFTEST, against what the statement on self-tests says of the
commands in progress (R459, R460, R462). -/

namespace Sys2Proof.Machine

theorem exec_selftestDone (id : Nat) (r : TestResult) (eye : EyeScan) (fails : List (Nat × Nat)) (s : State) :
    exec (.selftestDone id r eye fails) s = .next (selftestDone id r eye fails s) := rfl

/-- A SELFTEST of PF0 that has committed. -/
def runningTest : Taken := { fn := 0, words := [lengthWord 4, 0x080, 0, 0], committed := true }

/-- The lent instance of command 1, DSP core 0. -/
def lentCore : Lent := { cmd := 1, since := 0, testNs := 20000000 }

/-- The test of the whole device by command 0. -/
def deviceTest : Lent := { cmd := 0, since := 0, started := some 0, testNs := 3000000000 }

/-- MAINTENANCE with both tests in progress. -/
def doubleTest : State :=
  { modes := { mode := .maintenance }, avail := { lent := [(instId 0 0, lentCore), (wholeTest, deviceTest)] }
    welmus := { taken := [(0, runningTest), (1, runningTest)] } }

/-- The state after the test of the whole device, which DSP core 0 did not end in time. -/
def doubleTestDone : State :=
  selftestDone 0 { pass := true, detail := 0 } { heights := [], widths := [], snr := 0, signal := true } [(instId 0 0, 3)] doubleTest

/-- The premises of the statement's clause on a test that ends in time. -/
theorem doubleTest_ends : doubleTest.runs 0 0x080 runningTest ∧ doubleTest.lentBy 0 = some (wholeTest, deviceTest) ∧
    deviceTest.started = some 0 ∧ doubleTest.now ≤ 0 + 2 * deviceTest.testNs := by
  unfold State.runs
  decide

/-- The fence of the core fails the self-test for which it was lent, and completes that command too. -/
theorem doubleTestDone_taken : doubleTestDone.welmus.taken.find? 1 = none ∧
    (doubleTest.welmus.taken.del 0).find? 1 = some runningTest := by
  decide

/-- Refutes O32: where an engine fails the test of the whole device by not ending in time, it is fenced (`State.deviceFailure`), and
a fence ends the self-test for which the engine was lent with that command's response (`State.fenceEngine`). The model lends nothing
beside the test of the whole device (`State.kindLent`, `selftestDeviceBody`), but the statement's clause on the ends of tests asks
only that the command has its lent instance; it says that no command but the test's own ends. -/
theorem not_selftestRunsToItsEnd : ¬ Obligations.SelftestRunsToItsEnd := by
  unfold Obligations.SelftestRunsToItsEnd
  rintro ⟨-, hends, -⟩
  obtain ⟨hruns, hlent, hstarted, hnow⟩ := doubleTest_ends
  obtain ⟨hdone, -⟩ := hends doubleTest 0 wholeTest runningTest deviceTest hruns hlent
  obtain ⟨t, -, -, hexec, -, -, htaken, -⟩ := hdone 0 { pass := true, detail := 0 }
    { heights := [], widths := [], snr := 0, signal := true } [(instId 0 0, 3)] hstarted hnow
  rw [exec_selftestDone] at hexec
  obtain rfl : doubleTestDone = t := by injection hexec
  obtain ⟨hgone, hkept⟩ := doubleTestDone_taken
  rw [htaken, hkept] at hgone
  exact nomatch hgone

end Sys2Proof.Machine
end

section
/-! PROOF. What the end of tasks changes, and what it leaves of a task that has completed (R256 to R262, R271). -/

namespace Sys2Proof.Machine

/-! ### Buffers and records -/

/-- `t` is `s` but for frame buffers and sessions. -/
def State.rebuffered (s t : State) : Prop := ∃ ss os, t = { s with sess := ss, outs := os }

theorem State.rebuffered.refl (s : State) : s.rebuffered s := ⟨s.sess, s.outs, rfl⟩

theorem State.rebuffered.trans {s t v : State} (h : s.rebuffered t) (k : t.rebuffered v) : s.rebuffered v := by
  obtain ⟨_, _, rfl⟩ := h
  obtain ⟨ss, os, rfl⟩ := k
  exact ⟨ss, os, rfl⟩

theorem State.rebuffered.foldl {α : Type} {f : State → α → State} (hf : ∀ (s : State) a, s.rebuffered (f s a)) (l : List α) (s : State) :
    s.rebuffered (l.foldl f s) := by
  induction l generalizing s with
  | nil => exact .refl s
  | cons a l ih => exact (hf s a).trans (ih _)

theorem State.rebuffered.ite {p : Prop} [Decidable p] {s t v : State} (ht : s.rebuffered t) (hv : s.rebuffered v) :
    s.rebuffered (if p then t else v) := by
  split
  · exact ht
  · exact hv

theorem State.updSess_rebuffered (s : State) (i : Nat) (f : Sess → Sess) : s.rebuffered (s.updSess i f) := ⟨_, _, rfl⟩

theorem State.updFb_rebuffered (s : State) (o : FbOwner) (k : Nat) (f : Fb → Fb) : s.rebuffered (s.updFb o k f) := by
  cases o <;> exact ⟨_, _, rfl⟩

theorem State.encBandEnd_rebuffered (s : State) (run : Nat) (t : TaskRec) (status : Nat) :
    s.rebuffered (s.encBandEnd run t status) := by
  obtain ⟨ss, h⟩ := s.encBandEnd_touches run t status
  exact ⟨ss, s.outs, h⟩

theorem State.takeRing_rebuffered (s : State) (l : Live) (st : Nat) : s.rebuffered (s.takeRing l st) := by
  unfold State.takeRing
  split
  · exact .refl s
  · split
    · exact .refl s
    · exact s.updSess_rebuffered _ _

/-- `t` is `s` but for the trace and counts of the scheduler, of which that of a record lost may change. -/
def State.traced (s t : State) : Prop :=
  ∃ l c, t = (s.updSched fun x => { x with lantern := l, counters := c }) ∧ ∀ j, j ≠ 16 → c.getD j 0 = s.sched.counters.getD j 0

theorem State.updSched_updSched (s : State) (f g : Sched → Sched) : (s.updSched f).updSched g = s.updSched fun x => g (f x) := rfl

theorem State.trace_traced (s : State) (kind prio engKind engInst status task conf arg : Nat) :
    s.traced (s.trace kind prio engKind engInst status task conf arg) := by
  unfold State.trace
  simp only
  split
  · obtain ⟨l, c, h, -, -, -, hc⟩ := s.lanternPut_touches (lanternWords s.tb0Ns kind prio engKind engInst status task conf arg)
    exact ⟨l, c, h, hc⟩
  · exact ⟨s.sched.lantern, s.sched.counters, rfl, fun _ _ => rfl⟩

theorem State.traceTask_traced (s : State) (kind t arg : Nat) : s.traced (s.traceTask kind t arg) := by
  unfold State.traceTask
  split
  · exact ⟨s.sched.lantern, s.sched.counters, rfl, fun _ _ => rfl⟩
  · exact s.trace_traced ..

theorem State.traced.live? {s t : State} (h : s.traced t) (u : Nat) : t.live? u = s.live? u := by
  obtain ⟨l, c, rfl, -⟩ := h
  rfl

theorem State.updLive_live?_self {s : State} {t : Nat} {l : Live} (hl : s.live? t = some l) (f : Live → Live) :
    (s.updLive t f).live? t = some (f l) := by
  have hl' : s.sched.lives.find? t = some l := hl
  change FMap.find? (s.sched.lives.upd t f) t = _
  rw [FMap.find?_upd_self, hl']
  rfl

theorem State.updLive_live?_ne (s : State) {t i : Nat} (f : Live → Live) (h : i ≠ t) : (s.updLive t f).live? i = s.live? i :=
  FMap.find?_upd_ne s.sched.lives t i f h

/-! ### Tasks at rest -/

/-- Task `u` has completed, and waits on no flow. -/
def Sched.rests (x : Sched) (u : Nat) : Prop :=
  (∃ l, x.lives.find? u = some l ∧ l.st = .completed) ∧ ∀ k, u ∉ x.waits.getD [] k

/-- A task that has not completed is another one. -/
theorem Sched.rests.ne {x : Sched} {u t : Nat} {l : Live} (h : x.rests u) (hl : x.lives.find? t = some l) (hst : l.st ≠ .completed) :
    u ≠ t := by
  rintro rfl
  obtain ⟨⟨l', hl', hst'⟩, -⟩ := h
  exact hst ((Option.some.inj (hl.symm.trans hl')) ▸ hst')

/-- `t` is `s` but for what the end of tasks may change: logs, the fences of conferences, tests that start, packets handed on, the
scheduler, sessions, frame buffers and DSP cores. No lease is granted and no abort counted; where every pair that is met is `clean`,
no record is written and no packet handed on; and task `u` stays as it is once it rests. -/
structure State.unwinds (u : Nat) (clean : Prop) (s t : State) : Prop where
  frame : ∃ a f lt cs q x ss os ds, t = { s with
    audit := a, faults := f, avail := { s.avail with lent := lt }, confs := cs, localQ := q, sched := x, sess := ss, outs := os
    dsps := ds }
  quiet : clean → t.faults = s.faults ∧ t.localQ = s.localQ
  lent : ∀ k, s.avail.lent.find? k = none → t.avail.lent.find? k = none
  leases : ∀ x ∈ t.sched.leases, ∃ y ∈ s.sched.leases, y.2.task = x.2.task ∧ y.2.kind = x.2.kind
  aborts : t.sched.counters.getD 11 0 = s.sched.counters.getD 11 0
  rests : s.sched.rests u → t.sched.rests u ∧ t.live? u = s.live? u

section
variable {u : Nat} {clean : Prop}

theorem State.unwinds.refl (s : State) : s.unwinds u clean s where
  frame := ⟨s.audit, s.faults, s.avail.lent, s.confs, s.localQ, s.sched, s.sess, s.outs, s.dsps, rfl⟩
  quiet _ := ⟨rfl, rfl⟩
  lent _ h := h
  leases x h := ⟨x, h, rfl, rfl⟩
  aborts := rfl
  rests h := ⟨h, rfl⟩

theorem State.unwinds.trans {s t v : State} (h : s.unwinds u clean t) (k : t.unwinds u clean v) : s.unwinds u clean v where
  frame := by
    obtain ⟨_, _, _, _, _, _, _, _, _, rfl⟩ := h.frame
    obtain ⟨_, _, _, _, _, _, _, _, _, rfl⟩ := k.frame
    exact ⟨_, _, _, _, _, _, _, _, _, rfl⟩
  quiet hc := ⟨(k.quiet hc).1.trans (h.quiet hc).1, (k.quiet hc).2.trans (h.quiet hc).2⟩
  lent i hi := k.lent i (h.lent i hi)
  leases x hx := by
    obtain ⟨y, hy, hyt, hyk⟩ := k.leases x hx
    obtain ⟨z, hz, hzt, hzk⟩ := h.leases y hy
    exact ⟨z, hz, hzt.trans hyt, hzk.trans hyk⟩
  aborts := k.aborts.trans h.aborts
  rests hr := by
    obtain ⟨ht, hl⟩ := h.rests hr
    obtain ⟨hv, hl'⟩ := k.rests ht
    exact ⟨hv, hl'.trans hl⟩

theorem State.unwinds.ite {p : Prop} [Decidable p] {s t v : State} (ht : s.unwinds u clean t) (hv : s.unwinds u clean v) :
    s.unwinds u clean (if p then t else v) := by
  split
  · exact ht
  · exact hv

theorem State.unwinds.foldl {α : Type} {f : State → α → State} (l : List α) (hf : ∀ (s : State), ∀ a ∈ l, s.unwinds u clean (f s a))
    (s : State) : s.unwinds u clean (l.foldl f s) := by
  induction l generalizing s with
  | nil => exact .refl s
  | cons a l ih => exact (hf s a List.mem_cons_self).trans (ih (fun s b hb => hf s b (List.mem_cons_of_mem _ hb)) _)

/-- A change of the scheduler alone. -/
theorem State.unwinds.of_updSched {s : State} {f : Sched → Sched}
    (hleases : ∀ x ∈ (f s.sched).leases, ∃ z ∈ s.sched.leases, z.2.task = x.2.task ∧ z.2.kind = x.2.kind)
    (haborts : (f s.sched).counters.getD 11 0 = s.sched.counters.getD 11 0)
    (hlives : s.sched.rests u → (f s.sched).lives.find? u = s.sched.lives.find? u)
    (hwaits : s.sched.rests u → ∀ k, u ∉ (f s.sched).waits.getD [] k) : s.unwinds u clean (s.updSched f) where
  frame := ⟨_, _, _, _, _, _, _, _, _, rfl⟩
  quiet _ := ⟨rfl, rfl⟩
  lent _ h := h
  leases := hleases
  aborts := haborts
  rests h := ⟨⟨by simpa only [State.updSched_sched, hlives h] using h.1, hwaits h⟩, hlives h⟩

theorem State.unwinds.of_rebuffered {s t : State} (h : s.rebuffered t) : s.unwinds u clean t := by
  obtain ⟨ss, os, rfl⟩ := h
  exact { frame := ⟨_, _, _, _, _, _, _, _, _, rfl⟩, quiet := fun _ => ⟨rfl, rfl⟩, lent := fun _ h => h
          leases := fun x h => ⟨x, h, rfl, rfl⟩, aborts := rfl, rests := fun h => ⟨h, rfl⟩ }

theorem State.unwinds.of_traced {s t : State} (h : s.traced t) : s.unwinds u clean t := by
  obtain ⟨l, c, rfl, hc⟩ := h
  exact .of_updSched (fun x h => ⟨x, h, rfl, rfl⟩) (hc 11 (by decide)) (fun _ => rfl) fun h => h.2

theorem State.countSched_unwinds (s : State) {i : Nat} (k : Nat) (h : i ≠ 11) : s.unwinds u clean (s.countSched i k) :=
  .of_updSched (fun x h => ⟨x, h, rfl, rfl⟩) (bump_getD_ne _ k h) (fun _ => rfl) fun h => h.2

theorem State.traceTask_unwinds (s : State) (kind t arg : Nat) : s.unwinds u clean (s.traceTask kind t arg) :=
  .of_traced (s.traceTask_traced kind t arg)

theorem State.dropDue_unwinds (s : State) (bad : Due → Bool) : s.unwinds u clean (s.dropDue bad) :=
  .of_updSched (fun x h => ⟨x, h, rfl, rfl⟩) rfl (fun _ => rfl) fun h => h.2

theorem State.updDsp_unwinds (s : State) (c : Nat) (f : DspCore → DspCore) : s.unwinds u clean (s.updDsp c f) where
  frame := ⟨_, _, _, _, _, _, _, _, _, rfl⟩
  quiet _ := ⟨rfl, rfl⟩
  lent _ h := h
  leases x h := ⟨x, h, rfl, rfl⟩
  aborts := rfl
  rests h := ⟨h, rfl⟩

/-! ### Ready lists and flows (R260, R262) -/

theorem State.updLive_unwinds (s : State) {t : Nat} (f : Live → Live) (hne : s.sched.rests u → u ≠ t) :
    s.unwinds u clean (s.updLive t f) :=
  .of_updSched (fun x h => ⟨x, h, rfl, rfl⟩) rfl (fun h => FMap.find?_upd_ne _ _ _ f (hne h)) fun h => h.2

theorem State.pushReady_eq (s : State) (t : Nat) (l : Live) : s.pushReady t l = s.updSched fun x =>
    let k := engKind l.task.op * 8 + l.task.prio
    { x with ready := x.ready.put k (x.ready.getD [] k ++ [t]), lives := x.lives.upd t fun l => { l with st := .ready } } := rfl

theorem State.pushReady_unwinds (s : State) {t : Nat} (l : Live) (hne : s.sched.rests u → u ≠ t) :
    s.unwinds u clean (s.pushReady t l) := by
  rw [State.pushReady_eq]
  exact .of_updSched (fun x h => ⟨x, h, rfl, rfl⟩) rfl (fun h => FMap.find?_upd_ne _ _ _ _ (hne h)) fun h => h.2

/-- Who waits on a flow after a task has joined those that wait. -/
theorem State.mem_insertWait (s : State) (t w : Nat) (l : Live) (q : List Nat) (h : w ∈ s.insertWait t l q) : w = t ∨ w ∈ q := by
  induction q with
  | nil => exact .inl (List.mem_singleton.mp h)
  | cons a q ih =>
    have here : w ∈ t :: a :: q → w = t ∨ w ∈ a :: q := List.mem_cons.mp
    unfold State.insertWait at h
    split at h
    · exact here h
    · split at h
      · exact here h
      · rcases List.mem_cons.mp h with rfl | h
        · exact .inr List.mem_cons_self
        · exact (ih h).imp id (List.mem_cons_of_mem a)

/-- Another list of those that wait on flow `k`, without task `u`. -/
theorem FMap.not_mem_put {m : FMap (List Nat)} {k : Nat} {q : List Nat} (hm : ∀ i, u ∉ m.getD [] i) (hq : u ∉ q) (i : Nat) :
    u ∉ (m.put k q).getD [] i := by
  by_cases h : i = k
  · rw [h, FMap.getD_put_self]
    exact hq
  · rw [FMap.getD_put_ne _ _ _ _ _ h]
    exact hm i

theorem State.waitFlow_unwinds (s : State) {t : Nat} (k : Nat) (l : Live) (hne : s.sched.rests u → u ≠ t) :
    s.unwinds u clean (s.waitFlow t k l) := by
  have hwait : s.unwinds u clean ((s.updSched fun x => { x with
      waits := x.waits.put k (s.insertWait t l (x.waits.getD [] k)) }).updLive t fun l => { l with st := .flowWait }) := by
    rw [State.updLive, State.updSched_updSched]
    refine .of_updSched (fun x h => ⟨x, h, rfl, rfl⟩) rfl (fun h => FMap.find?_upd_ne _ _ _ _ (hne h)) fun h =>
      FMap.not_mem_put h.2 fun hmem => ?_
    rcases s.mem_insertWait t u l _ hmem with he | hw
    · exact hne h he
    · exact h.2 k hw
  exact hwait.trans (.trans (State.countSched_unwinds _ 1 (by decide)) (State.traceTask_unwinds _ _ _ _))

theorem State.makeReady_unwinds (s : State) {t : Nat} {l : Live} (hl : s.live? t = some l) (hst : l.st ≠ .completed) :
    s.unwinds u clean (s.makeReady t) := by
  unfold State.makeReady
  rw [hl]
  simp only
  generalize hs1 : s.traceTask 2 t _ = s1
  have h1 : s.traced s1 := hs1 ▸ s.traceTask_traced 2 t _
  have hne : s1.sched.rests u → u ≠ t := fun h => h.ne ((h1.live? t).trans hl) hst
  refine .trans (.of_traced h1) ?_
  split
  · exact s1.pushReady_unwinds l hne
  · exact .ite (s1.waitFlow_unwinds _ l hne) (s1.pushReady_unwinds l hne)

/-- The first task that waits on a free flow is none that rests. -/
theorem State.passFlow_unwinds (s : State) (k : Nat) : s.unwinds u clean (s.passFlow k) := by
  unfold State.passFlow
  refine .ite (.refl s) ?_
  split
  · exact .refl s
  next w r hq =>
    have hrest : s.sched.rests u → u ≠ w ∧ ∀ i, u ∉ (s.sched.waits.put k r).getD [] i := by
      intro h
      have hmem := h.2 k
      rw [hq, List.mem_cons, not_or] at hmem
      exact ⟨hmem.1, FMap.not_mem_put h.2 hmem.2⟩
    simp only
    split
    · exact .of_updSched (fun x h => ⟨x, h, rfl, rfl⟩) rfl (fun _ => rfl) fun h => (hrest h).2
    · rw [State.pushReady_eq, State.updSched_updSched]
      exact .of_updSched (fun x h => ⟨x, h, rfl, rfl⟩) rfl (fun h => FMap.find?_upd_ne _ _ _ _ (hrest h).1) fun h => (hrest h).2

theorem State.freeFlow_unwinds (s : State) (t : Nat) (l : Live) : s.unwinds u clean (s.freeFlow t l) := by
  unfold State.freeFlow
  split
  · exact .refl s
  next k _ =>
    refine .ite (.refl s) (.trans ?_ (State.passFlow_unwinds _ k))
    exact .of_updSched (fun x h => ⟨x, h, rfl, rfl⟩) rfl (fun _ => rfl) fun h => h.2

theorem State.unready_unwinds (s : State) (t : Nat) : s.unwinds u clean (s.updSched fun x => x.unready t) := by
  refine .of_updSched (fun x h => ⟨x, h, rfl, rfl⟩) rfl (fun _ => rfl) fun h k => ?_
  change u ∉ FMap.getD (s.sched.waits.map fun p => (p.1, p.2.filter fun v => v != t)) [] k
  rw [FMap.getD_map_filter]
  exact fun hmem => h.2 k (List.mem_of_mem_filter hmem)

/-! ### Completions and their successors (R256, R258) -/

theorem State.noteComplete_unwinds (s : State) {t st : Nat} (c : Nat) (hst : st ≠ 6) (hne : s.sched.rests u → u ≠ t) :
    s.unwinds u clean (s.noteComplete t st c) :=
  .trans (s.updLive_unwinds _ hne) (.trans (State.countSched_unwinds _ 1 (by omega)) (State.traceTask_unwinds _ _ _ _))

/-- A conference is fenced for a pair that fails. -/
theorem State.fenceConf_unwinds (s : State) (c row off : Nat) (hbad : ¬ clean) : s.unwinds u clean (s.fenceConf c row off) := by
  obtain ⟨f, a, ⟨h, -⟩ | h⟩ := s.fenceConf_touches c row off
  all_goals
    rw [h]
    exact { frame := ⟨_, _, _, _, _, _, _, _, _, rfl⟩, quiet := fun hc => absurd hc hbad, lent := fun _ h => h
            leases := fun x h => ⟨x, h, rfl, rfl⟩, aborts := rfl, rests := fun h => ⟨h, rfl⟩ }

theorem State.walkDead_unwinds (s : State) (l : Live) (hbad : ¬ clean) : s.unwinds u clean (s.walkDead l) :=
  .foldl _ (fun s _ _ => .ite (.refl s) (.trans (s.countSched_unwinds 1 (by decide)) (State.fenceConf_unwinds _ _ _ _ hbad))) s

theorem State.failUndispatched_unwinds (s : State) (t : Nat) (hbad : ¬ clean) :
    s.unwinds u clean (State.failUndispatched false s t) := by
  unfold State.failUndispatched
  split
  · exact .refl s
  next l hl =>
    split
    · exact .refl s
    next hst =>
      have hne : (s.updSched fun x => x.unready t).sched.rests u → u ≠ t := fun h => h.ne hl fun hc => hst (.inr hc)
      simp only [Bool.false_eq_true, if_false]
      refine (s.unready_unwinds t).trans (.trans (State.noteComplete_unwinds _ (st := 2) 0 (by decide) hne) ?_)
      generalize (s.updSched fun x => x.unready t).noteComplete t 2 0 = s2
      refine (s2.walkDead_unwinds l hbad).trans ?_
      generalize s2.walkDead l = s3
      generalize hs4 : (ite (l.task.op = 9) _ _ : State) = s4
      have h4 : s3.unwinds u clean s4 := hs4 ▸ .ite (.of_rebuffered (s3.encBandEnd_rebuffered _ _ _)) (.refl s3)
      refine h4.trans ?_
      refine .ite ?_ (.refl s4)
      split
      · exact s4.passFlow_unwinds _
      · exact .refl s4

theorem State.endRun_unwinds (s : State) (r : Nat) (hbad : ¬ clean) : s.unwinds u clean (s.endRun r false) := by
  unfold State.endRun
  split
  · exact .refl s
  · exact .foldl _ (fun s t _ => s.failUndispatched_unwinds t hbad) s

theorem State.succEntry_unwinds (s : State) (pred : Nat) (l : Live) (status : Nat) (p : (Word × Word) × Nat)
    (hpair : clean → pairOk p.1.1 p.1.2 = true) : s.unwinds u clean (State.succEntry pred l status s p) := by
  unfold State.succEntry
  simp only
  split
  next hbad =>
    have hc : ¬ clean := fun h => by simp [hpair h] at hbad
    exact .trans (s.countSched_unwinds 1 (by decide)) (.trans (State.fenceConf_unwinds _ _ _ _ hc) (State.endRun_unwinds _ _ hc))
  · split
    · exact .refl s
    next v _ =>
      split
      · exact .refl s
      next m hm =>
        split
        · exact .refl s
        next hst =>
          have hlive := State.updLive_live?_self hm fun m =>
            { m with inputs := m.inputs.put (fld p.1.1 23 12) (status, pred, if l.task.op = 5 then p.2 else 0), counter := m.counter - 1 }
          refine .trans (s.updLive_unwinds _ fun h => h.ne hm hst) (.ite ?_ (.refl _))
          exact State.makeReady_unwinds _ hlive hst

/-! ### The hold on an engine (R261, R271) -/

theorem State.endLeases_unwinds (s : State) (t : Nat) (which : Lease → Bool) : s.unwinds u clean (s.endLeases t which) :=
  .of_updSched (fun x h => ⟨x, List.mem_of_mem_filter h, rfl, rfl⟩) rfl (fun _ => rfl) fun h => h.2

/-- The leases that are left are none of those that ended. -/
theorem State.mem_endLeases {s : State} {t : Nat} {which : Lease → Bool} {x : Nat × Lease} (h : x ∈ (s.endLeases t which).sched.leases)
    (ht : x.2.task = t) : which x.2 = false := by
  have := List.of_mem_filter h
  simpa [ht] using this

theorem State.unreadFb_rebuffered (s : State) (b : FbOwner × Nat) : s.rebuffered (s.unreadFb b) := s.updFb_rebuffered _ _ _

theorem State.endWrite_rebuffered (s : State) (st : Nat) (b : FbOwner × Nat) : s.rebuffered (s.endWrite st b) :=
  s.updFb_rebuffered _ _ _

/-- A test that starts is one of an instance that is lent. -/
theorem State.drained_unwinds (s : State) (kind i : Nat) : s.unwinds u clean (s.drained kind i) := by
  unfold State.drained
  split
  · exact .refl s
  next x hx =>
    refine .ite (.refl s) ?_
    refine ⟨⟨_, _, _, _, _, _, _, _, _, rfl⟩, fun _ => ⟨rfl, rfl⟩, fun k hk => ?_, fun x h => ⟨x, h, rfl, rfl⟩, rfl,
      fun h => ⟨h, rfl⟩⟩
    have hne : k ≠ instId kind i := by
      rintro rfl
      exact nomatch hx.symm.trans hk
    exact (FMap.find?_put_ne _ _ _ _ hne).trans hk

/-- Packets that are handed on. -/
theorem State.handPackets_unwinds (s : State) (t : Nat) (l : Live) (st : Nat) (hbad : ¬ clean) :
    s.unwinds u clean (s.handPackets t l st) := by
  unfold State.handPackets
  simp only
  split
  · exact s.endLeases_unwinds t _
  · generalize hr : parseRecords l.out l.blocks _ _ 0 = r
    have h1 : s.unwinds u clean (if r.2.2 then s.countConf (s.runOf l).conf 11 1 else s) :=
      .ite ⟨⟨_, _, _, _, _, _, _, _, _, rfl⟩, fun _ => ⟨rfl, rfl⟩, fun _ h => h, fun x h => ⟨x, h, rfl, rfl⟩, rfl,
        fun h => ⟨h, rfl⟩⟩ (.refl s)
    generalize (if r.2.2 then s.countConf (s.runOf l).conf 11 1 else s) = s1 at h1
    refine h1.trans ?_
    split
    · exact s1.endLeases_unwinds t _
    · refine State.unwinds.trans (t := s1.updSched _) ?_ (.foldl _ (fun v q _ => ?_) _)
      · refine .of_updSched (fun x hx => ?_) rfl (fun _ => rfl) fun h => h.2
        obtain ⟨y, hy, rfl⟩ := List.mem_map.mp hx
        refine ⟨y, hy, ?_⟩
        split <;> exact ⟨rfl, rfl⟩
      · exact ⟨⟨_, _, _, _, _, _, _, _, _, rfl⟩, fun hc => absurd hc hbad, fun _ h => h, fun x h => ⟨x, h, rfl, rfl⟩, rfl,
          fun h => ⟨h, rfl⟩⟩

/-- After FAILED no credit is handed on. -/
theorem State.handPackets_failed (s : State) (t : Nat) (l : Live) : s.handPackets t l 2 = s.endLeases t fun x => x.kind == 5 := by
  simp [State.handPackets]

/-- A task leaves its engine, and its buffers are held no more. -/
def State.offEngine (s : State) (t : Nat) (l : Live) (st : Nat) : State :=
  let s := if l.kind = 0 then s.updDsp l.eng fun c => c.release t else s
  let s := if l.task.op = 9 ∧ st ≠ 2 then s else l.bufs.foldl (fun (s : State) b => s.endWrite st b) s
  (l.held.foldl State.unreadFb s).takeRing l st

theorem State.offEngine_unwinds (s : State) (t : Nat) (l : Live) (st : Nat) : s.unwinds u clean (s.offEngine t l st) := by
  have hdsp : s.unwinds u clean (if l.kind = 0 then s.updDsp l.eng fun c => c.release t else s) :=
    .ite (s.updDsp_unwinds _ _) (.refl s)
  refine hdsp.trans (.of_rebuffered ?_)
  have hwrite (v : State) : v.rebuffered
      (if l.task.op = 9 ∧ st ≠ 2 then v else l.bufs.foldl (fun (s : State) b => s.endWrite st b) v) :=
    .ite (.refl v) (.foldl (fun s b => s.endWrite_rebuffered st b) _ v)
  exact (hwrite _).trans (.trans (.foldl State.unreadFb_rebuffered _ _) (State.takeRing_rebuffered _ l st))

theorem State.endHold_eq (s : State) (t : Nat) (l : Live) (st : Nat) : s.endHold t l st =
    ((((s.offEngine t l st).handPackets t l st).endLeases t fun x => x.kind != 5).freeFlow t l).dropDue (Due.isTask t) := rfl

theorem State.endHold_unwinds (s : State) (t : Nat) (l : Live) (st : Nat) (hbad : ¬ clean) : s.unwinds u clean (s.endHold t l st) := by
  rw [State.endHold_eq]
  exact .trans (s.offEngine_unwinds t l st) (.trans (State.handPackets_unwinds _ t l st hbad) (.trans (State.endLeases_unwinds _ t _)
    (.trans (State.freeFlow_unwinds _ t l) (State.dropDue_unwinds _ _))))

/-- Of the task's leases at most its credit is left, and none after FAILED. -/
theorem State.endHold_leases (s : State) (t : Nat) (l : Live) (st : Nat) :
    ∀ x ∈ (s.endHold t l st).sched.leases, x.2.task = t → x.2.kind = 5 ∧ st ≠ 2 := by
  intro x hx ht
  rw [State.endHold_eq] at hx
  have hfree := State.unwinds.trans (u := t) (clean := True)
    (State.freeFlow_unwinds (((s.offEngine t l st).handPackets t l st).endLeases t fun x => x.kind != 5) t l)
    (State.dropDue_unwinds _ (Due.isTask t))
  obtain ⟨y, hy, hyt, hyk⟩ := hfree.leases x hx
  have hkind : y.2.kind = 5 := by simpa using State.mem_endLeases hy (hyt.trans ht)
  refine ⟨hyk ▸ hkind, ?_⟩
  rintro rfl
  rw [State.handPackets_failed] at hy
  have := State.mem_endLeases (List.mem_of_mem_filter hy) (hyt.trans ht)
  simp [hkind] at this

/-! ### Tasks that complete, and the end of their instance (R256 to R258) -/

/-- The instance of a task that has completed ends with its last task. -/
theorem State.finishRun_touches (s : State) (r : Nat) : ∃ x ss, s.finishRun r = { s with sched := x, sess := ss } ∧
    x.leases = s.sched.leases ∧ x.counters = s.sched.counters ∧
      ∀ t, x.lives.find? t = none ∨ x.lives.find? t = s.sched.lives.find? t := by
  unfold State.finishRun
  split
  · exact ⟨s.sched, s.sess, rfl, rfl, rfl, fun _ => .inr rfl⟩
  next g _ =>
    split
    · have hau : ∃ ss, s.freeAu g = { s with sess := ss } := by
        unfold State.freeAu State.dropAu
        split
        · split
          · exact ⟨s.sess, rfl⟩
          · exact ⟨_, rfl⟩
        · exact ⟨s.sess, rfl⟩
      obtain ⟨ss, hau⟩ := hau
      rw [hau]
      refine ⟨_, ss, rfl, rfl, rfl, fun t => ?_⟩
      change FMap.find? (s.sched.lives.filter fun p => !g.tasks.contains p.1) t = none ∨
        FMap.find? (s.sched.lives.filter fun p => !g.tasks.contains p.1) t = _
      rw [FMap.find?_filterKey s.sched.lives (fun i => !g.tasks.contains i)]
      split
      · exact .inr rfl
      · exact .inl rfl
    · exact ⟨s.sched, s.sess, rfl, rfl, rfl, fun _ => .inr rfl⟩

/-- What the end of task `t` with status `st` leaves: the task, where its instance goes on, and what it may have changed of `s`. -/
structure State.endsTask (s v : State) (t st : Nat) (clean : Prop) : Prop where
  frame : ∃ a f lt cs q x ss os ds, v = { s with
    audit := a, faults := f, avail := { s.avail with lent := lt }, confs := cs, localQ := q, sched := x, sess := ss, outs := os
    dsps := ds }
  live : ∀ l, v.live? t = some l → l.st = .completed ∧ l.status = st
  quiet : clean → v.faults = s.faults ∧ v.localQ = s.localQ
  lent : ∀ k, s.avail.lent.find? k = none → v.avail.lent.find? k = none
  aborts : st ≠ 6 → v.sched.counters.getD 11 0 = s.sched.counters.getD 11 0

/-- A completion's count and record. -/
theorem State.noteComplete_touches (s : State) (t st c : Nat) : ∃ lt ct, s.noteComplete t st c = (s.updSched fun x => { x with
      lives := x.lives.upd t fun l => { l with st := .completed, status := st }, lantern := lt, counters := ct }) ∧
    (st ≠ 6 → ct.getD 11 0 = s.sched.counters.getD 11 0) := by
  have hcount : (s.updLive t fun l => { l with st := .completed, status := st }).countSched (5 + st) 1 = s.updSched fun x =>
      { x with lives := x.lives.upd t fun l => { l with st := .completed, status := st }, counters := bump x.counters (5 + st) 1 } := rfl
  rw [State.noteComplete]
  simp only [hcount]
  generalize hs1 : s.updSched _ = s1
  obtain ⟨lt, ct, h, hc⟩ := s1.traceTask_traced 6 t (c / 64)
  subst hs1
  rw [h, State.updSched_updSched]
  exact ⟨lt, ct, rfl, fun hst => (hc 11 (by decide)).trans (bump_getD_ne _ 1 (by omega))⟩

/-- A task that has completed rests where it waits on no flow. -/
theorem State.noteComplete_rests {s : State} {t : Nat} {l : Live} (hl : s.live? t = some l) (hw : ∀ k, t ∉ s.sched.waits.getD [] k)
    (st c : Nat) : (s.noteComplete t st c).sched.rests t ∧
      (s.noteComplete t st c).live? t = some { l with st := .completed, status := st } := by
  obtain ⟨lt, ct, hnote, -⟩ := s.noteComplete_touches t st c
  have hlive : (s.noteComplete t st c).live? t = some { l with st := .completed, status := st } := by
    rw [hnote]
    exact State.updLive_live?_self hl fun l => { l with st := .completed, status := st }
  exact ⟨⟨⟨_, hlive, rfl⟩, by rw [hnote]; exact hw⟩, hlive⟩

/-- A task that completes rests, whatever else ends with it; its instance may end too. -/
theorem State.unwinds.endsTask {t st : Nat} {s s1 s2 : State} {l : Live} (h1 : s.unwinds t clean s1) (hl : s1.live? t = some l)
    (hw : ∀ k, t ∉ s1.sched.waits.getD [] k) (c : Nat) (h2 : (s1.noteComplete t st c).unwinds t clean s2) (r : Nat) :
    s.endsTask (s2.finishRun r) t st clean ∧ (s2.finishRun r).sched.leases = s2.sched.leases := by
  obtain ⟨lt, ct, hnote, hct⟩ := s1.noteComplete_touches t st c
  obtain ⟨hrests, hlive⟩ := State.noteComplete_rests hl hw st c
  obtain ⟨-, hkept⟩ := h2.rests hrests
  obtain ⟨x, ss, hfin, hleases, hcounts, hlives⟩ := s2.finishRun_touches r
  rw [hfin]
  refine ⟨⟨?_, fun l' hl' => ?_, fun hc => ?_, fun k hk => ?_, fun hst => ?_⟩, hleases⟩
  · obtain ⟨_, _, _, _, _, _, _, _, _, rfl⟩ := h1.frame
    rw [hnote] at h2
    obtain ⟨_, _, _, _, _, _, _, _, _, rfl⟩ := h2.frame
    exact ⟨_, _, _, _, _, _, _, _, _, rfl⟩
  · have hl'' : x.lives.find? t = some l' := hl'
    rcases hlives t with hnone | hsame
    · exact nomatch hnone.symm.trans hl''
    · have : some l' = some _ := (hl''.symm.trans hsame).trans (hkept.trans hlive)
      obtain rfl := Option.some.inj this
      exact ⟨rfl, rfl⟩
  · obtain ⟨hf, hq⟩ := h2.quiet hc
    rw [hnote] at hf hq
    exact ⟨hf.trans (h1.quiet hc).1, hq.trans (h1.quiet hc).2⟩
  · refine h2.lent k ?_
    rw [hnote]
    exact h1.lent k hk
  · change x.counters.getD 11 0 = _
    rw [hcounts, h2.aborts, hnote]
    exact (hct hst).trans h1.aborts

/-- The successors of a task that completes. -/
theorem State.succEntries_unwinds (s : State) {pred : Nat} {l : Live} {st : Nat}
    (hclean : clean → ∀ e ∈ l.task.succ, pairOk e.1 e.2 = true) :
    s.unwinds u clean (l.task.succ.zipIdx.foldl (State.succEntry pred l st) s) :=
  .foldl _ (fun s p hp => s.succEntry_unwinds pred l st p fun hc => hclean hc p.1 (List.fst_mem_of_mem_zipIdx hp)) s

end

/-- The end of a task's band at its encode session, where it is one. -/
def State.bandEnd (s : State) (l : Live) (st : Nat) : State := if l.task.op = 9 then s.encBandEnd l.run l.task st else s

theorem State.bandEnd_rebuffered (s : State) (l : Live) (st : Nat) : s.rebuffered (s.bandEnd l st) :=
  .ite (s.encBandEnd_rebuffered _ _ _) (.refl s)

theorem State.completeTask_eq {s : State} {t : Nat} {l : Live} (hl : s.live? t = some l) (hst : l.st ≠ .completed) (st c : Nat) :
    s.completeTask t st c = ((l.task.succ.zipIdx.foldl (State.succEntry t l st)
      (((s.noteComplete t st c).bandEnd l st).endHold t l st)).drained l.kind l.eng).finishRun l.run := by
  simp only [State.completeTask, hl, hst, if_false]
  rfl

/-- A completion ends the task; of its leases its credit may be left, and none after FAILED. -/
theorem State.completeTask_ends {s : State} {t : Nat} {l : Live} (hl : s.live? t = some l) (hst : l.st ≠ .completed)
    (hw : ∀ k, t ∉ s.sched.waits.getD [] k) (st c : Nat) : s.endsTask (s.completeTask t st c) t st False ∧
      ∀ x ∈ (s.completeTask t st c).sched.leases, x.2.task = t → x.2.kind = 5 ∧ st ≠ 2 := by
  rw [State.completeTask_eq hl hst]
  generalize hs1 : (s.noteComplete t st c).bandEnd l st = s1
  have h1 : (s.noteComplete t st c).unwinds t False s1 := hs1 ▸ .of_rebuffered (State.bandEnd_rebuffered _ l st)
  have h2 : (s1.endHold t l st).unwinds t False
      ((l.task.succ.zipIdx.foldl (State.succEntry t l st) (s1.endHold t l st)).drained l.kind l.eng) :=
    (State.succEntries_unwinds _ nofun).trans (State.drained_unwinds _ l.kind l.eng)
  obtain ⟨hends, hleases⟩ := State.unwinds.endsTask (.refl s) hl hw c (h1.trans ((s1.endHold_unwinds t l st not_false).trans h2)) l.run
  refine ⟨hends, fun x hx ht => ?_⟩
  rw [hleases] at hx
  obtain ⟨y, hy, hyt, hyk⟩ := h2.leases x hx
  exact hyk ▸ s1.endHold_leases t l st y hy (hyt.trans ht)

/-! ### Tasks whose leases are revoked (R272, R273) -/

/-- `t` is `s` but for the leases, the trace and the counts of the scheduler. -/
def State.revokes (s t : State) : Prop :=
  ∃ ls lt ct, t = s.updSched fun x => { x with leases := ls, lantern := lt, counters := ct }

theorem State.revokes.trans {s t v : State} (h : s.revokes t) (k : t.revokes v) : s.revokes v := by
  obtain ⟨_, _, _, rfl⟩ := h
  obtain ⟨ls, lt, ct, rfl⟩ := k
  exact ⟨ls, lt, ct, s.updSched_updSched _ _⟩

theorem State.noteRevoke_revokes (s : State) (t k : Nat) : s.revokes (s.noteRevoke t k) := by
  obtain ⟨lt, ct, h, -⟩ := (s.countSched 13 1).traceTask_traced 12 t k
  exact ⟨s.sched.leases, lt, ct, h.trans (s.updSched_updSched _ _)⟩

theorem State.noteRevoke_unwinds (s : State) (u : Nat) (clean : Prop) (t k : Nat) : s.unwinds u clean (s.noteRevoke t k) :=
  .trans (s.countSched_unwinds 1 (by decide)) (State.traceTask_unwinds _ _ _ _)

theorem State.revokeKinds_unwinds (s : State) (u : Nat) (clean : Prop) (t : Nat) (which : Nat → Bool) :
    s.unwinds u clean (s.revokeKinds t which) :=
  .trans (.foldl _ (fun s k _ => s.noteRevoke_unwinds u clean t k) s) (State.endLeases_unwinds _ t _)

theorem State.revokeKinds_revokes (s : State) (t : Nat) (which : Nat → Bool) : s.revokes (s.revokeKinds t which) := by
  have hnotes : ∀ (ks : List Nat) (s : State), s.revokes (ks.foldl (fun (s : State) k => s.noteRevoke t k) s) := by
    intro ks
    induction ks with
    | nil => exact fun s => ⟨s.sched.leases, s.sched.lantern, s.sched.counters, rfl⟩
    | cons k ks ih => exact fun s => (s.noteRevoke_revokes t k).trans (ih _)
  exact (hnotes _ s).trans ⟨_, _, _, rfl⟩

/-- A dispatched task holds its buffers for writing no more. -/
theorem State.revokeWrites_leaves {s : State} {t : Nat} {l : Live} (hl : s.live? t = some l) (hst : l.st = .dispatched)
    (clean : Prop) : s.unwinds t clean (s.revokeWrites t) ∧ (s.revokeWrites t).live? t = some { l with bufs := [] } ∧
      (s.revokeWrites t).sched.waits = s.sched.waits := by
  obtain ⟨ls, lt, ct, hk⟩ := s.revokeKinds_revokes t fun k => k == 3
  obtain ⟨ss, os, hb⟩ := State.rebuffered.foldl (fun s b => State.endWrite_rebuffered s 2 b) l.bufs (s.revokeKinds t fun k => k == 3)
  have heq : s.revokeWrites t = (l.bufs.foldl (fun (s : State) b => s.endWrite 2 b) (s.revokeKinds t fun k => k == 3)).updLive t
      fun l => { l with bufs := [] } := by
    simp only [State.revokeWrites, hl]
  have hlive : (l.bufs.foldl (fun (s : State) b => s.endWrite 2 b) (s.revokeKinds t fun k => k == 3)).live? t = some l := by
    rw [hb, hk]
    exact hl
  rw [heq]
  refine ⟨?_, State.updLive_live?_self hlive _, by rw [hb, hk]; rfl⟩
  refine .trans (s.revokeKinds_unwinds t clean t _) (.trans (.of_rebuffered ⟨ss, os, hb⟩) (State.updLive_unwinds _ _ fun h => ?_))
  exact h.ne hlive (by simp [hst])

theorem State.revokeCompletion_eq {s : State} {t : Nat} {l : Live} (hl : s.live? t = some l) : s.revokeCompletion t =
    l.task.succ.zipIdx.foldl (State.succEntry t l 2) (((s.revokeKinds t fun k => k == 1).noteComplete t 2 0).bandEnd l 2) := by
  simp only [State.revokeCompletion, hl]
  rfl

theorem State.revokeFlow_unwinds (s : State) (u : Nat) (clean : Prop) (t : Nat) : s.unwinds u clean (s.revokeFlow t) := by
  unfold State.revokeFlow
  split
  · exact .refl s
  next l _ => exact .trans (s.revokeKinds_unwinds u clean t _) (State.freeFlow_unwinds _ t l)

/-- What a task still held, but its leases: it leaves its engine. -/
def State.clearOff (s : State) (t : Nat) (l : Live) : State :=
  let s := l.held.foldl State.unreadFb s
  let s := if l.kind = 0 then s.updDsp l.eng fun c => c.release t else s
  (s.dropDue (Due.isTask t)).drained l.kind l.eng

theorem State.clearOff_unwinds (s : State) (u : Nat) (clean : Prop) (t : Nat) (l : Live) : s.unwinds u clean (s.clearOff t l) :=
  .trans (.of_rebuffered (.foldl State.unreadFb_rebuffered l.held s))
    (.trans (.ite (State.updDsp_unwinds _ l.eng fun c => c.release t) (.refl _))
      (.trans (State.dropDue_unwinds _ _) (State.drained_unwinds _ l.kind l.eng)))

theorem State.revokeRest_eq {s : State} {t : Nat} {l : Live} (hl : s.live? t = some l) :
    s.revokeRest t = (s.revokeKinds t fun _ => true).clearOff t l := by
  simp only [State.revokeRest, hl]
  rfl

/-- No lease of the task is left. -/
theorem State.revokeRest_leases {s : State} {t : Nat} {l : Live} (hl : s.live? t = some l) :
    ∀ x ∈ (s.revokeRest t).sched.leases, x.2.task ≠ t := by
  intro x hx ht
  rw [State.revokeRest_eq hl] at hx
  obtain ⟨y, hy, hyt, -⟩ := ((s.revokeKinds t fun _ => true).clearOff_unwinds t True t l).leases x hx
  exact nomatch State.mem_endLeases hy (hyt.trans ht)

theorem State.revokeTask_eq {s : State} {t : Nat} {l : Live} (hl : s.live? t = some l) (hst : l.st = .dispatched) :
    s.revokeTasks [t] = ((((s.revokeWrites t).revokeCompletion t).revokeFlow t).revokeRest t).finishRun l.run := by
  simp [State.revokeTasks, hl, hst, List.eraseDups_cons]

/-- A task whose leases are revoked has completed FAILED, and none of its leases is left. -/
theorem State.revokeTask_ends {s : State} {t : Nat} {l : Live} (hl : s.live? t = some l) (hst : l.st = .dispatched)
    (hw : ∀ k, t ∉ s.sched.waits.getD [] k) (clean : Prop) (hclean : clean → ∀ e ∈ l.task.succ, pairOk e.1 e.2 = true) :
    s.endsTask (s.revokeTasks [t]) t 2 clean ∧ ∀ x ∈ (s.revokeTasks [t]).sched.leases, x.2.task ≠ t := by
  obtain ⟨h1, hl1, hw1⟩ := s.revokeWrites_leaves hl hst clean
  rw [State.revokeTask_eq hl hst]
  generalize s.revokeWrites t = s1 at h1 hl1 hw1
  rw [State.revokeCompletion_eq hl1]
  obtain ⟨ls, lt, ct, hk⟩ := s1.revokeKinds_revokes t fun k => k == 1
  have h2 := s1.revokeKinds_unwinds t clean t fun k => k == 1
  have hl2 : (s1.revokeKinds t fun k => k == 1).live? t = some { l with bufs := [] } := by
    rw [hk]
    exact hl1
  have hw2 : ∀ k, t ∉ (s1.revokeKinds t fun k => k == 1).sched.waits.getD [] k := by
    rw [hk]
    exact hw1.symm ▸ hw
  generalize (s1.revokeKinds t fun k => k == 1) = s2 at h2 hl2 hw2
  obtain ⟨hrests, hlive⟩ := State.noteComplete_rests hl2 hw2 2 0
  generalize hs3 : List.foldl _ _ _ = s3
  have h3 : (s2.noteComplete t 2 0).unwinds t clean s3 :=
    hs3 ▸ .trans (.of_rebuffered (State.bandEnd_rebuffered _ _ 2)) (State.succEntries_unwinds _ hclean)
  have h4 := h3.trans (s3.revokeFlow_unwinds t clean t)
  have hl4 := (h4.rests hrests).2.trans hlive
  generalize s3.revokeFlow t = s4 at h4 hl4
  have h5 : s4.unwinds t clean (s4.revokeRest t) := by
    rw [State.revokeRest_eq hl4]
    exact (s4.revokeKinds_unwinds t clean t _).trans (State.clearOff_unwinds _ t clean t _)
  obtain ⟨hends, hleases⟩ := State.unwinds.endsTask (h1.trans h2) hl2 hw2 0 (h4.trans h5) l.run
  exact ⟨hends, hleases ▸ State.revokeRest_leases hl4⟩

end Sys2Proof.Machine
end

section
/-! PROOF. Aborts, completions and the fence of an engine (R257 to R259, R266, R268, R271, R272, R343). -/

namespace Sys2Proof.Machine

theorem exec_taskCompletion (task owner gen cycles : Nat) (records : List (List Word)) (s : State) :
    exec (.taskCompletion task owner gen records cycles) s = .next (taskCompletion task owner gen records cycles s) := rfl

theorem exec_taskBudgetExpiry (s : State) : exec .taskBudgetExpiry s = .next (taskBudgetExpiry s) := rfl

theorem exec_abortAck (task : Nat) (s : State) : exec (.abortAck task) s = .next (abortAck task s) := rfl

theorem exec_abortTimeout (task : Nat) (s : State) : exec (.abortTimeout task) s = .next (abortTimeout task s) := rfl

theorem exec_decoderOverrun (task : Nat) (s : State) : exec (.decoderOverrun task) s = .next (decoderOverrun task s) := rfl

@[simp] theorem State.begin_live? (s : State) (t : Nat) : s.begin.live? t = s.live? t := rfl

@[simp] theorem State.begin_launchNs (s : State) : s.begin.launchNs = s.launchNs := rfl

/-! ### Timers (R263, R268) -/

theorem mem_insertDue (due : Nat) (e : Due) (l : List (Nat × Due)) : (due, e) ∈ insertDue due e l := by
  induction l with
  | nil => exact List.mem_singleton.mpr rfl
  | cons p l ih =>
    obtain ⟨d, f⟩ := p
    unfold insertDue
    split
    · exact List.mem_cons_self
    · exact List.mem_cons_of_mem _ ih

/-- A timer that is set stands in its list. -/
theorem State.mem_putDue {s : State} {i : Nat} (hi : i < s.sched.lists.length) (due : Nat) (e : Due) :
    (due, e) ∈ (s.putDue i due e).sched.lists.getD i [] := by
  simp [State.putDue, hi, mem_insertDue]

/-- The state with the next entry taken. -/
def State.taking (s : State) (rest : List (Nat × Due)) : State := s.begin.updSched fun x => { x with dueQ := rest }

theorem State.takeDue_taking {s : State} {i : Nat} {e : Due} {rest : List (Nat × Due)} (h : s.sched.dueQ = (i, e) :: rest) :
    s.begin.takeDue = some (e, s.taking rest) := by
  simp only [State.takeDue, State.begin_sched, h]
  rfl

theorem State.takeAbort_taking {s : State} {i t : Nat} {rest : List (Nat × Due)} (h : s.sched.dueQ = (i, .abort t) :: rest) :
    s.begin.takeAbort t = some (s.taking rest) := by
  rw [State.takeAbort, State.takeDue_taking h]
  exact if_pos rfl

/-! ### The end of the budget (R266, R268, R343) -/

section
variable {s : State} {u i : Nat} {rest : List (Nat × Due)} {l : Live} (hq : s.sched.dueQ = (i, .budget u) :: rest)
  (hl : s.live? u = some l) (hst : l.st = .dispatched)
include hq hl hst

theorem taskBudgetExpiry_aborts (hk : l.kind ≠ 2) : taskBudgetExpiry s = (s.taking rest).requestAbort u false := by
  have hl' : (s.taking rest).live? u = some l := hl
  simp [taskBudgetExpiry, State.takeDue_taking hq, hl', hst, hk]

theorem taskBudgetExpiry_conceals (hk : l.kind = 2) : taskBudgetExpiry s =
    (((s.taking rest).updLive u fun l => { l with budgetHit := true }).countConf (s.runOf l).conf 18 1).putDue 3
      (s.launchNs + 30000) (.abort u) := by
  have hl' : (s.taking rest).live? u = some l := hl
  simp only [taskBudgetExpiry, State.takeDue_taking hq, hl', hst, hk, ne_eq, not_true_eq_false, if_false, if_true]
  rfl

end

/-- An abort that is requested, with its timer. -/
theorem State.requestAbort_asks {s : State} {t : Nat} {l : Live} (hl : s.live? t = some l) (hlen : s.sched.lists.length = 4)
    (revoke : Bool) : ∃ f, s.requestAbort t revoke = s.updSched f ∧ (f s.sched).dueQ = s.sched.dueQ ∧
      (f s.sched).lives.find? t = some { l with abortAt := some s.launchNs, revoking := revoke } ∧
      (s.launchNs + 10000, Due.abort t) ∈ (f s.sched).lists.getD 3 [] := by
  have hset : State.putDue (s.updLive t fun l => { l with abortAt := some s.launchNs, revoking := revoke }) 3 (s.launchNs + 10000)
      (.abort t) = s.updSched fun x => { x with
        lives := x.lives.upd t fun l => { l with abortAt := some s.launchNs, revoking := revoke }
        lists := x.lists.modify 3 (insertDue (s.launchNs + 10000) (.abort t)) } := rfl
  have hlive := State.updLive_live?_self hl fun l => { l with abortAt := some s.launchNs, revoking := revoke }
  have hmem : (s.launchNs + 10000, Due.abort t) ∈ (s.sched.lists.modify 3 (insertDue (s.launchNs + 10000) (.abort t))).getD 3 [] :=
    State.mem_putDue (show 3 < s.sched.lists.length by omega) _ _
  rw [State.requestAbort]
  simp only [show ∀ f, (s.updLive t f).launchNs = s.launchNs from fun _ => rfl, hset]
  generalize hs1 : s.updSched _ = s1
  obtain ⟨lt, ct, h, -⟩ := s1.traceTask_traced 10 t 0
  subst hs1
  rw [h, State.updSched_updSched]
  exact ⟨_, rfl, rfl, hlive, hmem⟩

/-! ### Acknowledgements and completions (R258, R259, R268, R273) -/

theorem abortAck_late {s : State} {task u : Nat} {l : Live} (hl : s.live? task = some l) (ha : l.abortAt = some u)
    (hlate : u + 10000 < s.launchNs) : abortAck task s = s.begin := by
  have hlate' : ¬ s.launchNs ≤ u + 10000 := Nat.not_le.mpr hlate
  simp [abortAck, hl, ha, hlate']

section
variable {s : State} {task u : Nat} {l : Live} (hl : s.live? task = some l) (hst : l.st = .dispatched) (ha : l.abortAt = some u)
  (hr : l.reported = none) (hnow : s.launchNs ≤ u + 10000)
include hl hst ha hr hnow

theorem abortAck_completes (hrev : l.revoking = false) : abortAck task s = (s.begin.countSched 11 1).completeTask task 2 0 := by
  simp [abortAck, hl, hst, ha, hr, hnow, hrev]

theorem abortAck_revokes (hrev : l.revoking = true) : abortAck task s = s.begin.revokeTasks [task] := by
  simp [abortAck, hl, hst, ha, hr, hnow, hrev, State.revokeTask]

end

theorem taskCompletion_stale {s : State} {task owner gen : Nat} (records : List (List Word)) (cycles : Nat)
    (h : s.live? task = none ∨ s.leaseLive task owner gen = false) :
    taskCompletion task owner gen records cycles s = s.begin.countSched 14 1 := by
  unfold taskCompletion
  simp only [State.begin_live?]
  split
  · rfl
  next l hl =>
    have hlive : s.begin.leaseLive task owner gen = false := h.resolve_left (by simp [hl])
    simp [hlive]

theorem taskCompletion_ends {s : State} {task owner gen status : Nat} {l : Live} (records : List (List Word)) (cycles : Nat)
    (hl : s.live? task = some l) (hlive : s.leaseLive task owner gen = true) (hr : l.reported = some status) :
    taskCompletion task owner gen records cycles s =
      (s.begin.updLive task fun l => l.withRecords records).completeTask task status cycles := by
  have hlive' : s.begin.leaseLive task owner gen = true := hlive
  simp [taskCompletion, hl, hlive', hr]

/-- Without a TASK lease of the task no lease of its completion is live. -/
theorem State.leaseLive_eq_false {s : State} {task : Nat} (h : ∀ x ∈ s.sched.leases, x.2.task = task → x.2.kind ≠ 1)
    (owner gen : Nat) : s.leaseLive task owner gen = false := by
  unfold State.leaseLive
  cases hx : ((s.live? task).bind Live.lease).bind fun n => s.sched.leases.find? n with
  | none => rfl
  | some x =>
    obtain ⟨n, -, hn⟩ := Option.bind_eq_some_iff.mp hx
    have hkind := h _ (FMap.mem_of_find? hn)
    by_cases ht : x.task = task
    · simp [hkind ht]
    · simp [ht]

/-! ### Fences of engines (R272) -/

/-- An engine that is fenced, before its leases are revoked. -/
def State.fencing (s : State) (kind i : Nat) : State :=
  let id := instId kind i
  let s := s.instanceDown kind i true
  let s := { s with avail := { s.avail with fences := s.avail.fences.put id (s.now :: s.avail.fences.getD [] id) } }
  (s.countSched 12 1).trace 11 0 kind i 0 0x3FFFF 0xFFFF (kind * 4096 + i)

theorem State.fencing_touches (s : State) (kind i : Nat) : ∃ m a f o fs lt ct, s.fencing kind i = { s with
    modes := m, audit := a, funcs := f, out := o
    avail := { s.avail with down := s.avail.down.put (instId kind i) { since := s.now, held := true }, fences := fs }
    sched := { s.sched with lantern := lt, counters := ct } } := by
  obtain ⟨m, a, f, o, hdown, -⟩ := s.instanceDown_touches kind i true
  unfold State.fencing
  simp only [hdown]
  generalize hs1 : State.countSched _ 12 1 = s1
  obtain ⟨lt, ct, htrace, -⟩ := s1.trace_traced 11 0 kind i 0 0x3FFFF 0xFFFF (kind * 4096 + i)
  rw [htrace, ← hs1]
  exact ⟨m, a, f, o, _, lt, ct, rfl⟩

/-- A DSP core that is fenced loses its slots. -/
def State.haltDsp (s : State) (kind i : Nat) : State := if kind = 0 then { s with dsps := s.dsps.del i } else s

theorem State.haltDsp_touches (s : State) (kind i : Nat) : ∃ ds, s.haltDsp kind i = { s with dsps := ds } := by
  unfold State.haltDsp
  split
  · exact ⟨_, rfl⟩
  · exact ⟨s.dsps, rfl⟩

/-- The fence of an engine that is not lent and has one task. -/
theorem State.fenceEngine_eq {s : State} {kind i task : Nat} {l : Live} (cause : Nat) (hone : s.engTasks kind i = [(task, l)])
    (hlent : ((s.fencing kind i).revokeTasks [task]).avail.lent.find? (instId kind i) = none) :
    s.fenceEngine kind i cause task =
      (((s.fencing kind i).revokeTasks [task]).haltDsp kind i).fault 0x28 7 (instId kind i) (w32 cause) (w32 task) := by
  have hone' : ((s.fencing kind i).engTasks kind i).map Prod.fst = [task] := by
    obtain ⟨_, _, _, _, _, _, _, h⟩ := s.fencing_touches kind i
    rw [h]
    exact congrArg _ hone
  have hsplit : s.fenceEngine kind i cause task =
      let w := (((s.fencing kind i).revokeTasks (((s.fencing kind i).engTasks kind i).map Prod.fst)).haltDsp kind i).fault
        0x28 7 (instId kind i) (w32 cause) (w32 task)
      match w.avail.lent.find? (instId kind i) with
      | none => w
      | some x => State.selftestFailed { w with avail := { w.avail with
          lent := w.avail.lent.del (instId kind i)
          down := w.avail.down.put (instId kind i) { since := w.now, held := false } } } (instId kind i) x.cmd 3 := rfl
  rw [hsplit, hone']
  generalize (s.fencing kind i).revokeTasks [task] = v at hlent
  obtain ⟨ds, hdsps⟩ := v.haltDsp_touches kind i
  obtain ⟨f, hfault, -⟩ := (v.haltDsp kind i).fault_touches 0x28 7 (instId kind i) (w32 cause) (w32 task)
  have hkept : (State.fault (v.haltDsp kind i) 0x28 7 (instId kind i) (w32 cause) (w32 task)).avail.lent.find? (instId kind i) = none := by
    rw [hfault, hdsps]
    exact hlent
  simp only [hkept]

/-- `v` is `s` but for what the fence of an engine that is not lent may change. -/
def State.fenceTouches (s v : State) : Prop := v = { s with
  out := v.out, modes := v.modes, funcs := v.funcs, audit := v.audit, faults := v.faults, avail := v.avail, confs := v.confs
  sched := v.sched, sess := v.sess, outs := v.outs, dsps := v.dsps }

theorem State.fenceTouches.trans {s t v : State} (h : s.fenceTouches t) (k : t.fenceTouches v) : s.fenceTouches v :=
  Eq.trans k (by rw [h])

theorem State.fencing_fenceTouches (s : State) (kind i : Nat) : s.fenceTouches (s.fencing kind i) := by
  obtain ⟨m, a, f, o, fs, lt, ct, h⟩ := s.fencing_touches kind i
  rw [h]
  rfl

theorem State.endsTask.fenceTouches {s v : State} {t st : Nat} (h : s.endsTask v t st True) : s.fenceTouches v := by
  obtain ⟨-, hpackets⟩ := h.quiet trivial
  obtain ⟨a, f, lt, cs, q, x, ss, os, ds, rfl⟩ := h.frame
  obtain rfl : q = s.localQ := hpackets
  rfl

theorem State.endsTask.down {s v : State} {t st : Nat} {clean : Prop} (h : s.endsTask v t st clean) :
    v.avail.down = s.avail.down := by
  obtain ⟨_, _, _, _, _, _, _, _, _, rfl⟩ := h.frame
  rfl

/-- An engine that is not lent and has one task: it is unavailable, the task has completed FAILED, and the fence has its record. -/
theorem State.fenceEngine_fences {s : State} {kind i task : Nat} {l : Live} (cause : Nat) (hl : s.live? task = some l)
    (hst : l.st = .dispatched) (hw : ∀ k, task ∉ s.sched.waits.getD [] k) (hone : s.engTasks kind i = [(task, l)])
    (hlent : s.avail.lent.has (instId kind i) = false) (hsucc : ∀ e ∈ l.task.succ, pairOk e.1 e.2 = true)
    (hq : s.faults.queue.length < 256) : s.fenceTouches (s.fenceEngine kind i cause task) ∧
      (s.fenceEngine kind i cause task).avail.down.has (instId kind i) = true ∧
      (∀ l', (s.fenceEngine kind i cause task).live? task = some l' → l'.st = .completed ∧ l'.status = 2) ∧
      ∃ r : FaultRec, (s.fenceEngine kind i cause task).faults.queue = s.faults.queue ++ [r] ∧ r.cls = 0x28 ∧ r.objKind = 7 ∧
        r.objId = instId kind i ∧ r.d0 = w32 cause := by
  have htouch := s.fencing_fenceTouches kind i
  obtain ⟨m, a, f, o, fs, lt, ct, hfencing⟩ := s.fencing_touches kind i
  have hlf : (s.fencing kind i).live? task = some l := by
    rw [hfencing]
    exact hl
  have hwf : ∀ k, task ∉ (s.fencing kind i).sched.waits.getD [] k := by
    rw [hfencing]
    exact hw
  have hnone : (s.fencing kind i).avail.lent.find? (instId kind i) = none := by
    rw [hfencing]
    simpa [FMap.has] using hlent
  have hdown : (s.fencing kind i).avail.down.has (instId kind i) = true := by
    rw [hfencing]
    simp [FMap.has_put]
  have hsame : (s.fencing kind i).faults = s.faults := by rw [hfencing]
  obtain ⟨hends, -⟩ := State.revokeTask_ends hlf hst hwf True fun _ => hsucc
  rw [State.fenceEngine_eq cause hone (hends.lent _ hnone)]
  replace hsame := (hends.quiet trivial).1.trans hsame
  generalize (s.fencing kind i).revokeTasks [task] = v at hends hsame
  obtain ⟨ds, hdsps⟩ := v.haltDsp_touches kind i
  have hroom : ({ v with dsps := ds } : State).faults.queue.length < 256 := by simpa only [hsame] using hq
  rw [hdsps, State.fault_queue _ _ _ _ _ _ hroom, hsame]
  exact ⟨(htouch.trans hends.fenceTouches).trans rfl, hends.down ▸ hdown, hends.live, _, rfl, rfl, rfl, rfl, rfl⟩

section
variable {s : State} {task i : Nat} {rest : List (Nat × Due)} {l : Live} (hdue : s.sched.dueQ = (i, .abort task) :: rest)
  (hl : s.live? task = some l) (hst : l.st = .dispatched)
include hdue hl hst

theorem decoderOverrun_eq (hb : l.budgetHit = true) : decoderOverrun task s = (s.taking rest).fenceEngine 2 l.eng 1 task := by
  simp [decoderOverrun, hl, State.takeAbort_taking hdue, hst, hb]

theorem abortTimeout_eq {u : Nat} (ha : l.abortAt = some u) :
    abortTimeout task s = (s.taking rest).fenceEngine l.kind l.eng 0 task := by
  simp [abortTimeout, hl, State.takeAbort_taking hdue, hst, ha]

end

/-- Settles O40: a stale completion, one that counts, and the fence of a decoder that goes on. -/
theorem tasksEnd : Obligations.TasksEnd := by
  unfold Obligations.TasksEnd
  refine ⟨fun s task owner gen cycles records => ⟨fun hstale => ?_, fun l status hl hlive hst hw hr => ?_⟩,
    fun s task i rest l hdue hl hst hw hk hone hq hlent hsucc hbudget => ?_⟩
  · rw [exec_taskCompletion, taskCompletion_stale records cycles hstale]
    rfl
  · rw [exec_taskCompletion, taskCompletion_ends records cycles hl hlive hr]
    have hl' : (s.begin.updLive task fun l => l.withRecords records).live? task = some (l.withRecords records) :=
      State.updLive_live?_self (s := s.begin) hl _
    obtain ⟨hends, hleases⟩ := State.completeTask_ends hl' (by simp [Live.withRecords, Live.withOut, hst]) hw status cycles
    generalize (s.begin.updLive task fun l => l.withRecords records).completeTask task status cycles = v at hends hleases
    refine ⟨v, rfl, ?_, hends.live, fun x hx ht => (hleases x hx ht).1,
      State.leaseLive_eq_false (fun x hx ht => by simp [(hleases x hx ht).1]) owner gen⟩
    obtain ⟨_, _, _, _, _, _, _, _, _, rfl⟩ := hends.frame
    rfl
  · obtain ⟨hframe, hdown, hlive, r, hrec⟩ := State.fenceEngine_fences (s := s.taking rest) 1 hl hst hw hone hlent hsucc hq
    refine ⟨_, (exec_decoderOverrun task s).trans (congrArg _ (decoderOverrun_eq hdue hl hst hbudget)), ?_, hdown, hlive, r, hrec⟩
    generalize (s.taking rest).fenceEngine 2 l.eng 1 task = v at hframe
    rw [hframe]
    rfl

/-- Settles O41: the budget, the acknowledgement in time or late, and the fence. -/
theorem budgetsEndInAborts : Obligations.BudgetsEndInAborts := by
  unfold Obligations.BudgetsEndInAborts
  refine ⟨fun s u i rest l hdue hl hst hlen => ?_, fun s task u l hl hst ha hr hw => ⟨fun hnow => ?_, fun hlate => ?_⟩,
    fun s task u i rest l hdue hl hst ha hw hone hq hlent hsucc => ?_⟩
  · rw [exec_taskBudgetExpiry]
    by_cases hk : l.kind = 2
    · rw [taskBudgetExpiry_conceals hdue hl hst hk]
      refine ⟨_, rfl, rfl, rfl, fun h => absurd hk h, fun _ => ⟨?_, ?_⟩⟩
      · exact State.updLive_live?_self (s := s.taking rest) hl fun l => { l with budgetHit := true }
      · exact State.mem_putDue (show 3 < s.sched.lists.length by omega) _ _
    · rw [taskBudgetExpiry_aborts hdue hl hst hk]
      obtain ⟨f, heq, hqueue, hlive, hmem⟩ := State.requestAbort_asks (s := s.taking rest) hl hlen false
      rw [heq]
      exact ⟨_, rfl, rfl, hqueue, fun _ => ⟨hlive, hmem, rfl⟩, fun h => absurd h hk⟩
  · rw [exec_abortAck]
    cases hrev : l.revoking
    · rw [abortAck_completes hl hst ha hr hnow hrev]
      obtain ⟨hends, hleases⟩ := State.completeTask_ends (s := s.begin.countSched 11 1) hl (by simp [hst]) hw 2 0
      generalize (s.begin.countSched 11 1).completeTask task 2 0 = v at hends hleases
      have haborts := hends.aborts (by decide)
      have hlive := hends.live
      obtain ⟨_, _, _, _, _, _, _, _, _, rfl⟩ := hends.frame
      exact ⟨_, rfl, rfl, hlive, fun x hx ht => (hleases x hx ht).2 rfl, rfl, fun _ => haborts⟩
    · rw [abortAck_revokes hl hst ha hr hnow hrev]
      obtain ⟨hends, hleases⟩ := State.revokeTask_ends (s := s.begin) hl hst hw False nofun
      generalize s.begin.revokeTasks [task] = v at hends hleases
      have hlive := hends.live
      obtain ⟨_, _, _, _, _, _, _, _, _, rfl⟩ := hends.frame
      exact ⟨_, rfl, rfl, hlive, hleases, rfl, nofun⟩
  · rw [exec_abortAck, abortAck_late hl ha hlate]
    rfl
  · obtain ⟨hframe, hdown, hlive, r, hrec⟩ := State.fenceEngine_fences (s := s.taking rest) 0 hl hst hw hone hlent hsucc hq
    refine ⟨_, (exec_abortTimeout task s).trans (congrArg _ (abortTimeout_eq hdue hl hst ha)), ?_, hdown, hlive, r, hrec⟩
    generalize (s.taking rest).fenceEngine l.kind l.eng 0 task = v at hframe
    rw [hframe]
    rfl

end Sys2Proof.Machine
end

section
/-! PROOF. The dispatch of a task (R260 to R262, R266, R271). -/

namespace Sys2Proof.Machine

/-! ### Steps that leave the task of a dispatch as it is -/

/-- A task but for where it stands. -/
def Live.unplaced (l : Live) : Live := { l with st := .ready }

/-- `t` is `s` but for what a dispatch may change. -/
def State.dispatchTouches (s t : State) : Prop := t = { s with
  audit := t.audit, faults := t.faults, confs := t.confs, sched := t.sched, sess := t.sess, outs := t.outs, dsps := t.dsps }

theorem State.dispatchTouches.trans {s t v : State} (h : s.dispatchTouches t) (k : t.dispatchTouches v) : s.dispatchTouches v :=
  Eq.trans k (by rw [h])

/-- A step that begins with no output, and changes from there what a dispatch may. -/
theorem State.dispatchTouches.trans_begin {s t : State} (h : s.begin.dispatchTouches t) : t = { s with
    out := t.out, audit := t.audit, faults := t.faults, confs := t.confs, sched := t.sched, sess := t.sess, outs := t.outs,
    dsps := t.dsps } := by
  have hout : t.out = [] := by rw [h]; rfl
  rw [hout]
  exact h

theorem State.dispatchTouches.launchNs {s t : State} (h : s.dispatchTouches t) : t.launchNs = s.launchNs := by
  rw [h]
  rfl

/-- `t` is `s` but for a step of the dispatch of task `u`, which leaves the task, every timer and every lease as it is, and of other
tasks all but where they stand. Where `dsp`, no plan, graph instance or core changes. -/
structure State.attends (u : Nat) (dsp : Prop) (s t : State) : Prop where
  frame : s.dispatchTouches t
  live : t.live? u = s.live? u
  others : ∀ w, (t.live? w).map Live.unplaced = (s.live? w).map Live.unplaced
  ready : (∀ k, u ∉ s.sched.ready.getD [] k) → ∀ k, u ∉ t.sched.ready.getD [] k
  order : t.sched.orderNo = s.sched.orderNo
  length : t.sched.lists.length = s.sched.lists.length
  timers : ∀ i, ∀ p ∈ s.sched.lists.getD i [], p ∈ t.sched.lists.getD i []
  leases : ∀ n x, s.sched.leases.find? n = some x → t.sched.leases.find? n = some x
  steady : dsp → t.confs = s.confs ∧ t.sched.runs = s.sched.runs ∧ t.dsps = s.dsps

section
variable {u : Nat} {dsp : Prop}

theorem State.attends.trans {s t v : State} (h : s.attends u dsp t) (k : t.attends u dsp v) : s.attends u dsp v where
  frame := h.frame.trans k.frame
  live := k.live.trans h.live
  others w := (k.others w).trans (h.others w)
  ready hr := k.ready (h.ready hr)
  order := k.order.trans h.order
  length := k.length.trans h.length
  timers i p hp := k.timers i p (h.timers i p hp)
  leases n x hx := k.leases n x (h.leases n x hx)
  steady hd := by
    obtain ⟨hc, hr, hs⟩ := h.steady hd
    obtain ⟨kc, kr, ks⟩ := k.steady hd
    exact ⟨kc.trans hc, kr.trans hr, ks.trans hs⟩

/-- A change beside the tasks, the timers and the leases. -/
theorem State.attends.of_frame {s t : State} (hframe : s.dispatchTouches t) (hlives : t.sched.lives = s.sched.lives)
    (hready : t.sched.ready = s.sched.ready) (horder : t.sched.orderNo = s.sched.orderNo) (hlists : t.sched.lists = s.sched.lists)
    (hleases : t.sched.leases = s.sched.leases) (hsteady : dsp → t.confs = s.confs ∧ t.sched.runs = s.sched.runs ∧ t.dsps = s.dsps) :
    s.attends u dsp t where
  frame := hframe
  live := by rw [State.live?, hlives]; rfl
  others w := by rw [State.live?, hlives]; rfl
  ready h := hready ▸ h
  order := horder
  length := by rw [hlists]
  timers i p hp := hlists ▸ hp
  leases n x hx := hleases ▸ hx
  steady := hsteady

theorem State.attends.refl (s : State) : s.attends u dsp s := .of_frame rfl rfl rfl rfl rfl rfl fun _ => ⟨rfl, rfl, rfl⟩

theorem State.attends.ite {p : Prop} [Decidable p] {s t v : State} (ht : s.attends u dsp t) (hv : s.attends u dsp v) :
    s.attends u dsp (if p then t else v) := by
  split
  · exact ht
  · exact hv

theorem State.attends.foldl {α : Type} {f : State → α → State} (l : List α) (hf : ∀ (s : State), ∀ a ∈ l, s.attends u dsp (f s a))
    (s : State) : s.attends u dsp (l.foldl f s) := by
  induction l generalizing s with
  | nil => exact .refl s
  | cons a l ih => exact (hf s a List.mem_cons_self).trans (ih (fun s b hb => hf s b (List.mem_cons_of_mem _ hb)) _)

theorem State.attends.of_rebuffered {s t : State} (h : s.rebuffered t) : s.attends u dsp t := by
  obtain ⟨ss, os, rfl⟩ := h
  exact .of_frame rfl rfl rfl rfl rfl rfl fun _ => ⟨rfl, rfl, rfl⟩

theorem State.attends.of_traced {s t : State} (h : s.traced t) : s.attends u dsp t := by
  obtain ⟨l, c, rfl, -⟩ := h
  exact .of_frame rfl rfl rfl rfl rfl rfl fun _ => ⟨rfl, rfl, rfl⟩

theorem State.countSched_attends (s : State) (i k : Nat) : s.attends u dsp (s.countSched i k) :=
  .of_frame rfl rfl rfl rfl rfl rfl fun _ => ⟨rfl, rfl, rfl⟩

/-! ### Flows (R262) -/

/-- A task leaves the ready lists. -/
theorem Sched.unready_ready (x : Sched) (t k : Nat) : (x.unready t).ready.getD [] k = (x.ready.getD [] k).filter fun w => w != t :=
  FMap.getD_map_filter x.ready (fun w => w != t) k

theorem State.unready_attends (s : State) (t : Nat) : s.attends u dsp (s.updSched fun x => x.unready t) where
  frame := rfl
  live := rfl
  others _ := rfl
  ready h k := by
    rw [State.updSched_sched, Sched.unready_ready]
    exact fun hmem => h k (List.mem_of_mem_filter hmem)
  order := rfl
  length := rfl
  timers _ _ hp := hp
  leases _ _ hx := hx
  steady _ := ⟨rfl, rfl, rfl⟩

/-- Another task changes where it stands. -/
theorem State.updLive_attends (s : State) {t : Nat} (st : TaskSt) (hne : u ≠ t) :
    s.attends u dsp (s.updLive t fun l => { l with st := st }) where
  frame := rfl
  live := s.updLive_live?_ne _ hne
  others w := by
    by_cases hw : w = t
    · subst hw
      change (FMap.find? (s.sched.lives.upd w fun l => { l with st := st }) w).map Live.unplaced = _
      rw [FMap.find?_upd_self, Option.map_map]
      rfl
    · rw [s.updLive_live?_ne _ hw]
  ready h := h
  order := rfl
  length := rfl
  timers _ _ hp := hp
  leases _ _ hx := hx
  steady _ := ⟨rfl, rfl, rfl⟩

theorem State.waitFlow_attends (s : State) {t : Nat} (k : Nat) (l : Live) (hne : u ≠ t) : s.attends u dsp (s.waitFlow t k l) := by
  have hwait : s.attends u dsp (s.updSched fun x => { x with waits := x.waits.put k (s.insertWait t l (x.waits.getD [] k)) }) :=
    .of_frame rfl rfl rfl rfl rfl rfl fun _ => ⟨rfl, rfl, rfl⟩
  exact hwait.trans (.trans (State.updLive_attends _ .flowWait hne) (.trans (State.countSched_attends _ 10 1)
    (.of_traced (State.traceTask_traced _ 8 t _))))

/-- The other ready tasks of the flow wait. -/
theorem State.claimFlow_attends (s : State) (l : Live) : s.attends u dsp (s.claimFlow u l) := by
  unfold State.claimFlow
  split
  · exact .refl s
  next k _ =>
    have hclaim : s.attends u dsp (s.updSched fun x => { x with flows := x.flows.put k u }) :=
      .of_frame rfl rfl rfl rfl rfl rfl fun _ => ⟨rfl, rfl, rfl⟩
    refine hclaim.trans (.foldl _ (fun v p hp => ?_) _)
    have hne : u ≠ p.1 := by
      rintro rfl
      simpa using List.of_mem_filter hp
    exact (v.unready_attends p.1).trans (State.waitFlow_attends _ k p.2 hne)

/-! ### The latch of a composed output (R360) -/

theorem State.countConf_attends (s : State) (c i k : Nat) (hdsp : ¬ dsp) : s.attends u dsp (s.countConf c i k) :=
  .of_frame rfl rfl rfl rfl rfl rfl fun h => absurd h hdsp

theorem State.updRun_attends (s : State) (r : Nat) (f : GraphRun → GraphRun) (hdsp : ¬ dsp) : s.attends u dsp (s.updRun r f) :=
  .of_frame rfl rfl rfl rfl rfl rfl fun h => absurd h hdsp

theorem State.fenceConf_attends (s : State) (c row off : Nat) (hdsp : ¬ dsp) : s.attends u dsp (s.fenceConf c row off) := by
  obtain ⟨f, a, ⟨h, -⟩ | h⟩ := s.fenceConf_touches c row off
  all_goals
    rw [h]
    exact .of_frame rfl rfl rfl rfl rfl rfl fun h => absurd h hdsp

theorem State.checkRefs_attends (s : State) (c : Nat) (p : Plan) (hdsp : ¬ dsp) : s.attends u dsp (s.checkRefs c p) := by
  unfold State.checkRefs State.fenceRefs
  exact .ite (.refl s) (s.fenceConf_attends c 1 0 hdsp)

theorem State.latch_attends (s : State) (r : Nat) (o : OutputRec) (hdsp : ¬ dsp) : s.attends u dsp (s.latch r o) := by
  unfold State.latch
  split
  · exact .refl s
  next g _ =>
    refine .ite (.refl s) ?_
    simp only
    generalize s.latchNow _ g.bank o = l
    generalize hs1 : (if l.layout.any fun y => y.layers.any fun x => x.source == 2 then s.checkRefs g.conf (s.runPlan g) else s) = s1
    have h1 : s.attends u dsp s1 := by
      rw [← hs1]
      exact .ite (s.checkRefs_attends _ _ hdsp) (.refl s)
    refine h1.trans (.trans (s1.updRun_attends r (fun g => { g with latches := g.latches.put o.output l }) hdsp) ?_)
    generalize s1.updRun r _ = s2
    exact .ite ((s2.countConf_attends _ 28 1 hdsp).trans (State.fenceConf_attends _ _ 7 0 hdsp)) (s2.countConf_attends _ 25 _ hdsp)

theorem State.latchBand_attends (s : State) (r : Nat) (o : OutputRec) (band : Nat) (hdsp : ¬ dsp) :
    s.attends u dsp (s.latchBand r o band) := by
  unfold State.latchBand
  split
  · exact .refl s
  · split
    · exact (s.updRun_attends r _ hdsp).trans (State.countConf_attends _ _ 27 _ hdsp)
    · exact .refl s

/-! ### Leases (R270, R271) -/

/-- A number up to the count of those listed is free. -/
theorem FMap.exists_free {α : Type} (m : FMap α) : ∃ k, (List.range (m.length + 1)).find? (fun k => !m.has k) = some k ∧
    m.find? k = none := by
  cases h : (List.range (m.length + 1)).find? fun k => !m.has k with
  | some k => exact ⟨k, rfl, by simpa [FMap.has] using List.find?_some h⟩
  | none =>
    have hall : ∀ k ∈ List.range (m.length + 1), k ∈ m.keys := by
      intro k hk
      have hhas : m.has k = true := by simpa using List.find?_eq_none.mp h k hk
      obtain ⟨v, hv⟩ := Option.isSome_iff_exists.mp hhas
      exact List.mem_map.mpr ⟨_, FMap.mem_of_find? hv, rfl⟩
    have hlen := (List.nodup_range.subperm hall).length_le
    simp [FMap.keys] at hlen

/-- A lease takes a record that was free. -/
theorem State.grant_free (s : State) (kind inst lkind object t pool : Nat) :
    s.sched.leases.find? (s.grant kind inst lkind object t pool).1 = none ∧
    ∃ x, (s.grant kind inst lkind object t pool).2.sched.leases.find? (s.grant kind inst lkind object t pool).1 = some x ∧
      x.kind = lkind ∧ x.task = t ∧ x.ownerKind = kind ∧ x.ownerInst = inst := by
  obtain ⟨k, hk, hfree⟩ := FMap.exists_free s.sched.leases
  have hn : (s.grant kind inst lkind object t pool).1 = k := by simp [State.grant, hk]
  rw [hn]
  refine ⟨hfree, ?_⟩
  simp [State.grant, hk]

theorem State.grant_attends (s : State) (kind inst lkind object t pool : Nat) :
    s.attends u dsp (s.grant kind inst lkind object t pool).2 where
  frame := rfl
  live := rfl
  others _ := rfl
  ready h := h
  order := rfl
  length := rfl
  timers _ _ hp := hp
  leases n x hx := by
    obtain ⟨hfree, -⟩ := s.grant_free kind inst lkind object t pool
    refine (FMap.find?_put_ne _ _ _ _ ?_).trans hx
    rintro rfl
    exact nomatch hx.symm.trans hfree
  steady _ := ⟨rfl, rfl, rfl⟩

theorem State.readFb_rebuffered (s : State) (b : FbOwner × Nat) : s.rebuffered (s.readFb b) := s.updFb_rebuffered _ _ _

/-- The leases of a dispatch after its TASK lease. -/
def State.grantRest (s : State) (t : Nat) (l : Live) (kind e : Nat) (held : List (FbOwner × Nat)) (pool : Nat) : State :=
  let s := match s.flowKey l with | some k => (s.grant kind e 2 (Config.deviceFlow k) t 0).2 | none => s
  let s := l.bufs.foldl (fun (s : State) b => (s.grant kind e 3 b.2 t 0).2) s
  let s := held.foldl (fun (s : State) b => ((s.grant kind e 4 b.2 t 0).2).readFb b) s
  if l.task.outBlocks = 0 then s else (s.grant kind e 5 l.task.outBlocks t pool).2

theorem State.grantRest_attends (s : State) (t : Nat) (l : Live) (kind e : Nat) (held : List (FbOwner × Nat)) (pool : Nat) :
    s.attends u dsp (s.grantRest t l kind e held pool) := by
  unfold State.grantRest
  simp only
  generalize hs1 : (match s.flowKey l with | some k => (s.grant kind e 2 (Config.deviceFlow k) t 0).2 | none => s : State) = s1
  have h1 : s.attends u dsp s1 := by
    rw [← hs1]
    split
    · exact s.grant_attends ..
    · exact .refl s
  refine h1.trans (.trans (.foldl l.bufs (fun v b _ => v.grant_attends kind e 3 b.2 t 0) s1)
    (.trans (.foldl held (fun v b _ => (v.grant_attends kind e 4 b.2 t 0).trans (.of_rebuffered (State.readFb_rebuffered _ b))) _) ?_))
  exact .ite (.refl _) (State.grant_attends _ ..)

/-- The TASK lease is the first that a dispatch grants; it stands among the others. -/
theorem State.grantAll_grants (s : State) (t : Nat) (l : Live) (kind e : Nat) (held : List (FbOwner × Nat)) :
    s.attends u dsp (s.grantAll t l kind e held).2 ∧
    ∃ x, (s.grantAll t l kind e held).2.sched.leases.find? (s.grantAll t l kind e held).1 = some x ∧ x.kind = 1 ∧ x.task = t ∧
      x.ownerKind = kind ∧ x.ownerInst = e := by
  obtain ⟨-, x, hx, hspec⟩ := s.grant_free kind e 1 t t 0
  have hfirst : s.attends u dsp (s.grant kind e 1 t t 0).2 := s.grant_attends kind e 1 t t 0
  have hrest := (s.grant kind e 1 t t 0).2.grantRest_attends (u := u) (dsp := dsp) t l kind e held
    ((s.runOf l).conf * 2 + (s.runOf l).bank)
  have heq : s.grantAll t l kind e held = ((s.grant kind e 1 t t 0).1,
      (s.grant kind e 1 t t 0).2.grantRest t l kind e held ((s.runOf l).conf * 2 + (s.runOf l).bank)) := rfl
  rw [heq]
  exact ⟨hfirst.trans hrest, x, hrest.leases _ _ hx, hspec⟩

/-! ### The parts of a dispatch -/

theorem State.encDispatch_rebuffered (s : State) (run : Nat) (t : TaskRec) (fb : Nat) : s.rebuffered (s.encDispatch run t fb) := by
  unfold State.encDispatch
  simp only
  repeat' split
  all_goals exact ⟨_, _, rfl⟩

/-- The latch, the buffers for writing and the picture of a dispatch (R340, R360, R385). -/
def State.equip (s : State) (l : Live) (bufs : List (FbOwner × Nat)) : State :=
  let s := match (s.runPlan (s.runOf l)).outputRec l.task.ref with
    | some o => if l.task.op = 7 then (s.latch l.run o).latchBand l.run o (fld l.task.param 5 0) else s
    | none => s
  let s := bufs.foldl (fun (s : State) b => s.updFb b.1 b.2 fun x => if x.st = .writing then x else { st := .writing }) s
  if l.task.op = 9 then s.encDispatch l.run l.task ((bufs.head?.map Prod.snd).getD 0) else s

theorem State.equip_attends (s : State) (l : Live) (bufs : List (FbOwner × Nat)) (hop : dsp → l.task.op ≠ 7) :
    s.attends u dsp (s.equip l bufs) := by
  unfold State.equip
  simp only
  generalize hs1 : (match (s.runPlan (s.runOf l)).outputRec l.task.ref with
    | some o => if l.task.op = 7 then (s.latch l.run o).latchBand l.run o (fld l.task.param 5 0) else s
    | none => s) = s1
  have h1 : s.attends u dsp s1 := by
    rw [← hs1]
    split
    · split
      next h7 => exact (s.latch_attends _ _ fun hd => hop hd h7).trans (State.latchBand_attends _ _ _ _ fun hd => hop hd h7)
      · exact .refl s
    · exact .refl s
  have hbufs : s1.rebuffered (bufs.foldl (fun (s : State) b => s.updFb b.1 b.2 fun x =>
      if x.st = .writing then x else { st := .writing }) s1) := .foldl (fun v b => v.updFb_rebuffered b.1 b.2 _) bufs s1
  refine h1.trans (.trans (.of_rebuffered hbufs) ?_)
  exact .ite (.of_rebuffered (State.encDispatch_rebuffered _ _ _ _)) (.refl _)

theorem State.dspStart_touches (s : State) (c k t : Nat) : ∃ ds, s.dspStart c k t = { s with dsps := ds } := by
  unfold State.dspStart
  split
  · exact ⟨s.dsps, rfl⟩
  · simp only
    split
    · exact ⟨s.dsps, rfl⟩
    · exact ⟨_, rfl⟩

/-- A DSP core starts the task in its first free slot. -/
def State.seat (s : State) (t kind e : Nat) : State :=
  if kind = 0 then match (s.dsp e).freeSlot with | some k => s.dspStart e k t | none => s else s

theorem State.seat_attends (s : State) (t kind e : Nat) (hdsp : ¬ dsp) : s.attends u dsp (s.seat t kind e) := by
  unfold State.seat
  split
  · split
    next k _ =>
      obtain ⟨ds, h⟩ := s.dspStart_touches e k t
      rw [h]
      exact .of_frame rfl rfl rfl rfl rfl rfl fun h => absurd h hdsp
    · exact .refl s
  · exact .refl s

/-- The engine stands as the last one of its session's tasks, and the dispatch is counted (R260, R276). -/
def State.noteDispatch (s : State) (t kind e : Nat) (l : Live) : State :=
  let s := match s.taskSess l with
    | some i => s.updSched fun x => { x with lastEng := x.lastEng.put (kind * 2 ^ 40 + i) e }
    | none => s
  (s.countSched 3 1).traceTask 3 t l.blocks

theorem State.noteDispatch_attends (s : State) (t kind e : Nat) (l : Live) : s.attends u dsp (s.noteDispatch t kind e l) := by
  unfold State.noteDispatch
  simp only
  refine State.attends.trans ?_ (.trans (State.countSched_attends _ 3 1) (.of_traced (State.traceTask_traced _ 3 t _)))
  split
  · exact .of_frame rfl rfl rfl rfl rfl rfl fun _ => ⟨rfl, rfl, rfl⟩
  · exact .refl s

end

/-- The record of a task that is sent to engine `e` with its buffers. -/
def Live.sentTo (l : Live) (e orderNo : Nat) (bufs : List (FbOwner × Nat)) : Live :=
  { l with st := .dispatched, kind := engKind l.task.op, eng := e, orderNo := orderNo, bufs := bufs, blocks := l.task.outBlocks }

/-- The task leaves the ready lists with a record of its own. -/
def State.unqueue (s : State) (t : Nat) (l : Live) : State :=
  (s.updSched fun x => { (x.unready t) with orderNo := x.orderNo + 1 }).updLive t fun _ => l

/-- The lease, the buffers held and the budget's timer of a task. -/
def State.setBudget (s : State) (t lease ns : Nat) (held : List (FbOwner × Nat)) : State :=
  let s := s.putDue 3 (s.launchNs + ns) (.budget t)
  s.updLive t fun l =>
    { l with
      lease := some lease, held := held, due := some (s.launchNs + ns), budgetNs := ns
      ringAt := ((s.taskSess l).map fun i => (s.sessAt i).ring.length).getD 0
      era := ((s.taskSess l).map fun i => (s.sessAt i).era).getD 0 }

/-- The task off its list, with its flow, what it needs, its leases and its budget. -/
def State.load (s : State) (t : Nat) (l : Live) (bufs : List (FbOwner × Nat)) : State :=
  let s := ((s.unqueue t l).claimFlow t l).equip l bufs
  let a := s.grantAll t l l.kind l.eng (s.taskReads l)
  a.2.setBudget t a.1 (a.2.budgetNs l) (s.taskReads l)

theorem State.dispatch_eq {s : State} {t : Nat} {l : Live} (hl : s.live? t = some l) (e : Nat) (bufs : List (FbOwner × Nat)) :
    s.dispatch t e bufs = ((s.load t (l.sentTo e s.sched.orderNo bufs) bufs).seat t (engKind l.task.op) e).noteDispatch t
      (engKind l.task.op) e (l.sentTo e s.sched.orderNo bufs) := by
  simp only [State.dispatch, hl]
  rfl

/-! ### What a dispatch comes to -/

/-- `v` is `s` with task `t` dispatched as `l`: it has a TASK lease and its budget's timer, and stands on no ready list. -/
structure State.sends (t : Nat) (l : Live) (dsp : Prop) (s v : State) : Prop where
  frame : s.dispatchTouches v
  live : ∃ n held ns ringAt era x, v.live? t = some { l with
      lease := some n, held := held, due := some (s.launchNs + ns), budgetNs := ns, ringAt := ringAt, era := era } ∧
    (s.sched.lists.length = 4 → (s.launchNs + ns, Due.budget t) ∈ v.sched.lists.getD 3 []) ∧
    v.sched.leases.find? n = some x ∧ x.kind = 1 ∧ x.task = t ∧ x.ownerKind = l.kind ∧ x.ownerInst = l.eng
  others : ∀ w, w ≠ t → (v.live? w).map Live.unplaced = (s.live? w).map Live.unplaced
  ready : ∀ k, t ∉ v.sched.ready.getD [] k
  order : v.sched.orderNo = s.sched.orderNo + 1
  steady : dsp → v.confs = s.confs ∧ v.sched.runs = s.sched.runs ∧ v.dsps = s.dsps

theorem State.sends.then {t : Nat} {l : Live} {dsp : Prop} {s v w : State} (h : State.sends t l dsp s v) (k : v.attends t dsp w) :
    State.sends t l dsp s w where
  frame := h.frame.trans k.frame
  live := by
    obtain ⟨n, held, ns, ringAt, era, x, hlive, htimer, hlease, hx⟩ := h.live
    exact ⟨n, held, ns, ringAt, era, x, k.live.trans hlive, fun hlen => k.timers 3 _ (htimer hlen), k.leases n x hlease, hx⟩
  others i hi := (k.others i).trans (h.others i hi)
  ready := k.ready h.ready
  order := k.order.trans h.order
  steady hd := by
    obtain ⟨hc, hr, hs⟩ := h.steady hd
    obtain ⟨kc, kr, ks⟩ := k.steady hd
    exact ⟨kc.trans hc, kr.trans hr, ks.trans hs⟩

theorem State.setBudget_live {s : State} {t : Nat} {l : Live} (hl : s.live? t = some l) (lease ns : Nat)
    (held : List (FbOwner × Nat)) : (∃ ringAt era, (s.setBudget t lease ns held).live? t = some { l with
      lease := some lease, held := held, due := some (s.launchNs + ns), budgetNs := ns, ringAt := ringAt, era := era }) ∧
    (s.sched.lists.length = 4 → (s.launchNs + ns, Due.budget t) ∈ (s.setBudget t lease ns held).sched.lists.getD 3 []) :=
  ⟨⟨_, _, State.updLive_live?_self (s := s.putDue 3 (s.launchNs + ns) (.budget t)) hl _⟩,
    fun hlen => State.mem_putDue (show 3 < s.sched.lists.length by omega) _ _⟩

theorem State.setBudget_live_ne (s : State) {t w : Nat} (lease ns : Nat) (held : List (FbOwner × Nat)) (h : w ≠ t) :
    (s.setBudget t lease ns held).live? w = s.live? w :=
  State.updLive_live?_ne (s.putDue 3 (s.launchNs + ns) (.budget t)) _ h

theorem State.unqueue_ready (s : State) (t : Nat) (l : Live) (k : Nat) : t ∉ (s.unqueue t l).sched.ready.getD [] k := by
  change t ∉ (s.sched.unready t).ready.getD [] k
  rw [Sched.unready_ready]
  exact fun hmem => by simpa using List.of_mem_filter hmem

/-- What a dispatch does before the task's core takes it; the latch of a composed output is all that could touch a plan or a core. -/
theorem State.load_sends {s : State} {t : Nat} {l0 l : Live} (hl : s.live? t = some l0) (bufs : List (FbOwner × Nat))
    {dsp : Prop} (hop : dsp → l.task.op ≠ 7) : State.sends t l dsp s (s.load t l bufs) := by
  have hlive : (s.unqueue t l).live? t = some l :=
    State.updLive_live?_self (s := s.updSched fun x => { (x.unready t) with orderNo := x.orderNo + 1 }) hl fun _ => l
  have hframe : s.dispatchTouches (s.unqueue t l) := rfl
  have hequip : (s.unqueue t l).attends t dsp (((s.unqueue t l).claimFlow t l).equip l bufs) :=
    (State.claimFlow_attends _ l).trans (State.equip_attends _ l bufs hop)
  unfold State.load
  simp only
  generalize ((s.unqueue t l).claimFlow t l).equip l bufs = s2 at hequip
  obtain ⟨hgrant, x, hx, hspec⟩ := s2.grantAll_grants (u := t) (dsp := dsp) t l l.kind l.eng (s2.taskReads l)
  have h := hequip.trans hgrant
  generalize s2.grantAll t l l.kind l.eng (s2.taskReads l) = a at h hx
  obtain ⟨⟨ringAt, era, hset⟩, htimer⟩ := State.setBudget_live (h.live.trans hlive) a.1 (a.2.budgetNs l) (s2.taskReads l)
  rw [(hframe.trans h.frame).launchNs] at hset htimer
  exact {
    frame := (hframe.trans h.frame).trans rfl
    live := ⟨a.1, _, _, ringAt, era, x, hset, fun hlen => htimer (h.length.trans hlen), hx, hspec⟩
    others := fun w hw => by
      rw [State.setBudget_live_ne _ _ _ _ hw, h.others w]
      exact congrArg _ (State.updLive_live?_ne _ _ hw)
    ready := h.ready (s.unqueue_ready t l)
    order := h.order
    steady := fun hd => h.steady hd }

/-- A dispatch sends the task to its engine. -/
theorem State.dispatch_sends {s : State} {t : Nat} {l : Live} (hl : s.live? t = some l) (e : Nat)
    (bufs : List (FbOwner × Nat)) : State.sends t (l.sentTo e s.sched.orderNo bufs) False s (s.dispatch t e bufs) := by
  rw [State.dispatch_eq hl]
  exact ((State.load_sends hl bufs nofun).then (State.seat_attends _ t _ e not_false)).then (State.noteDispatch_attends _ t _ e _)

/-! ### DSP cores (R287, R289) -/

/-- A task in a slot of a core: it runs there, before the one that ran. -/
theorem State.dspStart_dsp {s : State} {t : Nat} {l : Live} (hl : s.live? t = some l)
    (hk : ((s.runPlan (s.runOf l)).kernelOf l.task.ref).isSome = true) (c k : Nat) : ((s.dspStart c k t).dsp c).running = some k ∧
      ((s.dspStart c k t).dsp c).suspended =
        match (s.dsp c).running with | some j => j :: (s.dsp c).suspended | none => (s.dsp c).suspended := by
  obtain ⟨info, hinfo⟩ := Option.isSome_iff_exists.mp hk
  constructor
  · simp only [State.dspStart, hl, hinfo, State.updDsp, State.dsp, FMap.getD_put_self]
  · simp only [State.dspStart, hl, hinfo, State.updDsp, State.dsp, FMap.getD_put_self] <;> rfl

theorem State.runPlan_congr {s v : State} (hconfs : v.confs = s.confs) (hruns : v.sched.runs = s.sched.runs) {l l' : Live}
    (hrun : l'.run = l.run) : v.runPlan (v.runOf l') = s.runPlan (s.runOf l) := by
  simp [State.runPlan, State.planD, State.planOf, State.conf, State.runOf, State.run?, hconfs, hruns, hrun]

/-- A task whose kernel is known takes its core's first free slot. -/
theorem State.dispatch_dsp {s : State} {t e k : Nat} {l : Live} (hl : s.live? t = some l) (bufs : List (FbOwner × Nat))
    (hop : engKind l.task.op = 0) (hfree : (s.dsp e).freeSlot = some k)
    (hk : ((s.runPlan (s.runOf l)).kernelOf l.task.ref).isSome = true) : ((s.dispatch t e bufs).dsp e).running = some k ∧
      ((s.dispatch t e bufs).dsp e).suspended =
        match (s.dsp e).running with | some j => j :: (s.dsp e).suspended | none => (s.dsp e).suspended := by
  have hop7 : (l.sentTo e s.sched.orderNo bufs).task.op ≠ 7 := by
    intro h7
    have h7' : l.task.op = 7 := h7
    simp [engKind, h7'] at hop
  have hload := State.load_sends (l := l.sentTo e s.sched.orderNo bufs) hl bufs (dsp := True) fun _ => hop7
  rw [State.dispatch_eq hl, hop]
  generalize s.load t (l.sentTo e s.sched.orderNo bufs) bufs = v at hload
  obtain ⟨hconfs, hruns, hdsps⟩ := hload.steady trivial
  obtain ⟨n, held, ns, ringAt, era, x, hlive, -⟩ := hload.live
  have hcore : v.dsp e = s.dsp e := by rw [State.dsp, hdsps]; rfl
  have hseat : v.seat t 0 e = v.dspStart e k t := by simp [State.seat, hcore, hfree]
  obtain ⟨-, -, hnote⟩ := ((v.seat t 0 e).noteDispatch_attends (u := t) (dsp := True) t 0 e
    (l.sentTo e s.sched.orderNo bufs)).steady trivial
  have hplan := (congrArg (fun p => (p.kernelOf l.task.ref).isSome) (State.runPlan_congr hconfs hruns (l := l) rfl)).trans hk
  have hend : ((v.seat t 0 e).noteDispatch t 0 e (l.sentTo e s.sched.orderNo bufs)).dsp e = (v.dspStart e k t).dsp e := by
    rw [State.dsp, hnote, hseat, State.dsp]
  rw [hend, ← hcore]
  exact State.dspStart_dsp hlive hplan e k

/-! ### TASK_DISPATCH (R260, R261) -/

theorem exec_taskDispatch (kind : Nat) (s : State) : exec (.taskDispatch kind) s = .next (taskDispatch kind s) := rfl

theorem exec_preempt (core : Nat) (s : State) : exec (.preempt core) s = .next (preempt core s) := rfl

theorem exec_resume (core : Nat) (s : State) : exec (.resume core) s = .next (resume core s) := rfl

@[simp] theorem State.begin_readyTasks (s : State) (kind : Nat) : s.begin.readyTasks kind = s.readyTasks kind := rfl

theorem State.begin_freeFbs (s : State) (os : List FbOwner) (n : Nat) (got : List (FbOwner × Nat)) :
    s.begin.freeFbs os n got = s.freeFbs os n got := by
  induction n generalizing got with
  | zero => rfl
  | succ n ih =>
    simp only [State.freeFbs, ih]
    rfl

theorem State.begin_wantBufs (s : State) (l : Live) : s.begin.wantBufs l = s.wantBufs l := by
  unfold State.wantBufs
  rw [State.begin_freeFbs]
  rfl

@[simp] theorem State.begin_credit (s : State) (t : Nat) (l : Live) : s.begin.credit t l = s.credit t l := by
  unfold State.credit
  rw [State.begin_wantBufs]
  rfl

@[simp] theorem State.begin_taskSess (s : State) (l : Live) : s.begin.taskSess l = s.taskSess l := rfl

@[simp] theorem State.begin_pickEngine (s : State) (kind prio : Nat) (sess : Option Nat) :
    s.begin.pickEngine kind prio sess = s.pickEngine kind prio sess := rfl

@[simp] theorem State.begin_dsp (s : State) (c : Nat) : s.begin.dsp c = s.dsp c := rfl

section
variable {s : State} {kind u : Nat} {more : List Nat} {l : Live}

theorem taskDispatch_dispatches (hrun : s.portsRun = true) (hready : s.readyTasks kind = u :: more) (hl : s.live? u = some l)
    {e : Nat} {bufs : List (FbOwner × Nat)} (heng : s.pickEngine kind l.task.prio (s.taskSess l) = some e)
    (hcredit : s.credit u l = .inl bufs) : taskDispatch kind s = s.begin.dispatch u e bufs := by
  simp [taskDispatch, State.tryDispatch, hrun, hready, hl, heng, hcredit]

theorem taskDispatch_waits (hrun : s.portsRun = true) (hready : s.readyTasks kind = u :: more) (hl : s.live? u = some l)
    (heng : s.pickEngine kind l.task.prio (s.taskSess l) = none) : taskDispatch kind s = s.begin := by
  simp [taskDispatch, State.tryDispatch, hrun, hready, hl, heng]

theorem taskDispatch_skips (hrun : s.portsRun = true) (hready : s.readyTasks kind = [u]) (hl : s.live? u = some l) {e typ : Nat}
    (heng : s.pickEngine kind l.task.prio (s.taskSess l) = some e) (hcredit : s.credit u l = .inr typ) :
    taskDispatch kind s = s.begin.skip u typ := by
  simp [taskDispatch, State.tryDispatch, hrun, hready, hl, heng, hcredit]

end

/-- A skip changes the task's count, the trace, the counters and the pins only. -/
theorem State.skip_touches {s : State} {t : Nat} {l : Live} (hl : s.live? t = some l) (typ : Nat) :
    ∃ lt ct pn, s.skip t typ = s.updSched fun x => { x with
      lives := x.lives.upd t fun l => { l with skips := l.skips + 1 }, lantern := lt, counters := ct, pinned := pn } := by
  have hcount : ∃ ct, (if l.skips = 0 then s.countSched 9 1 else s) = s.updSched fun x => { x with counters := ct } := by
    split
    · exact ⟨_, rfl⟩
    · exact ⟨s.sched.counters, rfl⟩
  obtain ⟨ct, hs1⟩ := hcount
  simp only [State.skip, hl, hs1]
  rw [State.updLive, State.updSched_updSched]
  generalize hs2 : s.updSched _ = s2
  obtain ⟨lt, ct', h, -⟩ := s2.traceTask_traced 7 t (l.skips + 1)
  rw [h, ← hs2, State.updSched_updSched]
  split
  · exact ⟨lt, ct', _, State.updSched_updSched _ _ _⟩
  · exact ⟨lt, ct', s.sched.pinned, rfl⟩

/-! ### PREEMPT (R267, R287, R288) -/

theorem State.live?_of_preemptor {s : State} {u : Nat} {l : Live} {bufs : List (FbOwner × Nat)}
    (h : s.preemptor = some (u, l, bufs)) : s.live? u = some l := by
  obtain ⟨t, -, ht⟩ := List.exists_of_findSome?_eq_some h
  cases hl : s.live? t with
  | none => simp [hl] at ht
  | some m =>
    simp only [hl] at ht
    split at ht
    · exact nomatch ht
    · split at ht
      · cases ht
        exact hl
      · exact nomatch ht

/-- The victim is one of the tasks that may be displaced. -/
theorem State.mem_victims_of_victim {s : State} {prio : Nat} {p : Nat × Live} (h : s.victim prio = some p) :
    p ∈ s.victims prio := by
  refine List.foldlRecOn (motive := fun a => ∀ q, a = some q → q ∈ s.victims prio) (s.victims prio) _
    (fun _ hq => absurd hq (by simp)) ?_ p h
  intro a ha p hp q hq
  cases a with
  | none => exact Option.some.inj hq ▸ hp
  | some r =>
    simp only at hq
    split at hq
    · exact Option.some.inj hq ▸ hp
    · exact ha q hq

/-- The core of a victim has a slot for another task. -/
theorem State.freeSlot_of_victim {s : State} {prio v : Nat} {m : Live} (h : s.victim prio = some (v, m)) :
    ∃ j, (s.dsp m.eng).freeSlot = some j := by
  have hmem := List.of_mem_filter (State.mem_victims_of_victim h)
  simp only [Bool.and_eq_true] at hmem
  obtain ⟨⟨-, hfree⟩, -⟩ := hmem
  exact Option.isSome_iff_exists.mp hfree

/-- A victim stands suspended, with the budget that it has left and without its timer. -/
def State.suspend (s : State) (v : Nat) (m : Live) : State :=
  (s.updLive v fun l => { l with suspended := true, left := m.due.getD 0 - s.launchNs, due := none }).dropDue fun e =>
    e == .budget v

theorem State.suspend_live?_self {s : State} {v : Nat} {m : Live} (hv : s.live? v = some m) :
    (s.suspend v m).live? v = some { m with suspended := true, left := m.due.getD 0 - s.launchNs, due := none } :=
  State.updLive_live?_self hv _

theorem State.suspend_live?_ne (s : State) {v w : Nat} (m : Live) (h : w ≠ v) : (s.suspend v m).live? w = s.live? w :=
  State.updLive_live?_ne s _ h

@[simp] theorem State.begin_preemptor (s : State) : s.begin.preemptor = s.preemptor := by
  simp only [State.preemptor, State.begin_readyTasks, State.begin_live?, State.begin_pickEngine, State.begin_taskSess,
    State.begin_credit]

@[simp] theorem State.begin_victim (s : State) (prio : Nat) : s.begin.victim prio = s.victim prio := rfl

theorem preempt_waits {s : State} {core : Nat} (hnone : s.preemptor = none) : preempt core s = s.begin := by
  simp [preempt, hnone]

theorem preempt_preempts {s : State} {u v k : Nat} {l m : Live} {bufs : List (FbOwner × Nat)} (hrun : s.portsRun = true)
    (hu : s.preemptor = some (u, l, bufs)) (hv : s.victim l.task.prio = some (v, m))
    (hk : (s.dsp m.eng).running = some k) (hpm : ((s.dsp m.eng).slot k).pm = false) :
    preempt m.eng s = (((s.begin.suspend v m).dispatch u m.eng bufs).countSched 4 1).traceTask 4 u (v % 65536) := by
  simp only [preempt, State.begin_portsRun, hrun, if_true, State.begin_preemptor, hu, State.begin_victim, hv, State.begin_dsp, hk,
    hpm, bne_self_eq_false, Bool.or_self, Bool.false_eq_true, if_false]
  rfl

/-! ### RESUME (R267, R287) -/

/-- A task runs again in slot `k` of its core, with the budget that it had left. -/
def State.unsuspend (s : State) (core k u due : Nat) (rest : List Nat) : State :=
  (s.updDsp core fun x => { x with running := some k, suspended := rest }).updLive u fun l =>
    { l with suspended := false, due := some due }

theorem resume_resumes {s : State} {core k u : Nat} {rest : List Nat} {l : Live} (hrun : s.portsRun = true)
    (hidle : (s.dsp core).running = none) (hsusp : (s.dsp core).suspended = k :: rest)
    (hslot : ((s.dsp core).slot k).task = some u) (hl : s.live? u = some l)
    (hbest : ∀ w ∈ s.readyTasks 0, ∀ m, s.live? w = some m → l.task.prio ≤ m.task.prio) :
    resume core s = (if l.abortAt.isSome = true then s.begin.unsuspend core k u (s.launchNs + l.left) rest
      else (s.begin.unsuspend core k u (s.launchNs + l.left) rest).putDue 3 (s.launchNs + l.left) (.budget u)).traceTask 5 u 0 := by
  simp only [resume, State.begin_dsp, hidle, State.begin_portsRun, hrun, if_true, hsusp, hslot, State.begin_live?, hl,
    State.begin_readyTasks, State.begin_credit]
  rw [if_neg ?_]
  · rfl
  intro hbetter
  obtain ⟨-, hany⟩ := (Bool.and_eq_true _ _).mp hbetter
  obtain ⟨w, hw, hlow⟩ := List.any_eq_true.mp hany
  cases hm : s.live? w with
  | none => simp [hm] at hlow
  | some m => simp [hm, Nat.not_lt.mpr (hbest w hw m hm)] at hlow

@[simp] theorem State.updDsp_dsp_self (s : State) (c : Nat) (f : DspCore → DspCore) : (s.updDsp c f).dsp c = f (s.dsp c) :=
  FMap.getD_put_self _ _ _ _

theorem State.updDsp_dsp_ne (s : State) {c i : Nat} (f : DspCore → DspCore) (h : i ≠ c) : (s.updDsp c f).dsp i = s.dsp i :=
  FMap.getD_put_ne _ _ _ _ _ h

/-- What a task that runs again leaves: its core, its record and its timer. -/
theorem State.unsuspend_resumes {s : State} {core k u due : Nat} {rest : List Nat} {l : Live} (hl : s.live? u = some l) :
    ((s.unsuspend core k u due rest).dsp core).running = some k ∧ ((s.unsuspend core k u due rest).dsp core).suspended = rest ∧
    (s.unsuspend core k u due rest).live? u = some { l with suspended := false, due := some due } ∧
    ∀ i, i ≠ core → (s.unsuspend core k u due rest).dsp i = s.dsp i := by
  have hself := s.updDsp_dsp_self core fun x => { x with running := some k, suspended := rest }
  refine ⟨congrArg DspCore.running hself, congrArg DspCore.suspended hself, ?_,
    fun i hi => s.updDsp_dsp_ne (fun x => { x with running := some k, suspended := rest }) hi⟩
  exact State.updLive_live?_self (s := s.updDsp core fun x => { x with running := some k, suspended := rest }) hl _

/-! ### The obligation -/

theorem exec_taskDispatch_sends {s : State} {kind u e : Nat} {more : List Nat} {l : Live} {bufs : List (FbOwner × Nat)}
    (hrun : s.portsRun = true) (hready : s.readyTasks kind = u :: more) (hl : s.live? u = some l) (hkind : engKind l.task.op = kind)
    (heng : s.pickEngine kind l.task.prio (s.taskSess l) = some e) (hcredit : s.credit u l = .inl bufs)
    (hlen : s.sched.lists.length = 4) : ∃ t l', exec (.taskDispatch kind) s = .next t ∧ t = { s with
      out := t.out, audit := t.audit, faults := t.faults, confs := t.confs, sched := t.sched, sess := t.sess, outs := t.outs,
      dsps := t.dsps } ∧ t.live? u = some l' ∧ l'.st = .dispatched ∧ l'.kind = kind ∧ l'.eng = e ∧ l'.bufs = bufs ∧
      l'.task = l.task ∧ l'.due = some (s.launchNs + l'.budgetNs) ∧
      (s.launchNs + l'.budgetNs, Due.budget u) ∈ t.sched.lists.getD 3 [] ∧ (∀ k, u ∉ t.sched.ready.getD [] k) ∧
      t.sched.orderNo = s.sched.orderNo + 1 ∧ ∃ n x, l'.lease = some n ∧ t.sched.leases.find? n = some x ∧ x.kind = 1 ∧
        x.task = u ∧ x.ownerKind = kind ∧ x.ownerInst = e := by
  have h := State.dispatch_sends (s := s.begin) hl e bufs
  obtain ⟨n, held, ns, ringAt, era, x, hlive, htimer, hlease, hxkind, hxtask, hxowner, hxinst⟩ := h.live
  rw [exec_taskDispatch, taskDispatch_dispatches hrun hready hl heng hcredit]
  exact ⟨_, _, rfl, h.frame.trans_begin, hlive, rfl, hkind, rfl, rfl, rfl, rfl, htimer hlen, h.ready, h.order, n, x, rfl, hlease,
    hxkind, hxtask, hxowner.trans hkind, hxinst⟩

theorem exec_taskDispatch_skips {s : State} {kind u e typ : Nat} {l : Live} (hrun : s.portsRun = true)
    (hready : s.readyTasks kind = [u]) (hl : s.live? u = some l) (heng : s.pickEngine kind l.task.prio (s.taskSess l) = some e)
    (hcredit : s.credit u l = .inr typ) : ∃ t, exec (.taskDispatch kind) s = .next t ∧ t = { s with
      out := t.out, audit := t.audit, faults := t.faults, confs := t.confs, sched := t.sched, sess := t.sess, outs := t.outs,
      dsps := t.dsps } ∧ t.live? u = some { l with skips := l.skips + 1 } ∧ t.sched.leases = s.sched.leases ∧
      t.sched.ready = s.sched.ready := by
  obtain ⟨lt, ct, pn, hskip⟩ := State.skip_touches (s := s.begin) hl typ
  rw [exec_taskDispatch, taskDispatch_skips hrun hready hl heng hcredit, hskip]
  exact ⟨_, rfl, rfl, State.updLive_live?_self (s := s.begin) hl _, rfl, rfl⟩

theorem exec_preempt_preempts {s : State} {u v k : Nat} {l m : Live} {bufs : List (FbOwner × Nat)} (hrun : s.portsRun = true)
    (hu : s.preemptor = some (u, l, bufs)) (hv : s.victim l.task.prio = some (v, m)) (hvl : s.live? v = some m) (hne : u ≠ v)
    (hop : engKind l.task.op = 0) (hk : (s.dsp m.eng).running = some k) (hpm : ((s.dsp m.eng).slot k).pm = false) :
    ∃ t l' m', exec (.preempt m.eng) s = .next t ∧ t = { s with
      out := t.out, audit := t.audit, faults := t.faults, confs := t.confs, sched := t.sched, sess := t.sess, outs := t.outs,
      dsps := t.dsps } ∧ t.live? v = some m' ∧ m'.suspended = true ∧ m'.due = none ∧ m'.left = m.due.getD 0 - s.launchNs ∧
      t.live? u = some l' ∧ l'.st = .dispatched ∧ l'.kind = 0 ∧ l'.eng = m.eng ∧
      (((s.runPlan (s.runOf l)).kernelOf l.task.ref).isSome = true →
        (t.dsp m.eng).running = (s.dsp m.eng).freeSlot ∧ (t.dsp m.eng).suspended = k :: (s.dsp m.eng).suspended) := by
  rw [exec_preempt, preempt_preempts hrun hu hv hk hpm]
  have hready : s.live? u = some l := State.live?_of_preemptor hu
  have hul : (s.begin.suspend v m).live? u = some l := (s.begin.suspend_live?_ne m hne).trans hready
  have hvictim : (s.begin.suspend v m).live? v = _ := State.suspend_live?_self hvl
  obtain ⟨j, hj⟩ := State.freeSlot_of_victim hv
  have hdsp := State.dispatch_dsp (e := m.eng) hul bufs hop hj
  have hframe : (s.begin).dispatchTouches (s.begin.suspend v m) := rfl
  have hsend := State.dispatch_sends hul m.eng bufs
  generalize (s.begin.suspend v m).dispatch u m.eng bufs = s2 at hdsp hsend
  have hcount : s2.attends u True ((s2.countSched 4 1).traceTask 4 u (v % 65536)) :=
    (State.countSched_attends s2 4 1).trans (.of_traced (State.traceTask_traced _ 4 u _))
  generalize (s2.countSched 4 1).traceTask 4 u (v % 65536) = t at hcount
  obtain ⟨n, held, ns, ringAt, era, x, hlive, -⟩ := hsend.live
  have hother := (hcount.others v).trans (hsend.others v hne.symm)
  rw [hvictim] at hother
  obtain ⟨m', hm', hsame⟩ := Option.map_eq_some_iff.mp hother
  obtain ⟨-, -, hdsps⟩ := hcount.steady trivial
  refine ⟨t, _, m', rfl, ((hframe.trans hsend.frame).trans hcount.frame).trans_begin, hm', congrArg Live.suspended hsame,
    congrArg Live.due hsame, congrArg Live.left hsame, hcount.live.trans hlive, rfl, hop, rfl, fun hkernel => ?_⟩
  obtain ⟨hrunning, hsuspended⟩ := hdsp hkernel
  have hcore : (s.begin.suspend v m).dsp m.eng = s.dsp m.eng := rfl
  rw [hcore, hk] at hsuspended
  rw [State.dsp, hdsps]
  exact ⟨hrunning.trans hj.symm, hsuspended⟩

theorem exec_resume_resumes {s : State} {core k u : Nat} {rest : List Nat} {l : Live} (hrun : s.portsRun = true)
    (hidle : (s.dsp core).running = none) (hsusp : (s.dsp core).suspended = k :: rest)
    (hslot : ((s.dsp core).slot k).task = some u) (hl : s.live? u = some l) (hlen : s.sched.lists.length = 4)
    (hbest : ∀ w ∈ s.readyTasks 0, ∀ m, s.live? w = some m → l.task.prio ≤ m.task.prio) :
    ∃ t, exec (.resume core) s = .next t ∧ t = { s with out := t.out, sched := t.sched, dsps := t.dsps } ∧
      (t.dsp core).running = some k ∧ (t.dsp core).suspended = rest ∧
      t.live? u = some { l with suspended := false, due := some (s.launchNs + l.left) } ∧
      (l.abortAt = none → (s.launchNs + l.left, Due.budget u) ∈ t.sched.lists.getD 3 []) ∧
      ∀ i, i ≠ core → t.dsp i = s.dsp i := by
  have hback := State.unsuspend_resumes (s := s.begin) (core := core) (k := k) (due := s.launchNs + l.left) (rest := rest) hl
  have htimer := State.mem_putDue (s := s.begin.unsuspend core k u (s.launchNs + l.left) rest)
    (show 3 < s.sched.lists.length by omega) (s.launchNs + l.left) (.budget u)
  have hframe : ∃ ss ds, s.begin.unsuspend core k u (s.launchNs + l.left) rest = { s.begin with sched := ss, dsps := ds } :=
    ⟨_, _, rfl⟩
  obtain ⟨hrunning, hsuspended, hlive, hcores⟩ := hback
  rw [exec_resume, resume_resumes hrun hidle hsusp hslot hl hbest]
  obtain ⟨ss, ds, hv⟩ := hframe
  rw [hv] at hrunning hsuspended hlive hcores htimer
  rw [hv]
  split
  next habort =>
    obtain ⟨lt, ct, h, -⟩ := State.traceTask_traced ({ s.begin with sched := ss, dsps := ds } : State) 5 u 0
    rw [h]
    exact ⟨_, rfl, rfl, hrunning, hsuspended, hlive, fun hnone => by simp [hnone] at habort, hcores⟩
  next =>
    obtain ⟨lt, ct, h, -⟩ := State.traceTask_traced
      (({ s.begin with sched := ss, dsps := ds } : State).putDue 3 (s.launchNs + l.left) (.budget u)) 5 u 0
    rw [h]
    exact ⟨_, rfl, rfl, hrunning, hsuspended, hlive, fun _ => htimer, hcores⟩

/-- Settles O39: a dispatch that sends the task to its engine (`State.dispatch_sends`), on the state in which the victim stands
suspended for a pre-emption. -/
theorem tasksAreDispatched : Obligations.TasksAreDispatched := by
  unfold Obligations.TasksAreDispatched
  refine ⟨fun s kind u more l hrun hready hl hkind => ⟨fun e bufs heng hcredit hlen => ?_, fun heng => ?_,
    fun e typ hmore heng hcredit => ?_⟩, fun s core hrun => ⟨fun hnone => ?_, ?_⟩, ?_⟩
  · exact exec_taskDispatch_sends hrun hready hl hkind heng hcredit hlen
  · rw [exec_taskDispatch, taskDispatch_waits hrun hready hl heng]
    rfl
  · subst hmore
    exact exec_taskDispatch_skips hrun hready hl heng hcredit
  · rw [exec_preempt, preempt_waits hnone]
    rfl
  · intro u l bufs v m k hu hv hcore hvl hne hop hk hpm
    subst hcore
    exact exec_preempt_preempts hrun hu hv hvl hne hop hk hpm
  · intro s core k u rest l hrun hidle hsusp hslot hl hlen hbest
    exact exec_resume_resumes hrun hidle hsusp hslot hl hlen hbest

end Sys2Proof.Machine
end
